-- ==== Sys2Proof/Word.lean ====
section
/-! DEFINITION. The byte and byte-string vocabulary of the model, and the plain records that the commands of
Syntax.lean take as operands (R5, R6: bit 0 is the least significant bit; multi-byte fields are little-endian
unless their description names another order). -/

namespace Sys2Proof

abbrev Byte := BitVec 8
abbrev Bytes := List Byte

/-- A byte from a number. -/
def byte (n : Nat) : Byte := BitVec.ofNat 8 n

/-- The little-endian value of a byte string (R6). -/
def leNat : Bytes → Nat
  | [] => 0
  | b :: bs => b.toNat + 256 * leNat bs

/-- `k` bytes of a number, little-endian (R6). -/
def toLe : Nat → Nat → Bytes
  | 0, _ => []
  | k + 1, n => byte n :: toLe k (n / 256)

/-- The big-endian value of a byte string (R7). -/
def beNat (b : Bytes) : Nat := leNat b.reverse

/-- `k` bytes of a number, big-endian (R7). -/
def toBe (k n : Nat) : Bytes := (toLe k n).reverse

/-- `k` zero bytes. -/
def zeros (k : Nat) : Bytes := List.replicate k 0#8

/-- Bytes `off` to `off + len - 1` of a string, zero beyond its end. -/
def sl (b : Bytes) (off len : Nat) : Bytes :=
  let p := (b.drop off).take len
  p ++ zeros (len - p.length)

/-- Little-endian field of a byte string. -/
def fieldLe (b : Bytes) (off len : Nat) : Nat := leNat (sl b off len)

/-- Byte `i` of a string as a number, 0 beyond its end. -/
def byteAt (b : Bytes) (i : Nat) : Nat := ((b[i]?).getD 0#8).toNat

/-- Exclusive or, byte by byte, over the shorter length. -/
def xorBytes (a b : Bytes) : Bytes := List.zipWith (fun x y => x ^^^ y) a b

/-- Every byte is zero. -/
def allZero (b : Bytes) : Bool := b.all (fun x => decide (x = 0#8))

/-- The characters of a string as bytes. -/
def ascii (s : String) : Bytes := s.toList.map (fun c => byte c.toNat)

/-- Bit `n` of a number. -/
def bit (x n : Nat) : Bool := x.testBit n

/-- Bits `[hi:lo]` of a number (R5). -/
def bits (x hi lo : Nat) : Nat := x / 2 ^ lo % 2 ^ (hi + 1 - lo)

/-- A flag as a number. -/
def b2n (b : Bool) : Nat := if b then 1 else 0

/-- The nibbles of a byte string, high nibble of byte 0 first. -/
def nibbles : Bytes → List Nat
  | [] => []
  | b :: bs => b.toNat / 16 :: b.toNat % 16 :: nibbles bs

/-- Packs nibbles into bytes, the first into the high nibble; an odd last nibble is followed by 0. -/
def packNibbles : List Nat → Bytes
  | [] => []
  | [a] => [byte (a * 16)]
  | a :: b :: r => byte (a * 16 + b) :: packNibbles r

/-- Element `i` replaced. -/
def setAt {α : Type} (l : List α) (i : Nat) (x : α) : List α := l.set i x

/-- A command's place: a shed of a loom (R90) or a steward context (R88). -/
inductive Place where
  | shed (loom k : Nat)
  | ctx (i : Nat)
deriving DecidableEq, Repr

/-- What a host memory read served (R85): a ring fetch of a queue, or a command's own read. -/
inductive ReadTarget where
  | ring (q : Nat)
  | cmd (p : Place)
deriving DecidableEq, Repr

/-- Where a command came from and where its completion goes (R58, R78). -/
inductive Path where
  | queue (q : Nat)
  | mailbox (fn : Nat)
deriving DecidableEq, Repr

/-- The issuer of a register write: a host function through BAR0, by a sound or by a poisoned request (R86), a steward
core, the debug master, or another bus master by its protection unit number (Table 15.1). -/
inductive Writer where
  | host (fn : Nat)
  | hostPoisoned (fn : Nat)
  | steward (i : Nat) (privileged : Bool)
  | debug
  | master (unit : Nat)
deriving DecidableEq, Repr

/-- What an SMBus controller does that Table 19.12 names: a command code, a write after it, a read past the block or PEC. -/
inductive BusAct where
  | code
  | write
  | readPast
deriving DecidableEq, Repr

/-- The kind of an access (R347). -/
inductive AccKind where
  | read
  | write
  | fetch
deriving DecidableEq, Repr

/-- Run control of a steward by the debug master (Table 14.9). -/
inductive RunOp where
  | halt
  | single
  | resume
deriving DecidableEq, Repr

/-- Boundary-scan instructions (R341). -/
inductive TapInstr where
  | bypass
  | sample
  | idcode
  | extest
  | clamp
  | highz
deriving DecidableEq, Repr

/-- The fields of a draft step other than UNIT and OP (Table 04.3). -/
structure StepArgs where
  br     : BitVec 3
  bflag  : BitVec 4
  target : BitVec 9
  fsel   : BitVec 2
  aOff   : BitVec 12
  bOff   : BitVec 12
  dOff   : BitVec 12
  len    : BitVec 12
  kreg   : BitVec 4
  param  : BitVec 12
  imm    : BitVec 32
  rsv    : Bool
deriving DecidableEq, Repr

/-- A frame of the Luaka link as it stands on the lanes (R276): the 24-byte header, LENGTH bytes and the tag. -/
structure Wire where
  header : Bytes
  body   : Bytes
  tag    : Bytes
deriving DecidableEq, Repr

/-- A frame as the Luaka receiver sees it (Table 12.2): its header fields, its payload in clear. -/
structure Frame where
  typ     : Nat
  last    : Bool
  seq     : Nat
  beat    : Nat
  payload : Bytes
deriving DecidableEq, Repr

/-- A PTP message as the management port sees it (R305-R307): versionPTP, messageLength, the octets received and whether the
header is malformed otherwise, its domain and mapping, its sender, its fields, the logMessageInterval of its header, and of
an Announce the dataset of its master. -/
structure PtpMsg where
  version    : Nat
  length     : Nat
  octets     : Nat
  malformed  : Bool
  domain     : Nat
  mapping    : Nat
  clockId    : Nat
  seqId      : Nat
  reqPortOk  : Bool
  twoStep    : Bool
  originNs   : Int
  cf         : Int
  rxNs       : Int
  logInterval : Int
  priority1  : Nat
  clockClass : Nat
  accuracy   : Nat
  variance   : Nat
  priority2  : Nat
  grandmaster : Nat
  stepsRemoved : Nat
  ptpTimescale : Bool
  utcOffset  : Nat
deriving DecidableEq, Repr

/-- What one sampling of the BAT inputs shows (R358). -/
structure TamperReading where
  loopBitWrong : BitVec 4
  measured     : Option (Nat × Nat × Nat × Nat)
  switches     : BitVec 4
  tempLow      : Bool
deriving DecidableEq, Repr

/-- What a read of one boot-flash slot gave (R334): an image, or a failed read with its cause (event 0x0E05). -/
structure SlotRead where
  ok     : Bool
  cause  : Nat
  header : Bytes
  body   : Bytes
deriving DecidableEq, Repr

/-- A field of configuration space that Table 03.11 gives, by its name: the table gives no offsets. -/
inductive CfgItem where
  | ids
  | classRev
  | bar0
  | vfBar0
  | otherBar
  | interruptPin
  | busMaster
  | msixControl
  | msixTable
  | msixPba
  | powerState
  | aerStatus
  | totalVfs
  | initialVfs
  | numVfs
  | vfEnable
  | firstVfOffset
  | vfStride
  | vfDeviceId
  | supportedPages
  | systemPage
  | ari
  | serialNumber
  | maxPayload
  | maxReadRequest
  | tenBitTags
  | relaxedOrdering
  | completionTimeout
deriving DecidableEq, Repr

/-- A PCIe configuration request, as far as Table 03.11 and R85 give it an effect; `malformed` is a malformed TLP, which
AER reports (R86). -/
inductive CfgReq where
  | writeNumVfs (n : Nat)
  | writeVfEnable (on : Bool)
  | writeSysPageSize (v : Nat)
  | writeBusMaster (fn : Nat) (on : Bool)
  | writeMsixCtrl (fn : Nat) (enable mask : Bool)
  | writeRelaxed (fn : Nat) (on : Bool)
  | read (fn : Nat) (item : CfgItem)
  | writeBar0 (v : Nat)
  | writeVfBar0 (v : Nat)
  | clearAer (v : Nat)
  | malformed
  | other (fn reg : Nat)
deriving DecidableEq, Repr

end Sys2Proof
end

