-- ==== Sys2Proof/Syntax.lean ====
section
/-! DEFINITION. The commands of the block: one constructor for each row of spec/opcode_table.json, in the table's
order. A row that names a step of the device carries as operands what the manual lets its sender choose or what the
environment supplies: bytes read from host memory, frame fields, levels, measurements. A draft step names its loom
and shed and carries the step's fields; an opcode names the shed, or the steward context, that holds its admitted
command (R64, R88). -/

namespace Sys2Proof

inductive Instr where
  /-- DOORBELL_SQ_TAIL (R60). -/
  | doorbellSqTail (fn off size value : Nat)
  /-- DOORBELL_CQ_HEAD (R61). -/
  | doorbellCqHead (fn off size value : Nat)
  /-- SQ_ENTRY_FETCHED (R60). -/
  | sqEntryFetched (q : Nat) (entries : List Bytes)
  /-- SQ_FETCH_FAILED (R86). -/
  | sqFetchFailed (q : Nat)
  /-- HOST_READ_ERROR (R86). -/
  | hostReadError (p : Place) (addr : Nat)
  /-- HOST_READ_TIMEOUT (R85). -/
  | hostReadTimeout (t : ReadTarget) (addr : Nat)
  /-- HOST_WRITE_REFUSED (R86). -/
  | hostWriteRefused (p : Path) (addr : Nat)
  /-- SCHED_ADMIT (R52). -/
  | schedAdmit
  /-- EXT_DATA_FETCHED (R68). -/
  | extDataFetched (p : Place) (data : Bytes)
  /-- KEY_BLOCK_POINTER_READ (R67). -/
  | keyBlockPointerRead (p : Place) (ref : Nat) (data : Bytes)
  /-- MBX_GO (R78). -/
  | mbxGo (fn : Nat) (value : Nat)
  /-- MBX_ACK (R78). -/
  | mbxAck (fn : Nat) (value : Nat)
  /-- MBX_STATUS_READ (R81). -/
  | mbxStatusRead (fn : Nat)
  /-- FUNCTION_D3HOT_ENTRY (R85). -/
  | functionD3hotEntry (fn : Nat)
  /-- FUNCTION_D0_RETURN (R85). -/
  | functionD0Return (fn : Nat)
  /-- VF_FLR (R49). -/
  | vfFlr (fn : Nat)
  /-- VF_ENABLE_CLEAR (R49). -/
  | vfEnableClear
  /-- PCIE_RESET (R25). -/
  | pcieReset
  /-- REGISTER_WRITE (R8). -/
  | registerWrite (w : Writer) (addr size : Nat) (value : Nat)
  /-- MOVE_COPY (R96). -/
  | moveCopy (n k : Nat) (a : StepArgs)
  /-- MOVE_XOR (R96). -/
  | moveXor (n k : Nat) (a : StepArgs)
  /-- MOVE_AND (R96). -/
  | moveAnd (n k : Nat) (a : StepArgs)
  /-- MOVE_FILL (R96). -/
  | moveFill (n k : Nat) (a : StepArgs)
  /-- MOVE_LOADV (R96). -/
  | moveLoadv (n k : Nat) (a : StepArgs)
  /-- MOVE_GETV (R96). -/
  | moveGetv (n k : Nat) (a : StepArgs)
  /-- MOVE_PUTV (R96). -/
  | movePutv (n k : Nat) (a : StepArgs)
  /-- MOVE_ADDV (R96). -/
  | moveAddv (n k : Nat) (a : StepArgs)
  /-- MOVE_SETF (R94). -/
  | moveSetf (n k : Nat) (a : StepArgs)
  /-- CMP_EQ_CT (R96). -/
  | cmpEqCt (n k : Nat) (a : StepArgs)
  /-- CMP_MAG (R96). -/
  | cmpMag (n k : Nat) (a : StepArgs)
  /-- CMP_TESTV (R96). -/
  | cmpTestv (n k : Nat) (a : StepArgs)
  /-- CMP_CMPV (R96). -/
  | cmpCmpv (n k : Nat) (a : StepArgs)
  /-- CMP_RANGEV (R96). -/
  | cmpRangev (n k : Nat) (a : StepArgs)
  /-- SYM_ECB_ENC (R99). -/
  | symEcbEnc (n k : Nat) (a : StepArgs)
  /-- SYM_ECB_DEC (R99). -/
  | symEcbDec (n k : Nat) (a : StepArgs)
  /-- SYM_CBC_ENC (R99). -/
  | symCbcEnc (n k : Nat) (a : StepArgs)
  /-- SYM_CBC_DEC (R99). -/
  | symCbcDec (n k : Nat) (a : StepArgs)
  /-- SYM_CTR (R99). -/
  | symCtr (n k : Nat) (a : StepArgs)
  /-- SYM_CODE_ECB (R99). -/
  | symCodeEcb (n k : Nat) (a : StepArgs)
  /-- SYM_CODE_CBC (R195). -/
  | symCodeCbc (n k : Nat) (a : StepArgs)
  /-- SYM_MAC_GEN (R197). -/
  | symMacGen (n k : Nat) (a : StepArgs)
  /-- SYM_MAC_VERIFY (R99). -/
  | symMacVerify (n k : Nat) (a : StepArgs)
  /-- SYM_HMAC (R99). -/
  | symHmac (n k : Nat) (a : StepArgs)
  /-- SYM_HMAC_VERIFY (R99). -/
  | symHmacVerify (n k : Nat) (a : StepArgs)
  /-- SYM_SHA256 (R99). -/
  | symSha256 (n k : Nat) (a : StepArgs)
  /-- SYM_SHA512 (R254). -/
  | symSha512 (n k : Nat) (a : StepArgs)
  /-- KEY_GET (R100). -/
  | keyGet (n k : Nat) (a : StepArgs)
  /-- KEY_UNWRAP (R209). -/
  | keyUnwrap (n k : Nat) (a : StepArgs)
  /-- KEY_WRAP (R100). -/
  | keyWrap (n k : Nat) (a : StepArgs)
  /-- KEY_DERIVE (R123). -/
  | keyDerive (n k : Nat) (a : StepArgs)
  /-- KEY_DUKPT (R202). -/
  | keyDukpt (n k : Nat) (a : StepArgs)
  /-- KEY_GENERATE (R100). -/
  | keyGenerate (n k : Nat) (a : StepArgs)
  /-- KEY_STORE (R101). -/
  | keyStore (n k : Nat) (a : StepArgs)
  /-- KEY_RELEASE (R91). -/
  | keyRelease (n k : Nat) (a : StepArgs)
  /-- ROUTE_PAN_LOOKUP (R169). -/
  | routePanLookup (n k : Nat) (a : StepArgs)
  /-- ROUTE_POLICY_LOOKUP (R172). -/
  | routePolicyLookup (n k : Nat) (a : StepArgs)
  /-- FMT_PAN_FIELD (R101). -/
  | fmtPanField (n k : Nat) (a : StepArgs)
  /-- FMT_PIN_DECODE (R101). -/
  | fmtPinDecode (n k : Nat) (a : StepArgs)
  /-- FMT_PIN_ENCODE (R101). -/
  | fmtPinEncode (n k : Nat) (a : StepArgs)
  /-- FMT_DECIMALISE (R101). -/
  | fmtDecimalise (n k : Nat) (a : StepArgs)
  /-- FMT_BCD_PACK (R101). -/
  | fmtBcdPack (n k : Nat) (a : StepArgs)
  /-- FMT_BCD_UNPACK (R101). -/
  | fmtBcdUnpack (n k : Nat) (a : StepArgs)
  /-- FMT_PAD (R101). -/
  | fmtPad (n k : Nat) (a : StepArgs)
  /-- FMT_TLV_FIND (R101). -/
  | fmtTlvFind (n k : Nat) (a : StepArgs)
  /-- RAND_GEN (R101). -/
  | randGen (n k : Nat) (a : StepArgs)
  /-- BN_ED_SIGN (R231). -/
  | bnEdSign (n k : Nat) (a : StepArgs)
  /-- BN_ED_VERIFY (R231). -/
  | bnEdVerify (n k : Nat) (a : StepArgs)
  /-- BN_X25519 (R233). -/
  | bnX25519 (n k : Nat) (a : StepArgs)
  /-- BN_EC_SIGN (R231). -/
  | bnEcSign (n k : Nat) (a : StepArgs)
  /-- BN_EC_VERIFY (R231). -/
  | bnEcVerify (n k : Nat) (a : StepArgs)
  /-- BN_RSA_SIGN (R231). -/
  | bnRsaSign (n k : Nat) (a : StepArgs)
  /-- BN_RSA_VERIFY (R231). -/
  | bnRsaVerify (n k : Nat) (a : StepArgs)
  /-- BN_PUBLIC (R231). -/
  | bnPublic (n k : Nat) (a : StepArgs)
  /-- BN_GENERATE (R237). -/
  | bnGenerate (n k : Nat) (a : StepArgs)
  /-- DONE_RETIRE (R103). -/
  | doneRetire (n k : Nat) (a : StepArgs)
  /-- EXC_SERVICE (R107). -/
  | excService (n k : Nat) (a : StepArgs)
  /-- STEP_CACHE_LINE_FILLED (R104). -/
  | stepCacheLineFilled (n k : Nat) (ecc : Bool)
  /-- TRD_EXCPOP (R108). -/
  | trdExcpop (w : Writer) (n : Nat) (value : Nat)
  /-- TRD_RESUME (R107). -/
  | trdResume (w : Writer) (n : Nat) (value : Nat)
  /-- BN_JOB_PLACE (R218). -/
  | bnJobPlace
  /-- BN_YIELD_POINT (R224). -/
  | bnYieldPoint (job : Nat)
  /-- BN_JOB_RESUME (R224). -/
  | bnJobResume (job : Nat)
  /-- BN_JOB_END (R220). -/
  | bnJobEnd (job : Nat) (differ : Bool) (ecc : Option Nat)
  /-- BN_CONTEXT_SCRUBBED (R227). -/
  | bnContextScrubbed (core ctx : Nat) (zero : Bool)
  /-- BN_STARVE_PROMOTE (R223). -/
  | bnStarvePromote (job : Nat)
  /-- BN_KEYGEN_LIMIT (R237). -/
  | bnKeygenLimit (job candidates : Nat)
  /-- KC_FILL_DONE (R154). -/
  | kcFillDone (bank bucket way : Nat)
  /-- KC_SWEEP_PASS_START (R158). -/
  | kcSweepPassStart
  /-- KC_SWEEP_VISIT (R158). -/
  | kcSweepVisit
  /-- KC_WALK_DONE (R160). -/
  | kcWalkDone
  /-- JOURNAL_COMMIT_DONE (R135). -/
  | journalCommitDone
  /-- SEQUENCE_RESERVATION_DURABLE (R135). -/
  | sequenceReservationDurable
  /-- JOURNAL_RELOCATE (R138). -/
  | journalRelocate
  /-- RT_UPDATE_SETTLED (R178). -/
  | rtUpdateSettled (policy : Bool)
  /-- RT_PARITY_COPY (R178). -/
  | rtParityCopy (policy : Bool)
  /-- TEARDOWN_ABORT_POINT (R50). -/
  | teardownAbortPoint (part : Nat)
  /-- ADMISSION_DRAIN_TIMEOUT (R328). -/
  | admissionDrainTimeout
  /-- NONCE_EXPIRY (R261). -/
  | nonceExpiry (part value : Nat)
  /-- QUORUM_VERIFY_DONE (R264). -/
  | quorumVerifyDone (p : Place)
  /-- RESET_POWER_ON (R25). -/
  | resetPowerOn
  /-- RESET_SAG (R371). -/
  | resetSag (rail intervalUs : Nat)
  /-- RSTREQ_WARM (R25). -/
  | rstreqWarm (w : Writer) (value : Nat)
  /-- WDT_KICK (R25). -/
  | wdtKick (w : Writer) (i : Nat) (value : Nat)
  /-- WATCHDOG_EXPIRY (R25). -/
  | watchdogExpiry (i : Nat)
  /-- PERST_IN_ASSERT (R25). -/
  | perstInAssert
  /-- RESET_RELEASE (R29). -/
  | resetRelease
  /-- STARTUP_RAILS_OK (R29). -/
  | startupRailsOk
  /-- ROOT_PLL_LOCK (R18). -/
  | rootPllLock (external : Bool)
  /-- LBIST_COMPLETE (R29). -/
  | lbistComplete (failing : Option Nat)
  /-- BOOT_IMAGE_VERIFIED (R334). -/
  | bootImageVerified (a b : SlotRead)
  /-- LOOM_ENTER_SERVICE (R24). -/
  | loomEnterService (n : Nat) (failing : Option Nat)
  /-- HST_READY_SET (R249). -/
  | hstReadySet
  /-- PDCTL_WRITE (R21). -/
  | pdctlWrite (w : Writer) (reg : Nat) (value : Nat)
  /-- POWER_DOMAIN_SWITCHED (R22). -/
  | powerDomainSwitched
  /-- LOOM_DRAIN_DONE (R23). -/
  | loomDrainDone (n : Nat)
  /-- LOOM_DRAIN_TIMEOUT (R23). -/
  | loomDrainTimeout (n : Nat)
  /-- TAMPER_SAMPLE (R358). -/
  | tamperSample (r : TamperReading)
  /-- TAMPER_COMPARATOR_TRIP (R358). -/
  | tamperComparatorTrip (input : Nat) (refLost : Bool)
  /-- ZEROISE_HOLD_RELEASE (R362). -/
  | zeroiseHoldRelease
  /-- BAT_POWER_ON (R359). -/
  | batPowerOn
  /-- BAT_SUPPLY_SWITCH (R364). -/
  | batSupplySwitch (onVbat : Bool)
  /-- VBAT_MEASURE (R365). -/
  | vbatMeasure (mv : Nat)
  /-- SAG_WARNING (R368). -/
  | sagWarning (rails : BitVec 3)
  /-- PFAIL_ASSERT (R369). -/
  | pfailAssert
  /-- SAG_WARNING_CLEAR (R370). -/
  | sagWarningClear (durationUs : Nat)
  /-- THERM_WARN_CHANGE (R418). -/
  | thermWarnChange (temp : Int)
  /-- ACT_IN_CHANGE (R273). -/
  | actInChange (low : Bool)
  /-- CLAIM_GUARD_EXPIRY (R273). -/
  | claimGuardExpiry
  /-- CLAIM_REREAD (R273). -/
  | claimReread
  /-- CLAIM_CHECK (R273). -/
  | claimCheck
  /-- CONTENTION_HIGH_10US (R274). -/
  | contentionHigh10us
  /-- CONTENTION_TIMEOUT (R274). -/
  | contentionTimeout
  /-- ACTIVE_INTERLOCK_LOW (R274). -/
  | activeInterlockLow
  /-- SOLO_WAIT_EXPIRY (R272). -/
  | soloWaitExpiry
  /-- HEARTBEAT_LOSS (R288). -/
  | heartbeatLoss
  /-- BEAT_CLOSE (R283). -/
  | beatClose
  /-- HELLO_TIMER (R278). -/
  | helloTimer
  /-- LUAKA_LANE_TIMEOUT (R275). -/
  | luakaLaneTimeout
  /-- LUAKA_HELLO (R278). -/
  | luakaHello (payload : Bytes)
  /-- LUAKA_BEAT_DATA (R285). -/
  | luakaBeatData (w : Wire)
  /-- LUAKA_BEAT_END (R286). -/
  | luakaBeatEnd (w : Wire)
  /-- LUAKA_BEAT_ACK (R287). -/
  | luakaBeatAck (w : Wire)
  /-- LUAKA_SNAP_DATA (R282). -/
  | luakaSnapData (w : Wire)
  /-- LUAKA_SNAP_END (R282). -/
  | luakaSnapEnd (w : Wire)
  /-- LUAKA_IN_SYNC (R282). -/
  | luakaInSync (w : Wire)
  /-- LUAKA_TIME (R310). -/
  | luakaTime (w : Wire) (rxNs : Int)
  /-- LUAKA_HANDOVER (R292). -/
  | luakaHandover (w : Wire)
  /-- LUAKA_LEAVE (R294). -/
  | luakaLeave (w : Wire)
  /-- PAIR_BEGIN_TIMEOUT (R281). -/
  | pairBeginTimeout
  /-- CEREMONY_INTERLOCK_TIMEOUT (R281). -/
  | ceremonyInterlockTimeout
  /-- TIME_COUNTER_TICK (R300). -/
  | timeCounterTick
  /-- PT_TIME_CAPTURE (R301). -/
  | ptTimeCapture
  /-- PTP_ANNOUNCE (R305). -/
  | ptpAnnounce (m : PtpMsg)
  /-- PTP_SYNC (R306). -/
  | ptpSync (m : PtpMsg)
  /-- PTP_FOLLOW_UP (R306). -/
  | ptpFollowUp (m : PtpMsg)
  /-- PTP_DELAY_RESP (R306). -/
  | ptpDelayResp (m : PtpMsg)
  /-- PTP_IGNORED_MESSAGE (R305). -/
  | ptpIgnoredMessage
  /-- PPS_IN_EDGE (R308). -/
  | ppsInEdge (ns : Nat)
  /-- PPS_IN_LOSS (R308). -/
  | ppsInLoss
  /-- TIME_SOURCE_TIMEOUT (R303). -/
  | timeSourceTimeout
  /-- HOLDOVER_LIMIT (R303). -/
  | holdoverLimit
  /-- STANDBY_TIME_EXCHANGE (R310). -/
  | standbyTimeExchange
  /-- RNG_BLOCK_CONDITIONED (R243). -/
  | rngBlockConditioned (samples : List (List Bool))
  /-- RNG_HEALTH_FAILURE (R250). -/
  | rngHealthFailure (source test : Nat) (samples : List Bool)
  /-- RNG_TEST_PASS_DONE (R244). -/
  | rngTestPassDone (samples : List (List Bool)) (kat : Bool) (us : Nat)
  /-- RNG_ESTIMATE_BLOCK (R246). -/
  | rngEstimateBlock (source : Nat) (samples : List Bool)
  /-- RNG_RESEED_WAIT_TIMEOUT (R248). -/
  | rngReseedWaitTimeout (i : Nat)
  /-- RNG_RAW_TIMEOUT (R253). -/
  | rngRawTimeout
  /-- DBG_CHALLENGE_READ (R339). -/
  | dbgChallengeRead
  /-- DBG_SUBMIT (R339). -/
  | dbgSubmit (w : Writer) (value : Nat)
  /-- DBG_CTRL_END (R342). -/
  | dbgCtrlEnd (w : Writer) (value : Nat)
  /-- DBG_GRANT_EXPIRY (R342). -/
  | dbgGrantExpiry
  /-- STEWARD_HALT (R337). -/
  | stewardHalt (i : Nat) (op : RunOp)
  /-- BSCAN_INSTRUCTION (R341). -/
  | bscanInstruction (i : TapInstr)
  /-- TAP_RESET (R420). -/
  | tapReset
  /-- LC_GO (R328). -/
  | lcGo (w : Writer) (value : Nat)
  /-- LC_PROG (R327). -/
  | lcProg (w : Writer) (value : Nat)
  /-- OTP_WORD_PROGRAMMED (R324). -/
  | otpWordProgrammed
  /-- LC_TRANSITION_RESET_TIMER (R328). -/
  | lcTransitionResetTimer
  /-- MASTER_ACCESS (R350). -/
  | masterAccess (unit : Nat) (kind : AccKind) (user : Bool) (addr size : Nat) (data : Bytes)
  /-- MPU_SWAP (R352). -/
  | mpuSwap (w : Writer) (i : Nat)
  /-- MPU_LOCK (R353). -/
  | mpuLock (w : Writer) (i : Nat)
  /-- MPU_REGION_WRITE (R353). -/
  | mpuRegionWrite (w : Writer) (addr : Nat) (value : Nat)
  /-- BIST_SLOT_PERIOD (R378). -/
  | bistSlotPeriod (slot : Nat)
  /-- BIST_REQ (R378). -/
  | bistReq (w : Writer) (value : Nat)
  /-- BIST_UNIT_IDLE (R379). -/
  | bistUnitIdle (slot : Nat)
  /-- BIST_ISOLATE_TIMEOUT (R380). -/
  | bistIsolateTimeout (slot : Nat)
  /-- BIST_PATTERNS_DONE (R379). -/
  | bistPatternsDone (slot : Nat) (misr : Nat)
  /-- BIST_UNIT_RESTORED (R379). -/
  | bistUnitRestored (slot : Nat) (kat : Bool)
  /-- EVENT_RECORD (R384). -/
  | eventRecord
  /-- OPTIME_STORE (R385). -/
  | optimeStore
  /-- SMB_RECEIVE_BYTE (R418). -/
  | smbReceiveByte
  /-- SMB_STATUS (R418). -/
  | smbStatus
  /-- SMB_TEMP (R418). -/
  | smbTemp
  /-- SMB_VBAT (R418). -/
  | smbVbat
  /-- SMB_LC_STATE (R418). -/
  | smbLcState
  /-- SMB_ID (R418). -/
  | smbId
  /-- SMB_VPD (R418). -/
  | smbVpd
  /-- SMB_ALERT_RESPONSE (R418). -/
  | smbAlertResponse
  /-- SMB_SCL_TIMEOUT (R419). -/
  | smbSclTimeout
  /-- PART_CREATE (R41). -/
  | partCreate (i : Nat)
  /-- PART_MODIFY (R41). -/
  | partModify (i : Nat)
  /-- PART_TEARDOWN (R50). -/
  | partTeardown (i : Nat)
  /-- PART_QUERY (R43). -/
  | partQuery (i : Nat)
  /-- PART_SET_ACCESS_KEY (R41). -/
  | partSetAccessKey (i : Nat)
  /-- PART_ENABLE_OPCODES (R89). -/
  | partEnableOpcodes (i : Nat)
  /-- PART_SET_CACHE_POLICY (R162). -/
  | partSetCachePolicy (i : Nat)
  /-- RT_ROUTE_UPDATE (R176). -/
  | rtRouteUpdate (i : Nat)
  /-- RT_POLICY_UPDATE (R176). -/
  | rtPolicyUpdate (i : Nat)
  /-- RT_ROUTE_LAYOUT (R181). -/
  | rtRouteLayout (i : Nat)
  /-- RT_QUERY (R175). -/
  | rtQuery (i : Nat)
  /-- RT_SET_LIMITS (R181). -/
  | rtSetLimits (i : Nat)
  /-- Q_CREATE (R45). -/
  | qCreate (i : Nat)
  /-- Q_DELETE (R48). -/
  | qDelete (i : Nat)
  /-- Q_BIND (R46). -/
  | qBind (i : Nat)
  /-- Q_UNBIND (R48). -/
  | qUnbind (i : Nat)
  /-- Q_QUERY (R40). -/
  | qQuery (i : Nat)
  /-- CMD_CANCEL (R77). -/
  | cmdCancel (i : Nat)
  /-- PAIR_BEGIN (R281). -/
  | pairBegin (i : Nat)
  /-- PAIR_SET_POLICY (R297). -/
  | pairSetPolicy (i : Nat)
  /-- PAIR_QUERY (R297). -/
  | pairQuery (i : Nat)
  /-- PAIR_SWITCHOVER (R292). -/
  | pairSwitchover (i : Nat)
  /-- PAIR_DISSOLVE (R294). -/
  | pairDissolve (i : Nat)
  /-- DRAFT_LOAD (R111). -/
  | draftLoad (i : Nat)
  /-- DRAFT_UNLOAD (R113). -/
  | draftUnload (i : Nat)
  /-- DRAFT_SIGNER_SET (R110). -/
  | draftSignerSet (i : Nat)
  /-- DRAFT_QUERY (R113). -/
  | draftQuery (i : Nat)
  /-- KC_LOAD (R162). -/
  | kcLoad (n k : Nat)
  /-- KC_FLUSH (R162). -/
  | kcFlush (i : Nat)
  /-- KC_QUERY (R162). -/
  | kcQuery (i : Nat)
  /-- QR_NONCE (R261). -/
  | qrNonce (i : Nat)
  /-- CUST_SET (R265). -/
  | custSet (i : Nat)
  /-- CUST_QUERY (R266). -/
  | custQuery (i : Nat)
  /-- TMP_CONFIG (R360). -/
  | tmpConfig (i : Nat)
  /-- TMP_QUERY (R373). -/
  | tmpQuery (i : Nat)
  /-- TMP_ACK (R363). -/
  | tmpAck (i : Nat)
  /-- IOM_SET (R404). -/
  | iomSet (i : Nat)
  /-- KB_IMPORT (R210). -/
  | kbImport (n k : Nat)
  /-- KB_EXPORT (R211). -/
  | kbExport (n k : Nat)
  /-- KB_GENERATE (R213). -/
  | kbGenerate (n k : Nat)
  /-- KB_TRANSLATE (R212). -/
  | kbTranslate (n k : Nat)
  /-- OBJ_QUERY (R146). -/
  | objQuery (n k : Nat)
  /-- OBJ_DELETE (R146). -/
  | objDelete (n k : Nat)
  /-- PIN_TRANSLATE (R191). -/
  | pinTranslate (n k : Nat)
  /-- PIN_VERIFY_OFFSET (R192). -/
  | pinVerifyOffset (n k : Nat)
  /-- PIN_VERIFY_PVV (R193). -/
  | pinVerifyPvv (n k : Nat)
  /-- PIN_OFFSET_GENERATE (R192). -/
  | pinOffsetGenerate (n k : Nat)
  /-- PVV_GENERATE (R193). -/
  | pvvGenerate (n k : Nat)
  /-- CVC_GENERATE (R196). -/
  | cvcGenerate (n k : Nat)
  /-- CVC_VERIFY (R196). -/
  | cvcVerify (n k : Nat)
  /-- EMV_ARQC_VERIFY (R198). -/
  | emvArqcVerify (n k : Nat)
  /-- DUKPT_PIN_TRANSLATE (R203). -/
  | dukptPinTranslate (n k : Nat)
  /-- DUKPT_DECRYPT (R203). -/
  | dukptDecrypt (n k : Nat)
  /-- DUKPT_MAC_VERIFY (R203). -/
  | dukptMacVerify (n k : Nat)
  /-- MAC_GENERATE (R200). -/
  | macGenerate (n k : Nat)
  /-- MAC_VERIFY (R200). -/
  | macVerify (n k : Nat)
  /-- ED25519_SIGN (R236). -/
  | ed25519Sign (n k : Nat)
  /-- ED25519_VERIFY (R236). -/
  | ed25519Verify (n k : Nat)
  /-- X25519_AGREE (R233). -/
  | x25519Agree (n k : Nat)
  /-- ASYM_PUBLIC (R236). -/
  | asymPublic (n k : Nat)
  /-- ECDSA_SIGN_P256 (R236). -/
  | ecdsaSignP256 (n k : Nat)
  /-- ECDSA_SIGN_P384 (R236). -/
  | ecdsaSignP384 (n k : Nat)
  /-- ECDSA_VERIFY_P256 (R236). -/
  | ecdsaVerifyP256 (n k : Nat)
  /-- ECDSA_VERIFY_P384 (R236). -/
  | ecdsaVerifyP384 (n k : Nat)
  /-- RSA_SIGN_2048 (R236). -/
  | rsaSign2048 (n k : Nat)
  /-- RSA_SIGN_3072 (R236). -/
  | rsaSign3072 (n k : Nat)
  /-- RSA_SIGN_4096 (R236). -/
  | rsaSign4096 (n k : Nat)
  /-- RSA_VERIFY_2048 (R236). -/
  | rsaVerify2048 (n k : Nat)
  /-- RSA_VERIFY_3072 (R236). -/
  | rsaVerify3072 (n k : Nat)
  /-- RSA_VERIFY_4096 (R236). -/
  | rsaVerify4096 (n k : Nat)
  /-- RSA_KEY_WRAP_2048 (R234). -/
  | rsaKeyWrap2048 (n k : Nat)
  /-- RSA_KEY_WRAP_3072 (R234). -/
  | rsaKeyWrap3072 (n k : Nat)
  /-- RSA_KEY_WRAP_4096 (R234). -/
  | rsaKeyWrap4096 (n k : Nat)
  /-- RSA_KEY_UNWRAP_2048 (R234). -/
  | rsaKeyUnwrap2048 (n k : Nat)
  /-- RSA_KEY_UNWRAP_3072 (R234). -/
  | rsaKeyUnwrap3072 (n k : Nat)
  /-- RSA_KEY_UNWRAP_4096 (R234). -/
  | rsaKeyUnwrap4096 (n k : Nat)
  /-- ASYM_GENERATE (R236). -/
  | asymGenerate (n k : Nat)
  /-- RSA_GENERATE_2048 (R237). -/
  | rsaGenerate2048 (n k : Nat)
  /-- RSA_GENERATE_3072 (R237). -/
  | rsaGenerate3072 (n k : Nat)
  /-- RSA_GENERATE_4096 (R237). -/
  | rsaGenerate4096 (n k : Nat)
  /-- RNG_GENERATE (R254). -/
  | rngGenerate (n k : Nat)
  /-- HASH (R254). -/
  | hash (n k : Nat)
  /-- PT_SET_CONFIG (R313). -/
  | ptSetConfig (i : Nat)
  /-- PT_QUERY (R313). -/
  | ptQuery (i : Nat)
  /-- BIST_QUERY (R393). -/
  | bistQuery (i : Nat)
  /-- BIST_PICK (R393). -/
  | bistPick (i : Nat)
  /-- BIST_SET_PACE (R393). -/
  | bistSetPace (i : Nat)
  /-- EVR_SET_EXPORT (R390). -/
  | evrSetExport (i : Nat)
  /-- RNG_RAW_ENTER (R252). -/
  | rngRawEnter (i : Nat)
  /-- RNG_RAW_READ (R254). -/
  | rngRawRead (i : Nat)
  /-- RNG_RAW_EXIT (R253). -/
  | rngRawExit (i : Nat)
  /-- RNG_HEALTH_QUERY (R254). -/
  | rngHealthQuery (i : Nat)
  /-- EVR_READ (R393). -/
  | evrRead (i : Nat)
  /-- EVR_CLEAR (R389). -/
  | evrClear (i : Nat)
  /-- BB_READ (R393). -/
  | bbRead (i : Nat)
  /-- BB_RELEASE (R392). -/
  | bbRelease (i : Nat)
  /-- ATTEST_DEVICE (R146). -/
  | attestDevice (i : Nat)
  /-- ATTEST_PARTITION (R146). -/
  | attestPartition (i : Nat)
  /-- LC_TRANSITION (R328). -/
  | lcTransition (i : Nat)
  /-- LC_QUERY (R343). -/
  | lcQuery (i : Nat)
  /-- DBG_AUTHORISE (R340). -/
  | dbgAuthorise (i : Nat)
  /-- DBG_END (R342). -/
  | dbgEnd (i : Nat)
  /-- LC_ENDORSE (R329). -/
  | lcEndorse (i : Nat)
  /-- FW_STAGE (R336). -/
  | fwStage (i : Nat)
  /-- LC_ROLLBACK_ADVANCE (R335). -/
  | lcRollbackAdvance (i : Nat)
  /-- CUSTOMER_DRAFT_COMMAND (R113). -/
  | customerDraftCommand (n k : Nat)
  /-- LUAKA_LANE_LOSS (R275). -/
  | luakaLaneLoss (lane : Nat)
  /-- LUAKA_PEER_VIOLATION (R296). -/
  | luakaPeerViolation (w : Wire)
  /-- SMB_CONTROLLER_VIOLATION (R419). -/
  | smbControllerViolation (command : Nat) (act : BusAct)
  /-- PCIE_CONFIGURATION_REQUEST (R85). -/
  | pcieConfigurationRequest (r : CfgReq)
  /-- PCIE_LINK_UP (R29). -/
  | pcieLinkUp
deriving DecidableEq, Repr

end Sys2Proof
end

