-- ==== Sys2Proof/Config.lean ====
section
/-! DEFINITION. What the spec leaves to other standards or leaves open: constants with no body, so that every
claim holds for all of them (notes/assumptions/2.md and 3.md). The block ciphers, hashes, MACs and public-key
functions are those of the standards the manual names; the manual states none of their tables. -/

namespace Sys2Proof.Config

open Sys2Proof

/-- AES block encipherment and decipherment (FIPS 197), key then block. -/
opaque aesEnc : Bytes → Bytes → Bytes
opaque aesDec : Bytes → Bytes → Bytes
/-- TDES block encipherment and decipherment, key then block. -/
opaque tdesEnc : Bytes → Bytes → Bytes
opaque tdesDec : Bytes → Bytes → Bytes
/-- SHA-256, SHA-384 and SHA-512. -/
opaque sha256 : Bytes → Bytes
opaque sha384 : Bytes → Bytes
opaque sha512 : Bytes → Bytes
/-- CMAC over AES (first argument true) or TDES, key then message: the full MAC. -/
opaque cmac : Bool → Bytes → Bytes → Bytes
/-- ISO 9797-1 MAC algorithm 3 over an already padded string, key then string: 8 bytes. -/
opaque macAlg3 : Bytes → Bytes → Bytes
/-- HMAC-SHA-512, key then message: 64 bytes. -/
opaque hmac512 : Bytes → Bytes → Bytes
/-- EMV card master key (option A) and session key derivation: algorithm code, issuer key, context (R197). -/
opaque emvSession : Nat → Bytes → Bytes → Bytes
/-- EMV ARPC methods: algorithm code, method, session key, input (R197). -/
opaque emvArpc : Nat → Nat → Bytes → Bytes → Bytes
/-- ANSI X9.24 working key: initial key algorithm, working key type, initial key, key serial number (R202). -/
opaque dukptKey : Nat → Nat → Bytes → Bytes → Bytes
/-- X9.143 encryption key and authentication key of a KBPK: AES version ('D') or TDES ('B') (R204). -/
opaque kbEncKey : Bool → Bytes → Bytes
opaque kbMacKey : Bool → Bytes → Bytes
/-- Ed25519 (RFC 8032): public key of a seed, signature, and the cofactored verification equation. -/
opaque edPublic : Bytes → Bytes
opaque edSign : Bytes → Bytes → Bytes
opaque edEquation : Bytes → Bytes → Bytes → Bool
/-- X25519 (RFC 7748): the shared secret and the public value. -/
opaque x25519 : Bytes → Bytes → Bytes
opaque x25519Public : Bytes → Bytes
/-- ECDSA, true for P-384: signature (key, digest, hedging bytes), verification, public key. -/
opaque ecSign : Bool → Bytes → Bytes → Bytes → Bytes
opaque ecVerify : Bool → Bytes → Bytes → Bytes → Bool
opaque ecPublic : Bool → Bytes → Bytes
/-- RSA: signature (key, PSS?, digest, salt), verification (e ‖ n, PSS?, digest, signature), OAEP transport
(e ‖ n, label, material, seed) and its inverse (private key, label, block). -/
opaque rsaSign : Bytes → Bool → Bytes → Bytes → Bytes
opaque rsaVerify : Bytes → Bool → Bytes → Bytes → Bool
opaque rsaWrap : Bytes → Bytes → Bytes → Bytes → Bytes
opaque rsaUnwrap : Bytes → Bytes → Bytes → Option Bytes
/-- RSA private key block body (p, q, dP, dQ, qInv) of a size in bits from drawn candidates, none where they give no
prime pair (R237), and the fixed digest of the pairwise consistency test. -/
opaque rsaGenerate : Nat → Bytes → Option Bytes
opaque pctDigest : Bytes
/-- A fresh free byte for each index: DRBG output, noise samples, padding and every other value that the
spec leaves to chance (R243, R247). -/
opaque freeByte : Nat → Byte
/-- A fresh free number for each index: choices the spec leaves open. -/
opaque freeNat : Nat → Nat
/-- The change of ADDEND for the sum of KP times the offset and KI times the integral of the offset (R304 gives no units of
the gains). -/
opaque servoScale : Int → Int
/-- The fixed path latencies in ns of the management port's lane mode, at ingress and at egress (R306). -/
opaque pathIn : Int
opaque pathOut : Int
/-- Digests of the four firmware signing keys held in the boot ROM (Table 14.8, check 5). -/
opaque bootKeyDigest : Nat → Bytes
/-- The two Jarvar debug public keys held in the boot ROM (R337). -/
opaque debugKey : Nat → Bytes
/-- Stored signature of a unit kind and pick (R379). -/
opaque bistSignature : Nat → Nat → Nat
/-- The SOURCE field of an event of a code (Table 17.4 gives no source per event). -/
opaque eventSource : Nat → Nat
/-- CLASS and SEVERITY that firmware loads for an event code, RATE and BURST that it loads for a class (R386 gives no
values). -/
opaque codeClass : Nat → Nat × Nat
opaque classRate : Nat → Nat × Nat
/-- A vendor draft of KIND LOOM holds a SYM step (the manual gives no steps of vendor drafts). -/
opaque vendorSym : Nat → Bool
/-- The set of a draft line in a step cache, from opcode and line (R104 gives no index function). -/
opaque stepCacheSet : Nat → Nat → Nat
/-- The service code of the EXC step in the vendor draft of an opcode (R107); the manual gives no code. -/
opaque serviceCode : Nat → Nat
/-- Draft-store lines that the vendor drafts fill (the manual gives no number). -/
opaque vendorLines : Nat
/-- The PCI Express Device Serial Number, 64 bits unique per device (Table 03.11). -/
opaque pcieSerial : Bytes
/-- The contents of the boot ROM, byte by byte (the manual gives none). -/
opaque bootRom : Nat → Byte
/-- The device's own management-port MAC address. -/
opaque portMac : Bytes

end Sys2Proof.Config
end

