-- ==== Sys2Proof/Machine/Curve.lean ====
section
/-! DEFINITION. The input checks of Table 09.2 on points (R229): Ed25519 encodings, X25519 peer values and SEC 1 points of
P-256 and P-384. The curves' constants are those of RFC 8032, RFC 7748 and SEC 2, which the manual names. -/

namespace Sys2Proof.Machine

open Sys2Proof

/-- `b` to the power `e` modulo `p`, over the low `k` bits of `e`. -/
def powMod (p : Nat) : Nat → Nat → Nat → Nat
  | 0, _, _ => 1 % p
  | k + 1, b, e =>
    let h := powMod p k (b * b % p) (e / 2)
    if e % 2 = 1 then b * h % p else h

/-- A square modulo an odd prime of at most 384 bits, zero included (Euler's criterion). -/
def isSquare (p a : Nat) : Bool := a % p == 0 || powMod p 384 (a % p) ((p - 1) / 2) == 1

/-! ## Curve25519 and Ed25519 -/

def p25519 : Nat := 2 ^ 255 - 19
/-- The constant d of Ed25519. -/
def edD : Nat := 37095705934669439343138083508754565189542113879843219016388785533085940283555
/-- The group order L. -/
def edL : Nat := 2 ^ 252 + 27742317777372353535851937790883648493

/-- The point with this y has an order that divides 8: y² = 1, y = 0, or its double has y = 0. -/
def edSmall (y : Nat) : Bool :=
  let p := p25519
  y * y % p == 1 || y % p == 0 || (edD * y ^ 4 + 2 * y * y) % p == 1

/-- Table 09.2 on a 32-byte encoding of A or R: y ≥ p, no x satisfies the curve equation, x = 0 with the sign bit set, or
[8]A is the identity. -/
def edPointBad (enc : Bytes) : Bool :=
  let v := leNat (sl enc 0 32)
  let y := v % 2 ^ 255
  let p := p25519
  let u := (y * y + (p - 1)) % p
  let w := (edD * y * y + 1) % p
  decide (y ≥ p) || !isSquare p (u * w) || (u == 0 && decide (v ≥ 2 ^ 255)) || edSmall y

/-- Table 09.2 on an X25519 peer value with bit 255 cleared: u ≥ p, no point of Curve25519 has it, or [8]P is the
identity. -/
def xPointBad (b : Bytes) : Bool :=
  let u := leNat (sl b 0 32)
  let p := p25519
  let g := u * (u * u + 486662 * u + 1)
  let t := (u * u + (p - 1)) % p
  decide (u ≥ p) || !isSquare p g || u == 0 || t == 0 || t * t % p == 4 * g % p

/-! ## P-256 and P-384 (true for P-384) -/

def ecP (big : Bool) : Nat :=
  if big then 2 ^ 384 - 2 ^ 128 - 2 ^ 96 + 2 ^ 32 - 1 else 2 ^ 256 - 2 ^ 224 + 2 ^ 192 + 2 ^ 96 - 1

def ecB (big : Bool) : Nat :=
  if big then 0xb3312fa7e23ee7e4988e056be3f82d19181d9c6efe8141120314088f5013875ac656398d8a2ed19d2a85c8edd3ec2aef
  else 0x5ac635d8aa3a93e7b3ebbd55769886bc651d06b0cc53b0f63bce3c3e27d2604b

/-- The group order n. -/
def ecN (big : Bool) : Nat :=
  if big then 0xffffffffffffffffffffffffffffffffffffffffffffffffc7634d81f4372ddf581a0db248b0a77aecec196accc52973
  else 0xffffffff00000000ffffffffffffffffbce6faada7179e84f3b9cac2fc632551

/-- x³ - 3x + b. -/
def ecRhs (big : Bool) (x : Nat) : Nat := (x * x * x + (ecP big - 3) * x + ecB big) % ecP big

/-- Table 09.2 on a SEC 1 public key. -/
def ecPointBad (big : Bool) (q : Bytes) : Bool :=
  let w := if big then 48 else 32
  let x := beNat (sl q 1 w)
  let y := beNat (sl q (1 + w) w)
  let p := ecP big
  if byteAt q 0 = 2 ∨ byteAt q 0 = 3 then q.length != w + 1 || decide (x ≥ p) || !isSquare p (ecRhs big x)
  else if byteAt q 0 = 4 then q.length != 2 * w + 1 || decide (x ≥ p) || decide (y ≥ p) || y * y % p != ecRhs big x
  else true

end Sys2Proof.Machine
end

