-- ==== Sys2Proof/Machine/Gcm.lean ====
section
/-! DEFINITION. AES-256-GCM as the Luaka link uses it (R277; NIST SP 800-38D with a 96-bit nonce and a 128-bit tag), over the
AES block of Config. -/

namespace Sys2Proof.Machine

open Sys2Proof

/-- An AES block, 16 bytes. -/
def aesBlock (k x : Bytes) : Bytes := sl (Config.aesEnc k x) 0 16

/-- One step of the multiplication in GF(2^128): bit `i` of `x`, counted from the left, adds the shifted factor. -/
def gfStep (x : Nat) (zv : Nat × Nat) (i : Nat) : Nat × Nat :=
  (if x.testBit (127 - i) then zv.1 ^^^ zv.2 else zv.1,
   if zv.2 % 2 = 1 then (zv.2 / 2) ^^^ (0xE1 * 2 ^ 120) else zv.2 / 2)

def gfMul (x y : Nat) : Nat := ((List.range 128).foldl (gfStep x) (0, y)).1

/-- Zeros up to a whole number of 16-byte blocks. -/
def wholeBlocks (b : Bytes) : Bytes := b ++ zeros ((16 - b.length % 16) % 16)

/-- GHASH under the hash key `h`, over a string of whole blocks. -/
def ghash (h : Nat) (b : Bytes) : Nat :=
  (List.range (b.length / 16)).foldl (fun y i => gfMul (y ^^^ beNat (sl b (16 * i) 16)) h) 0

/-- GCTR from the second counter block on: the ciphertext of a plaintext, and the plaintext of a ciphertext. -/
def gcmCipher (k nonce x : Bytes) : Bytes :=
  xorBytes x ((List.range ((x.length + 15) / 16)).flatMap (fun i => aesBlock k (nonce ++ toBe 4 (i + 2))))

def gcmTag (k nonce aad cipher : Bytes) : Bytes :=
  let h := beNat (aesBlock k (zeros 16))
  let g := ghash h (wholeBlocks aad ++ wholeBlocks cipher ++ toBe 8 (8 * aad.length) ++ toBe 8 (8 * cipher.length))
  xorBytes (toBe 16 g) (aesBlock k (nonce ++ toBe 4 1))

end Sys2Proof.Machine
end

