-- ==== Sys2Proof/Machine/State.lean ====
section
/-! DEFINITION. The state of the SLK9216 as plain data: every register, table, memory, queue, counter, mode and pin
the manual gives the device, in one structure per block, the queue of waiting commands, and the device right
after reset. INVENTORY.md, '## State', lists each field with its rule and its reset value. -/

namespace Sys2Proof.Machine

open Sys2Proof

/-- Byte memory in canonical form: addresses strictly rising, no entry equal to zero (notes/assumptions/5.md). -/
abbrev Mem := List Host.Cell

/-- The canonical form of a memory. -/
def Mem.wfFrom : Nat → Mem → Bool
  | _, [] => true
  | lo, (a, b) :: r => decide (lo ≤ a) && decide (b ≠ 0#8) && Mem.wfFrom (a + 1) r

def Mem.wf (m : Mem) : Bool := Mem.wfFrom 0 m

/-! ## Device structure: clocks, power, reset, start-up (chapter 01) -/

/-- SYS block (01), R17-R33. -/
structure Sys where
  pllLock    : Bool
  refOk      : Bool
  pcieExt    : Bool
  pllUnlock  : Bool
  refLost    : Bool
  monitored  : Bool                -- the root PLL has locked since P or S: the clock input is checked (Table 16.1)
  pdctl      : BitVec 36
  pdstat     : BitVec 36
  seqQueue   : List (Nat × Bool)   -- the power sequencer's own order, (domain, on), first in front (R22)
  refused    : Bool
  drainTimeout : Bool
  pderrDomain : Nat
  rstcause   : BitVec 7
  rstCount   : Nat
  wdtTimeout : List Nat
  wdtCount   : List Nat            -- ms since the last restart of each watchdog
  wdtPaused  : List Nat            -- stewards halted by the debug master (Table 14.9)
  step       : Nat
  reading    : Bool                -- step 10 has begun: the boot ROM reads the flash
  warm       : Bool
  resumed    : Bool
  failed     : Bool
  rstoutLow  : Bool
  faultLow   : Bool
  inReset    : Bool                -- a reset is asserted and not yet released
  pending    : BitVec 4            -- kinds combined so far: bit 0 P, 1 W, 2 Z, 3 S (R28)
  cold       : Bool                -- the sequence under way is that of R29
  lcResetDue : Bool                -- the W reset of R328 is due 1 ms after the completion write
  hwResetDue : Bool                -- a W reset waits for the commit word being written (R135)
  drainStop  : Bool                -- admission stopped by a transition or a switchover (R328, R292)
  causes     : BitVec 7            -- causes of the resets combined so far, as SYS.RSTCAUSE numbers them (R28)
deriving DecidableEq, Repr

/-! ## Keys -/

/-- Key material with the attributes it carries (R127, R129, R152, Table 05.6). `alg` 11-13 are RSA; `rsaPriv`
says which half an RSA key block carries (modes S, D against V, E). -/
structure KeyInfo where
  usage      : Nat
  alg        : Nat
  mat        : Bytes
  name       : Nat
  version    : Nat
  notAfter   : Nat
  exportable : Bool
  limited    : Bool
  level      : Nat
  rsaPriv    : Bool
  transport  : Bool                -- an RSA key of key usage D1
  wkt        : Nat := 0            -- working key type of a DUKPT key (R202)
deriving DecidableEq, Repr

/-- Where a key register's key lies: a way of the cache, or the register's shadow entry (R157). -/
inductive KLoc where
  | way (bank bucket way inc : Nat)
  | shadow
deriving DecidableEq, Repr

/-- A filled key register K0-K15 (R91): its entry, the recorded name (R173; none for a type 5 reference), and the
key as the key port reads it. `tag` is the entry's tag, `canExport` that its source permits export. -/
structure KReg where
  loc   : KLoc
  key   : KeyInfo
  named : Bool
  tag   : Bytes
  source : Nat
deriving DecidableEq, Repr

/-- One way of the working key cache (Table 06.2 and R152): a head way or the continuation of a P-384 key. -/
structure Way where
  bank : Nat
  bucket : Nat
  way : Nat
  tag : Bytes
  inc : Nat
  valid : Bool
  hit : Bool
  seen : Bool
  handled : Bool
  cont : Bool
  invalidated : Bool
  filling : Bool
  part : Nat
  source : Nat
  age : Nat
  uses : Nat
  pins : Nat
  handle : Nat                     -- object handle of a STORE entry, for its reservations; 0 otherwise
  ecc : Bool                       -- the way holds an uncorrectable error
  key : KeyInfo
deriving DecidableEq, Repr

/-! ## Commands in flight (chapters 02-04) -/

/-- What a command in flight is doing. -/
inductive Phase where
  | waitExt                        -- extended data not yet in the shed (R68)
  | ready
  | waitLine (line : Nat)          -- parked on a step-cache miss (R104)
  | waitPtr (ref : Nat)            -- a key-block pointer read is outstanding (R67)
  | waitFill (bank bucket way : Nat)  -- waits for a FILLING way (R154)
  | waitBn (job : Nat)             -- parked on a bignum job (R102)
  | bnDone (status : Nat) (flag : Bool) (out : Bytes)  -- the job ended; its result waits for the draft
  | waitCommit                     -- a commit of this command is queued at the journal (R136)
  | committed (handle : Nat)       -- its commit word is written; the handle for D
  | parked (kind : Nat) (code : Nat)  -- parked on an exception record (R106, R107)
  | waitQuorum                     -- waits for the CPC's quorum verification (R264)
  | waitStaging                    -- waits for the image staging area (R88)
  | waitImage                      -- its image is being read from host memory (R111, R336)
  | waitTable                      -- waits for a table update (R178)
  | waitTeardown (part : Nat)      -- the teardown it began has not ended (R50)
  | waitPick (slot : Nat)          -- BIST_PICK waits for its verdict (R393)
  | waitPair                       -- PAIR_BEGIN waits for the partner (R281)
  | waitSwitch                     -- PAIR_SWITCHOVER waits for its BEAT_ACK (R292)
  | waitRng                        -- waits for a test pass or a reseed (R253, R248)
  | waitWalk                       -- KC_FLUSH waits for its walk (R160)
  | waitOtp                        -- LC_TRANSITION or LC_ROLLBACK_ADVANCE waits for the OTP session (R328)
  | waitClear                      -- EVR_CLEAR waits for the recorder (R389)
  | waitCore                       -- its SYM step waits for a symmetric core (R99)
deriving DecidableEq, Repr

/-- A draft directory entry (Table 04.1). `state` 0 EMPTY, 1 LOADED, 2 FAILED. -/
structure DirEnt where
  opcode : Nat
  state : Nat
  steward : Bool
  gen : Nat
  steps : Nat
  lines : List Nat
  extMin : Nat
  extMax : Nat
  replyMax : Nat
  krefMax : Nat
  lcMask : Nat                     -- bit 0 MANUFACTURED, 1 OPERATIONAL, 2 RAW, 3 test unlocked, 4 test locked, 5 RMA
  standbyOk : Bool
  commits : Bool
  version : Nat
  cost : Nat                       -- cost of a customer image (R51)
deriving DecidableEq, Repr

/-- One command in flight: a shed or a steward context and all the device keeps with it (R90, R91, R174). -/
structure Cmd where
  place  : Place
  path   : Path
  fn     : Nat
  part   : Nat
  opcode : Nat
  order  : Nat                     -- place in the order of admission (R99)
  mem    : Mem                     -- the 4 KiB of Table 04.2
  extLen : Nat                     -- bytes of extended data fetched
  idx    : Nat                     -- index of the step to execute
  phase  : Phase
  kregs  : List (Nat × KReg)
  rgen   : Nat
  pgen   : Nat
  dgen   : Nat                     -- directory GENERATION at admission
  dir    : Option DirEnt           -- the directory entry it was admitted under (R112)
  asked  : Nat                     -- operating time when it began to wait for its DRBG instance (R248)
  abort  : Bool
  stored : Bool                    -- a STORE has been executed (R101)
  stamp  : Nat
  keyLoaded : Bool
  ptrs   : List (Nat × Bytes)      -- key blocks read for type 3 references
  quorum : Option (Nat × Nat)      -- the quorum that passed: signing partition, mask of indices
  pend   : Option StepArgs         -- the step in progress, for its flags and branch
  discard : Bool                   -- its completion is not written (R49, Table 03.14)
  mirror : Bool                    -- its completion waits for the BEAT_ACK of its stamp (R287)
deriving DecidableEq, Repr

/-- A queue (R44-R48, R60-R62). `bound` is the state BOUND; a queue in the list is UNBOUND or BOUND. -/
structure Queue where
  id : Nat
  fn : Nat
  localIdx : Nat
  log2 : Nat
  vec : Nat
  intEn : Bool
  sq : Nat
  cq : Nat
  bound : Bool
  part : Nat
  sqHead : Nat
  sqTail : Nat
  cqHead : Nat
  cqTail : Nat
  phase : Bool
  reading : Nat                    -- slots of the read request outstanding
  stopped : Bool                   -- fetching stopped after a failed read (0x0B06)
  errDue : Bool                    -- the error completion of 0x0B06 waits for a slot
  deleting : Bool                  -- a Q_DELETE has taken its turn; the queue is freed when its commands have ended (R48)
deriving DecidableEq, Repr

/-- A fetched entry not yet admitted. -/
structure Fetched where
  q : Nat
  part : Nat
  entry : Bytes
  cancelled : Bool                 -- CMD_CANCEL named it: it completes with ABORTED once a slot is free (R77)
deriving DecidableEq, Repr

/-- A partition: Table 02.1, R36, R39, its custodian set (R257), its scheduler and cache figures. Token levels are in
units of 1/256,000,000 cost unit (notes/assumptions/12.md). -/
structure Part where
  id : Nat
  parent : Nat
  depth : Nat
  tearing : Bool
  weight : Nat
  selfWeight : Nat
  minRate : Nat
  ceilRate : Nat
  cacheMin : Nat
  cacheMax : Nat
  inflightMax : Nat
  queueQuota : Nat
  objQuota : Nat
  accessKey : Bytes
  gen : Nat
  enables : BitVec 1024
  oldest : Bool
  custN : Nat
  custM : Nat
  custVer : Nat
  custKeys : List Bytes
  prefixLimit : Option Nat         -- none: no limit (R181)
  ruleLimit : Option Nat
  deficit : Nat                    -- deficit as a sibling under its parent (R53)
  selfDeficit : Nat                -- deficit of its own queues as a sibling (R53)
  turn : Nat                       -- the sibling whose turn it is: 0 own queues, p the child p
  lastQ : Nat                      -- queue last served among its own
  minTok : Nat
  ceilTok : Nat
  admitted : Nat
deriving DecidableEq, Repr

/-- A teardown under way (R50): the partition named, the one being processed, its step, and the command. -/
structure Tear where
  root : Nat
  cur : Nat
  step : Nat
  who : Option Place
deriving DecidableEq, Repr

/-- Admission and the mailbox (R52, R57, R80). -/
structure Sched where
  quantum : Nat
  psel : Nat
  cost : List (Nat × Nat × Nat)    -- (opcode, COST, ALT), absent entries 0
  lastGuar : Nat                   -- partition last served by the guaranteed pass
  nextOrder : Nat
deriving DecidableEq, Repr

/-- A function's mailbox (R78-R81). State 0 IDLE, 1 PENDING, 2 DONE. -/
structure Mbx where
  fn : Nat
  entry : Bytes
  data : Mem
  ie : Bool
  state : Nat
  refused : Bool
  readcnt : Nat
  result : Bytes
  waiting : Bool                   -- PENDING and not yet admitted
deriving DecidableEq, Repr

/-- One entry of an MSI-X table (R84); absent entries are masked. -/
structure MsixEnt where
  fn : Nat
  vec : Nat
  addr : Nat
  data : Nat
  masked : Bool
deriving DecidableEq, Repr

/-- The host interface blocks HID, HST, HIRQ and the PCIe configuration (03). -/
structure HostIf where
  fwver : Nat
  ready : Bool
  violCode : Nat
  violFn : Nat
  violQ : Nat
  violValid : Bool
  violCnt : Nat
  cause : BitVec 9
  enable : BitVec 9
  vec : Nat
  linkUp : Bool
  training : Bool
  numVfs : Nat
  vfEnable : Bool
  sysPage : Nat
  bme : List Nat                   -- functions with Bus Master Enable set
  relaxed : List Nat               -- functions with Relaxed Ordering enabled
  d3 : List Nat                    -- functions in D3hot
  msixEn : List Nat                -- functions with MSI-X Enable set
  msixMask : List Nat              -- functions with Function Mask set
  msix : List MsixEnt
  pba : List (Nat × Nat)           -- pending (function, vector)
  bar0 : Nat                       -- BAR0 of the physical function (Table 03.11)
  vfBar0 : Nat                     -- BAR0 of the virtual functions
  aer : BitVec 32                  -- uncorrectable error status: bits 12 and 18 (R86)
  mbx : List Mbx
deriving DecidableEq, Repr

/-- A record of the duplicate table (R75), with the operating time of its commit (R76). -/
structure Dup where
  part : Nat
  tag : Nat
  opcode : Nat
  stamp : Nat
  inline : Bytes
  time : Nat
deriving DecidableEq, Repr

/-! ## Drafts and treadles (chapter 04) -/

/-- An exception record (TRD.EXC0-EXC3). -/
structure ExcRec where
  shed : Nat
  kind : Nat
  code : Nat
  step : Nat
  opcode : Nat
  flags : Nat
  part : Nat
deriving DecidableEq, Repr

/-- A line of a step cache (R104): its tag (opcode, line, GENERATION), its steps as read from the draft store, and whether
it holds an uncorrectable error (R106). -/
structure CacheLine where
  tag : Nat × Nat × Nat
  data : Bytes
  bad : Bool
deriving DecidableEq, Repr

/-- A treadle and its loom (R104-R108, R23, R24). `last` is the shed it last issued a step from. -/
structure Treadle where
  inService : Bool
  draining : Bool
  exc : List ExcRec
  excWait : List ExcRec            -- records waiting for room in the FIFO (R108)
  resumeErr : Bool
  rstatus : Nat
  steps : Nat
  scMiss : Nat
  lines : List CacheLine           -- step-cache lines, most recently filled first
  last : Nat
  katFailed : Bool                 -- its known-answer tests failed since it was switched on (R24)
  katPassed : Bool                 -- its known-answer tests have passed (R24)
deriving DecidableEq, Repr

/-- Drafts as a whole (R87, R110-R113). -/
structure Drafts where
  dir : List DirEnt
  highest : List (Nat × Nat)
  signers : List (Nat × Bytes)
  oldLines : List (Nat × Nat × List Nat)  -- (opcode, generation, lines) freed when its last command retires
  staging : Bytes
  holder : Option Place
deriving DecidableEq, Repr

/-! ## Key store (chapter 05) -/

/-- The index entry of a live object (R128, R136): the slot of its newest version, and its key sequence. -/
structure Obj where
  handle : Nat
  slot : Nat
  seq : Nat
  keySeq : Nat
  limitLogged : Bool               -- event 0x0A08 was logged for it
  resBeat : Option Nat             -- the beat of its last reservation (R287)
deriving DecidableEq, Repr

/-- What a commit waiting at the journal will write. -/
inductive CommitKind where
  | store (part : Nat) (attr : Bytes) (key : KeyInfo) (generated : Bool)
  | reserve (handle bank bucket way : Nat)   -- for a way, or for the shadow fill with bank 4
  | tombstone (handle : Nat)
  | relocate (handle : Nat)
  | domain (key : Bytes)
  | raise (handle : Nat)           -- after a failover (R132)
deriving DecidableEq, Repr

/-- A request at the journal (R136). `torn` part: started when its body has begun to be written. -/
structure Commit where
  kind : CommitKind
  who : Option Place
  started : Bool
deriving DecidableEq, Repr

structure KeyStore where
  recovered : Bool
  hold : Bool
  domainKey : Option Bytes
  objs : List Obj
  incs : List (Nat × Nat)          -- last incarnation of each index used
  alloc : Nat                      -- allocation pointer
  reloc : Nat                      -- relocation pointer
  nextSeq : Nat
  reservation : Nat                -- kept in the configuration region
  cfgStone : Nat                   -- stone under whose configuration MAC key the records of the configuration region stand
  torn : Nat
  commits : Nat
  sinceReloc : Nat
  used : List Nat                  -- slots the allocation map holds as in use
  queue : List Commit
  stone : Nat                      -- 0 none, 1 TEST, 2 MANUFACTURE, 3 OWNER, 4 RMA
deriving DecidableEq, Repr

/-! ## Working key cache (chapter 06) -/

/-- A fill in progress (R154): its way, or bank 4 for a key that goes to a shadow entry; the key it will place, or the
status with which it fails and the event it logs then; and the command that asked, by place and order of admission. -/
structure Fill where
  bank : Nat
  bucket : Nat
  way : Nat
  who : Place
  order : Nat
  kreg : Nat
  key : Option KeyInfo
  status : Nat
  note : Option (Nat × Nat × Nat × Nat × Nat)
  named : Bool
  source : Nat
  tag : Bytes
  handle : Nat
  u : BitVec 4                     -- flags that the step returns when the fill ends
  reserving : Bool                 -- loaded, and waiting for the commit of its first reservation (R132)
deriving DecidableEq, Repr

/-- A walk of all buckets (R160): the partitions it clears and who waits for it. -/
structure Walk where
  parts : List Nat
  who : Option Place
  teardown : Option Nat
deriving DecidableEq, Repr

structure KCache where
  salt : Option Bytes
  ways : List Way
  fills : List Fill
  walks : List Walk
  incs : List (Nat × Nat)          -- last INCARNATION of each way filled: (4 * (4 * bucket + way) + bank, number)
  period : Nat
  sweeping : Bool
  bucket : Nat
  hits : Nat
  misses : Nat
  evicted : Nat
  swept : Nat
  shadowed : Nat
  blocked : Nat
  psel : Nat
deriving DecidableEq, Repr

/-! ## Routing and policy (chapter 07) -/

/-- A visible prefix entry of one parity copy (R166, R170) with the bucket and the way that hold it. -/
structure Route where
  part : Nat
  len : Nat
  digits : List Nat
  payload : Bytes
  index : Nat
  bucket : Nat
  way : Nat
deriving DecidableEq, Repr

/-- A key-name policy rule of one parity copy (R171, Table 07.5). -/
structure Rule where
  part : Nat
  len : Nat
  pfx : Nat
  body : Bytes
  index : Nat
deriving DecidableEq, Repr

structure RtTables where
  salt : Option Bytes
  layout : List (Nat × Nat)        -- (LOG2_BUCKETS, BASE) of lengths 1-19
  routes0 : List Route             -- the copy of parity 0
  routes1 : List Route
  rules0 : List Rule
  rules1 : List Rule
  rgen : Nat
  pgen : Nat
  rSettled : Bool
  pSettled : Bool
  rWait : List Place               -- updates in order of admission
  pWait : List Place
  pLast : List Nat                 -- partitions that the last policy update changed (R179)
  probes : Nat
  plookups : Nat
deriving DecidableEq, Repr

/-! ## Bignum engine (chapter 09) -/

/-- What a bignum job computes: operation (Table 09.3 OP; 0x20 RSA transport wrap, 0x21 unwrap), size selector,
PSS, private key or public key bytes, operand, record. -/
structure BnReq where
  op : Nat
  size : Nat
  pss : Bool
  alg : Nat
  key : Bytes
  operand : Bytes
  record : Bytes
deriving DecidableEq, Repr

/-- State of a job: 0 waiting, 1 running, 2 parked. -/
structure Job where
  id : Nat
  who : Place
  req : BnReq
  kind : Nat                       -- group kind of Table 09.1
  level : Nat                      -- 0 FAST, 1 MEDIUM, 2 SLOW
  rank : Nat                       -- level in force after R223
  keygen : Bool
  order : Nat
  state : Nat
  cores : List (Nat × Nat)         -- (core, context) of each member
  abort : Bool
  noRng : Bool
  since : Nat                      -- operating time when it began to wait for cores (R223)
  asks : Option (Nat × Nat)        -- the instance it waits for, and since when (R248)
  rnd : Bytes                      -- random output drawn for it
deriving DecidableEq, Repr

structure Core where
  ok : Bool                        -- passed its known-answer tests
  removed : Bool
  cause : Nat
  retired : Bool
  underTest : Bool
  mismatches : List Nat            -- operating times of its mismatches
  held : List Nat                  -- contexts held by jobs
  scrub : List (Nat × Place × Nat) -- contexts being zero-filled, with the command each served (R238)
  running : Bool
deriving DecidableEq, Repr

structure Bignum where
  starve : Nat
  mismatch : Nat
  rejects : Nat
  yields : Nat
  aborts : Nat
  cores : List Core
  jobs : List Job
  nextJob : Nat
deriving DecidableEq, Repr

/-! ## Random numbers (chapter 10) -/

structure Drbg where
  seeded : Bool
  key : Bytes                      -- Key and V of SP 800-90A
  v : Bytes
  requests : Nat
  wait : Nat                       -- 0 not waiting, 1 to be instantiated, 2 waiting to reseed
  since : Nat                      -- place in the order of waiting
deriving DecidableEq, Repr

structure Health where
  bias : Int
  lag1 : Int
  lag2 : Int
  lag3 : Int
  lag4 : Int
  warnBias : Nat                   -- thresholds in force for the block under way (R256)
  warnLag : Nat
deriving DecidableEq, Repr

structure Rng where
  testing : Bool
  stopped : Bool
  latched : Bool
  raw : Bool
  rawReads : Nat                   -- operating time of the last RNG_RAW_READ or of the entry
  rawFails : Nat
  rawSeen : Nat                    -- test failures since the last capture (R252, R254)
  fails : List Nat                 -- operating times of the failures counted under R251
  inUse : BitVec 8
  srcReady : Bool
  pool : List Bytes                -- conditioned blocks of 64 bytes, oldest first (R243)
  drbgs : List Drbg
  nextWait : Nat
  warnBias : Nat
  warnLag : Nat
  srcsel : Nat
  health : List Health
  failTotal : Nat
  reseeds : Nat
deriving DecidableEq, Repr

/-! ## Dual control (chapter 11) -/

structure Nonce where
  part : Nat
  value : Nat
  time : Nat
deriving DecidableEq, Repr

structure Dual where
  nonces : List Nonce              -- oldest first
  issued : List (Nat × Nat)        -- partition and operating time of the nonces issued in the last minute (R268)
  accepted : Nat
  refused : Nat
  waiting : List Place             -- commands whose quorum is to be verified, in order of arrival (R264)
  verifying : Option Place         -- the command whose quorum is being verified (QR.STATUS)
deriving DecidableEq, Repr

/-! ## Pairs (chapter 12) -/

/-- What a valid HELLO of the partner told (Table 12.4). -/
structure Hello where
  strap : Bool
  lc : Nat
  flags : Nat
  serial : Nat
  lastBeat : Nat
  idKey : Bytes
  ephKey : Bytes
  nonce : Bytes
  format : Nat
deriving DecidableEq, Repr

/-- A record of a beat or of a snapshot (R285, Table 12.6). -/
structure BeatRec where
  stamp : Nat
  typ : Nat
  part : Nat
  body : Bytes
deriving DecidableEq, Repr

/-- A beat held in a Luaka buffer until it is acknowledged (R286). -/
structure Beat where
  num : Nat
  closed : Bool
  recs : List BeatRec
  bytes : Nat
deriving DecidableEq, Repr

/-- A completion held for a BEAT_ACK (R287). -/
structure Held where
  beat : Nat
  path : Path
  fn : Nat
  entry : Bytes
  status : Nat
  flags : Nat
  stamp : Nat
  inline : Bytes
  reply : Bytes
  part : Nat                       -- the command's partition (R75)
deriving DecidableEq, Repr

/-- The stage of the claim procedure of R273 and R274. -/
inductive Claim where
  | idle
  | guard
  | reread
  | drive
  | contention
  | suspended
deriving DecidableEq, Repr

structure PairRec where
  secret : Bytes
  partnerKey : Bytes
  partnerSerial : Nat
  strap : Bool
deriving DecidableEq, Repr

structure Link where
  pstate : Nat
  role : Nat
  strap : Bool
  up : Bool
  lanes : Nat
  actIn : Bool                     -- ACT_IN_N reads low
  actOut : Bool                    -- ACT_OUT_N driven low
  complete : Bool
  ceremony : Bool
  source : Bool
  named : Option (Bytes × Nat)     -- partner key and serial named by PAIR_BEGIN
  beginBy : Option Place
  beatUs : Nat
  policy : Bool
  lossAction : Bool
  soloMs : Nat
  cfgBeatUs : Nat                  -- the configuration region's copies
  cfgPolicy : Bool
  cfgLoss : Bool
  cfgSolo : Nat
  pairRec : Option PairRec
  beat : Nat                       -- number of the open beat
  closed : Nat                     -- the last beat this device closed, 0 for none
  slot : Nat                       -- next slot of it
  recorded : Option Nat            -- beat number recorded in the configuration region
  done : Nat
  prom : Nat
  beats : List Beat                -- Luaka buffers: unacknowledged beats, oldest first
  late : List BeatRec              -- unstamped records that wait for a beat to open
  held : List Held
  partial_ : List (BeatRec × Bool) -- records of the beat being received; false: the snapshot brings a newer copy (R282)
  rxBuf : Bytes                    -- bytes of a record that spans frames (R285)
  rxWait : List (Nat × List (BeatRec × Bool))  -- beats received whole, held by a supply warning (Table 16.4)
  snapRx : Option Nat              -- standby: snapshot records received so far
  snapBuf : Bytes
  snapPos : Nat × Nat              -- item of the snapshot's last record: its place in R282 and its key
  snapSeen : List Nat              -- keys of the items of that place received so far
  snapTx : Option Nat              -- active: records of the snapshot sent and not yet answered by IN_SYNC
  txSeq : Nat
  rxSeq : Nat
  sessTx : Bytes
  sessRx : Bytes
  eph : Bytes                      -- own X25519 ephemeral secret
  ownNonce : Bytes
  hello : Option Hello
  helloDue : Bool
  viol : Nat                       -- frames of 0x0710 within the beat period
  heartbeat : Bool                 -- heartbeat loss declared
  handover : Option Nat
  solo : Bool                      -- the link has been down for SOLO WAIT_MS
  claim : Claim
  promo : Nat                      -- cause of a promotion that waits for its raised reservations (R290), 0 none
  tx : Nat
  rx : Nat
  drops : Nat
  relinks : Nat
deriving DecidableEq, Repr

/-! ## Time (chapter 13) -/

/-- A foreign master (R305): its last Announce, and the operating times in ms at which its last Announces came. -/
structure Master where
  msg : PtpMsg
  heard : List Nat
deriving DecidableEq, Repr

/-- Values of PT_SET_CONFIG kept in the configuration region for step 11 (R313). -/
structure PtCfg where
  mapping : Nat
  domain : Nat
  ppsIn : Bool
  ppsOut : Bool
  ppsWidth : Nat
  outlierUs : Nat
  kp : Nat
  ki : Nat
  asym : Int
  limitH : Nat
  ipv4 : Nat
deriving DecidableEq, Repr

structure TimeKeep where
  sec : Nat
  acc : Nat                        -- nanosecond accumulator with 28 fractional bits
  addend : Nat
  capSec : Nat
  capNs : Nat
  state : Nat
  partner : Bool
  ppsLock : Bool
  count : Nat
  outliers : Nat
  integ : Int                      -- integral term of the servo: the sum of the offsets it used (R304)
  history : List Nat               -- ADDEND of the last 64 measurements
  holdSec : Nat                    -- second at which holdover began
  partnerState : Nat               -- standby: the active member's time state and holdover start (R310)
  partnerHold : Nat
  rateSec : Nat                    -- second of operating time of the two counts that follow (Table 13.4)
  syncs : Nat
  announces : Nat
  limitH : Nat
  ppsIn : Bool
  ppsOut : Bool
  ppsWidth : Nat
  ppsLeft : Nat                    -- rest of the PPS_OUT pulse, in units of 2^-28 ns; 0: low
  mapping : Nat
  domain : Nat
  outlierUs : Nat
  kp : Nat
  ki : Nat
  asym : Int
  ipv4 : Nat
  gmid : Nat
  utcOff : Nat
  drops : Nat
  masters : List Master
  syncSeq : Option Nat
  t1 : Option Int
  t2 : Int
  req : Option (Nat × Int)         -- sequenceId and t3 of the Delay_Req sent for the Sync
  resp : Option (Int × Int)        -- t4 and correctionField of its Delay_Resp
  reqSeq : Nat                     -- sequenceId of the next Delay_Req
  lastReq : Option Nat             -- operating time in ms of the last Delay_Req
  minReq : Int                     -- the master's logMinDelayReqInterval
  cfSync : Int
  lastOffset : Int
  xchg : Option Int                -- standby: t1 of the partner exchange in progress
  cfgStored : Option PtCfg
deriving DecidableEq, Repr

/-! ## Life cycle and debug (chapter 14) -/

/-- A step of an OTP session (R324): program a word, or a named action between words. -/
inductive OtpStep where
  | word (w : Nat) (v : BitVec 32)
deriving DecidableEq, Repr

structure Session where
  left : List OtpStep
  target : Nat                     -- target state of the transition; 0x100 LC.PROG; 0x101 rollback advance
  origin : Nat                     -- state before
  path : Nat                       -- 0 debug master, 1 steward
  who : Option Place
  words : Nat
deriving DecidableEq, Repr

/-- An image slot of the boot flash (R333). -/
structure Image where
  header : Bytes
  body : Bytes
deriving DecidableEq, Repr

structure LifeCycle where
  otp : List (Nat × BitVec 32)     -- words not zero, by word number
  state : Nat
  invalid : Bool
  target : Nat
  go : Bool
  statRefused : Bool
  result : Nat
  tokenFails : Nat
  token : Bytes
  session : Option Session
  slot : Nat
  fallback : Bool
  aCheck : Nat
  bCheck : Nat
  octal : Bool
  bootMode : Bool                  -- the BOOT_MODE strap as sampled (R408)
  flashA : Image
  flashB : Image
  running : Image
deriving DecidableEq, Repr

structure Debug where
  grant : BitVec 8
  active : Bool
  refused : Bool
  reason : Nat
  ends : Nat                       -- operating time at which the grant ends
  challenge : Nat
  token : Bytes
  halted : List Nat
  tap : TapInstr
deriving DecidableEq, Repr

/-! ## Protection units (chapter 15) -/

structure Region where
  set : Nat
  idx : Nat
  start : Nat
  stop : Nat
  en : Bool
  r : Bool
  w : Bool
  x : Bool
  user : Bool
deriving DecidableEq, Repr

structure Mpu where
  active : Nat
  lock : Bool
  valid : Bool
  refused : Bool
  vaddr : Nat
  vcause : Nat
  vkind : Nat
  vuser : Bool
  vset : Nat
  vregion : Nat
  vsize : Nat
  vcount : Nat
  regions : List Region            -- regions written since reset; absent ones are zero
deriving DecidableEq, Repr

/-! ## Tamper and supply (chapter 16) -/

structure Tamper where
  live : BitVec 15
  latch : BitVec 15
  cfg : BitVec 16
  activeHigh : BitVec 4
  debounce : Nat
  win : List (Nat × Nat × Nat)     -- RMIN, RMAX, MEAS of loops 0-3
  ltime : Nat
  batTicks : Nat                   -- time since BAT power-on in units of 1/64 ms, in the samples counted
  samples : Nat
  badBits : List Nat               -- consecutive wrong bits of loops 0-3
  badMeas : List Nat
  swCount : List Nat               -- consecutive samples at the active level
  coldCount : Nat
  secret : Option Bytes            -- the battery secret
  onVbat : Bool
  wasOnVbat : Bool
  vbatMv : Nat
  batLow : Bool
  due : Bool                       -- event 0x0201 is due at step 11 (Table 16.2)
deriving DecidableEq, Repr

structure Sag where
  warn : BitVec 3
  pfail : Bool
  warning : Bool
  pgood : BitVec 4
  pfailEn : Bool
  cfgPfailEn : Bool
  warnings : Nat
  resets : Nat
  holdUs : Nat
  short : Bool
  rail : Nat
  lastWarn : Nat
  eventDue : Bool                  -- event 0x0303 is due after the restart (R371)
deriving DecidableEq, Repr

/-! ## Self-test and records (chapter 17) -/

/-- State of a testable unit (BIST.USTAT): 0 IN_SERVICE, 1 UNDER_TEST, 2 OUT, 3 RETIRED. -/
structure BUnit where
  st : Nat
  fails : Nat
  passes : Nat
  returns : List Nat
deriving DecidableEq, Repr

/-- Phase of a pick: 0 none, 1 waiting for idle, 2 patterns running, 3 known-answer tests, 4 abandoned and
re-initialising. -/
structure Slot where
  phase : Nat
  unit : Nat
  pick : Nat
  requested : Bool
  repeat_ : Bool
  bnCause : Bool                   -- a pick requested under R238
  who : Option Place
  reqs : List (Nat × Nat × Nat × Option Place)  -- (unit, pick, 0 request 1 repeat 2 R238, waiting command)
  walkPick : Nat
  walkUnit : Nat
  cycles : Nat
  cycleFails : Nat
  began : Nat                      -- operating time at which the cycle under way began
deriving DecidableEq, Repr

structure Bist where
  period : Nat
  enable : Bool
  isolate : Nat
  cfgPace : Option (Bool × Nat × Nat)  -- values of BIST_SET_PACE kept in the configuration region
  slots : List Slot
  units : List BUnit
  usel : Nat
  cycles : Nat
  picks : Nat
  fails : Nat
  skips : Nat
deriving DecidableEq, Repr

/-- An event as its source raises it: code, four parameters, operating time, DEFERRED. -/
structure Ev where
  code : Nat
  p1 : Nat
  p2 : Nat
  p3 : Nat
  p4 : Nat
  time : Nat
  deferred : Bool
deriving DecidableEq, Repr

/-- A record of the log or of the black box (Table 17.3). -/
structure Rec where
  ev : Ev
  flags : Nat
  reps : Nat
  power : Nat
  seq : Nat
deriving DecidableEq, Repr

structure Recorder where
  buffer : List Ev                 -- the 256-record buffer, oldest first
  aon : List Ev                    -- events held in AON before PD35 is on, up to eight
  waiting : Nat                    -- AON count of records in the buffer (R387)
  lostNow : Nat                    -- records lost since the last 0x0D03
  log : List Rec                   -- index = position
  full : Bool
  lost : Nat
  suppressed : Nat
  clears : Nat
  clearing : Bool
  clearBy : Option Place
  export_ : Bool
  exPort : Nat
  exIp : Nat
  exMac : Nat
  optime : Nat
  stored : Nat
  power : Nat
  ring : List Rec                  -- the black box, newest first, at most 8,192
  head : Nat
  frozen : Bool
  triggered : Bool
  post : Nat
  trigCode : Nat
  trigIdx : Nat
  classes : List (Nat × Nat × Nat) -- (class, RATE, BURST)
  codemap : List (Nat × Nat × Nat) -- (code[11:0], CLASS, SEVERITY)
  buckets : List (Nat × Nat × Nat) -- (code, tokens in thousandths, operating time of the last refill)
  lastIdx : List (Nat × Nat)       -- (code, index of its last log record since reset)
  frames : Nat                     -- export frames queued at the management port
deriving DecidableEq, Repr

/-! ## Pins and shared resources (chapters 18, 19) -/

structure Pin where
  req : Nat
  granted : Nat
  preempted : Bool
  refused : Bool
  kept : Nat                       -- function kept in the configuration region (R403)
deriving DecidableEq, Repr

structure Iom where
  pins : List Pin
  inLevel : BitVec 8
  out : BitVec 8
  cmp1 : Nat
  haltRefused : Bool
  extestRefused : Bool
  refusals : Nat
  drops : Nat
deriving DecidableEq, Repr

structure Board where
  roleStrap : Bool                 -- strap inputs, sampled at step 1 (R408)
  smbStrap : BitVec 3
  bootStrap : Bool
  smbAddr : BitVec 3
  temp : Int                       -- highest die temperature, units of 1/16 degree
  thermWarn : Bool
  railsOk : Bool
deriving DecidableEq, Repr

/-! ## Outputs: what the device sends, in order (the MODEL's own list, notes/assumptions/6.md) -/

inductive Out where
  | hostWrite (addr : Nat) (data : Bytes)          -- a posted write into host memory
  | hostRead (addr len : Nat)                      -- a read request to host memory
  | msix (fn vec : Nat)
  | regRead (addr : Nat) (value : Nat) (ok : Bool) -- the answer to an internal access
  | barRead (fn off : Nat) (value : Nat)
  | error (addr : Nat)                             -- an error response
  | frame (w : Wire)                               -- a frame on the Luaka link
  | mgmt (kind : Nat) (payload : Bytes)            -- a frame on the management port: 2 event export
  | delayReq (mapping : Nat) (dst src : Bytes) (domain seq : Nat)  -- a Delay_Req on the management port (R305)
  | smb (data : Bytes)
  | smbNack
  | retry (reg : Nat)                              -- Configuration Request Retry Status
  | cfgRead (value : Nat)
  | memRead (addr : Nat) (data : Bytes)
deriving DecidableEq, Repr

/-- The whole device. -/
structure State where
  sys   : Sys
  mem   : Mem                      -- the RAM of the internal map outside sheds and records (Table 01.2)
  queues : List Queue
  fetched : List Fetched
  cmds  : List Cmd
  parts : List Part
  gens  : List (Nat × Nat)         -- last GENERATION of partition IDs used before (R39)
  sched : Sched
  host  : HostIf
  dups  : List Dup
  drafts : Drafts
  trd   : List Treadle
  ks    : KeyStore
  kc    : KCache
  rt    : RtTables
  bn    : Bignum
  rng   : Rng
  qr    : Dual
  lk    : Link
  pt    : TimeKeep
  lc    : LifeCycle
  dbg   : Debug
  mpu   : List Mpu
  tmp   : Tamper
  sag   : Sag
  bist  : Bist
  evr   : Recorder
  iom   : Iom
  board : Board
  tears : List Tear                -- teardowns under way
  d3held : List Held               -- completions of functions in D3hot, written on the return to D0 (R85)
  draw  : Nat                      -- the MODEL's own counter of free values drawn (notes/assumptions/4.md)
  out   : List Out                 -- the MODEL's own list of what was sent, oldest first
  pending : List Instr             -- commands waiting, first in first out
deriving DecidableEq, Repr

/-! ## The device right after reset

PORST_N is low: a P reset is in force and its sequence has not begun (R25, R29). Where the manual gives no reset value
the value is zero, false or empty, except those named in notes/assumptions/7.md. -/

def Sys.reset : Sys :=
  { pllLock := false, refOk := false, pcieExt := false, pllUnlock := false, refLost := false, monitored := false,
    pdctl := 0, pdstat := 0,
    seqQueue := [], refused := false, drainTimeout := false, pderrDomain := 0, rstcause := 0, rstCount := 0,
    wdtTimeout := List.replicate 4 1000, wdtCount := List.replicate 4 0, wdtPaused := [], step := 0, reading := false,
    warm := false,
    resumed := false, failed := false, rstoutLow := true, faultLow := false, inReset := true, pending := 1,
    cold := true, lcResetDue := false, hwResetDue := false, drainStop := false,
    causes := 1 }

/-- Partition 0 with the fixed values of R38 and those it holds until provisioning. -/
def Part.owner : Part :=
  { id := 0, parent := 0, depth := 1, tearing := false, weight := 1, selfWeight := 1, minRate := 240000000,
    ceilRate := 0, cacheMin := 262144, cacheMax := 262144, inflightMax := 512, queueQuota := 16384, objQuota := 65536,
    accessKey := zeros 32, gen := 1, enables := BitVec.ofNat 1024 (2 ^ 512 - 1), oldest := false, custN := 0,
    custM := 0, custVer := 0, custKeys := [], prefixLimit := none, ruleLimit := none, deficit := 0, selfDeficit := 0,
    turn := 0, lastQ := 0, minTok := 0, ceilTok := 0, admitted := 0 }

def Sched.reset : Sched := { quantum := 0x40, psel := 0, cost := [], lastGuar := 0, nextOrder := 0 }

def HostIf.reset : HostIf :=
  { fwver := 0, ready := false, violCode := 0, violFn := 0, violQ := 0, violValid := false, violCnt := 0, cause := 0,
    enable := 0, vec := 0, linkUp := false, training := false, numVfs := 0, vfEnable := false, sysPage := 1, bme := [],
    relaxed := [], d3 := [], msixEn := [], msixMask := [], msix := [], pba := [],
    bar0 := 0, vfBar0 := 0, aer := 0, mbx := [] }

def Drafts.reset : Drafts := { dir := [], highest := [], signers := [], oldLines := [], staging := [], holder := none }

def Treadle.reset : Treadle :=
  { inService := false, draining := false, exc := [], excWait := [], resumeErr := false, rstatus := 0xF001, steps := 0,
    scMiss := 0, lines := [], last := 31, katFailed := false, katPassed := false }

def KeyStore.reset : KeyStore :=
  { recovered := false, hold := true, domainKey := none, objs := [], incs := [], alloc := 0, reloc := 0, nextSeq := 1,
    reservation := 0, cfgStone := 0, torn := 0, commits := 0, sinceReloc := 0, used := [], queue := [],
    stone := 0 }

def KCache.reset : KCache :=
  { salt := none, ways := [], fills := [], walks := [], incs := [], period := 1000, sweeping := false, bucket := 0,
    hits := 0, misses := 0, evicted := 0, swept := 0, shadowed := 0, blocked := 0, psel := 0 }

def RtTables.reset (layout : List (Nat × Nat)) : RtTables :=
  { salt := none, layout := layout, routes0 := [], routes1 := [], rules0 := [], rules1 := [], rgen := 1, pgen := 1,
    rSettled := true, pSettled := true, rWait := [], pWait := [], pLast := [], probes := 0, plookups := 0 }

def Core.reset : Core :=
  { ok := false, removed := false, cause := 0, retired := false, underTest := false, mismatches := [], held := [],
    scrub := [], running := false }

def Bignum.reset : Bignum :=
  { starve := 10, mismatch := 0, rejects := 0, yields := 0, aborts := 0, cores := List.replicate 32 Core.reset,
    jobs := [], nextJob := 1 }

def Drbg.reset : Drbg := { seeded := false, key := zeros 32, v := zeros 16, requests := 0, wait := 0, since := 0 }

def Health.reset : Health := { bias := 0, lag1 := 0, lag2 := 0, lag3 := 0, lag4 := 0, warnBias := 0x400, warnLag := 0x400 }

def Rng.reset : Rng :=
  { testing := false, stopped := false, latched := false, raw := false, rawReads := 0, rawFails := 0, rawSeen := 0, fails := [],
    inUse := 0, srcReady := false, pool := [],
    drbgs := List.replicate 17 Drbg.reset, nextWait := 0,
    warnBias := 0x400, warnLag := 0x400, srcsel := 0,
    health := List.replicate 8 Health.reset, failTotal := 0, reseeds := 0 }

def Dual.reset : Dual := { nonces := [], issued := [], accepted := 0, refused := 0, waiting := [], verifying := none }

def Link.reset : Link :=
  { pstate := 0, role := 0, strap := false, up := false, lanes := 0, actIn := false, actOut := false,
    complete := false, ceremony := false, source := false, named := none, beginBy := none, beatUs := 50,
    policy := true, lossAction := false, soloMs := 1000, cfgBeatUs := 50, cfgPolicy := true, cfgLoss := false,
    cfgSolo := 1000, pairRec := none, beat := 0, closed := 0, slot := 0, recorded := none, done := 0, prom := 0,
    beats := [], late := [], held := [], partial_ := [], rxBuf := [], rxWait := [], snapRx := none, snapBuf := [], snapPos := (0, 0),
    snapSeen := [], snapTx := none, txSeq := 0, rxSeq := 0, sessTx := [], sessRx := [], eph := [], ownNonce := [],
    hello := none, helloDue := false, viol := 0, heartbeat := false, handover := none,
    solo := false, claim := .idle, promo := 0, tx := 0, rx := 0, drops := 0, relinks := 0 }

def TimeKeep.reset : TimeKeep :=
  { sec := 0, acc := 0, addend := 0x42AAAAAB, capSec := 0, capNs := 0, state := 0, partner := false, ppsLock := false,
    count := 0, outliers := 0, integ := 0, history := [], holdSec := 0, partnerState := 0, partnerHold := 0,
    rateSec := 0, syncs := 0, announces := 0, limitH := 24, ppsIn := false, ppsOut := false,
    ppsWidth := 50, ppsLeft := 0, mapping := 1, domain := 0, outlierUs := 100, kp := 0x40, ki := 4, asym := 0,
    ipv4 := 0, gmid := 0, utcOff := 0, drops := 0, masters := [], syncSeq := none, t1 := none, t2 := 0,
    req := none, resp := none, reqSeq := 0, lastReq := none, minReq := 0, cfSync := 0, lastOffset := 0, xchg := none,
    cfgStored := none }

/-- OTP of a part as delivered (R316): an SLK9216-F with test steps 1 to 14 and MFG set, and DEVICE_SECRET slot 0
programmed with its check word (notes/assumptions/8.md). -/
def LifeCycle.shippedOtp : List (Nat × BitVec 32) :=
  (List.range 15).map (fun i => (i, BitVec.ofNat 32 ((0xFF - (i + 1)) * 256 + (i + 1)))) ++
    [(88, BitVec.ofNat 32 (leNat ((Config.sha512 (zeros 32)).take 4))), (129, 0x46464646#32)]

def LifeCycle.reset : LifeCycle :=
  { otp := LifeCycle.shippedOtp, state := 0, invalid := false, target := 0, go := false, statRefused := false,
    result := 0, tokenFails := 0, token := zeros 16, session := none, slot := 0, fallback := false, aCheck := 0,
    bCheck := 0, octal := false, bootMode := false, flashA := { header := [], body := [] }, flashB := { header := [], body := [] },
    running := { header := [], body := [] } }

def Debug.reset : Debug :=
  { grant := 0, active := false, refused := false, reason := 0, ends := 0, challenge := 0, token := zeros 128,
    halted := [], tap := .idcode }

def Mpu.reset : Mpu :=
  { active := 0, lock := false, valid := false, refused := false, vaddr := 0, vcause := 0, vkind := 0, vuser := false,
    vset := 0, vregion := 0, vsize := 0, vcount := 0, regions := [] }

def Tamper.reset : Tamper :=
  { live := 0, latch := 0, cfg := 0, activeHigh := 0xF, debounce := 3, win := List.replicate 4 (2, 160, 0),
    ltime := 0, batTicks := 0, samples := 0, badBits := List.replicate 4 0, badMeas := List.replicate 4 0,
    swCount := List.replicate 4 0, coldCount := 0, secret := none, onVbat := false, wasOnVbat := false, vbatMv := 0,
    batLow := false, due := false }

def Sag.reset : Sag :=
  { warn := 0, pfail := false, warning := false, pgood := 0, pfailEn := false, cfgPfailEn := false, warnings := 0,
    resets := 0, holdUs := 0, short := false, rail := 0, lastWarn := 0, eventDue := false }

def Slot.reset : Slot :=
  { phase := 0, unit := 0, pick := 0, requested := false, repeat_ := false, bnCause := false,
    who := none, reqs := [], walkPick := 0, walkUnit := 0, cycles := 0, cycleFails := 0, began := 0 }

def Bist.reset : Bist :=
  { period := 100, enable := true, isolate := 20, cfgPace := none, slots := List.replicate 2 Slot.reset,
    units := List.replicate 176 { st := 0, fails := 0, passes := 0, returns := [] }, usel := 0, cycles := 0,
    picks := 0, fails := 0, skips := 0 }

def Recorder.reset : Recorder :=
  { buffer := [], aon := [], waiting := 0, lostNow := 0, log := [], full := false, lost := 0, suppressed := 0,
    clears := 0, clearing := false, clearBy := none, export_ := false, exPort := 0, exIp := 0, exMac := 0, optime := 0,
    stored := 0, power := 1, ring := [], head := 0, frozen := false, triggered := false, post := 0, trigCode := 0,
    trigIdx := 0, classes := [], codemap := [], buckets := [], lastIdx := [], frames := 0 }

def Iom.reset : Iom :=
  { pins := List.replicate 8 { req := 0, granted := 0, preempted := false, refused := false, kept := 0 }, inLevel := 0,
    out := 0, cmp1 := 0, haltRefused := false, extestRefused := false, refusals := 0, drops := 0 }

def Board.reset : Board :=
  { roleStrap := false, smbStrap := 0, bootStrap := false, smbAddr := 0, temp := 400, thermWarn := false,
    railsOk := false }

/-- LOG2_BUCKETS and BASE of the prefix tables of lengths 1 to 19 (Table 07.2). -/
def RtTables.defaultLayout : List (Nat × Nat) :=
  [(8, 0), (8, 256), (8, 512), (8, 768), (8, 1024), (15, 1280), (13, 34048), (16, 42240), (14, 107776), (13, 124160),
   (13, 132352), (12, 140544), (10, 144640), (10, 145664), (10, 146688), (10, 147712), (10, 148736), (10, 149760),
   (10, 150784)]

def State.reset : State :=
  { sys := Sys.reset, mem := [], queues := [], fetched := [], cmds := [], parts := [Part.owner], gens := [(0, 1)],
    sched := Sched.reset, host := HostIf.reset, dups := [], drafts := Drafts.reset,
    trd := List.replicate 16 Treadle.reset, ks := KeyStore.reset, kc := KCache.reset,
    rt := RtTables.reset RtTables.defaultLayout, bn := Bignum.reset, rng := Rng.reset, qr := Dual.reset,
    lk := Link.reset, pt := TimeKeep.reset, lc := LifeCycle.reset, dbg := Debug.reset,
    mpu := List.replicate 12 Mpu.reset, tmp := Tamper.reset, sag := Sag.reset, bist := Bist.reset,
    evr := Recorder.reset, iom := Iom.reset, board := Board.reset, tears := [], d3held := [], draw := 0, out := [],
    pending := [] }

/-- Reasons to stop. No command of this model raises one: the manual gives every command an effect, and an event whose
subject does not exist has none (notes/assumptions/1.md). -/
inductive Fault where
  /-- Raised by no command of this model; safe. -/
  | none
deriving DecidableEq, Repr

inductive Refusal where
  /-- Raised by a dispatch arm of a command with no meaning yet; safe. -/
  | notModelled (mnemonic : String)
deriving DecidableEq, Repr

abbrev Outcome := Host.Outcome State Fault Refusal

end Sys2Proof.Machine
end

