-- ==== Sys2Proof/Machine/Ops.lean ====
section
/-! DEFINITION. The named operations over the state that more than one command uses: byte memory, lookups and updates
of the tables, free values, events and violations, interrupts, beats and stamps, completions, and the retirement of a
command. -/

namespace Sys2Proof.Machine

open Sys2Proof

/-! ## Byte memory -/

def Mem.read : Mem → Nat → Byte
  | [], _ => 0#8
  | (a, b) :: r, x => if x = a then b else Mem.read r x

/-- Writes one byte and keeps the canonical form: a zero byte is not listed. -/
def Mem.write : Mem → Nat → Byte → Mem
  | [], x, v => if v = 0#8 then [] else [(x, v)]
  | (a, b) :: r, x, v =>
    if x < a then (if v = 0#8 then (a, b) :: r else (x, v) :: (a, b) :: r)
    else if x = a then (if v = 0#8 then r else (x, v) :: r)
    else (a, b) :: Mem.write r x v

def Mem.readN (m : Mem) (a n : Nat) : Bytes := (List.range n).map (fun i => Mem.read m (a + i))

def Mem.writeN : Mem → Nat → Bytes → Mem
  | m, _, [] => m
  | m, a, b :: bs => Mem.writeN (Mem.write m a b) (a + 1) bs

/-- Little-endian number at an address. -/
def Mem.num (m : Mem) (a n : Nat) : Nat := leNat (Mem.readN m a n)

/-! ## Lists with a key -/

/-- Every element that satisfies `p`, changed by `f`. -/
def updWhere {α : Type} (p : α → Bool) (f : α → α) (l : List α) : List α := l.map (fun x => if p x then f x else x)

/-- Element `i` changed by `f`. -/
def updAt {α : Type} (l : List α) (i : Nat) (f : α → α) : List α := l.modify i f

/-- The value under a key in an association list. -/
def assocGet (l : List (Nat × Nat)) (k d : Nat) : Nat := ((l.find? (fun p => p.1 == k)).map (fun p => p.2)).getD d

/-- An association list with a key set to a value. -/
def assocSet (l : List (Nat × Nat)) (k v : Nat) : List (Nat × Nat) := (k, v) :: l.filter (fun p => p.1 != k)

/-- The lowest number from `i` on, among `k` of them, that satisfies `f`. -/
def firstFree (f : Nat → Bool) : Nat → Nat → Option Nat
  | 0, _ => none
  | k + 1, i => if f i then some i else firstFree f k (i + 1)

def State.queue? (s : State) (q : Nat) : Option Queue := s.queues.find? (fun x => x.id == q)
def State.modQueue (s : State) (q : Nat) (f : Queue → Queue) : State :=
  { s with queues := updWhere (fun x => x.id == q) f s.queues }

def State.part? (s : State) (p : Nat) : Option Part := s.parts.find? (fun x => x.id == p)
def State.modPart (s : State) (p : Nat) (f : Part → Part) : State :=
  { s with parts := updWhere (fun x => x.id == p) f s.parts }

def State.cmd? (s : State) (p : Place) : Option Cmd := s.cmds.find? (fun c => c.place == p)
/-- The command of a place replaced. -/
def State.setCmd (s : State) (c : Cmd) : State :=
  { s with cmds := updWhere (fun x => x.place == c.place) (fun _ => c) s.cmds }
def State.dropCmd (s : State) (p : Place) : State := { s with cmds := s.cmds.filter (fun c => c.place != p) }

def State.treadle (s : State) (n : Nat) : Treadle := (s.trd[n]?).getD Treadle.reset
def State.modTreadle (s : State) (n : Nat) (f : Treadle → Treadle) : State := { s with trd := updAt s.trd n f }

def State.dirEnt? (s : State) (op : Nat) : Option DirEnt := s.drafts.dir.find? (fun d => d.opcode == op)

def Mbx.idle (fn : Nat) : Mbx :=
  { fn := fn, entry := zeros 128, data := [], ie := false, state := 0, refused := false, readcnt := 0,
    result := zeros 32, waiting := false }
def State.mbx (s : State) (fn : Nat) : Mbx := (s.host.mbx.find? (fun m => m.fn == fn)).getD (Mbx.idle fn)
def State.setMbx (s : State) (m : Mbx) : State :=
  { s with host := { s.host with mbx := m :: s.host.mbx.filter (fun x => x.fn != m.fn) } }

/-- Domain PDn is powered (R20). -/
def State.powered (s : State) (d : Nat) : Bool := s.sys.pdstat.getLsbD (d - 1)

/-- Looms in service: HST.STATUS.LOOMS and the factor of SCH.CAP. -/
def State.looms (s : State) : Nat := (s.trd.filter (fun t => t.inService)).length

def State.send (s : State) (o : Out) : State := { s with out := s.out ++ [o] }

/-! ## Free values (notes/assumptions/4.md) -/

def State.draws (s : State) (n : Nat) : Bytes := (List.range n).map (fun i => Config.freeByte (s.draw + i))
def State.drawn (s : State) (n : Nat) : State := { s with draw := s.draw + n }

/-! ## The partition tree (R35) -/

/-- A partition and its ancestors up to partition 0, at most `fuel` of them. -/
def lineage (s : State) : Nat → Nat → List Nat
  | 0, _ => []
  | k + 1, p =>
    match s.part? p with
    | none => []
    | some x => if p = 0 then [0] else p :: lineage s k x.parent

/-- A partition and its ancestors (the depth limit is 8). -/
def State.ancestors (s : State) (p : Nat) : List Nat := lineage s 8 p

/-- `p` lies in the subtree of `root`, itself included. -/
def State.inSubtree (s : State) (root p : Nat) : Bool := (s.ancestors p).contains root

def State.children (s : State) (p : Nat) : List Part := s.parts.filter (fun x => x.id != 0 && x.parent == p)

/-- Commands of a subtree in flight (R37, R43). -/
def State.inflight (s : State) (root : Nat) : Nat := (s.cmds.filter (fun c => s.inSubtree root c.part)).length

/-- Queues bound in a subtree, as counted against QUEUE_QUOTA. -/
def State.boundQueues (s : State) (root : Nat) : Nat :=
  (s.queues.filter (fun q => q.bound && s.inSubtree root q.part)).length

/-- The effective opcode enable: the partition's own map and those of all its ancestors (R89). -/
def State.enabled (s : State) (p op : Nat) : Bool :=
  (s.ancestors p).all (fun a => ((s.part? a).map (fun x => x.enables.getLsbD op)).getD false)

/-! ## Time -/

/-- Device time: seconds and nanoseconds of the time counter (R300). -/
def State.nowSec (s : State) : Nat := s.pt.sec
def State.nowNs (s : State) : Nat := s.pt.acc / 2 ^ 28
/-- Time is trusted in LOCKED and HOLDOVER. -/
def State.trusted (s : State) : Bool := s.pt.state == 2 || s.pt.state == 3

/-! ## Events (R384, R387, R344) -/

/-- MRAM writes of records are held: a supply warning or a clear in progress. -/
def State.recHeld (s : State) : Bool := s.sag.warning || s.evr.clearing

/-- An event goes to the recorder's buffer; before PD35 is on, to the eight places in AON. One that finds no place is
lost, counted in EVR.LOST when the buffer was full. -/
def State.raise (s : State) (code p1 p2 p3 p4 : Nat) : State :=
  let on := s.powered 35
  let e : Ev := { code := code, p1 := p1, p2 := p2, p3 := p3, p4 := p4, time := s.evr.optime,
                  deferred := !on || s.recHeld }
  if on then
    if s.evr.buffer.length < 256 then
      { s with evr := { s.evr with buffer := s.evr.buffer ++ [e], waiting := s.evr.waiting + 1 } }
    else { s with evr := { s.evr with lost := s.evr.lost + 1, lostNow := s.evr.lostNow + 1 } }
  else if s.evr.aon.length < 8 then { s with evr := { s.evr with aon := s.evr.aon ++ [e] } }
  else s

/-! ## Interrupts (R82-R84) -/

/-- Sends an MSI-X message, or sets its pending bit while it is masked. A function in D3hot sends none, and the message
is dropped: R85 does not say that it is kept (DESIGN CHOICE, notes/assumptions/35.md). -/
def State.msix (s : State) (fn vec : Nat) : State :=
  if s.host.d3.contains fn then s
  else if !s.host.msixEn.contains fn then s
  else
    let masked := s.host.msixMask.contains fn ||
      ((s.host.msix.find? (fun e => e.fn == fn && e.vec == vec)).map (fun e => e.masked)).getD true
    if masked then { s with host := { s.host with pba := (fn, vec) :: s.host.pba.filter (fun p => p != (fn, vec)) } }
    else s.send (.msix fn vec)

/-- Sets a bit of HIRQ.CAUSE; a rise of CAUSE AND ENABLE from zero sends the vector once (R83). -/
def State.cause (s : State) (b : Nat) : State :=
  let c := s.host.cause ||| (1#9 <<< b)
  let s' := { s with host := { s.host with cause := c } }
  if s.host.cause &&& s.host.enable = 0 ∧ c &&& s.host.enable ≠ 0 then s'.msix 0 s.host.vec else s'

/-- HST.READY takes a value; a change raises HIRQ.CAUSE.READY. -/
def State.setReady (s : State) (r : Bool) : State :=
  if s.host.ready = r then s else ({ s with host := { s.host with ready := r } }).cause 1

/-- Bit [1] of HST.STATUS: unpaired, or active in a pair; 0 until start-up step 11 gives the role, and until step 7 of a
promotion (R271, R290). -/
def State.active (s : State) : Bool := s.lk.role == 2 && s.lk.promo == 0
/-- Bit [2] of HST.STATUS: set with IN_SYNC (R282, R289); LONE clears it (R288). -/
def State.paired (s : State) : Bool := s.lk.pstate == 3

/-- The pair role and state change; a change of ACTIVE or PAIRED raises HIRQ.CAUSE.ROLE (R83). While a promotion waits for
its raised reservations ACTIVE is not set yet (R290). A device that is not active does not sweep: its pass ends (R289). -/
def State.setPair (s : State) (pstate role : Nat) : State :=
  let s' := { s with lk := { s.lk with pstate := pstate, role := role },
                     kc := if role = 2 then s.kc else { s.kc with sweeping := false, bucket := 0 } }
  if s'.active = s.active ∧ s'.paired = s.paired then s' else s'.cause 2

/-- The time state changes, with HIRQ.CAUSE.TIME. -/
def State.setTimeState (s : State) (t : Nat) : State :=
  if s.pt.state = t then s else ({ s with pt := { s.pt with state := t } }).cause 4

/-! ## Protocol violations (R86) -/

/-- A violation: counted, captured while VALID is clear (with HIRQ.CAUSE.VIOL) and logged. -/
def State.violation (s : State) (code fn : Nat) (q : Option Nat) (p3 p4 : Nat) : State :=
  let h := s.host
  let s1 := { s with host := { h with violCnt := min (h.violCnt + 1) 0xFFFFFFFF } }
  let s2 := if h.violValid then s1 else
    ({ s1 with host := { s1.host with violCode := code % 256, violFn := fn, violQ := q.getD 0,
                                      violValid := true } }).cause 8
  s2.raise code fn (q.getD 0xFFFFFFFF) p3 p4

/-! ## Protection units: what a fault records (R355) -/

/-- A faulted access of a unit: captured while VALID is clear, counted, and logged. Region 31 stands for the default
map or none. No table gives event 0x0601 parameters: they are zero (R384; notes/assumptions/11.md). -/
def State.mpuFault (s : State) (unit cause kind : Nat) (user : Bool) (region addr size : Nat) : State :=
  let cap := fun (m : Mpu) =>
    if m.valid then m else { m with valid := true, vaddr := addr, vcause := cause, vkind := kind, vuser := user,
                                    vset := m.active, vregion := region, vsize := size }
  let s1 := { s with mpu := updAt s.mpu unit (fun m => { cap m with vcount := min (m.vcount + 1) 0xFFFFFFFF }) }
  s1.raise 0x0601 0 0 0 0

/-- The protection unit of a writer on the internal interconnect (Table 15.1). -/
def Writer.unit : Writer → Nat
  | .host _ | .hostPoisoned _ => 4
  | .steward i _ => i
  | .debug => 10
  | .master u => u

/-- Privileged steward code. -/
def Writer.priv : Writer → Bool
  | .steward _ p => p
  | _ => false

def Writer.user : Writer → Bool
  | .steward _ p => !p
  | _ => false

/-- A register write by a master whose block does not admit it ends with an error response under R13: no effect, and
the violation recorded. -/
def State.denyWrite (s : State) (w : Writer) (addr size : Nat) : State :=
  (s.mpuFault (Writer.unit w) (if Writer.user w then 4 else 5) 1 (Writer.user w) 31 addr size).send (.error addr)

/-! ## Beats and stamps (R283-R287) -/

/-- The stamp of a beat and slot. -/
def stampOf (beat slot : Nat) : Nat := (beat % 2 ^ 44) * 2 ^ 20 + slot

/-- The device mirrors what it changes: active in SYNCING or IN_SYNC. -/
def State.mirroring (s : State) : Bool := s.lk.role == 2 && (s.lk.pstate == 2 || s.lk.pstate == 3)

/-- A frame header (Table 12.2). -/
def frameHeader (typ : Nat) (last : Bool) (len seq beat : Nat) : Bytes :=
  [byte typ, byte (b2n last)] ++ toLe 2 len ++ zeros 4 ++ toLe 8 seq ++ toLe 6 beat ++ zeros 2

/-- The nonce of a sender's frame (R277): its role by strap, then SEQUENCE, both big-endian. -/
def frameNonce (secondary : Bool) (seq : Nat) : Bytes := toBe 4 (1 + b2n secondary) ++ toBe 8 seq

/-- A frame encrypted with AES-256-GCM: the header is the additional data, the payload the ciphertext (R277). -/
def sealFrame (key : Bytes) (secondary : Bool) (typ : Nat) (last : Bool) (seq beat : Nat) (payload : Bytes) : Wire :=
  let h := frameHeader typ last payload.length seq beat
  let n := frameNonce secondary seq
  let c := gcmCipher key n payload
  { header := h, body := c, tag := gcmTag key n h c }

/-- Sends an encrypted frame, which takes the next sequence number; none while no session key is held (R277). -/
def State.frame (s : State) (typ : Nat) (last : Bool) (beat : Nat) (payload : Bytes) : State :=
  if s.lk.sessTx ≠ [] then
    ({ s with lk := { s.lk with txSeq := s.lk.txSeq + 1, tx := (s.lk.tx + 1) % 2 ^ 32 } }).send
      (.frame (sealFrame s.lk.sessTx s.lk.strap typ last s.lk.txSeq beat payload))
  else s

/-- Wire form of a record: the 16-byte header of R285 and the body. -/
def BeatRec.bytes (r : BeatRec) : Bytes :=
  toLe 8 r.stamp ++ [byte r.typ, 0#8] ++ toLe 2 r.body.length ++ toLe 2 r.part ++ zeros 2 ++ r.body

/-- A payload cut into frames of at most 4,096 bytes. -/
def chunks : Nat → Bytes → List Bytes
  | 0, _ => []
  | k + 1, b => if b.length ≤ 4096 then [b] else b.take 4096 :: chunks k (b.drop 4096)

/-- Opens beat number `b`, never 0; the number is written to the configuration region when bits [19:0] are 0. A change
made by PAIR_SET_POLICY applies from here (R297). -/
def State.openBeat (s : State) (n : Nat) : State :=
  let b := if n % 2 ^ 48 = 0 then 1 else n % 2 ^ 48
  let lk := { s.lk with beat := b, slot := 0, recorded := if b % 2 ^ 20 = 0 then some b else s.lk.recorded,
                        beatUs := s.lk.cfgBeatUs, policy := s.lk.cfgPolicy, lossAction := s.lk.cfgLoss,
                        soloMs := s.lk.cfgSolo }
  { s with lk := if s.mirroring && lk.beats.length < 2 then
      { lk with beats := lk.beats ++ [{ num := b, closed := false, recs := [], bytes := 0 }] } else lk }

/-- A beat is open: on a mirroring device one whose buffer it holds (R286). -/
def State.beatOpen (s : State) : Bool :=
  !s.mirroring || s.lk.beats.any (fun b => b.num == s.lk.beat && !b.closed)

/-- Closes the open beat, sends its BEAT_END while mirroring, and opens the next (R283, R286). -/
def State.closeBeat (s : State) : State :=
  if s.mirroring then
    match s.lk.beats.find? (fun b => b.num == s.lk.beat && !b.closed) with
    | none => s
    | some b =>
      let last := ((b.recs.filter (fun r => r.stamp != 0)).getLast?.map (fun r => r.stamp)).getD 0
      let s1 := s.frame 0x03 true b.num (toLe 4 b.recs.length ++ toLe 4 b.bytes ++ toLe 8 last)
      let s2 := { s1 with lk := { s1.lk with
        closed := s.lk.beat
        beats := updWhere (fun x => x.num == b.num) (fun x => { x with closed := true }) s1.lk.beats } }
      s2.openBeat (s.lk.beat + 1)
  else ({ s with lk := { s.lk with closed := s.lk.beat } }).openBeat (s.lk.beat + 1)

/-- A record enters the open beat and is sent. With no beat open it waits. -/
def State.enter (s : State) (r : BeatRec) : State :=
  if s.mirroring && !s.beatOpen then { s with lk := { s.lk with late := s.lk.late ++ [r] } }
  else if s.mirroring then
    let b := r.bytes
    let s1 := (chunks (b.length + 1) b).foldl (fun t c => t.frame 0x02 false s.lk.beat c) s
    { s1 with lk := { s1.lk with
      beats := updWhere (fun x => x.num == s.lk.beat && !x.closed)
        (fun x => { x with recs := x.recs ++ [r], bytes := x.bytes + b.length }) s1.lk.beats } }
  else s

/-- A full buffer closes the open beat. -/
def State.closeFull (s : State) : State :=
  if s.mirroring && s.lk.beats.any (fun x => x.num == s.lk.beat && !x.closed && decide (x.bytes ≥ 2 ^ 20)) then s.closeBeat
  else s

/-- A record enters the open beat, which closes when it is full. -/
def State.record (s : State) (r : BeatRec) : State := (s.enter r).closeFull

/-- The stamp that the next committed change takes. -/
def State.nextStamp (s : State) : Nat := stampOf s.lk.beat s.lk.slot

/-- A committed state change: it takes the next slot of the open beat, and its record is mirrored (R284, R285), with the
records `more` that belong to the beat of the commit (R75). -/
def State.commitWith (s : State) (typ part : Nat) (body : Bytes) (more : List BeatRec) : State :=
  let r : BeatRec := { stamp := s.nextStamp, typ := typ, part := part, body := body }
  let s1 := (more.foldl State.enter (s.enter r)).closeFull
  if s1.lk.beat ≠ s.lk.beat then s1
  else if s.lk.slot = 0xFFFFF then s1.closeBeat
  else { s1 with lk := { s1.lk with slot := s.lk.slot + 1 } }

def State.commit (s : State) (typ part : Nat) (body : Bytes) : State := s.commitWith typ part body []

/-- A reservation that is not begun yet: the object's previous one awaits its BEAT_ACK (R287). -/
def State.resvWaits (s : State) : CommitKind → Bool
  | .reserve h _ _ _ => s.ks.objs.any (fun o => o.handle == h && (match o.resBeat with
      | none => false
      | some n => s.lk.beats.any (fun b => b.num == n)))
  | _ => false

/-- Step 7 of a promotion, once its raised reservations are committed: HST.STATUS.ACTIVE is set, admission begins, and
event 0x0704 is written (R290). -/
def State.promoteEnd (s : State) : State :=
  let raising := fun (k : CommitKind) => match k with
    | .raise _ => true
    | _ => false
  if s.lk.promo = 0 ∨ s.ks.queue.any (fun x => raising x.kind) then s
  else
    let s1 := { s with lk := { s.lk with promo := 0 } }
    (s1.raise 0x0704 (s.lk.prom % 2 ^ 32) (s.lk.prom / 2 ^ 32) s.lk.promo 0).cause 2

/-- The commit that the journal writes next, or is writing (R136). -/
def State.headCommit (s : State) : Option Commit := s.ks.queue.find? (fun x => !s.resvWaits x.kind)

/-- A completion with a stamp assigned now waits for its BEAT_ACK: IN_SYNC under MIRRORED, or MIRROR_WAIT (R287). -/
def State.waitsBeat (s : State) (flags : Nat) : Bool :=
  s.lk.role == 2 && s.lk.pstate == 3 && (s.lk.policy || bit flags 3)

/-! ## Completions (R69-R72, R78) -/

/-- Bytes of a completion entry (Table 03.7). -/
def completionBytes (tag status flags stamp : Nat) (inline : Bytes) : Bytes :=
  toLe 4 tag ++ toLe 2 status ++ [byte flags, 0#8] ++ toLe 8 stamp ++ sl inline 0 16

/-- A completion into the ring slot at the completion tail (R70, R71). -/
def State.ringWrite (s : State) (q : Queue) (tag status flags stamp : Nat) (inline : Bytes) : State :=
  let d := 2 ^ q.log2
  let s1 := s.send (.hostWrite (q.cq + 32 * q.cqTail) (completionBytes tag status (flags + b2n q.phase) stamp inline))
  s1.modQueue q.id (fun x => { x with cqTail := (x.cqTail + 1) % d,
                                      phase := if x.cqTail + 1 = d then !x.phase else x.phase })

/-- A completion into the ring, then the queue's message (R72, R82); with `more` set another completion of the queue
follows at once, and the message waits for the last of them. -/
def State.ringComplete (s : State) (more : Bool) (q : Queue) (tag status flags stamp : Nat) (inline : Bytes) : State :=
  let s1 := s.ringWrite q tag status flags stamp inline
  if q.intEn && !more then s1.msix q.fn q.vec else s1

/-- A completion into a mailbox: RESULT with PHASE 1, state DONE, and its interrupt (R78, HMB.MBX_CTRL.IE). -/
def State.mboxComplete (s : State) (fn tag status flags stamp : Nat) (inline : Bytes) : State :=
  let m := s.mbx fn
  let s1 := s.setMbx { m with result := completionBytes tag status (flags + 1) stamp inline, state := 2 }
  if fn = 0 then s1.cause 0 else if m.ie then s1.msix fn 0 else s1

/-- The reply area: host memory, or the mailbox data window for a zero address (R69, R79). The reply 'may' carry Relaxed
Ordering while the function enables it (R72); the model's host writes show no attribute (DESIGN CHOICE,
notes/assumptions/6.md). -/
def State.writeReply (s : State) (path : Path) (entry reply : Bytes) : State :=
  let addr := fieldLe entry 32 8
  match path with
  | .mailbox fn =>
    if addr = 0 then
      let m := s.mbx fn
      s.setMbx { m with data := Mem.writeN m.data 0 reply }
    else s.send (.hostWrite addr reply)
  | .queue _ => s.send (.hostWrite addr reply)

/-- Writes the reply and then the completion of a command (R72). A function in D3hot gets them on its return to D0
(R85). `more`: another completion of the path follows at once (R82). -/
def State.deliverOne (s : State) (more : Bool) (h : Held) : State :=
  if s.host.d3.contains h.fn then { s with d3held := s.d3held ++ [h] }
  else
    let tag := fieldLe h.entry 0 4
    let s1 := if h.reply = [] then s else s.writeReply h.path h.entry h.reply
    match h.path with
    | .queue q =>
      match s1.queue? q with
      | none => s1
      | some x => s1.ringComplete more x tag h.status h.flags h.stamp h.inline
    | .mailbox fn => s1.mboxComplete fn tag h.status h.flags h.stamp h.inline

def State.deliver (s : State) (h : Held) : State := s.deliverOne false h

/-- Completions written back to back: those of one queue share one message, after the last of them (R82). -/
def State.deliverAll (s : State) : List Held → State
  | [] => s
  | h :: r => (s.deliverOne (r.any (fun x => x.path == h.path)) h).deliverAll r

/-- A completion that carries nothing but a status (admission checks, R73). -/
def bareHeld (path : Path) (fn part : Nat) (entry : Bytes) (status : Nat) : Held :=
  { beat := 0, path := path, fn := fn, entry := entry, status := status, flags := 0, stamp := 0,
    inline := zeros 16, reply := [], part := part }

def State.refuseEntry (s : State) (path : Path) (fn part : Nat) (entry : Bytes) (status : Nat) : State :=
  s.deliver (bareHeld path fn part entry status)

/-! ## Commands in flight -/

def Cmd.entry (c : Cmd) : Bytes := Mem.readN c.mem 0 128
def Cmd.tag (c : Cmd) : Nat := Mem.num c.mem 0 4
def Cmd.flags (c : Cmd) : Nat := Mem.num c.mem 6 1
def Cmd.krefs (c : Cmd) : Nat := Mem.num c.mem 7 1
def Cmd.idem (c : Cmd) : Nat := Mem.num c.mem 8 8
def Cmd.replyLen (c : Cmd) : Nat := Mem.num c.mem 28 4
/-- The admin path: the physical-function mailbox, or a queue of the physical function bound to partition 0 (R40). -/
def Cmd.admin (c : Cmd) : Bool := c.fn == 0 && c.part == 0
/-- Inline parameter bytes, by their number in the submission entry. -/
def Cmd.inl (c : Cmd) (a n : Nat) : Nat := Mem.num c.mem a n
def Cmd.inlB (c : Cmd) (a n : Nat) : Bytes := Mem.readN c.mem a n
/-- Extended data as fetched. -/
def Cmd.ext (c : Cmd) : Bytes := Mem.readN c.mem 0x100 c.extLen
/-- Offset of the opcode's own data (R68). -/
def Cmd.ownOff (c : Cmd) : Nat := (c.krefs - 2) * 16
/-- Inline result area. -/
def Cmd.setInline (c : Cmd) (off : Nat) (b : Bytes) : Cmd := { c with mem := Mem.writeN c.mem (0xC0 + off) b }
def Cmd.inlineResult (c : Cmd) : Bytes := Mem.readN c.mem 0xC0 16

/-- A way and the continuation that carries its tag and incarnation (R152). -/
def Way.sameKey (x w : Way) : Bool := x.bank == w.bank && x.bucket == w.bucket && x.tag == w.tag && x.inc == w.inc

/-- The head way at a place and incarnation. -/
def Way.at_ (b u w inc : Nat) (x : Way) : Bool :=
  x.bank == b && x.bucket == u && x.way == w && x.inc == inc && !x.cont

/-- Releases the pin, or drops the shadow entry, of a key register (R91). An invalidated way is freed when its last pin
is released (R160). -/
def State.unpin (s : State) (k : KReg) : State :=
  match k.loc with
  | .shadow => s
  | .way b u w inc =>
    let ws := updWhere (Way.at_ b u w inc) (fun x => { x with pins := x.pins - 1 }) s.kc.ways
    let free := ws.filter (fun x => Way.at_ b u w inc x && x.invalidated && x.pins == 0 && !x.filling)
    { s with kc := { s.kc with ways := ws.filter (fun x => !free.any (fun f => x.sameKey f)) } }

/-- A PAIR_BEGIN that ends before its pair record is committed leaves the device as it was: no ceremony, PD25 off (R281). -/
def State.endCeremony (s : State) (p : Place) : State :=
  if s.lk.beginBy ≠ some p then s
  else if s.lk.pairRec.isSome then { s with lk := { s.lk with beginBy := none } }
  else
    { s with
      lk := { s.lk with beginBy := none, ceremony := false, source := false, named := none, hello := none, eph := [],
                        ownNonce := [], helloDue := false, lanes := 0 }
      sys := { s.sys with pdctl := s.sys.pdctl &&& ~~~(1#36 <<< 24) } }

/-- Removes what a command held: its pins, its journal commit, its bignum job, the image staging area; lines of
drafts that no command runs any more are freed (R92, R112, R88), and admission that a switchover stopped resumes. -/
def State.release (s : State) (c : Cmd) : State :=
  let s1 := (c.kregs.foldl (fun t k => t.unpin k.2) s).endCeremony c.place
  let s2 := s1.dropCmd c.place
  let live := fun (o : Nat × Nat × List Nat) => s2.cmds.any (fun x => x.opcode == o.1 && x.dgen == o.2.1)
  let dr := s2.drafts
  { s2 with
    sys := { s2.sys with drainStop := s2.sys.drainStop && c.phase != .waitSwitch }
    ks := { s2.ks with queue := s2.ks.queue.filter (fun x => x.who != some c.place) }
    qr := { s2.qr with waiting := s2.qr.waiting.filter (fun p => p != c.place),
                       verifying := s2.qr.verifying.filter (fun p => p != c.place) }
    rt := { s2.rt with rWait := s2.rt.rWait.filter (fun p => p != c.place),
                       pWait := s2.rt.pWait.filter (fun p => p != c.place) }
    kc := { s2.kc with walks := s2.kc.walks.map (fun w => { w with who := w.who.filter (fun p => p != c.place) }) }
    drafts := { dr with oldLines := dr.oldLines.filter live,
                        staging := if dr.holder = some c.place then [] else dr.staging,
                        holder := if dr.holder = some c.place then none else dr.holder } }

/-- The 16-byte reply header (Table 03.6). -/
def replyHeader (s : State) (flags len : Nat) : Bytes :=
  if bit flags 1 then
    toLe 4 len ++ toLe 6 s.nowSec ++ toLe 4 s.nowNs ++ [byte s.pt.state, 0#8]
  else toLe 4 len ++ zeros 12

/-- The duplicate record of a command that commits with a tag (R75). -/
def Cmd.dup (c : Cmd) (time : Nat) (inline : Bytes) : Option Dup :=
  if c.stamp = 0 ∨ c.idem = 0 then none
  else some { part := c.part, tag := c.idem, opcode := c.opcode, stamp := c.stamp, inline := sl inline 0 16, time := time }

/-- Its mirrored form (record type 0x0A). -/
def Dup.mirror (d : Dup) : BeatRec :=
  { stamp := d.stamp, typ := 0x0A, part := d.part,
    body := toLe 2 d.part ++ toLe 8 d.tag ++ toLe 2 d.opcode ++ toLe 8 d.stamp ++ d.inline }

/-- Two records of one commit. -/
def Dup.sameCommit (a b : Dup) : Bool := a.part == b.part && a.tag == b.tag && a.stamp == b.stamp

/-- A record enters the duplicate table, where the oldest of 131,072 gives way; one of the same commit is replaced. -/
def State.putDup (s : State) (d : Dup) : State :=
  { s with dups :=
      if s.dups.any d.sameCommit then updWhere d.sameCommit (fun x => { d with time := x.time }) s.dups
      else (if s.dups.length < 131072 then s.dups else s.dups.drop 1) ++ [d] }

/-- The duplicate record that a command leaves now; none for a partition that is gone (R76). -/
def State.dupOf (s : State) (c : Cmd) (inline : Bytes) : Option Dup :=
  if (s.part? c.part).isNone then none else c.dup s.evr.optime inline

/-- The duplicate record of a retiring command. It was made with the commit, in the commit's beat; an inline result that
the draft changed afterwards is mirrored again (R75; notes/assumptions/39.md). -/
def State.noteDup (s : State) (c : Cmd) (inline : Bytes) : State :=
  match s.dupOf c inline with
  | none => s
  | some d =>
    if s.dups.any (fun x => d.sameCommit x && x.inline == d.inline) then s else (s.putDup d).record d.mirror

/-- A commit of a command, with its duplicate record in the same beat (R75). -/
def State.commitFor (s : State) (c : Cmd) (inline : Bytes) (typ part : Nat) (body : Bytes) : State :=
  match s.dupOf c inline with
  | none => s.commit typ part body
  | some d => (s.putDup d).commitWith typ part body [d.mirror]

/-- What a retiring command writes to its host. `keep` says that its inline result is given with its status. -/
def Cmd.held (c : Cmd) (s : State) (status : Nat) (rf keep : Bool) (reply : Bytes) : Held :=
  let wr := status == 0 && c.replyLen != 0
  { beat := c.stamp / 2 ^ 20, path := c.path, fn := c.fn, entry := c.entry, status := status,
    flags := 2 * b2n rf + 4 * b2n wr + 8 * b2n c.keyLoaded, stamp := c.stamp,
    inline := if keep || status == 0 then c.inlineResult else zeros 16,
    reply := if wr then replyHeader s c.flags reply.length ++ reply else [], part := c.part }

/-- A command retires (R92, R72): its duplicate record is kept, everything it held is released, and its completion is
written, or held for the acknowledgement of its beat (R287), or dropped when its queue's function was reset (R49). -/
def State.retireWith (s : State) (c : Cmd) (status : Nat) (rf keep : Bool) (reply : Bytes) : State :=
  let h := c.held s status rf keep reply
  let s1 := (if status = 0x0001 then s else s.noteDup c h.inline).release c
  if c.discard then s1
  else if c.mirror && s1.lk.beats.any (fun b => b.num % 2 ^ 44 == h.beat) then
    { s1 with lk := { s1.lk with held := s1.lk.held ++ [h] } }
  else s1.deliver h

/-- Retirement with a status, no reply data and no inline result (R97, R105). -/
def State.retire (s : State) (c : Cmd) (status : Nat) : State := s.retireWith c status false false []

/-- Aborts a command at its step boundary (R105). A running job is stopped at its yield point, a parked command by its
steward; a STORE being written at the journal completes, and so does a command that has committed, or a teardown. -/
def State.abort (s : State) (c : Cmd) : State :=
  if c.stamp ≠ 0 then s
  else match c.phase with
  | .waitBn j =>
    { (s.setCmd { c with abort := true }) with
      bn := { s.bn with jobs := updWhere (fun x => x.id == j) (fun x => { x with abort := true }) s.bn.jobs } }
  | .parked _ _ => s.setCmd { c with abort := true }
  | .committed _ => s
  | .waitCommit =>
    if (s.headCommit.bind (fun x => x.who)) = some c.place then s.setCmd { c with abort := true } else s.retire c 0x7002
  | .waitTeardown _ => s.setCmd { c with abort := true }
  | .waitQuorum => if s.qr.verifying = some c.place then s.setCmd { c with abort := true } else s.retire c 0x7002
  | _ => s.retire c 0x7002

/-- Aborts every command that satisfies `p`. -/
def State.abortWhere (s : State) (p : Cmd → Bool) : State := (s.cmds.filter p).foldl (fun t c => t.abort c) s

/-! ## Time that passes without a command (notes/assumptions/10.md) -/

/-- The command's queue has left BOUND, or is gone, and it is not the command that unbinds or deletes it. -/
def leftBehind (s : State) (c : Cmd) : Bool :=
  match c.path with
  | .mailbox _ => c.discard
  | .queue q => (c.discard || !((s.queue? q).map (fun x => x.bound)).getD false) && !([0x012, 0x021, 0x023].contains c.opcode)

/-- One millisecond of operating time: commands of a queue that has left BOUND reach their abort point (Table 02.6,
R49, R50), the operating time counts, each running watchdog counts, and export frames queued at the management port have
left it (R385, R25). -/
def State.tick (s0 : State) : State :=
  let s := s0.abortWhere (leftBehind s0)
  let runs := fun (i : Nat) => s.powered (27 + i) && !s.sys.wdtPaused.contains i && decide (s.sys.step ≥ 10)
  { s with
    evr := { s.evr with optime := s.evr.optime + 1, frames := 0 }
    sys := { s.sys with wdtCount := s.sys.wdtCount.mapIdx (fun i c => if runs i then c + 1 else c) } }

/-- Operating time is at least `t`: a command that reports the end of a wait also tells that its time has passed. -/
def State.timeAtLeast (s : State) (t : Nat) : State :=
  { s with evr := { s.evr with optime := max s.evr.optime t } }

end Sys2Proof.Machine
end

