-- ==== Sys2Proof/Machine/Entropy.lean ====
section
/-! DEFINITION. Requests for random output (R247, R248, R250): the CTR_DRBG of SP 800-90A with AES-256 and the derivation
function, in each loom and in the CPC, and the pool of conditioned blocks that seed it. -/

namespace Sys2Proof.Machine

open Sys2Proof

/-! ## CTR_DRBG (R247) -/

/-- The blocks E(K, V + 1) … E(K, V + n), and the counter after them. -/
def ctrBlocks (k : Bytes) : Nat → Bytes → Bytes × Bytes
  | 0, v => ([], v)
  | n + 1, v =>
    let v1 := toBe 16 (beNat v + 1)
    let r := ctrBlocks k n v1
    (aesBlock k v1 ++ r.1, r.2)

/-- CTR_DRBG_Update with 48 bytes of provided data. -/
def ctrUpdate (d : Drbg) (data : Bytes) : Drbg :=
  let t := xorBytes (ctrBlocks d.key 3 d.v).1 (sl data 0 48)
  { d with key := sl t 0 32, v := sl t 32 16 }

/-- The chaining value of a string of whole blocks (BCC). -/
def bcc (k : Bytes) : Nat → Bytes → Bytes → Bytes
  | 0, chain, _ => chain
  | n + 1, chain, x => bcc k n (aesBlock k (xorBytes chain (sl x 0 16))) (x.drop 16)

/-- Block_Cipher_df: 48 bytes from an input string. -/
def drbgDf (x : Bytes) : Bytes :=
  let k0 := (List.range 32).map byte
  let t := toBe 4 x.length ++ toBe 4 48 ++ x ++ [0x80#8]
  let s := t ++ zeros ((16 - t.length % 16) % 16)
  let part := fun (i : Nat) => bcc k0 (s.length / 16 + 1) (zeros 16) (toBe 4 i ++ zeros 12 ++ s)
  let y := part 0 ++ part 1 ++ part 2
  let k := sl y 0 32
  let a := aesBlock k (sl y 32 16)
  let b := aesBlock k a
  a ++ b ++ aesBlock k b

/-- The personalisation string of instance `i`. -/
def personal (i : Nat) : Bytes := sl Config.pcieSerial 0 8 ++ [byte i] ++ zeros 7

/-- Instantiate with one conditioned block, which supplies the nonce as well. -/
def ctrInstantiate (i : Nat) (block : Bytes) (d : Drbg) : Drbg :=
  { ctrUpdate { d with key := zeros 32, v := zeros 16 } (drbgDf (block ++ personal i)) with
    seeded := true, requests := 0, wait := 0 }

/-- Reseed with one conditioned block and no additional input. -/
def ctrReseed (block : Bytes) (d : Drbg) : Drbg := { ctrUpdate d (drbgDf block) with requests := 0, wait := 0 }

/-- Generate `n` bytes with additional input, possibly none. -/
def ctrGenerate (d : Drbg) (n : Nat) (add : Bytes) : Drbg × Bytes :=
  let a := if add = [] then zeros 48 else drbgDf add
  let d1 := if add = [] then d else ctrUpdate d a
  let r := ctrBlocks d1.key ((n + 15) / 16) d1.v
  ({ ctrUpdate { d1 with v := r.2 } a with requests := d.requests + 1 }, sl r.1 0 n)

/-! ## Instances and requests -/

/-- The instance that serves a place: the loom's, or D16 for the CPC. -/
def drbgOf : Place → Nat
  | .shed n _ => n
  | .ctx _ => 16

/-- Output is stopped: after a health-test failure, by the latch, or in raw-sample mode. -/
def State.rngOff (s : State) : Bool := s.rng.stopped || s.rng.latched || s.rng.raw

def State.drbg (s : State) (i : Nat) : Drbg := (s.rng.drbgs[i]?).getD Drbg.reset

def State.modDrbg (s : State) (i : Nat) (f : Drbg → Drbg) : State :=
  { s with rng := { s.rng with drbgs := updAt s.rng.drbgs i f } }

/-- What a request gives: bytes, RNG_UNAVAILABLE, or a wait for a conditioned block. -/
inductive Drawn where
  | bytes (s : State) (b : Bytes)
  | off
  | waits (s : State)

/-- The instance joins those that wait for a block. -/
def State.drbgWait (s : State) (i kind : Nat) : State :=
  if (s.drbg i).wait ≠ 0 then s
  else
    let s1 := s.modDrbg i (fun d => { d with wait := kind, since := s.rng.nextWait })
    { s1 with rng := { s1.rng with nextWait := s1.rng.nextWait + 1 } }

/-- An instance generates. -/
def State.generate (s : State) (i n : Nat) (add : Bytes) : Drawn :=
  let r := ctrGenerate (s.drbg i) n add
  .bytes (s.modDrbg i (fun _ => r.1)) r.2

/-- One request of up to 256 bytes. The 4,097th since the last seed reseeds first, from the pool. -/
def State.request (s : State) (i n : Nat) (add : Bytes) : Drawn :=
  let d := s.drbg i
  if s.rngOff then .off
  else if !d.seeded then .waits (s.drbgWait i 1)
  else if d.requests < 4096 then s.generate i n add
  else match s.rng.pool with
    | [] => .waits (s.drbgWait i 2)
    | b :: rest =>
      let s1 := s.modDrbg i (ctrReseed b)
      State.generate { s1 with rng := { s1.rng with pool := rest, reseeds := (s1.rng.reseeds + 1) % 2 ^ 32 } } i n add

/-- As many requests as a length needs, each with the additional input (notes/assumptions/63.md). -/
def State.requests (s : State) (i : Nat) (add : Bytes) : Nat → Nat → Bytes → Drawn
  | 0, _, acc => .bytes s acc
  | k + 1, n, acc =>
    if n ≤ 256 then
      match s.request i n add with
      | .bytes s1 b => .bytes s1 (acc ++ b)
      | r => r
    else
      match s.request i 256 add with
      | .bytes s1 b => State.requests s1 i add k (n - 256) (acc ++ b)
      | r => r

/-- Random output of `n` bytes from instance `i` with additional input; nothing is asked for an empty output. -/
def State.randomWith (s : State) (i n : Nat) (add : Bytes) : Drawn :=
  if n = 0 then .bytes s [] else s.requests i add (n / 256 + 1) n []

/-- Random output of `n` bytes from instance `i`. -/
def State.random (s : State) (i n : Nat) : Drawn := s.randomWith i n []

/-- The command waits for its instance from now on (R248). -/
def State.waitRng (s : State) (c : Cmd) : State := s.setCmd { c with phase := .waitRng, asked := s.evr.optime }

end Sys2Proof.Machine
end

