-- ==== Sys2Proof/Machine/Flags.lean ====
section
/-! DEFINITION. The flags of a draft step: U into F (R94), the branch (Table 04.5), the value registers, and the count
of steps executed. -/

namespace Sys2Proof.Machine

open Sys2Proof

/-- The flag register F (Table 04.2). -/
def Cmd.f (c : Cmd) : BitVec 16 := BitVec.ofNat 16 (Mem.num c.mem 0xA0 2)
def Cmd.setF (c : Cmd) (f : BitVec 16) : Cmd := { c with mem := Mem.writeN c.mem 0xA0 (toLe 2 f.toNat) }

/-- Value register V0-V7. -/
def Cmd.v (c : Cmd) (i : Nat) : Nat := Mem.num c.mem (0x80 + 4 * (i % 8)) 4
def Cmd.setV (c : Cmd) (i x : Nat) : Cmd := { c with mem := Mem.writeN c.mem (0x80 + 4 * (i % 8)) (toLe 4 x) }

/-- Steps executed so far. -/
def Cmd.count (c : Cmd) : Nat := Mem.num c.mem 0xA2 2

/-- U is written to F[3:0], and for FSEL = k not 0 also to F[4k+3:4k] (R94). -/
def saveFlags (f : BitVec 16) (u : BitVec 4) (fsel : BitVec 2) : BitVec 16 :=
  let put := fun (x : BitVec 16) (k : Nat) => (x &&& ~~~(0xF#16 <<< (4 * k))) ||| (u.setWidth 16 <<< (4 * k))
  let g := put f 0
  if fsel = 0 then g else put g fsel.toNat

/-- The branch is taken (Table 04.5). -/
def taken (f : BitVec 16) (br : BitVec 3) (bflag : BitVec 4) : Bool :=
  let b := f.getLsbD bflag.toNat
  (br == 1 && b) || (br == 2 && !b) || br == 3

/-- The next step index: TARGET when the branch is taken, otherwise `next`. -/
def branch (f : BitVec 16) (a : StepArgs) (next : Nat) : Nat :=
  if taken f a.br a.bflag then a.target.toNat else next

/-- A step has returned its flags: F, then the branch on the updated F, then the count of steps (R94). -/
def Cmd.advance (c : Cmd) (a : StepArgs) (u : BitVec 4) : Cmd :=
  let f := saveFlags c.f u a.fsel
  let c1 := c.setF f
  { c1 with mem := Mem.writeN c1.mem 0xA2 (toLe 2 (c.count + 1)), idx := branch f a (c.idx + 1),
            phase := .ready, pend := none }

/-- U flags from up to three conditions: U0, U1, U2. -/
def uflags (u0 u1 u2 : Bool) : BitVec 4 := BitVec.ofNat 4 (b2n u0 + 2 * b2n u1 + 4 * b2n u2)

end Sys2Proof.Machine
end

