-- ==== Sys2Proof/Machine/Modes.lean ====
section
/-! DEFINITION. Block-cipher modes over the ciphers of Config (R99, Table 04.8), padding (R101), MAC methods (R200) and
the hexadecimal and decimal text of key blocks. -/

namespace Sys2Proof.Machine

open Sys2Proof

/-- AES algorithm codes 1 to 3; TDES codes 4 and 5 (Table 05.4). -/
def isAes (alg : Nat) : Bool := decide (1 ≤ alg ∧ alg ≤ 3)
def isTdes (alg : Nat) : Bool := decide (alg = 4 ∨ alg = 5)
def isRsa (alg : Nat) : Bool := decide (11 ≤ alg ∧ alg ≤ 13)

/-- Cipher block length in bytes. -/
def blockLen (alg : Nat) : Nat := if isAes alg then 16 else 8

def encBlock (alg : Nat) (key b : Bytes) : Bytes :=
  sl (if isAes alg then Config.aesEnc key b else Config.tdesEnc key b) 0 (blockLen alg)
def decBlock (alg : Nat) (key b : Bytes) : Bytes :=
  sl (if isAes alg then Config.aesDec key b else Config.tdesDec key b) 0 (blockLen alg)

/-- A string cut into whole blocks of `n` bytes, a last part zero-filled. -/
def blocksOf (n : Nat) (b : Bytes) : List Bytes := (List.range ((b.length + n - 1) / n)).map (fun i => sl b (n * i) n)

def ecbEnc (alg : Nat) (key msg : Bytes) : Bytes := (blocksOf (blockLen alg) msg).flatMap (encBlock alg key)
def ecbDec (alg : Nat) (key msg : Bytes) : Bytes := (blocksOf (blockLen alg) msg).flatMap (decBlock alg key)

def cbcEncBlocks (alg : Nat) (key : Bytes) : Bytes → List Bytes → Bytes
  | _, [] => []
  | iv, b :: r =>
    let e := encBlock alg key (xorBytes iv b)
    e ++ cbcEncBlocks alg key e r
def cbcDecBlocks (alg : Nat) (key : Bytes) : Bytes → List Bytes → Bytes
  | _, [] => []
  | iv, b :: r => xorBytes iv (decBlock alg key b) ++ cbcDecBlocks alg key b r

def cbcEnc (alg : Nat) (key iv msg : Bytes) : Bytes :=
  cbcEncBlocks alg key (sl iv 0 (blockLen alg)) (blocksOf (blockLen alg) msg)
def cbcDec (alg : Nat) (key iv msg : Bytes) : Bytes :=
  cbcDecBlocks alg key (sl iv 0 (blockLen alg)) (blocksOf (blockLen alg) msg)

/-- Counter block `i` after the first: a big-endian increment of the whole block (R99). -/
def ctrBlock (n : Nat) (first : Bytes) (i : Nat) : Bytes := toBe n ((beNat (sl first 0 n) + i) % 2 ^ (8 * n))

def ctrStream (alg : Nat) (key first : Bytes) (len : Nat) : Bytes :=
  let n := blockLen alg
  sl ((List.range ((len + n - 1) / n)).flatMap (fun i => encBlock alg key (ctrBlock n first i))) 0 len
def ctrCrypt (alg : Nat) (key first msg : Bytes) : Bytes := xorBytes msg (ctrStream alg key first msg.length)

/-- ISO 9797-1 padding (R101): method 1 appends zeros, method 2 appends 0x80 and zeros. -/
def padMsg (method n : Nat) (b : Bytes) : Bytes :=
  if method = 2 then
    let x := b ++ [0x80#8]
    x ++ zeros ((n - x.length % n) % n)
  else if b = [] then zeros n
  else b ++ zeros ((n - b.length % n) % n)

/-- The full MAC of a method of R200 and Table 04.8: 0 CMAC, 1 ISO 9797-1 algorithm 3 over a padded string. -/
def macCmac (alg : Nat) (key msg : Bytes) : Bytes := sl (Config.cmac (isAes alg) key msg) 0 (blockLen alg)
def macAlg3 (key padded : Bytes) : Bytes := sl (Config.macAlg3 key padded) 0 8
def macHmac (key msg : Bytes) : Bytes := sl (Config.hmac512 key msg) 0 64

/-! ## Text -/

def upperHexDigit (n : Nat) : Byte := if n < 10 then byte (0x30 + n) else byte (0x37 + n)
def hexText (b : Bytes) : Bytes := (nibbles b).map upperHexDigit

/-- Value of an uppercase hexadecimal character. -/
def hexVal (c : Byte) : Option Nat :=
  let n := c.toNat
  if 0x30 ≤ n ∧ n ≤ 0x39 then some (n - 0x30) else if 0x41 ≤ n ∧ n ≤ 0x46 then some (n - 0x37) else none
def decVal (c : Byte) : Option Nat :=
  let n := c.toNat
  if 0x30 ≤ n ∧ n ≤ 0x39 then some (n - 0x30) else none

/-- Every element of a list under a partial function. -/
def allSome {α β : Type} (f : α → Option β) : List α → Option (List β)
  | [] => some []
  | x :: r => match f x, allSome f r with
    | some y, some ys => some (y :: ys)
    | _, _ => none

def hexNat (t : Bytes) : Option Nat := (allSome hexVal t).map (fun ds => ds.foldl (fun n d => 16 * n + d) 0)
def decNat (t : Bytes) : Option Nat := (allSome decVal t).map (fun ds => ds.foldl (fun n d => 10 * n + d) 0)
def unhex (t : Bytes) : Option Bytes := if t.length % 2 = 1 then none else (allSome hexVal t).map packNibbles

/-- `k` decimal digits of a number. -/
def decText : Nat → Nat → Bytes
  | 0, _ => []
  | k + 1, n => decText k (n / 10) ++ [byte (0x30 + n % 10)]

/-- Odd parity: the low bit of each byte is set so that the byte has an odd number of ones (R124). -/
def oddParity (b : Bytes) : Bytes :=
  b.map (fun x =>
    let ones := ((List.range 7).filter (fun i => x.getLsbD (i + 1))).length
    (x &&& 0xFE#8) ||| (if ones % 2 = 0 then 1#8 else 0#8))

end Sys2Proof.Machine
end

