-- ==== Sys2Proof/Machine/Stones.lean ====
section
/-! DEFINITION. Stones, derivation and the tree below (R115-R124), and the slots of the journal as they are read
(R133, R134, R140). -/

namespace Sys2Proof.Machine

open Sys2Proof

/-! ## The derivation function (R118, Table 05.2) -/

/-- The 64-byte PRF input of block `i`. -/
def kdfInput (i : Nat) (label : Bytes) (level usage alg part gen name version : Nat) (data : Bytes) (bits : Nat) :
    Bytes :=
  toBe 4 i ++ label ++ [0#8, byte level, byte usage, byte alg, 0#8] ++ toBe 2 part ++ toBe 4 gen ++ toBe 8 name ++
    toBe 4 version ++ sl data 0 16 ++ [0#8] ++ toBe 4 bits

def kdf (parent label : Bytes) (level usage alg part gen name version : Nat) (data : Bytes) (bits : Nat) : Bytes :=
  sl ((List.range ((bits + 127) / 128)).flatMap (fun i =>
    sl (Config.cmac true parent (kdfInput (i + 1) label level usage alg part gen name version data bits)) 0 16))
    0 (bits / 8)

/-- A device key or a stone: a 256-bit derivation with a context of LEVEL and ALG only. -/
def kdfDevice (parent : Bytes) (label : String) (level alg : Nat) : Bytes :=
  kdf parent (ascii label) level 0 alg 0 0 0 0 (zeros 16) 256

/-! ## OTP secrets (R116, Table 14.3) -/

def LifeCycle.word (l : LifeCycle) (w : Nat) : BitVec 32 := ((l.otp.find? (fun x => x.1 == w)).map (fun x => x.2)).getD 0
def LifeCycle.otpBytes (l : LifeCycle) (w n : Nat) : Bytes :=
  (List.range n).flatMap (fun i => toLe 4 (l.word (w + i)).toNat)

/-- Slot `i` of a secret whose slots begin at word `base`, when its check word matches. -/
def LifeCycle.secretAt (l : LifeCycle) (base i : Nat) : Option Bytes :=
  let x := l.otpBytes (base + 9 * i) 8
  if l.otpBytes (base + 9 * i + 8) 1 = sl (Config.sha512 x) 0 4 then some x else none

/-- The higher-numbered slot whose check word matches. -/
def LifeCycle.secret (l : LifeCycle) (base : Nat) : Option Bytes := (l.secretAt base 1).or (l.secretAt base 0)
def LifeCycle.deviceSecret (l : LifeCycle) : Option Bytes := l.secret 80
def LifeCycle.ownerSeed (l : LifeCycle) : Option Bytes := l.secret 98

/-! ## Stones and device keys (R115, R119, R120) -/

/-- The stone of a kind (Table 05.1): 1 TEST, 2 MANUFACTURE, 3 OWNER, 4 RMA. -/
def stoneOf (l : LifeCycle) (kind : Nat) : Option Bytes :=
  let ds := l.deviceSecret.getD (zeros 32)
  if kind = 1 then some (kdfDevice (zeros 32) "SLK STONE TEST  " 0xF0 0)
  else if kind = 2 then some (kdfDevice ds "SLK STONE MFG   " 0xF0 0)
  else if kind = 3 then some (kdfDevice (xorBytes ds (l.ownerSeed.getD (zeros 32))) "SLK STONE OWNER " 0xF0 0)
  else if kind = 4 then some (kdfDevice ds "SLK STONE RMA   " 0xF0 0)
  else none

/-- The kind of stone of a life-cycle state. -/
def stoneKind (st : Nat) : Nat :=
  if st < 0x30 then 1 else if st = 0x30 then 2 else if st = 0x40 then 3 else if st = 0x50 then 4 else 0

def State.stoneKey (s : State) : Option Bytes := stoneOf s.lc s.ks.stone
def identitySeed (stone : Bytes) : Bytes := kdfDevice stone "SLK DEVICE ID   " 0 7
/-- The configuration MAC key. Records carry a MAC under it, and two stones give two keys: KeyStore.cfgStone tells which
stone's key the records stand under (R120). -/
def State.configMacKey (s : State) : Option Bytes := s.stoneKey.map (fun k => kdfDevice k "SLK CONFIG MAC  " 0 3)
def State.ksr (s : State) : Option Bytes := s.stoneKey.map (fun k => kdfDevice k "SLK KSTORE ROOT " 0 3)

/-- KS_ENC and KS_MAC need the stone and the battery secret. -/
def State.ksKey (s : State) (label : String) : Option Bytes :=
  match s.ksr, s.tmp.secret with
  | some r, some b => some (kdfDevice (xorBytes r b) label 0 3)
  | _, _ => none
def State.ksEnc (s : State) : Option Bytes := s.ksKey "SLK KSTORE ENC  "
def State.ksMac (s : State) : Option Bytes := s.ksKey "SLK KSTORE MAC  "

/-- The pair identity key's seed (R119). -/
def pairSeed (secret : Bytes) : Bytes := kdfDevice secret "SLK PAIR ID     " 0 7

/-- The seed of a partition (R122). -/
def partitionSeed (domain : Bytes) (part gen : Nat) : Bytes :=
  kdf domain (ascii "SLK PARTN SEED  ") 1 4 3 part gen 0 0 (zeros 16) 256

/-! ## Algorithms and usages (Tables 05.4 and 05.5) -/

/-- Usages that an algorithm permits. -/
def usagesOf (alg : Nat) : List Nat :=
  if 1 ≤ alg ∧ alg ≤ 5 then [1, 2, 3, 4, 5, 6, 9] else if alg = 6 then [5, 6] else if alg = 7 ∨ alg = 9 ∨ alg = 10 then [7, 8]
  else if alg = 8 then [4] else if isRsa alg then [7, 8, 3] else []

/-- Bytes of material of a symmetric key, an Ed25519 or X25519 key, or a private scalar. -/
def matLen (alg : Nat) : Nat :=
  if alg = 1 ∨ alg = 4 then 16 else if alg = 2 ∨ alg = 5 then 24 else if alg = 10 then 48 else 32

/-! ## Time on keys (R131, R312) -/

/-- Beyond NOT_AFTER: the full capture is compared with that second and 0 ns. -/
def State.beyond (s : State) (notAfter : Nat) : Bool :=
  decide (s.nowSec > notAfter) || (s.nowSec == notAfter && decide (s.nowNs > 0))

def timeStatus (s : State) (notAfter : Nat) : Option Nat :=
  if notAfter = 0 then none
  else if !s.trusted then some 0x6001
  else if s.beyond notAfter then some 0x3003 else none

/-! ## Journal slots as read (R133, R134) -/

def slotCount : Nat := 66048
def slotAddr (k : Nat) : Nat := if k < 65536 then 0x02000000 + 128 * k else 0x02BF0000 + 128 * (k - 65536)

/-- The key stream of a slot under a SEQUENCE. -/
def slotStream (key : Bytes) (seq slot : Nat) : Bytes := ctrStream 3 key (toBe 8 seq ++ toBe 4 slot ++ zeros 4) 96

def slotMac (key : Bytes) (slot : Nat) (cipher head : Bytes) : Bytes :=
  sl (Config.cmac true key (toLe 4 slot ++ cipher ++ head)) 0 16

def State.slotCipher (s : State) (k : Nat) : Bytes := Mem.readN s.mem (slotAddr k) 96
def State.slotWord (s : State) (k : Nat) : Bytes := Mem.readN s.mem (slotAddr k + 96) 32

/-- The commit word's KIND, FORMAT and MAC stand (R139). -/
def State.slotOk (s : State) (k : Nat) : Bool :=
  let w := s.slotWord k
  match s.ksMac with
  | none => false
  | some m => decide (1 ≤ byteAt w 0 ∧ byteAt w 0 ≤ 3) && byteAt w 1 == 1 &&
              (slotMac m k (s.slotCipher k) (sl w 0 16) == sl w 16 16)

/-- The plaintext body of a slot. -/
def State.slotBody (s : State) (k : Nat) : Bytes :=
  match s.ksEnc with
  | none => zeros 96
  | some e => xorBytes (s.slotCipher k) (slotStream e (fieldLe (s.slotWord k) 8 8) k)

def State.objBody (s : State) (o : Obj) : Bytes := s.slotBody o.slot

/-! ## Key objects (Table 05.6) -/

def domainHandle : Nat := 0xFFFFFFFF
/-- Handle of the pair record (R280). -/
def pairHandle : Nat := 0xFFFFFFFE

def KeyInfo.ofBody (b : Bytes) : KeyInfo :=
  { usage := byteAt b 2, alg := byteAt b 3, mat := sl b 40 (byteAt b 5), name := fieldLe b 8 8,
    version := fieldLe b 16 4, notAfter := fieldLe b 24 6, exportable := bit (byteAt b 4) 0,
    limited := bit (byteAt b 4) 1, level := 2, rsaPriv := false, transport := false }

/-- The live objects other than the domain key. -/
def State.liveObjs (s : State) : List Obj := s.ks.objs.filter (fun o => o.handle != domainHandle && o.handle != pairHandle)

/-- The live object of a partition that a handle names (R100, R128). -/
def State.liveObj (s : State) (part handle : Nat) : Option Obj :=
  s.liveObjs.find? (fun o => o.handle == handle && handle != 0 && fieldLe (s.objBody o) 0 2 == part)

/-- A load: none when the version fails its MAC (R140). -/
def State.loadObj (s : State) (o : Obj) : Option KeyInfo :=
  if s.slotOk o.slot then some (KeyInfo.ofBody (s.objBody o)) else none

/-- USES_RESERVED has reached USE_LIMIT (R132). -/
def bodySpent (b : Bytes) : Bool := decide (fieldLe b 32 4 ≤ fieldLe b 36 4)

end Sys2Proof.Machine
end

