-- ==== Sys2Proof/Machine/Operands.lean ====
section
/-! DEFINITION. Operand forms: the fields of a submission entry and its key references (R64-R68), the operands of a
draft step (R90, R93, R96), and the frame in which every step runs (R95, R97, R106). -/

namespace Sys2Proof.Machine

open Sys2Proof

/-! ## Key references (Table 03.4) -/

structure KRef where
  typ : Nat
  sub : Nat                        -- byte 1: the parent type of a derivation
  len : Nat                        -- bytes 2-3: a length, or the offset of a derivation record
  word : Nat                       -- bytes 4-7: an object handle, or an offset
  long : Nat                       -- bytes 8-15: a cache handle, or a host address
deriving DecidableEq, Repr

def KRef.of (b : Bytes) : KRef :=
  { typ := fieldLe b 0 1, sub := fieldLe b 1 1, len := fieldLe b 2 2, word := fieldLe b 4 4, long := fieldLe b 8 8 }

/-- Key reference `i`: 0 and 1 in the entry, 2 to 7 at the front of the extended data (R66). -/
def Cmd.kref (c : Cmd) (i : Nat) : KRef :=
  KRef.of (if i < 2 then Mem.readN c.mem (40 + 16 * i) 16 else Mem.readN c.mem (0x100 + 16 * (i - 2)) 16)

/-- A defined type whose unused bytes are zero. -/
def KRef.fieldsOk (r : KRef) : Bool :=
  match r.typ with
  | 0 => r.sub == 0 && r.len == 0 && r.word == 0 && r.long == 0
  | 1 => r.sub == 0 && r.len == 0 && r.long == 0
  | 2 => r.sub == 0 && r.long == 0
  | 3 => r.sub == 0 && r.word == 0
  | 4 => (r.sub == 1 && r.long == 0) || (r.sub == 5 && r.word == 0)
  | 5 => r.sub == 0 && r.len == 0 && r.word == 0
  | _ => false

/-- Bytes of the quorum block at the end of the extended data, 0 when there is none (R259). -/
def quorumLen (ext : Bytes) : Nat :=
  let t := ext.drop (ext.length - 8)
  let k := byteAt t 4
  if t.length = 8 ∧ t.take 4 = ascii "QTOK" ∧ allZero (t.drop 5) ∧ 1 ≤ k ∧ k ≤ 16 ∧ 136 * k + 8 ≤ ext.length
  then 136 * k + 8 else 0

/-- Where the referenced area begins: the lowest offset a type 2 or type 4 reference names, if any (R68). -/
def areaStart (refs : List KRef) : Option Nat :=
  (refs.filterMap (fun r => if r.typ = 2 then some r.word else if r.typ = 4 then some r.len else none)).min?

def Cmd.refs (c : Cmd) : List KRef := (List.range c.krefs).map c.kref

/-- The end of the referenced area: the start of the quorum block (for an opcode that demands a quorum) or the end of
the extended data. -/
def Cmd.areaEnd (c : Cmd) (quorum : Bool) : Nat := c.extLen - (if quorum then quorumLen c.ext else 0)

/-- Length of the opcode's own data (R68). -/
def Cmd.ownLen (c : Cmd) (quorum : Bool) : Nat :=
  min (c.areaEnd quorum) ((areaStart c.refs).getD c.extLen) - c.ownOff

/-- The opcode's own data. -/
def Cmd.own (c : Cmd) (quorum : Bool) : Bytes := Mem.readN c.mem (0x100 + c.ownOff) (c.ownLen quorum)

/-- Every block and record lies wholly in the referenced area, which does not begin in part 1 (R67, R68). -/
def Cmd.areaOk (c : Cmd) (quorum : Bool) : Bool :=
  let hi := c.areaEnd quorum
  decide (c.ownOff ≤ ((areaStart c.refs).getD c.extLen)) && c.refs.all (fun r =>
    match r.typ with
    | 2 => decide (1 ≤ r.len ∧ r.len ≤ 3072 ∧ r.word + r.len ≤ hi)
    | 3 => decide (1 ≤ r.len ∧ r.len ≤ 3072)
    | 4 => decide (r.len + 32 ≤ hi)
    | _ => true)

/-! ## Operands of a draft step -/

/-- LEN, literal or from a value register (Table 04.3); none for a reserved value. -/
def stepLen (c : Cmd) (a : StepArgs) : Option Nat :=
  let l := a.len.toNat
  if l ≤ 3072 then some l else if l ≥ 0xFF8 then some (c.v (l - 0xFF8)) else none

/-- A source range inside the shed. -/
def srcOk (off len : Nat) : Bool := decide (off + len ≤ 0x1000)

/-- A destination range inside the areas a step may write (R90). -/
def dstOk (off len : Nat) : Bool :=
  len == 0 || (decide (0xC0 ≤ off ∧ off + len ≤ 0xD0)) || (decide (0x100 ≤ off ∧ off + len ≤ 0x1000))

/-- A source and the destination do not overlap. -/
def disjoint (src slen dst dlen : Nat) : Bool :=
  slen == 0 || dlen == 0 || decide (src + slen ≤ dst) || decide (dst + dlen ≤ src)

/-- Source ranges, A first, and the destination may overlap only when D_OFF equals A_OFF (R96). -/
def overlapOk (srcs : List (Nat × Nat)) (dst : Nat × Nat) : Bool :=
  srcs.head?.map (fun r => r.1) == some dst.1 || srcs.all (fun r => disjoint r.1 r.2 dst.1 dst.2)

def aligned8 (x : Nat) : Bool := x % 8 == 0

def Cmd.rd (c : Cmd) (off len : Nat) : Bytes := Mem.readN c.mem off len
def Cmd.wr (c : Cmd) (off : Nat) (b : Bytes) : Cmd := { c with mem := Mem.writeN c.mem off b }

/-- What a step does once its operands are taken: it returns flags, meets a hard status (R97), faults (Table 04.12),
parks until its result arrives, parks until something it needs arrives and is then issued again, has retired the
command itself, or cannot be issued yet. -/
inductive StepOut where
  | flags (s : State) (c : Cmd) (u : BitVec 4)
  | hard (s : State) (c : Cmd) (status : Nat)
  | fault (kind code : Nat)
  | park (s : State) (c : Cmd) (phase : Phase)
  | wait (s : State) (c : Cmd) (phase : Phase)
  | gone (s : State)
  | notYet

/-- Checks of one operation's ranges: sources, destination, their overlap, and 8-byte alignment where the unit demands
it; the first that fails gives the fault kind. -/
def rangeFault (align : Bool) (srcs : List (Nat × Nat)) (dst : Nat × Nat) : Option Nat :=
  if !(srcs.all (fun r => srcOk r.1 r.2) && dstOk dst.1 dst.2) then some 2
  else if !overlapOk srcs dst then some 2
  else if align && !((srcs.filter (fun r => r.2 != 0)).all (fun r => aligned8 r.1) && (dst.2 == 0 || aligned8 dst.1))
  then some 3
  else none

/-- The fields of a step whose bits are not in the manual (a vendor draft's EXC step) or were not read. -/
def noArgs : StepArgs :=
  { br := 0, bflag := 0, target := 0, fsel := 0, aOff := 0, bOff := 0, dOff := 0, len := 0, kreg := 0, param := 0, imm := 0,
    rsv := false }

/-- An exception record for a shed, placed when the FIFO has room (R106, R108). -/
def excRecord (c : Cmd) (k kind code : Nat) : ExcRec :=
  { shed := k, kind := kind, code := code, step := c.idx, opcode := c.opcode, flags := c.f.toNat, part := c.part }

/-- Event code of a step fault (Table 04.12). -/
def faultEvent (kind : Nat) : Nat := 0x0E40 + kind

/-- The treadle parks the shed and places an exception record; with the FIFO full the record waits (R106-R108). -/
def State.parkExc (s : State) (n k : Nat) (c : Cmd) (a : StepArgs) (kind code : Nat) : State :=
  let r := excRecord c k kind code
  (s.setCmd { c with phase := .parked kind code, pend := some a }).modTreadle n (fun t =>
    if t.exc.length < 16 ∧ t.excWait = [] then { t with exc := t.exc ++ [r] }
    else { t with excWait := t.excWait ++ [r] })

/-- A treadle counts a step executed (TRD.STEPS). -/
def Treadle.count (t : Treadle) : Treadle := { t with steps := (t.steps + 1) % 2 ^ 32 }

/-- One step issued from shed `k` has been executed: the treadle counts it and goes on after that shed (R104). -/
def State.countStep (s : State) (n k : Nat) : State :=
  s.modTreadle n (fun t => { t.count with last := k })

/-- A step's outcome takes effect on the command and its treadle. -/
def State.settle (s : State) (n k : Nat) (a : StepArgs) (c : Cmd) (o : StepOut) : State :=
  match o with
  | .flags s1 c1 u => (s1.countStep n k).setCmd (c1.advance a u)
  | .hard s1 c1 st => (s1.countStep n k).retire c1 st
  | .fault kind code => s.parkExc n k c a kind code
  | .park s1 c1 ph => (s1.countStep n k).setCmd { c1 with phase := ph, pend := some a }
  | .wait s1 c1 ph => s1.setCmd { c1 with phase := ph }
  | .gone s1 => s1.countStep n k
  | .notYet => s.modTreadle n (fun t => { t with last := k })

/-- The loom of a place. -/
def loomOf : Place → Nat
  | .shed n _ => n
  | .ctx _ => 0

/-- Availability of the symmetric cores of a command's loom (R99): one can be granted, a hard status when all are out of
service, otherwise the step waits. -/
inductive SymAvail where
  | granted
  | offline
  | busy
deriving DecidableEq, Repr

/-- A command admitted earlier waits for a symmetric core of the loom: it is granted one first. -/
def olderWaits (s : State) (c : Cmd) : Bool :=
  s.cmds.any (fun x => x.phase == .waitCore && loomOf x.place == loomOf c.place && decide (x.order < c.order))

def symAvail (s : State) (c : Cmd) : SymAvail :=
  let st := fun (k : Nat) => ((s.bist.units[8 * loomOf c.place + k]?).map (fun u => u.st)).getD 0
  if (List.range 8).any (fun k => st k == 0) then (if olderWaits s c then .busy else .granted)
  else if (List.range 8).all (fun k => decide (st k ≥ 2)) then .offline else .busy

/-- The command in a shed that can execute a step now: a ready one, or one that waited for a symmetric core and has its
turn (R99). -/
def State.readyCmd (s : State) (n k : Nat) : Option Cmd :=
  match s.cmd? (.shed n k) with
  | none => none
  | some c =>
    if c.phase = .ready then some c
    else if c.phase = .waitCore ∧ symAvail s c ≠ .busy then some { c with phase := .ready }
    else none

/-- Address of a draft-store line (Table 01.2): 16 steps of 16 bytes. -/
def lineAddr (l : Nat) : Nat := 0x02A40000 + 256 * l

/-- The tag of the step-cache line that holds the command's next step (R104). -/
def Cmd.lineTag (c : Cmd) : Nat × Nat × Nat := (c.opcode, c.idx / 16, c.dgen)

/-- That line, when its treadle holds it. -/
def State.line? (s : State) (n : Nat) (c : Cmd) : Option CacheLine :=
  (s.treadle n).lines.find? (fun l => l.tag == c.lineTag)

def State.lineHeld (s : State) (n : Nat) (c : Cmd) : Bool := (s.line? n c).isSome

/-- The line is held without an uncorrectable error. -/
def State.lineSound (s : State) (n : Nat) (c : Cmd) : Bool :=
  match s.line? n c with
  | none => false
  | some l => !l.bad

/-- A step-cache miss parks the shed until its line is read (R104). -/
def State.lineMiss (s : State) (n : Nat) (c : Cmd) : State :=
  (s.setCmd { c with phase := .waitLine (c.idx / 16) }).modTreadle n (fun t =>
    { t with scMiss := (t.scMiss + 1) % 2 ^ 32 })

/-- One draft step in shed `k` of loom `n` (R95): an abort request stops the command at this boundary (R105); a step
whose line is not held parks the shed; an uncorrectable error in the line, the 8,193rd step, a reserved bit and a reserved
BR value fault; otherwise the operation runs. -/
def State.step1 (s : State) (n k : Nat) (a : StepArgs) (body : State → Cmd → StepArgs → StepOut) : State :=
  match s.readyCmd n k with
  | none => s
  | some c =>
    if c.abort then s.retire c 0x7002
    else if !s.lineHeld n c then s.lineMiss n c
    else if !s.lineSound n c then s.parkExc n k c a 7 0
    else if c.count ≥ 8192 then s.parkExc n k c a 4 0
    else if a.rsv ∨ a.br.toNat > 3 then s.parkExc n k c a 1 0
    else s.settle n k a c (body s c a)

end Sys2Proof.Machine
end

