-- ==== Sys2Proof/Machine/Vendor.lean ====
section
/-! DEFINITION. What the firmware image brings for the vendor opcodes: their draft directory entries (R87, R88), the
paths they may come on (R40, R80 and the opcode tables), which look for a quorum block (Table 11.3), and the default costs
(R51). -/

namespace Sys2Proof.Machine

open Sys2Proof

/-! ## Life-cycle masks, as LC_MASK bits: 0 MANUFACTURED, 1 OPERATIONAL, 2 RAW, 3 test unlocked, 4 test locked, 5 RMA -/

/-- Every state in which firmware runs. -/
def lcAll : Nat := 0x3F
/-- The states of R185: test, MANUFACTURED, OPERATIONAL. -/
def lcPay : Nat := 0x1B
/-- A command that demands a quorum: not in RMA (Table 18.2). -/
def lcQuorum : Nat := 0x1F
/-- MANUFACTURED and OPERATIONAL. -/
def lcMo : Nat := 0x03
/-- OPERATIONAL. -/
def lcOp : Nat := 0x02
/-- Where raw-sample mode may be entered, and so where it can be on (R252). -/
def lcRaw : Nat := 0x0B

/-- A vendor entry. The manual gives no steps of vendor drafts: their lines are counted by Config.vendorLines. -/
def ent (op : Nat) (steward : Bool) (lo hi reply lc : Nat) (standby commits : Bool) : DirEnt :=
  { opcode := op, state := 1, steward := steward, gen := 1, steps := 1, lines := [], extMin := lo, extMax := hi,
    replyMax := reply, krefMax := 8, lcMask := lc, standbyOk := standby, commits := commits, version := 0, cost := 0 }

/-- An entry of KIND STEWARD whose rule and opcode table give its extended data no exact length: a length rule with a detail
of its own answers in the command; without one there is no bound (notes/assumptions/29.md). -/
def stw (op reply lc : Nat) (standby commits : Bool) : DirEnt := ent op true 0 3072 reply lc standby commits

def partEntries : List DirEnt :=
  [ent 0x010 true 64 64 0 lcQuorum false true, ent 0x011 true 64 64 0 lcQuorum false true, stw 0x012 0 lcQuorum false true,
   stw 0x013 128 lcAll false false, stw 0x014 0 lcQuorum false true, ent 0x015 true 128 128 0 lcQuorum false true,
   stw 0x016 0 lcAll false true, stw 0x017 0 lcAll false true, stw 0x018 0 lcQuorum false true,
   stw 0x019 0 lcAll false false, stw 0x01A 0 lcAll true false, stw 0x01B 0 lcQuorum false false]

def queueEntries : List DirEnt :=
  [stw 0x020 0 lcAll false false, stw 0x021 0 lcAll false false, ent 0x022 true 96 96 0 lcAll false false,
   stw 0x023 0 lcAll false false, stw 0x024 0 lcAll false false, stw 0x026 0 lcAll false false]

def pairEntries : List DirEnt :=
  [stw 0x028 32 lcMo false false, stw 0x029 0 lcAll false true, stw 0x02A 72 lcAll true false,
   stw 0x02B 0 lcAll false false, stw 0x02C 0 lcAll true false]

def draftEntries : List DirEnt :=
  [stw 0x030 0 lcMo false true, stw 0x031 0 lcQuorum false true, stw 0x032 0 lcQuorum false true,
   stw 0x033 0 lcAll false false, ent 0x034 false 0 3072 0 lcAll false false, stw 0x035 0 lcAll false false,
   stw 0x036 0 lcAll false false, stw 0x037 0 lcAll false false, ent 0x038 true 528 528 0 lcQuorum false true,
   stw 0x039 528 lcAll true false, stw 0x03C 0 lcAll true false, stw 0x03D 0 lcAll true false,
   stw 0x03E 0 lcAll true false, stw 0x03F 0 lcAll true false]

/-- An entry of KIND LOOM of the payment and asymmetric opcodes: STANDBY_OK clear, in the states of R185. -/
def lm (op lo hi reply : Nat) (commits : Bool) : DirEnt := ent op false lo hi reply lcPay false commits

def paymentEntries : List DirEnt :=
  [lm 0x040 0 0 0 true, lm 0x041 0 0 3072 false, lm 0x042 0 0 3072 true, lm 0x043 0 0 3072 false, lm 0x060 0 3072 40 false,
   lm 0x061 0 3072 0 true, lm 0x080 0 0 0 false, lm 0x081 0 0 0 false, lm 0x082 0 0 0 false, lm 0x083 0 0 0 false,
   lm 0x084 0 0 0 false, lm 0x088 0 0 0 false, lm 0x089 0 0 0 false, lm 0x090 1 1024 0 false, lm 0x0A0 0 0 0 false,
   lm 0x0A1 8 3072 3072 false, lm 0x0A2 5 3072 0 false, lm 0x0C0 0 3072 64 false, lm 0x0C1 4 3072 0 false]

def asymEntries : List DirEnt :=
  [lm 0x100 0 3072 64 false, lm 0x101 64 3072 0 false, lm 0x108 32 32 0 false, lm 0x10F 0 0 516 false,
   lm 0x110 0 3072 64 false, lm 0x111 0 3072 96 false, lm 0x112 0 3072 0 false, lm 0x113 0 3072 0 false,
   lm 0x120 0 3072 256 false, lm 0x121 0 3072 384 false, lm 0x122 0 3072 512 false, lm 0x124 0 3072 0 false,
   lm 0x125 0 3072 0 false, lm 0x126 0 3072 0 false, lm 0x128 0 0 288 false, lm 0x129 0 0 416 false,
   lm 0x12A 0 0 544 false, lm 0x12C 288 288 0 false, lm 0x12D 416 416 0 false, lm 0x12E 544 544 0 false,
   lm 0x130 0 0 3072 true, lm 0x134 0 0 3072 false, lm 0x135 0 0 3072 false, lm 0x136 0 0 3072 false]

def otherEntries : List DirEnt :=
  [ent 0x180 false 0 3072 3072 lcAll false false, ent 0x190 false 0 3072 64 lcAll true false,
   stw 0x1A0 0 lcAll true false, stw 0x1A1 0 lcAll true false, stw 0x1A4 0 lcAll true false, stw 0x1A5 0 lcAll true false,
   stw 0x1A6 0 lcAll true false, stw 0x1A7 0 lcAll true false, stw 0x1A8 0 lcRaw false false,
   stw 0x1A9 3072 lcRaw false false, stw 0x1AA 0 lcRaw false false, stw 0x1AB 0 lcAll true false,
   stw 0x1AC 3072 lcAll true false, stw 0x1AD 0 lcQuorum true false, stw 0x1AE 3072 lcAll true false,
   stw 0x1AF 0 lcAll true false, stw 0x1B0 256 lcAll true false, stw 0x1B1 256 lcAll false false]

def lifeEntries : List DirEnt :=
  [stw 0x1B8 256 lcAll false false, stw 0x1B9 0 lcAll true false, stw 0x1BA 0 lcOp false false,
   stw 0x1BB 0 lcAll true false, stw 0x1BC 256 lcOp true false, stw 0x1BD 0 lcAll false false,
   stw 0x1BE 0 lcAll false false]

/-- The vendor part of the draft directory. -/
def vendorDir : List DirEnt :=
  partEntries ++ queueEntries ++ pairEntries ++ draftEntries ++ paymentEntries ++ asymEntries ++ otherEntries ++ lifeEntries

/-- Opcodes that only the admin path may issue (R40 and the opcode tables). -/
def adminOnly (op : Nat) : Bool :=
  [0x010, 0x011, 0x015, 0x019, 0x01B, 0x020, 0x021, 0x022, 0x028, 0x029, 0x02B, 0x02C, 0x030, 0x031, 0x032, 0x03C, 0x03D,
   0x03E, 0x03F, 0x1A0, 0x1A5, 0x1A6, 0x1A7, 0x1A8, 0x1A9, 0x1AA, 0x1AC, 0x1AD, 0x1AE, 0x1AF, 0x1B8, 0x1BA, 0x1BB, 0x1BC,
   0x1BD, 0x1BE].contains op

/-- Opcodes that take a quorum block at the end of their extended data (Table 11.3, R259). -/
def looksForQuorum (op : Nat) : Bool :=
  [0x010, 0x011, 0x012, 0x014, 0x015, 0x018, 0x01B, 0x028, 0x030, 0x031, 0x032, 0x038, 0x061, 0x1A8, 0x1AD, 0x1B8,
   0x1BA].contains op

/-- Opcodes whose definition names every path, the virtual-function mailbox among them (R80). -/
def vfMailboxOk (op : Nat) : Bool := [0x02A, 0x1A1, 0x1A4, 0x1B0, 0x1B9].contains op

/-- Default costs (R51): opcode, COST, ALT. -/
def vendorCosts : List (Nat × Nat × Nat) :=
  [(0x034, 40, 0), (0x040, 1920, 0), (0x041, 40, 0), (0x042, 1920, 60), (0x043, 60, 0), (0x080, 24, 0), (0x081, 30, 0),
   (0x082, 30, 0), (0x083, 30, 0), (0x084, 30, 0), (0x088, 24, 0), (0x089, 24, 0), (0x090, 30, 0), (0x0A0, 64, 0),
   (0x0A1, 60, 0), (0x0A2, 64, 0), (0x0C0, 30, 0), (0x0C1, 30, 0), (0x100, 200, 0), (0x101, 480, 0), (0x108, 240, 0),
   (0x10F, 960, 0), (0x110, 400, 0), (0x111, 960, 0), (0x112, 800, 0), (0x113, 2000, 0)] ++
  [(0x120, 4364, 0), (0x121, 13333, 0), (0x122, 32000, 0), (0x124, 160, 0), (0x125, 360, 0), (0x126, 640, 0),
   (0x128, 160, 0), (0x129, 360, 0), (0x12A, 640, 0), (0x12C, 4364, 0), (0x12D, 13333, 0), (0x12E, 32000, 0),
   (0x130, 1920, 960), (0x134, 65535, 0), (0x135, 65535, 0), (0x136, 65535, 0), (0x180, 60, 0), (0x190, 30, 0),
   (0x1AB, 15, 0)]

end Sys2Proof.Machine
end

