-- ==== Sys2Proof/Machine/Tables.lean ====
section
/-! DEFINITION. Card-number routing and key-name policy (chapter 07): the two lookups and their draft steps, batches
and generations, layout and limits. Each parity's copy is the list of its visible entries; the trie's nodes and slots
are what its rules determine (notes/assumptions/15.md). -/

namespace Sys2Proof.Machine

open Sys2Proof

/-! ## Prefix tables (R166-R170) -/

def RtTables.routes (t : RtTables) (g : Nat) : List Route := if g % 2 = 0 then t.routes0 else t.routes1
def RtTables.rules (t : RtTables) (g : Nat) : List Rule := if g % 2 = 0 then t.rules0 else t.rules1
def RtTables.setRoutes (t : RtTables) (g : Nat) (l : List Route) : RtTables :=
  if g % 2 = 0 then { t with routes0 := l } else { t with routes1 := l }
def RtTables.setRules (t : RtTables) (g : Nat) (l : List Rule) : RtTables :=
  if g % 2 = 0 then { t with rules0 := l } else { t with rules1 := l }

/-- Packed digits padded with 0xF to 10 bytes. -/
def packDigits (ds : List Nat) : Bytes := (packNibbles (ds ++ List.replicate (20 - ds.length) 15)).take 10

/-- Prefix key K (Table 07.1). -/
def prefixKey (part len : Nat) (ds : List Nat) : Bytes :=
  toLe 2 part ++ [byte len, 0#8] ++ packDigits ds ++ zeros 2

/-- LOG2_BUCKETS and BASE of a length as they act: 18 to 31 act as 0, which disables the length (RT.LENCFG). -/
def RtTables.lenCfg (t : RtTables) (len : Nat) : Nat × Nat :=
  let e := (t.layout[len - 1]?).getD (0, 0)
  if e.1 > 17 then (0, e.2) else e

/-- The two candidate pool buckets of a prefix (R167). -/
def candidates (t : RtTables) (part len : Nat) (ds : List Nat) : Nat × Nat :=
  let (k, base) := t.lenCfg len
  let h := fieldLe (Config.aesEnc (t.salt.getD (zeros 16)) (prefixKey part len ds)) 0 4
  let b0 := h % 2 ^ k
  let b1 := h / 2 ^ (32 - k)
  let b1' := if b1 = b0 then b0 ^^^ 1 else b1
  (base + b0, base + b1')

/-- The length filter: some visible prefix of length `len`, of any partition, agrees with the first four digits, or with
the first `len` when there are fewer (R168). -/
def filterBit (rs : List Route) (ds : List Nat) (len : Nat) : Bool :=
  rs.any (fun r => r.len == len && (r.digits.take 4 == ds.take (min 4 len)))

/-- Lengths probed, longest first. -/
def probeLengths (rs : List Route) (ds : List Nat) : List Nat :=
  let n := ds.length
  (((List.range n).map (fun i => i + 1)).filter (fun len => decide (n < 4) || filterBit rs ds len)).reverse

/-- The lookup of R169 in one copy: the first hit at the longest length, and how many lengths were probed. -/
def panLookup (rs : List Route) (part : Nat) (ds : List Nat) : Option Route × Nat :=
  if ds.length < 1 ∨ ds.length > 19 ∨ ds.any (fun d => decide (d > 9)) then (none, 0)
  else
    let ls := probeLengths rs ds
    let hit := fun (len : Nat) => rs.find? (fun r => r.part == part && r.len == len && r.digits == ds.take len)
    match ls.find? (fun len => (hit len).isSome) with
    | none => (none, ls.length)
    | some len => (hit len, (ls.takeWhile (fun x => x != len)).length + 1)

/-- Route output (Table 07.3). -/
def routeOutput : Option Route → Bytes
  | none => zeros 16
  | some r => sl r.payload 0 12 ++ toLe 2 r.index ++ [byte r.len, 1#8]

/-- A digit string: byte 0 the digit count, then packed BCD (Table 04.10). -/
def digitString (b : Bytes) : List Nat := (nibbles (b.drop 1)).take (byteAt b 0)

def routePanLookupOp (s : State) (c : Cmd) (a : StepArgs) : StepOut :=
  match rangeFault false [(a.aOff.toNat, 11)] (a.dOff.toNat, 16) with
  | some k => .fault k 0
  | none =>
    let b := c.rd a.aOff.toNat 11
    let ds := if byteAt b 0 > 19 then [] else digitString b
    let (r, n) := panLookup (s.rt.routes c.rgen) c.part ds
    .flags { s with rt := { s.rt with probes := (s.rt.probes + n) % 2 ^ 32 } } (c.wr a.dOff.toNat (routeOutput r))
      (uflags r.isSome false false)

/-! ## Policy trie (R171-R173) -/

/-- A rule's prefix covers a name. -/
def covers (r : Rule) (name : Nat) : Bool := name / 2 ^ (64 - r.len) == r.pfx / 2 ^ (64 - r.len)

/-- The longest rule of a partition that covers a name (R172). -/
def policyLookup (rs : List Rule) (part name : Nat) : Option Rule :=
  (rs.filter (fun r => r.part == part && covers r name)).foldl (fun best r => match best with
    | none => some r
    | some b => if r.len > b.len then some r else some b) none

/-- Rule output (Table 07.5). -/
def ruleOutput : Option Rule → Bytes
  | none => zeros 16
  | some r => sl r.body 0 12 ++ toLe 3 r.index ++ [byte r.len]

def countPolicy (s : State) : State := { s with rt := { s.rt with plookups := (s.rt.plookups + 1) % 2 ^ 32 } }

/-- Roles of Table 07.5. -/
def roleUse : Nat := 1
def roleImport : Nat := 2
def roleStore : Nat := 4
def roleExport : Nat := 8

/-- The policy check of R173 on the copy of the command's generation. -/
def policyOk (s : State) (c : Cmd) (name usage alg roles : Nat) : Bool :=
  match policyLookup (s.rt.rules c.pgen) c.part name with
  | none => false
  | some r => bit (fieldLe r.body 0 2) usage && bit (fieldLe r.body 2 2) alg && (byteAt r.body 4 &&& roles == roles)

def routePolicyLookupOp (s : State) (c : Cmd) (a : StepArgs) : StepOut :=
  match rangeFault false [(a.aOff.toNat, 8)] (a.dOff.toNat, 16) with
  | some k => .fault k 0
  | none =>
    let r := policyLookup (s.rt.rules c.pgen) c.part (leNat (c.rd a.aOff.toNat 8))
    .flags (countPolicy s) (c.wr a.dOff.toNat (ruleOutput r)) (uflags r.isSome false false)

def execRoutePanLookup (n k : Nat) (a : StepArgs) (s : State) : Outcome := .next (s.step1 n k a routePanLookupOp)
def execRoutePolicyLookup (n k : Nat) (a : StepArgs) (s : State) : Outcome :=
  .next (s.step1 n k a routePolicyLookupOp)

/-! ## Batches (R176, R177) -/

/-- The way of a bucket that a new entry takes, the lowest free. -/
def freeWay (held : List Route) (b : Nat) : Option Nat :=
  (List.range 4).find? (fun w => !held.any (fun r => r.bucket == b && r.way == w))

/-- The result index of a payload: shared within a partition, otherwise the lowest free. -/
def resultIndex (held : List Route) (part : Nat) (payload : Bytes) : Option Nat :=
  match held.find? (fun r => r.part == part && r.payload == payload) with
  | some r => some r.index
  | none => firstFree (fun i => !held.any (fun r => r.index == i)) 32768 0

/-- A batch's failure: the detail of Table 07.10. -/
def detailStatus (d : Nat) : Nat := if d = 1 then 0x1002 else if d ≤ 4 then 0x1003 else 0x5002

/-- One route record applied to the new copy (Table 07.8); an error is the detail. Ways and results are taken while either
copy shows them, a replaced payload's result among them (step 5 of R178). -/
def applyRoute (t : RtTables) (old : List Route) (p : Part) (new : List Route) (r : Bytes) :
    Except Nat (List Route) :=
  let op := byteAt r 0
  let len := byteAt r 1
  let ns := nibbles (sl r 2 10)
  let ds := ns.take len
  let payload := sl r 12 12
  if (op ≠ 1 ∧ op ≠ 2) ∨ len < 1 ∨ len > 19 ∨ ds.any (fun d => decide (d > 9)) ∨
     (ns.drop len).any (fun d => d != 15) ∨ (op = 2 ∧ !allZero payload) then .error 2
  else
    let here := fun (x : Route) => x.part == p.id && x.len == len && x.digits == ds
    let held := new ++ old
    if op = 2 then
      if new.any here then .ok (new.filter (fun x => !here x)) else .error 3
    else match resultIndex held p.id payload with
      | none => .error 7
      | some idx =>
        if new.any here then .ok (updWhere here (fun x => { x with payload := payload, index := idx }) new)
        else
          let slot : Option (Nat × Nat) := match old.find? here with
            | some x => some (x.bucket, x.way)
            | none =>
              let (b0, b1) := candidates t p.id len ds
              match freeWay held b0, freeWay held b1 with
              | some w, _ => some (b0, w)
              | none, some w => some (b1, w)
              | none, none => none
          if (t.lenCfg len).1 = 0 then .error 5
          else match slot with
            | none => .error 5
            | some (b, w) =>
              if new.length ≥ 524288 then .error 6
              else if (p.prefixLimit.map (fun l => decide ((new.filter (fun x => x.part == p.id)).length ≥ l))).getD false
              then .error 9
              else .ok (new ++ [{ part := p.id, len := len, digits := ds, payload := payload, index := idx, bucket := b,
                                  way := w }])

/-- Nodes in use in a stage: the distinct paths of the rules that either copy shows (R171, R178). -/
def nodesUsed (rs : List Rule) (stage : Nat) : Nat :=
  ((rs.filter (fun r => decide (r.len > 8 * stage))).map (fun r => (r.part, r.pfx / 2 ^ (64 - 8 * stage)))).dedup.length

/-- One policy record applied to the new copy (Table 07.9). -/
def applyRule (old : List Rule) (p : Part) (new : List Rule) (r : Bytes) : Except Nat (List Rule) :=
  let op := byteAt r 0
  let len := byteAt r 1
  let pfx := fieldLe r 8 8
  let body := sl r 16 12
  let here := fun (x : Rule) => x.part == p.id && x.len == len && x.pfx == pfx
  if (op ≠ 1 ∧ op ≠ 2) ∨ len > 64 ∨ !allZero (sl r 2 6) ∨ !allZero (sl r 28 4) ∨ pfx % 2 ^ (64 - len) ≠ 0 then .error 2
  else if op = 2 then
    if !allZero body then .error 2
    else if new.any here then .ok (new.filter (fun x => !here x)) else .error 3
  else if fieldLe body 0 2 &&& 0xFC01 ≠ 0 ∨ fieldLe body 2 2 &&& 0xC001 ≠ 0 ∨ byteAt body 4 ≥ 16 ∨ byteAt body 5 > 16 ∨
          !allZero (sl body 6 2) then .error 2
  else if new.any here then .ok (updWhere here (fun x => { x with body := body }) new)
  else
    let idx := match old.find? here with
      | some x => some x.index
      | none => firstFree (fun i => !new.any (fun x => x.index == i) && !old.any (fun x => x.index == i)) 131072 0
    match idx with
    | none => .error 8
    | some i =>
      let next := new ++ [{ part := p.id, len := len, pfx := pfx, body := body, index := i }]
      if (List.range 8).any (fun st => decide (nodesUsed (next ++ old) st > 4095)) then .error 8
      else if (p.ruleLimit.map (fun l => decide ((new.filter (fun x => x.part == p.id)).length ≥ l))).getD false
      then .error 9
      else .ok next

/-- Records applied in order; a failure carries its detail and the record's index. -/
def applyAll {α : Type} (f : List α → Bytes → Except Nat (List α)) : Nat → List Bytes → List α →
    Except (Nat × Nat) (List α)
  | _, [], l => .ok l
  | i, r :: rs, l =>
    match f l r with
    | .error d => .error (d, i)
    | .ok l' => applyAll f (i + 1) rs l'

/-- The batch in a command's own data: header, then records of `w` bytes (R176). -/
def batchRecords (own : Bytes) (w : Nat) : List Bytes :=
  (List.range (fieldLe own 2 2)).map (fun i => sl own (8 + w * i) w)

/-- Header faults (R177), in the order of Table 07.10. -/
def headerFault (s : State) (c : Cmd) (own : Bytes) (w : Nat) : Option Nat :=
  let n := fieldLe own 2 2
  let p := fieldLe own 0 2
  if own.length ≠ 8 + w * n then some 1
  else if n = 0 ∨ !allZero (sl own 4 4) then some 2
  else match s.part? p with
    | none => some 4
    | some x => if x.tearing ∨ (p ≠ c.part ∧ !c.admin) then some 4 else none

/-- A table update fails: status of Table 07.10, detail in byte 16, failing record in bytes 18-19. -/
def updateFail (s : State) (c : Cmd) (d idx : Nat) : State :=
  let c1 := (c.setInline 0 (zeros 16)).setInline 0 ([byte d, 0#8] ++ toLe 2 idx)
  s.retireWith c1 (detailStatus d) false true []

/-! ## Generations (R174, R178) -/

/-- A LOOM command admitted under another generation is in flight. -/
def oldLoom (s : State) (policy : Bool) : Bool :=
  s.cmds.any (fun c => (match c.place with
    | .shed _ _ => true
    | .ctx _ => false) && (if policy then c.pgen != s.rt.pgen else c.rgen != s.rt.rgen))

/-- Removes every cache entry of the partitions (a walk, R160): unpinned ways go, pinned ones are INVALIDATED. -/
def walkWays (parts : List Nat) (ws : List Way) : List Way :=
  let gone := ws.filter (fun w => parts.contains w.part && w.pins == 0 && !w.filling && !w.cont)
  (ws.filter (fun w => !gone.any (fun h => w.sameKey h))).map (fun w =>
    if parts.contains w.part then { w with invalidated := true } else w)

/-- A HANDLED entry's removal is mirrored (R161). -/
def State.mirrorRemovals (s : State) (gone : List Way) : State :=
  (gone.filter (fun w => w.handled && w.valid && !w.cont)).foldl (fun t w =>
    t.record { stamp := 0, typ := 0x13, part := w.part,
               body := toLe 1 w.bank ++ toLe 2 w.bucket ++ toLe 1 w.way ++ toLe 4 w.inc }) s

/-- The walk as one operation, with its mirrored removals. -/
def State.walk (s : State) (parts : List Nat) : State :=
  let gone := s.kc.ways.filter (fun w => parts.contains w.part && !w.invalidated)
  ({ s with kc := { s.kc with ways := walkWays parts s.kc.ways } }).mirrorRemovals gone

/-- A committed update of the routes (steps 3 and 4 of R178). -/
def commitRoutes (s : State) (l : List Route) : State :=
  let g := (s.rt.rgen + 1) % 2 ^ 32
  { s with rt := { (s.rt.setRoutes g l) with rgen := g, rSettled := false } }

/-- A committed update of the rules of some partitions; their cache entries leave the cache by a walk that follows it
(R179). -/
def commitRules (s : State) (l : List Rule) (parts : List Nat) : State :=
  let g := (s.rt.pgen + 1) % 2 ^ 32
  { s with rt := { (s.rt.setRules g l) with pgen := g, pSettled := false, pLast := parts } }

/-- Commits of configuration may go on: no supply warning and an open beat (R368, R286). -/
def State.canCommit (s : State) : Bool := !s.sag.warning && s.beatOpen

/-- The command takes the stamp of the change it commits now; the policy in force governs its completion (R284, R287). -/
def State.stamped (s : State) (c : Cmd) : Cmd := { c with stamp := s.nextStamp, mirror := s.waitsBeat c.flags }

/-- The update whose turn it is, on a settled table: checked whole, then committed (R177, R178). -/
def runUpdate (policy : Bool) (s : State) (p : Place) : State :=
  let drop := fun (t : State) =>
    if policy then { t with rt := { t.rt with pWait := t.rt.pWait.filter (fun x => x != p) } }
    else { t with rt := { t.rt with rWait := t.rt.rWait.filter (fun x => x != p) } }
  match (s.cmd? p).filter (fun c => c.phase == .waitTable) with
  | none => drop s
  | some c =>
    let own := c.own (looksForQuorum c.opcode)
    let w := if policy then 32 else 24
    match headerFault s c own w, s.part? (fieldLe own 0 2) with
    | some d, _ => updateFail (drop s) c d 0xFFFF
    | none, none => updateFail (drop s) c 4 0xFFFF
    | none, some part =>
      let done := fun (t : State) (g : Nat) (typ : Nat) =>
        let inline := zeros 4 ++ toLe 4 g ++ zeros 8
        let c1 := (s.stamped c).setInline 0 inline
        let t1 := t.commitFor c1 inline typ part.id (own ++ toLe 4 g)
        (if policy then t1.walk [part.id] else t1).retireWith c1 0 false true []
      if policy then
        match applyAll (applyRule (s.rt.rules s.rt.pgen) part) 0 (batchRecords own 32) (s.rt.rules s.rt.pgen) with
        | .error (d, i) => updateFail (drop s) c d i
        | .ok l => done (commitRules (drop s) l [part.id]) ((s.rt.pgen + 1) % 2 ^ 32) 0x07
      else
        match applyAll (applyRoute s.rt (s.rt.routes s.rt.rgen) part) 0 (batchRecords own 24) (s.rt.routes s.rt.rgen) with
        | .error (d, i) => updateFail (drop s) c d i
        | .ok l => done (commitRoutes (drop s) l) ((s.rt.rgen + 1) % 2 ^ 32) 0x06

/-- Step 5 of R178: the changed items are copied into the other parity, and the table is settled. -/
def parityCopy (policy : Bool) (s : State) : State :=
  if oldLoom s policy then s
  else if policy then
    if s.rt.pSettled then s
    else { s with rt := { (s.rt.setRules (s.rt.pgen + 1) (s.rt.rules s.rt.pgen)) with pSettled := true } }
  else if s.rt.rSettled then s
  else { s with rt := { (s.rt.setRoutes (s.rt.rgen + 1) (s.rt.routes s.rt.rgen)) with rSettled := true } }

def execRtParityCopy (policy : Bool) (s : State) : Outcome := .next (parityCopy policy s)

end Sys2Proof.Machine
end

