-- ==== Sys2Proof/Machine/KeyBlock.lean ====
section
/-! DEFINITION. X9.143 key blocks as the device reads and forms them (R204-R211, Tables 08.7 to 08.10). -/

namespace Sys2Proof.Machine

open Sys2Proof

/-! ## Table 08.8 -/

structure UsageRow where
  usage : String
  algs  : List (Char × List Nat)      -- algorithm character, device algorithms
  modes : List (Char × List Nat)      -- mode of use, device usages

def aesAlgs : Char × List Nat := ('A', [1, 2, 3])
def tdesAlgs : Char × List Nat := ('T', [4, 5])
def tdes2 : Char × List Nat := ('T', [4])
def rsaAlgs : Char × List Nat := ('R', [11, 12, 13])
def codeModes : List (Char × List Nat) := [('C', [9]), ('G', [9]), ('V', [9]), ('N', [9])]
def dataModes : List (Char × List Nat) := [('E', [1]), ('D', [2]), ('B', [1, 2]), ('N', [1, 2])]
def macModes : List (Char × List Nat) := [('G', [5]), ('V', [6]), ('C', [5, 6]), ('N', [5, 6])]
def wrapModes : List (Char × List Nat) := [('B', [3]), ('N', [3])]

def usageRows : List UsageRow :=
  [{ usage := "B1", algs := [aesAlgs, tdes2], modes := [('X', [4])] },
   { usage := "C0", algs := [tdes2], modes := codeModes },
   { usage := "D0", algs := [aesAlgs, tdesAlgs], modes := dataModes },
   { usage := "E0", algs := [aesAlgs, tdes2], modes := [('X', [5]), ('G', [5]), ('N', [5])] },
   { usage := "K0", algs := [aesAlgs, tdesAlgs], modes := wrapModes },
   { usage := "K1", algs := [aesAlgs, tdesAlgs], modes := wrapModes },
   { usage := "K3", algs := [('E', [8])], modes := [('X', [4]), ('N', [4])] },
   { usage := "M3", algs := [tdes2], modes := macModes },
   { usage := "M6", algs := [aesAlgs, tdesAlgs], modes := macModes },
   { usage := "M7", algs := [('H', [6])], modes := macModes },
   { usage := "P0", algs := [aesAlgs, tdesAlgs], modes := dataModes },
   { usage := "S0", algs := [('E', [7, 9, 10]), rsaAlgs], modes := [('S', [7]), ('V', [8])] },
   { usage := "D1", algs := [rsaAlgs], modes := [('D', [3]), ('E', [3])] },
   { usage := "V1", algs := [tdesAlgs], modes := codeModes },
   { usage := "V2", algs := [tdes2], modes := codeModes }]

def chr (c : Char) : Byte := byte c.toNat

/-- Row, device algorithms and device usages of a header's key usage, algorithm and mode. -/
def usageEntry (ku : Bytes) (alg mode : Byte) : Option (List Nat × List Nat) :=
  match usageRows.find? (fun r => ascii r.usage == ku) with
  | none => none
  | some r =>
    match r.algs.find? (fun a => chr a.1 == alg), r.modes.find? (fun m => chr m.1 == mode) with
    | some a, some m => some (a.2, m.2)
    | _, _ => none

/-! ## Reading -/

/-- A block's header and optional blocks as read (R205, R207). -/
structure KBlock where
  version : Byte
  usage : Bytes
  alg : Byte
  mode : Byte
  kver : Nat
  exp : Byte
  opts : List (Bytes × Bytes)         -- ID and content, in order
  clear : Nat                         -- characters of header and optional blocks
  algs : List Nat                     -- device algorithms and usages of Table 08.8
  usages : List Nat
deriving DecidableEq, Repr

def KBlock.opt (k : KBlock) (id : String) : Option Bytes := (k.opts.find? (fun o => o.1 == ascii id)).map (fun o => o.2)
def KBlock.name (k : KBlock) : Nat := ((k.opt "0N").bind hexNat).getD 0
def KBlock.notAfter (k : KBlock) : Nat := ((k.opt "0T").bind hexNat).getD 0

def printable (b : Bytes) : Bool := b.all (fun c => decide (0x20 ≤ c.toNat ∧ c.toNat ≤ 0x7E))

/-- The optional blocks from character `p` on. -/
def readOpts (b : Bytes) : Nat → Nat → Option (List (Bytes × Bytes) × Nat)
  | 0, p => some ([], p)
  | n + 1, p =>
    if p + 4 > b.length then none
    else match hexNat (sl b (p + 2) 2) with
      | none => none
      | some l =>
        if l < 4 ∨ p + l > b.length then none
        else match readOpts b n (p + l) with
          | none => none
          | some (r, e) => some ((sl b p 2, sl b (p + 4) (l - 4)) :: r, e)

/-- The characters after the header and optional blocks, encrypted data and MAC, are uppercase hexadecimal (R204). Where
the optional blocks cannot be found, check 4 or check 3 finds that (DEDUCED, log 30). -/
def kbHexTail (b : Bytes) : Bool :=
  match (decNat (sl b 12 2)).bind (fun n => readOpts b n 16) with
  | none => true
  | some (_, p) => (b.drop p).all (fun c => (hexVal c).isSome)

/-- Check 1: length, character set and length field under R204 and R205. -/
def kbCheck1 (b : Bytes) : Bool :=
  decide (32 ≤ b.length ∧ b.length ≤ 3072) && printable b && (decNat (sl b 1 4) == some b.length) && kbHexTail b

/-- Check 2: the version matches the KBPK's algorithm (Table 08.7). -/
def kbCheck2 (b : Bytes) (kbpkAlg : Nat) : Bool :=
  (sl b 0 1 == [chr 'B'] && isTdes kbpkAlg) || (sl b 0 1 == [chr 'D'] && isAes kbpkAlg)

/-- A block of Table 08.9 has the form shown. -/
def optForm (o : Bytes × Bytes) : Bool :=
  if o.1 = ascii "0N" then o.2.length == 16 && (hexNat o.2).isSome
  else if o.1 = ascii "0T" then o.2.length == 12 && (hexNat o.2).isSome
  else if o.1 = ascii "0C" then [ascii "01", ascii "02", ascii "03", ascii "04"].contains o.2
  else true

def optDup (os : List (Bytes × Bytes)) : Bool :=
  [ascii "0N", ascii "0T", ascii "0C", ascii "PB"].any (fun id => decide ((os.filter (fun o => o.1 == id)).length > 1))

/-- Block length of a version in characters of the clear part and bytes of the encrypted part; MAC bytes. -/
def versionBlock (v : Byte) : Nat := if v = chr 'D' then 16 else 8

/-- Checks 3 and 4; the failing check's number. -/
def kbHeader (b : Bytes) : Except Nat KBlock :=
  match decNat (sl b 9 2), decNat (sl b 12 2), usageEntry (sl b 5 2) (byte (byteAt b 7)) (byte (byteAt b 8)) with
  | some kver, some n, some (algs, usages) =>
    let e := byte (byteAt b 11)
    if !([chr 'E', chr 'N', chr 'S'].contains e) ∨ sl b 14 2 ≠ ascii "00" then .error 3
    else match readOpts b n 16 with
      | none => .error 4
      | some (os, p) =>
        let v := byte (byteAt b 0)
        if !os.all optForm ∨ optDup os ∨ p % versionBlock v ≠ 0 ∨
           (os.any (fun o => o.1 == ascii "0C")) ≠ (byteAt b 7 == (chr 'E').toNat) then .error 4
        else .ok { version := v, usage := sl b 5 2, alg := byte (byteAt b 7), mode := byte (byteAt b 8), kver := kver,
                   exp := e, opts := os, clear := p, algs := algs, usages := usages }
  | _, _, _ => .error 3

/-- The KBPK's encryption and authentication keys and its cipher as an algorithm code. -/
def kbCipher (v : Byte) : Nat := if v = chr 'D' then 3 else 4
def kbMac (v : Byte) (kbpk msg : Bytes) : Bytes :=
  let aes := v == chr 'D'
  sl (Config.cmac aes (Config.kbMacKey aes kbpk) msg) 0 (versionBlock v)

/-- Check 5: the encrypted field and MAC are hexadecimal, the field is whole blocks, and the MAC over the clear part and
the deciphered field verifies. The field. -/
def kbCheck5 (b : Bytes) (k : KBlock) (kbpk : Bytes) : Option Bytes :=
  let m := versionBlock k.version
  match unhex (b.drop k.clear) with
  | none => none
  | some raw =>
    if raw.length < 2 * m ∨ raw.length % m ≠ 0 then none
    else
      let enc := raw.take (raw.length - m)
      let mac := raw.drop (raw.length - m)
      let field := cbcDec (kbCipher k.version) (Config.kbEncKey (k.version == chr 'D') kbpk) mac enc
      if kbMac k.version kbpk (b.take k.clear ++ field) = mac then some field else none

/-- Device algorithm from the header's algorithm, the curve and the key length in bits (RSA: the modulus). -/
def kbAlg (k : KBlock) (bits : Nat) : Option Nat :=
  let a := k.alg
  let r := if a = chr 'A' then (if bits = 128 then some 1 else if bits = 192 then some 2 else if bits = 256 then some 3 else none)
    else if a = chr 'T' then (if bits = 128 then some 4 else if bits = 192 then some 5 else none)
    else if a = chr 'H' then (if bits = 256 then some 6 else none)
    else if a = chr 'R' then (if bits = 2048 then some 11 else if bits = 3072 then some 12 else if bits = 4096 then some 13 else none)
    else match k.opt "0C" with
      | none => none
      | some c => if c = ascii "01" then some 7 else if c = ascii "02" then some 8 else if c = ascii "03" then some 9 else some 10
  match r with
  | none => none
  | some x => if k.algs.contains x then some x else none

/-- Bytes of an elliptic-curve key in a block: a public point where the mode is V. -/
def ecLen (alg : Nat) (pub : Bool) : Nat := if pub then (if alg = 9 then 33 else if alg = 10 then 49 else 32) else matLen alg

/-- RSA values of a key block's material: e, then the private parts of `h` bytes each (R208). -/
def rsaE (m : Bytes) : Nat := beNat (m.take 4)
def rsaPart (m : Bytes) (h i : Nat) : Nat := beNat (sl m (4 + h * i) h)

/-- A private RSA key as check 6 demands it (R229). -/
def rsaPrivOk (k : Nat) (m : Bytes) : Bool :=
  let h := k / 16
  let p := rsaPart m h 0
  let q := rsaPart m h 1
  let exact := fun (x n : Nat) => decide (2 ^ (n - 1) ≤ x ∧ x < 2 ^ n)
  p % 2 == 1 && q % 2 == 1 && exact p (k / 2) && exact q (k / 2) && exact (p * q) k && rsaE m % 2 == 1 &&
    decide (rsaE m ≥ 3) && (rsaPart m h 4 * q % p == 1)

/-- Check 6 (R208): the key, with the algorithm and the material it holds. The field begins with the length in bits of the
key; an RSA key begins with its modulus length (notes/assumptions/16.md). -/
def kbField (k : KBlock) (f : Bytes) : Option (Nat × Bytes) :=
  let rsa := k.alg == chr 'R'
  let bits := if rsa then beNat (sl f 2 2) else beNat (sl f 0 2)
  let off := if rsa then 4 else 2
  let lim := 32 + versionBlock k.version
  match kbAlg k bits with
  | none => none
  | some a =>
    let pub := k.mode == chr 'V' || k.mode == chr 'E'
    let len := if isRsa a then 4 + (if pub then bits / 8 else 5 * (bits / 16))
      else if 7 ≤ a ∧ a ≤ 10 then ecLen a pub else matLen a
    let mat := sl f off len
    if f.length < off + len ∨ f.length - off - len ≥ lim then none
    else if beNat (sl f 0 2) ≠ 8 * (off - 2 + len) then none
    else if isRsa a ∧ !pub ∧ !rsaPrivOk bits mat then none
    else if (a = 9 ∨ a = 10) ∧ !pub ∧ (beNat mat = 0 ∨ beNat mat ≥ ecN (a == 10)) then none
    else some (a, if isTdes a then oddParity mat else mat)

/-- A block read through checks 1 to 6: its header, algorithm and material; or the failing check. -/
def kbRead (b : Bytes) (kbpkAlg : Nat) (kbpk : Bytes) : Except Nat (KBlock × Nat × Bytes) :=
  if !kbCheck1 b then .error 1
  else if !kbCheck2 b kbpkAlg then .error 2
  else match kbHeader b with
    | .error n => .error n
    | .ok k =>
      match kbCheck5 b k kbpk with
      | none => .error 5
      | some f =>
        match kbField k f with
        | none => .error 6
        | some (a, m) => .ok (k, a, m)

/-- The key a block gives for a demanded usage. -/
def kbKey (k : KBlock) (a : Nat) (m : Bytes) (usage : Nat) : KeyInfo :=
  { usage := usage, alg := a, mat := m, name := k.name, version := k.kver, notAfter := k.notAfter,
    exportable := k.exp == chr 'E', limited := false, level := 2,
    rsaPriv := k.mode == chr 'S' || k.mode == chr 'D', transport := k.usage == ascii "D1" }

/-- An event a failing operation logs: code and four parameters. -/
abbrev Note := Nat × Nat × Nat × Nat × Nat

/-- The unwrap of R209: the key, or the status and event of the first failing check. `ref` is the reference index, 0xFF
for a KEY.UNWRAP step. -/
def unwrapKey (s : State) (c : Cmd) (b : Bytes) (kbpkAlg : Nat) (kbpk : Bytes) (usage mask ref : Nat) :
    Except (Nat × Option Note) KeyInfo :=
  let fail := fun (st n : Nat) => Except.error (st, some (0x0A20, n, c.part, ref, 0))
  match kbRead b kbpkAlg kbpk with
  | .error n => fail 0x3002 n
  | .ok (k, a, m) =>
    if !k.usages.contains usage ∨ !bit mask a then fail 0x2002 7
    else match timeStatus s k.notAfter with
      | some st => fail st 8
      | none =>
        if policyOk s c k.name usage a (roleUse + roleImport) then .ok (kbKey k a m usage) else fail 0x2001 9

/-! ## Forming a block (R211) -/

/-- The mode of use of a device usage. -/
def modeOf (usage : Nat) : Byte :=
  if usage = 1 then chr 'E' else if usage = 2 then chr 'D' else if usage = 3 then chr 'B' else if usage = 4 then chr 'X'
  else if usage = 5 then chr 'G' else if usage = 6 then chr 'V' else if usage = 9 then chr 'C'
  else if usage = 7 then chr 'S' else chr 'V'

def algChar (alg : Nat) : Byte :=
  if isAes alg then chr 'A' else if isTdes alg then chr 'T' else if alg = 6 then chr 'H'
  else if isRsa alg then chr 'R' else chr 'E'

/-- Table 08.8 pairs a key usage with an algorithm and a device usage. -/
def kuPairs (ku : Bytes) (alg usage : Nat) : Bool :=
  match usageEntry ku (algChar alg) (modeOf usage) with
  | none => false
  | some (algs, us) => algs.contains alg && us.contains usage

def optText (o : Bytes × Bytes) : Bytes := o.1 ++ hexText [byte (o.2.length + 4)] ++ o.2

/-- PB padding that brings `n` characters to a whole number of `w`. -/
def padBlock (n w : Nat) : List (Bytes × Bytes) :=
  if n % w = 0 then []
  else
    let need := w - n % w
    let p := if need < 4 then need + w else need
    [(ascii "PB", List.replicate (p - 4) (chr '0'))]

def optsLen (os : List (Bytes × Bytes)) : Nat := (os.map (fun o => (optText o).length)).sum

/-- The key of a key field (R208): an RSA key begins with its modulus length in bits. -/
def keyText (alg : Nat) (mat : Bytes) : Bytes :=
  (if isRsa alg then toBe 2 (2048 + 1024 * (alg - 11)) else []) ++ mat

/-- Bytes of the key field: length, key and padding to the next whole cipher block beyond the longest key of the
family. The manual gives no longest key for the other families; their own length is taken (notes/assumptions/16.md). -/
def fieldLen (v : Byte) (alg : Nat) (mat : Bytes) : Nat :=
  let n := 2 + (if isAes alg then 32 else if isTdes alg then 24 else (keyText alg mat).length)
  let w := versionBlock v
  (n + w - 1) / w * w

/-- The key field before padding. -/
def fieldHead (alg : Nat) (mat : Bytes) : Bytes :=
  toBe 2 (8 * (keyText alg mat).length) ++ keyText alg mat

/-- Padding bytes the field needs from a DRBG. -/
def fieldPad (v : Byte) (alg : Nat) (mat : Bytes) : Nat := fieldLen v alg mat - (fieldHead alg mat).length

def versionOf (kbpkAlg : Nat) : Byte := if isAes kbpkAlg then chr 'D' else chr 'B'

/-- A key block from its elements: `os` without PB, `pad` the padding of the key field. -/
def kbBuild (kbpkAlg : Nat) (kbpk ku : Bytes) (algc mode : Byte) (kver : Nat) (exp : Byte) (os : List (Bytes × Bytes))
    (alg : Nat) (mat pad : Bytes) : Bytes :=
  let v := versionOf kbpkAlg
  let w := versionBlock v
  let all := os ++ padBlock (16 + optsLen os) w
  let field := sl (fieldHead alg mat ++ pad) 0 (fieldLen v alg mat)
  let total := 16 + optsLen all + 2 * field.length + 2 * w
  let clear := [v] ++ decText 4 total ++ sl ku 0 2 ++ [algc, mode] ++ decText 2 kver ++ [exp] ++ decText 2 all.length ++
    ascii "00" ++ all.flatMap optText
  let mac := kbMac v kbpk (clear ++ field)
  let enc := cbcEnc (kbCipher v) (Config.kbEncKey (v == chr 'D') kbpk) mac field
  clear ++ hexText enc ++ hexText mac

/-- The optional blocks of R211 for a key. -/
def keyOpts (name notAfter alg : Nat) : List (Bytes × Bytes) :=
  (if name = 0 then [] else [(ascii "0N", hexText (toBe 8 name))]) ++
  (if notAfter = 0 then [] else [(ascii "0T", hexText (toBe 6 notAfter))]) ++
  (if 7 ≤ alg ∧ alg ≤ 10 then [(ascii "0C", decText 2 (alg - 6))] else [])

end Sys2Proof.Machine
end

