-- ==== Sys2Proof/Machine/KeyCache.lean ====
section
/-! DEFINITION. The working key cache (chapter 06): tags, lookups, victims, fills, reservations of limited objects, and
the resolution of key references (R100, R122-R124, R131, R132, R186). -/

namespace Sys2Proof.Machine

open Sys2Proof

/-! ## Tags (R149-R151) -/

/-- The first 32 bytes of SHA-512. -/
def sha32 (b : Bytes) : Bytes := sl (Config.sha512 b) 0 32

/-- The tag, little-endian as R6 has it; C is an AES block, its first byte the most significant (R7, R150). -/
def cacheTag (salt : Bytes) (part usage source : Nat) (ident : Bytes) : Bytes :=
  let c := beNat (sl (Config.cmac true salt (toLe 2 part ++ [byte usage, byte source] ++ zeros 12 ++ sl ident 0 32)) 0 16)
  toLe 16 (part % 4096 * 2 ^ 116 + usage % 16 * 2 ^ 112 + source % 8 * 2 ^ 109 + c % 2 ^ 109)

def tagBank (t : Bytes) : Nat := leNat t % 4
def tagBucket (t : Bytes) : Nat := leNat t / 4 % 16384

/-! ## Ways -/

def State.modWays (s : State) (p : Way → Bool) (f : Way → Way) : State :=
  { s with kc := { s.kc with ways := updWhere p f s.kc.ways } }

def Way.here (b u w : Nat) (x : Way) : Bool := x.bank == b && x.bucket == u && x.way == w

/-- Removes a key: its head way and its continuation. -/
def State.dropKey (s : State) (h : Way) : State :=
  { s with kc := { s.kc with ways := s.kc.ways.filter (fun x => !x.sameKey h) } }

def KCache.bump (k : KCache) (hit miss evicted swept shadow blocked : Nat) : KCache :=
  { k with hits := (k.hits + hit) % 2 ^ 32, misses := (k.misses + miss) % 2 ^ 32,
           evicted := (k.evicted + evicted) % 2 ^ 32, swept := (k.swept + swept) % 2 ^ 32,
           shadowed := (k.shadowed + shadow) % 2 ^ 32, blocked := (k.blocked + blocked) % 2 ^ 32 }

/-- An entry leaves the cache: pinned, it is INVALIDATED until its last pin is released (R160). -/
def flushWay (s : State) (w : Way) : State :=
  (if w.pins = 0 then s.dropKey w else s.modWays (fun x => x.sameKey w) (fun x => { x with invalidated := true })).mirrorRemovals [w]

/-- The key of this head way has an uncorrectable error, in the way or its continuation (R152). -/
def State.keyEcc (s : State) (w : Way) : Bool := s.kc.ways.any (fun y => y.sameKey w && y.ecc)

/-- Head ways that satisfy `p` and whose key has an uncorrectable error. -/
def State.eccHeads (s : State) (p : Way → Bool) : List Way := s.kc.ways.filter (fun w => !w.cont && p w && s.keyEcc w)

/-- An uncorrectable error is detected: the entry goes and event 0x0A11 is logged (R160, R425). -/
def State.eccDrop (s : State) (w : Way) (part : Nat) : State :=
  (flushWay s w).raise 0x0A11 w.bank w.bucket w.way part

/-- The way of a register whose entry has met an uncorrectable error (R160). -/
def regEcc (s : State) (k : KReg) : Option Way :=
  match k.loc with
  | .shadow => none
  | .way b u w inc => s.kc.ways.find? (fun x => Way.at_ b u w inc x && s.keyEcc x)

/-! ## Occupancy and victims (R155, R156) -/

def State.occ (s : State) (p : Nat) : Nat := (s.kc.ways.filter (fun w => s.inSubtree p w.part)).length

/-- An entry of partition `q` is protected against a miss of `r`. -/
def protected_ (s : State) (r q : Nat) : Bool :=
  (s.ancestors q).any (fun a => !s.inSubtree a r && decide (s.occ a ≤ ((s.part? a).map (fun x => x.cacheMin)).getD 0))

def overMax (s : State) (q : Nat) : Bool :=
  (s.ancestors q).any (fun a => decide (s.occ a > ((s.part? a).map (fun x => x.cacheMax)).getD 0))

/-- The deepest partition of the miss's chain that is at its maximum. -/
def confining (s : State) (r : Nat) : Option Nat :=
  (s.ancestors r).find? (fun a => decide (s.occ a ≥ ((s.part? a).map (fun x => x.cacheMax)).getD 0))

/-- Ways of a bucket that may be displaced: valid, and no way of the same key pinned. -/
def displaceable (s : State) (b u : Nat) (conf : Option Nat) : List Way :=
  s.kc.ways.filter (fun x => x.bank == b && x.bucket == u && x.valid && !x.filling &&
    !s.kc.ways.any (fun y => y.sameKey x && decide (y.pins > 0)) &&
    (match conf with
     | none => true
     | some a => s.inSubtree a x.part))

/-- The first non-empty class of R156, as way numbers with their AGE. -/
def victimClass (s : State) (r b u : Nat) : List (Nat × Nat) :=
  let conf := confining s r
  let free := if conf.isSome then [] else
    ((List.range 4).filter (fun w => !s.kc.ways.any (Way.here b u w))).map (fun w => (w, 0))
  let ds := displaceable s b u conf
  let un := ds.filter (fun x => !protected_ s r x.part)
  let c2 := (un.filter (fun x => overMax s x.part)).map (fun x => (x.way, x.age))
  let c3 := un.map (fun x => (x.way, x.age))
  if free ≠ [] then free else if c2 ≠ [] then c2 else c3

/-- The largest AGE, and the lowest way among equals. -/
def oldestOf (l : List (Nat × Nat)) : Option Nat :=
  (l.foldl (fun (best : Option (Nat × Nat)) x => match best with
    | none => some x
    | some y => if x.2 > y.2 ∨ (x.2 = y.2 ∧ x.1 < y.1) then some x else some y) none).map (fun x => x.1)

/-- The victim of a miss of `r` in a bucket, and the state once it is evicted. RANDOM takes a free choice. -/
def evict (s : State) (r b u : Nat) : Option (Nat × State) :=
  let cls := victimClass s r b u
  let oldest := ((s.part? r).map (fun x => x.oldest)).getD false
  let pick := if oldest then oldestOf cls else (cls[Config.freeNat s.draw % cls.length]?).map (fun x => x.1)
  let s1 := if oldest then s else s.drawn 1
  match pick with
  | none => none
  | some w =>
    match s1.kc.ways.find? (Way.here b u w) with
    | none => some (w, s1)
    | some x =>
      let s2 := (s1.dropKey x).mirrorRemovals (s1.kc.ways.filter (fun y => y.sameKey x))
      some (w, { s2 with kc := s2.kc.bump 0 0 1 0 0 0 })

/-! ## Key registers (R91) -/

/-- Empties a key register. -/
def emptyReg (s : State) (c : Cmd) (reg : Nat) : State × Cmd :=
  match c.kregs.find? (fun k => k.1 == reg) with
  | none => (s, c)
  | some k => (s.unpin k.2, { c with kregs := c.kregs.filter (fun x => x.1 != reg) })

/-- Places a key in a register, which is emptied first. -/
def fillReg (s : State) (c : Cmd) (reg : Nat) (k : KReg) : State × Cmd :=
  let r := emptyReg s c reg
  (r.1, { r.2 with kregs := (reg, k) :: r.2.kregs })

def Cmd.key (c : Cmd) (reg : Nat) : Option KReg := (c.kregs.find? (fun k => k.1 == reg)).map (fun k => k.2)

/-- Registers beyond K15 in which the key port holds the parent or wrapping key while it resolves a reference. -/
def parentReg (depth : Nat) : Nat := 16 + depth

/-! ## A lookup -/

/-- What a lookup asks for: the register to fill, the demanded usage and algorithms, the source and its identity, the
roles checked on a hit, and the key a fill would place or the status with which it would fail. `uHit` and `uMiss` are
the flags returned; `isRef` says that a key reference is resolved. -/
structure Ask where
  reg : Nat
  usage : Nat
  mask : Nat
  source : Nat
  ident : Bytes
  roles : Nat
  named : Bool
  handle : Nat
  cacheOnly : Bool
  isRef : Bool
  fill : Except (Nat × Option Note) KeyInfo

/-- What a lookup gives: a key in its register (`missed`, `loaded` from the store), a hard status, a fill in progress
for this command, a wait after which the lookup is made again, or nothing yet. -/
inductive Got where
  | got (s : State) (c : Cmd) (missed loaded : Bool)
  | hard (s : State) (c : Cmd) (status : Nat)
  | filling (s : State) (c : Cmd) (b u w : Nat)
  | wait (s : State) (c : Cmd) (phase : Phase)
  | later

/-- Usage, algorithm, time and policy checks of a resolved key (R100, R131). -/
def keyStatus (s : State) (c : Cmd) (k : KeyInfo) (usage mask roles : Nat) : Option Nat :=
  if k.usage ≠ usage ∨ !bit mask k.alg then some 0x2002
  else match timeStatus s k.notAfter with
    | some st => some st
    | none => if roles ≠ 0 ∧ !policyOk s c k.name usage k.alg roles then some 0x2001 else none

def State.note (s : State) (n : Option Note) : State :=
  match n with
  | none => s
  | some (code, a, b, c, d) => s.raise code a b c d

/-- Event 0x0A08, once per object. -/
def State.limitReached (s : State) (handle : Nat) : State :=
  match s.ks.objs.find? (fun o => o.handle == handle) with
  | none => s
  | some o =>
    if o.limitLogged then s
    else
      let s1 := s.raise 0x0A08 handle (fieldLe (s.objBody o) 32 4) 0 0
      { s1 with ks := { s1.ks with objs := updWhere (fun x => x.handle == handle)
                                      (fun x => { x with limitLogged := true }) s1.ks.objs } }

/-- The live object's reservation is spent and reaches its limit; an object that is gone counts as spent. -/
def State.spent (s : State) (handle : Nat) : Bool :=
  match s.liveObjs.find? (fun o => o.handle == handle) with
  | none => true
  | some o => bodySpent (s.objBody o)

def State.enqueue (s : State) (k : CommitKind) (who : Option Place) : State :=
  { s with ks := { s.ks with queue := s.ks.queue ++ [{ kind := k, who := who, started := false }] } }

/-- Pins a way for a register (R91, R157) with the key as the key port reads it: for an RSA stub the complete key,
which the GET loads beside it (R232). -/
def pinWay (s : State) (c : Cmd) (reg : Nat) (named : Bool) (w : Way) (key : KeyInfo) : State × Cmd :=
  fillReg (s.modWays (Way.at_ w.bank w.bucket w.way w.inc) (fun x => { x with pins := x.pins + 1, hit := true }))
    c reg { loc := .way w.bank w.bucket w.way w.inc, key := key, named := named, tag := w.tag, source := w.source }

/-- An RSA key in the cache is a stub without material (R152). -/
def stubOf (k : KeyInfo) : KeyInfo := if isRsa k.alg then { k with mat := [] } else k

/-- A hit on a valid way: the checks, then a use of a limited object's reservation, or a wait for a new one (R132). -/
def hitWay (s0 : State) (c : Cmd) (q : Ask) (w : Way) : Got :=
  let s1 := { s0 with kc := s0.kc.bump 1 0 0 0 0 0 }
  let s2 := s1.modWays (Way.at_ w.bank w.bucket w.way w.inc) (fun x => { x with hit := true })
  let s := if q.roles = 0 then s2 else countPolicy s2
  match keyStatus s c w.key q.usage q.mask q.roles with
  | some st => .hard s c st
  | none =>
    if w.key.limited ∧ w.handle ≠ 0 then
      if w.uses > 0 then
        let t := s.modWays (Way.at_ w.bank w.bucket w.way w.inc) (fun x => { x with uses := x.uses - 1 })
        let r := pinWay t c q.reg q.named w w.key
        .got r.1 r.2 false false
      else if s.spent w.handle then .hard (s.limitReached w.handle) c 0x3003
      else
        let k := CommitKind.reserve w.handle w.bank w.bucket w.way
        let t := if s.ks.queue.any (fun x => x.kind == k) then s else s.enqueue k none
        .wait t c (.waitFill w.bank w.bucket w.way)
    else if isRsa w.key.alg then
      match q.fill with
      | .error (st, n) => .hard (s.note n) c st
      | .ok k =>
        let r := pinWay s c q.reg q.named w k
        .got r.1 r.2 false false
    else
      let r := pinWay s c q.reg q.named w w.key
      .got r.1 r.2 false false

/-- Number of a place among the shadow fills. -/
def placeCode : Place → Nat
  | .shed n k => 32 * n + k
  | .ctx i => 512 + i

/-- Fills of a loom outstanding at the cache. -/
def loomFills (s : State) (p : Place) : Nat :=
  (s.kc.fills.filter (fun f => match f.who, p with
    | .shed n _, .shed m _ => n == m
    | _, _ => false)).length

def nextInc (x : Nat) : Nat := if x + 1 ≥ 2 ^ 32 then 1 else x + 1
def wayNo (b u w : Nat) : Nat := 4 * (4 * u + w) + b

/-- A FILLING way as a miss reserves it (R154). -/
def fillingWay (c : Cmd) (q : Ask) (t : Bytes) (b u w inc : Nat) (cont stale : Bool) (k : KeyInfo) : Way :=
  { bank := b, bucket := u, way := w, tag := t, inc := inc, valid := false, hit := false, seen := false,
    handled := false, cont := cont, invalidated := stale, filling := true, part := c.part, source := q.source, age := 0,
    uses := 0, pins := 0, handle := q.handle, ecc := false, key := stubOf k }

def KeyInfo.none_ : KeyInfo :=
  { usage := 0, alg := 0, mat := [], name := 0, version := 0, notAfter := 0, exportable := false, limited := false,
    level := 0, rsaPriv := false, transport := false }

/-- A command admitted before the last policy update of its partition: what it fills is INVALIDATED (R179). -/
def stalePolicy (s : State) (c : Cmd) : Bool := c.pgen != s.rt.pgen && s.rt.pLast.contains c.part

/-- Reserves the victim ways of a miss: one, or two for a P-384 key (R152, R156). With no victim, whether the miss was
confined to a subtree at its maximum. -/
def reserveWays (s : State) (c : Cmd) (q : Ask) (t : Bytes) (k : KeyInfo) : Except Bool (State × Nat) :=
  let b := tagBank t
  let u := tagBucket t
  match evict s c.part b u with
  | none => .error (confining s c.part).isSome
  | some (w, s1) =>
    let inc := nextInc (assocGet s1.kc.incs (wayNo b u w) 0)
    let put := fun (x : State) (w' i : Nat) (cont : Bool) =>
      { x with kc := { x.kc with ways := x.kc.ways ++ [fillingWay c q t b u w' inc cont (stalePolicy s c) k],
                                 incs := assocSet x.kc.incs (wayNo b u w') i } }
    let s2 := put s1 w inc false
    if k.alg = 10 then
      match evict s2 c.part b u with
      | none => .error (confining s2 c.part).isSome
      | some (w2, s3) => .ok (put s3 w2 (max inc (nextInc (assocGet s3.kc.incs (wayNo b u w2) 0))) true, w)
    else .ok (s2, w)

/-- The key a fill will place, or an empty one. -/
def askKey (q : Ask) : KeyInfo :=
  match q.fill with
  | .ok k => k
  | .error _ => KeyInfo.none_

def askFill (c : Cmd) (q : Ask) (t : Bytes) (b u w : Nat) (reserving : Bool) : Fill :=
  let base : Fill := { bank := b, bucket := u, way := w, who := c.place, order := c.order, kreg := q.reg, key := none,
                       status := 0, note := none, named := q.named, source := q.source, tag := t, handle := q.handle,
                       u := (if q.isRef then uflags true (q.source == 1) false else 0), reserving := reserving }
  match q.fill with
  | .ok k => { base with key := some k }
  | .error (st, n) => { base with status := st, note := n }

/-- A miss with no victim: a cache-only GET stops, otherwise the key goes to the register's shadow entry (R157). -/
def missShadow (s : State) (c : Cmd) (q : Ask) (t : Bytes) (confined : Bool) : Got :=
  if q.cacheOnly then
    .hard { s with kc := s.kc.bump 0 0 0 0 0 1 } c (if confined then 0x5002 else 0x5001)
  else
    match q.fill with
    | .error (st, n) => .hard (s.note n) c st
    | .ok k =>
      let s1 := { s with kc := s.kc.bump 0 0 0 0 1 0 }
      if k.limited ∧ q.handle ≠ 0 then
        if s1.spent q.handle then .hard (s1.limitReached q.handle) c 0x3003
        else
          let u := placeCode c.place
          let f := askFill c q t 4 u q.reg true
          let s2 := { s1 with kc := { s1.kc with fills := s1.kc.fills ++ [f] } }
          .filling (s2.enqueue (.reserve q.handle 4 u q.reg) none) c 4 u q.reg
      else
        let r := fillReg s1 c q.reg { loc := .shadow, key := k, named := q.named, tag := t, source := q.source }
        .got r.1 r.2 true (q.source == 1)

/-- A miss: the register is emptied (R91), the victim way is reserved at once and the fill begins (R154). -/
def missKey (s0 : State) (c0 : Cmd) (q : Ask) (t : Bytes) : Got :=
  let b := tagBank t
  if (s0.kc.fills.filter (fun f => f.bank == b)).length ≥ 64 ∨ loomFills s0 c0.place ≥ 4 then .later
  else
    let s1 := { s0 with kc := s0.kc.bump 0 1 0 0 0 0 }
    let r := emptyReg (if q.roles = 0 then s1 else countPolicy s1) (if q.isRef then { c0 with keyLoaded := true } else c0) q.reg
    let s := r.1
    let c := r.2
    match reserveWays s c q t (askKey q) with
    | .error confined => missShadow s c q t confined
    | .ok (s2, w) =>
      let u := tagBucket t
      .filling { s2 with kc := { s2.kc with fills := s2.kc.fills ++ [askFill c q t b u w false] } } c b u w

/-- The lookup (R150, R151, R154). Before CACHE_SALT is drawn no lookup is possible: BUSY_RETRY. DUKPT keys of one initial
key, KSN and usage have one tag (R149): the entry of the demanded working key is taken (R202; notes/assumptions/68.md). -/
def cacheGet (s0 : State) (c : Cmd) (q : Ask) : Got :=
  match s0.kc.salt with
  | none => .hard s0 c 0x5001
  | some salt =>
    let t := cacheTag salt c.part q.usage q.source q.ident
    let mine := fun (w : Way) => w.tag == t && !w.cont && !w.invalidated && (w.valid || w.filling) &&
      (q.source != 5 || w.key.wkt == (askKey q).wkt)
    let s := match (s0.eccHeads mine).head? with
      | none => s0
      | some w => s0.eccDrop w c.part
    match s.kc.ways.find? mine with
    | some w => if w.filling then .wait s c (.waitFill w.bank w.bucket w.way) else hitWay s c q w
    | none => missKey s c q t

/-- A command whose lookup waits for another key first waits and then looks up again. -/
def Got.nested : Got → Got
  | .filling s c b u w => .wait s c (.waitFill b u w)
  | g => g

/-! ## Handles (R153) -/

def cacheHandle (w : Way) : Nat := w.way + 4 * w.bucket + 2 ^ 16 * w.bank + 2 ^ 18 * w.part + 2 ^ 32 * w.inc

/-- The way that a handle names for a partition. -/
def handleWay (s : State) (part h : Nat) : Option Way :=
  if bits h 31 30 ≠ 0 ∨ bits h 29 18 ≠ part then none
  else s.kc.ways.find? (fun w => Way.here (bits h 17 16) (bits h 15 2) (bits h 1 0) w && w.part == part && w.valid &&
    !w.cont && !w.invalidated && !w.filling && w.inc == bits h 63 32)

/-! ## References (R100, Table 04.9) -/

def objAsk (s : State) (c : Cmd) (o : Obj) (reg usage mask roles : Nat) (cacheOnly isRef : Bool) : Ask :=
  { reg := reg, usage := usage, mask := mask, source := 1, ident := toLe 4 o.handle ++ toLe 8 o.keySeq ++ zeros 20,
    roles := roles, named := true, handle := o.handle, cacheOnly := cacheOnly, isRef := isRef,
    fill := match s.loadObj o with
      | none => .error (0x3001, some (0x0A05, o.handle, o.slot, 0, 0))
      | some k => match keyStatus s c k usage mask roles with
        | some st => .error (st, none)
        | none => .ok k }

def getObject (s : State) (c : Cmd) (reg handle usage mask roles : Nat) (cacheOnly isRef : Bool) : Got :=
  match s.liveObj c.part handle with
  | none => .hard s c 0x3001
  | some o => cacheGet s c (objAsk s c o reg usage mask roles cacheOnly isRef)

/-- A type 5 reference: no name is recorded and no policy is checked. -/
def getHandle (s0 : State) (c : Cmd) (reg h usage mask : Nat) : Got :=
  match handleWay s0 c.part h with
  | none => .hard s0 c 0x3001
  | some w =>
    if isRsa w.key.alg then .hard s0 c 0x3001
    else if s0.keyEcc w then .hard (s0.eccDrop w c.part) c 0x3001
    else
      hitWay s0 c { reg := reg, usage := usage, mask := mask, source := w.source, ident := [], roles := 0, named := false,
                    handle := w.handle, cacheOnly := false, isRef := true, fill := .ok w.key } w

def State.partGen (s : State) (p : Nat) : Nat := ((s.part? p).map (fun x => x.gen)).getD 0

/-- A partition seed (R122). -/
def getSeed (s : State) (c : Cmd) (reg : Nat) : Got :=
  match s.ks.domainKey with
  | none => .hard s c 0x5001
  | some d =>
    let g := s.partGen c.part
    cacheGet s c { reg := reg, usage := 4, mask := 8, source := 4, ident := toLe 4 g ++ zeros 28, roles := 0, named := true,
                   handle := 0, cacheOnly := false, isRef := false,
                   fill := .ok { KeyInfo.none_ with usage := 4, alg := 3, mat := partitionSeed d c.part g, level := 1 } }

/-- Child algorithms of a derivation (R124) and their output length in bits. -/
def childBits (alg : Nat) : Option Nat :=
  if alg = 1 ∨ alg = 4 then some 128 else if alg = 2 ∨ alg = 5 then some 192
  else if alg = 3 ∨ alg = 6 ∨ alg = 7 ∨ alg = 8 then some 256 else none

/-- The key a derivation record gives under a parent, or BAD_FIELD (R123, R124, R127). -/
def deriveKey (s : State) (part : Nat) (parent : KeyInfo) (r : Bytes) : Option KeyInfo :=
  let usage := byteAt r 1
  let alg := byteAt r 2
  match childBits alg with
  | none => none
  | some l =>
    if r.length ≠ 32 ∨ byteAt r 0 ≠ 1 ∨ byteAt r 3 > 1 ∨ !(usagesOf alg).contains usage ∨ parent.level + 1 ≥ 10 then none
    else
      let m := kdf parent.mat (ascii "SLK KEY DERIVE  ") (parent.level + 1) usage alg part (s.partGen part)
        (fieldLe r 4 8) (fieldLe r 12 4) (sl r 16 16) l
      some { usage := usage, alg := alg, mat := if isTdes alg then oddParity m else m, name := fieldLe r 4 8,
             version := fieldLe r 12 4, notAfter := parent.notAfter, exportable := byteAt r 3 == 1, limited := false,
             level := parent.level + 1, rsaPriv := false, transport := false }

/-- A derivation from a parent held in a register. -/
def getDerived (s : State) (c : Cmd) (parent : KReg) (reg : Nat) (rec_ : Bytes) (usage mask : Nat)
    (cacheOnly isRef : Bool) : Got :=
  if parent.key.alg ≠ 3 ∨ parent.key.usage ≠ 4 then .hard s c 0x2002
  else match deriveKey s c.part parent.key rec_ with
    | none => .hard s c 0x1003
    | some k =>
      if k.usage ≠ usage then .hard s c 0x2002
      else
        cacheGet s c { reg := reg, usage := usage, mask := mask, source := 3, ident := sha32 (parent.tag ++ rec_),
                       roles := roleUse, named := true, handle := 0, cacheOnly := cacheOnly, isRef := isRef,
                       fill := match keyStatus s c k usage mask roleUse with
                         | some st => .error (st, none)
                         | none => .ok k }

/-- An unwrap under a key held in a register. -/
def getBlock (s : State) (c : Cmd) (wrap : KReg) (reg : Nat) (b : Bytes) (usage mask ref : Nat)
    (cacheOnly isRef : Bool) : Got :=
  if wrap.key.usage ≠ 3 then .hard s c 0x2002
  else
    cacheGet s c { reg := reg, usage := usage, mask := mask, source := 2, ident := sha32 (wrap.tag ++ b),
                   roles := roleUse + roleImport, named := true, handle := 0, cacheOnly := cacheOnly, isRef := isRef,
                   fill := unwrapKey s c b wrap.key.alg wrap.key.mat usage mask ref }

/-- The parent or wrapping register is emptied once the key that needed it is placed. -/
def Got.clear (reg : Nat) : Got → Got
  | .got s c m l =>
    let r := emptyReg s c reg
    .got r.1 r.2 m l
  | g => g

/-- A type 4 reference: its parent into `preg`, then the child. -/
def getType4 (s : State) (c : Cmd) (r : KRef) (preg reg usage mask : Nat) (cacheOnly : Bool) : Got :=
  match c.key preg with
  | some p => (getDerived s c p reg (c.rd (0x100 + r.len) 32) usage mask cacheOnly true).clear preg
  | none =>
    let g := if r.sub = 5 then getHandle s c preg r.long 4 8
      else if r.word = 0 then getSeed s c preg
      else getObject s c preg r.word 4 8 0 false false
    match g with
    | .got s1 c1 _ _ =>
      match c1.key preg with
      | none => .later
      | some p => (getDerived s1 c1 p reg (c1.rd (0x100 + r.len) 32) usage mask cacheOnly true).clear preg
    | o => o.nested

/-- References of types 1, 4 and 5; a reference of type 0 names nothing. -/
def getSimple (s : State) (c : Cmd) (r : KRef) (preg reg usage mask : Nat) (cacheOnly : Bool) : Got :=
  if r.typ = 1 then getObject s c reg r.word usage mask roleUse cacheOnly true
  else if r.typ = 4 then getType4 s c r preg reg usage mask cacheOnly
  else if r.typ = 5 then getHandle s c reg r.long usage mask
  else .hard s c 0x3001

/-- All algorithms of Table 05.4. -/
def anyAlg : Nat := 0x3FFE

/-- The key block of a type 2 or 3 reference under the wrapping key in register 16. -/
def getWrapped (s : State) (c : Cmd) (i : Nat) (wrap : KReg) (reg usage mask : Nat) (cacheOnly : Bool) : Got :=
  let r := c.kref i
  if r.typ = 2 then (getBlock s c wrap reg (c.rd (0x100 + r.word) r.len) usage mask i cacheOnly true).clear (parentReg 0)
  else match c.ptrs.find? (fun p => p.1 == i) with
    | some p => (getBlock s c wrap reg p.2 usage mask i cacheOnly true).clear (parentReg 0)
    | none => .wait (s.send (.hostRead r.long r.len)) c (.waitPtr i)

/-- GET of a reference (R100, R186): the key of reference `i` into register `reg`. -/
def getRef (s : State) (c : Cmd) (i reg usage mask : Nat) (cacheOnly : Bool) : Got :=
  if c.krefs ≤ i then .hard s c 0x1003
  else
    let r := c.kref i
    if r.typ = 2 ∨ r.typ = 3 then
      let last := c.kref (c.krefs - 1)
      if c.krefs < 2 ∨ !(last.typ == 1 || last.typ == 4 || last.typ == 5) then .hard s c 0x1003
      else match c.key (parentReg 0) with
        | some w => getWrapped s c i w reg usage mask cacheOnly
        | none =>
          match getSimple s c last (parentReg 1) (parentReg 0) 3 anyAlg false with
          | .got s1 c1 _ _ =>
            match c1.key (parentReg 0) with
            | none => .later
            | some w => getWrapped s1 c1 i w reg usage mask cacheOnly
          | o => o.nested
    else getSimple s c r (parentReg 0) reg usage mask cacheOnly

/-! ## The end of a fill (R154) -/

/-- Commands waiting for a way look up again; one with an abort request stops (R105). -/
def wakeWay (s : State) (b u w : Nat) : State :=
  (s.cmds.filter (fun c => c.phase == Phase.waitFill b u w)).foldl (fun t c =>
    if c.abort then t.retire c 0x7002 else t.setCmd { c with phase := .ready }) s

/-- The command that asked for a fill, while it still waits for it. -/
def fillOwner (s : State) (f : Fill) : Option Cmd :=
  match s.cmd? f.who with
  | none => none
  | some c => if c.order = f.order ∧ c.phase = .waitFill f.bank f.bucket f.way then some c else none

def State.dropFill (s : State) (f : Fill) : State := { s with kc := { s.kc with fills := s.kc.fills.filter (fun x => x != f) } }

/-- A step that waited for its own fill returns its flags; a vendor draft goes on when its row is sent again. -/
def resumeFilled (c : Cmd) (u : BitVec 4) : Cmd :=
  match c.pend with
  | some a => c.advance a u
  | none => { c with phase := .ready }

/-- Registers beyond K15 that held a parent or wrapping key for the register just filled are emptied. -/
def emptyParents (s : State) (c : Cmd) (reg : Nat) : State × Cmd :=
  [16, 17].foldl (fun r p => if reg < p then emptyReg r.1 r.2 p else r) (s, c)

/-- The fill's way becomes valid, its key is pinned for the command that asked, and the waiting lookups go on. -/
def finishFill (s : State) (f : Fill) (k : KeyInfo) (uses : Nat) (give : Bool) : State :=
  let mine := fun (x : Way) => Way.here f.bank f.bucket f.way x && x.filling
  let head := s.kc.ways.find? mine
  let inc := (head.map (fun x => x.inc)).getD 0
  let same := fun (x : Way) => x.bank == f.bank && x.bucket == f.bucket && x.inc == inc && x.tag == f.tag && x.filling
  let s1 := (s.dropFill f).modWays same (fun x => { x with valid := true, filling := false, hit := true, key := stubOf k, uses := uses })
  let s2 := match fillOwner s f with
    | none => s1
    | some c =>
      if c.abort || !give then s1
      else if f.bank = 4 then
        let r0 := fillReg s1 c f.kreg { loc := .shadow, key := k, named := f.named, tag := f.tag, source := f.source }
        let r := emptyParents r0.1 r0.2 f.kreg
        r.1.setCmd (resumeFilled r.2 f.u)
      else match s1.kc.ways.find? (Way.at_ f.bank f.bucket f.way inc) with
        | none => s1
        | some w =>
          let r0 := pinWay s1 c f.kreg f.named w k
          let r := emptyParents r0.1 r0.2 f.kreg
          r.1.setCmd (resumeFilled r.2 f.u)
  let s3 := match s2.kc.ways.find? (Way.at_ f.bank f.bucket f.way inc) with
    | none => s2
    | some w => if w.invalidated && w.pins == 0 then s2.dropKey w else s2
  wakeWay s3 f.bank f.bucket f.way

/-- A fill fails: its way is freed, the command that asked retires with the status, the waiting lookups go on. -/
def failFill (s : State) (f : Fill) (status : Nat) (n : Option Note) : State :=
  let s1 := ((s.dropFill f).note n)
  let s2 := match s1.kc.ways.find? (fun x => Way.here f.bank f.bucket f.way x && x.filling) with
    | none => s1
    | some w => s1.dropKey w
  let s3 := match fillOwner s f with
    | none => s2
    | some c => s2.retire c (if c.abort then 0x7002 else status)
  wakeWay s3 f.bank f.bucket f.way

/-- KC_FILL_DONE (R154). A limited object's key waits on for its first reservation (R132). -/
def fillDone (b u w : Nat) (s : State) : State :=
  match s.kc.fills.find? (fun f => f.bank == b && f.bucket == u && f.way == w) with
  | none => s
  | some f =>
    if f.reserving then s
    else match f.key with
      | none => failFill s f f.status f.note
      | some k =>
        if k.limited ∧ f.handle ≠ 0 then
          if s.spent f.handle then
            let s2 := (finishFill s f k 0 false).limitReached f.handle
            match fillOwner s f with
            | none => s2
            | some c => if c.abort then s2 else s2.retire c 0x3003
          else
            let s1 := s.enqueue (.reserve f.handle b u w) none
            { s1 with kc := { s1.kc with fills := updWhere (fun x => x == f) (fun x => { x with reserving := true }) s1.kc.fills } }
        else finishFill s f k 0 true

def execKcFillDone (bank bucket way : Nat) (s : State) : Outcome := .next (fillDone bank bucket way s)

/-- A key that the device has just formed is placed in the register: in an entry its tag already finds, in a new entry,
or in the shadow entry when there is no victim (R149, R157). The way it lies in, if any. -/
def placeNew (s0 : State) (c0 : Cmd) (q : Ask) (k : KeyInfo) : State × Cmd × Option Way :=
  let s := (emptyReg s0 c0 q.reg).1
  let c := (emptyReg s0 c0 q.reg).2
  match s.kc.salt with
  | none =>
    let r := fillReg s c q.reg { loc := .shadow, key := k, named := q.named, tag := zeros 16, source := q.source }
    (r.1, r.2, none)
  | some salt =>
    let t := cacheTag salt c.part q.usage q.source q.ident
    match s.kc.ways.find? (fun w => w.tag == t && !w.cont && !w.invalidated && w.valid) with
    | some w =>
      let r := pinWay { s with kc := s.kc.bump 1 0 0 0 0 0 } c q.reg q.named w k
      (r.1, r.2, some w)
    | none =>
      match reserveWays s c q t k with
      | .error _ =>
        let r := fillReg { s with kc := s.kc.bump 0 1 0 0 1 0 } c q.reg
          { loc := .shadow, key := k, named := q.named, tag := t, source := q.source }
        (r.1, r.2, none)
      | .ok (s1, w) =>
        let b := tagBank t
        let u := tagBucket t
        let s2 := s1.modWays (fun x => x.bank == b && x.bucket == u && x.tag == t && x.filling)
          (fun x => { x with valid := true, filling := false, hit := true })
        match s2.kc.ways.find? (fun x => Way.here b u w x && !x.cont) with
        | none => (s2, c, none)
        | some y =>
          let r := pinWay { s2 with kc := s2.kc.bump 0 1 0 0 0 0 } c q.reg q.named y k
          (r.1, r.2, some y)

/-- Steps: a lookup's outcome as a draft step's. `u` gives the flags of a key placed at once. -/
def Got.step (u : Bool → Bool → BitVec 4) : Got → StepOut
  | .got s c m l => .flags s c (u m l)
  | .hard s c st => .hard s c st
  | .filling s c b w x => .park s c (.waitFill b w x)
  | .wait s c p => .wait s c p
  | .later => .notYet

end Sys2Proof.Machine
end

