-- ==== Sys2Proof/Machine/Bignum.lean ====
section
/-! DEFINITION. The bignum engine (chapter 09): jobs, groups and their placement, priority and yield, what a job
computes, comparison, scrubbing and the service of cores. -/

namespace Sys2Proof.Machine

open Sys2Proof

/-! ## Kinds and timing classes (Tables 09.1 and 09.4) -/

/-- Group kind of an operation: 1 SINGLE, 2 TWIN, 4 CRT_TWIN. -/
def bnKind (r : BnReq) : Nat :=
  if r.op = 2 ∨ r.op = 5 ∨ r.op = 7 ∨ r.op = 0x20 ∨ (r.op = 8 ∧ isRsa r.alg) then 1
  else if r.op = 6 ∨ r.op = 0x21 then 4 else 2

/-- Priority level: 0 FAST, 1 MEDIUM, 2 SLOW. -/
def bnLevel (r : BnReq) : Nat :=
  if r.op = 5 then 1
  else if r.op = 6 ∨ r.op = 0x21 then (if r.size = 0 then 1 else 2)
  else if r.op = 7 ∨ r.op = 0x20 then (if r.size = 2 then 1 else 0)
  else if r.op = 9 ∧ isRsa r.alg then 2 else 0

/-- The row of Table 09.4 that a job belongs to, 1 to 15: the number by which event 0x0C01 names a timing class
(notes/assumptions/37.md). -/
def bnClass (r : BnReq) : Nat :=
  let alg := if r.op = 1 then 7 else if r.op = 3 then 8 else if r.op = 4 then 9 + r.size else r.alg
  if r.op = 2 then 2
  else if r.op = 5 then 5 + 2 * r.size
  else if r.op = 7 ∨ r.op = 0x20 then 8 + r.size
  else if r.op = 6 ∨ r.op = 0x21 then 11 + r.size
  else if r.op = 8 ∧ isRsa r.alg then 14
  else if r.op = 9 ∧ isRsa r.alg then 15
  else if alg = 7 then 1 else if alg = 8 then 3 else if alg = 9 then 4 else 6

/-! ## Cores (R215, R218) -/

def State.core (s : State) (c : Nat) : Core := (s.bn.cores[c]?).getD Core.reset
def State.modCore (s : State) (c : Nat) (f : Core → Core) : State :=
  { s with bn := { s.bn with cores := updAt s.bn.cores c f } }

def coreIn (s : State) (c : Nat) : Bool :=
  let k := s.core c
  (s.treadle (c / 2)).inService && k.ok && !k.removed && !k.underTest

def freeCtxOf (k : Core) : Option Nat :=
  (List.range 4).find? (fun x => !k.held.contains x && !k.scrub.any (fun y => y.1 == x))

/-- A new job may be given a context of the core. -/
def coreTakes (s : State) (c : Nat) : Bool :=
  coreIn s c && (freeCtxOf (s.core c)).isSome && !(s.treadle (c / 2)).draining

/-- Free for placement. -/
def coreFree (s : State) (c : Nat) : Bool := coreTakes s c && !(s.core c).running

def cores : List Nat := List.range 32

/-- A group of a kind could be formed from cores `ok`, counted by loom. -/
def formable (ok : Nat → Bool) (kind : Nat) : Bool :=
  let n := fun (l : Nat) => b2n (ok (2 * l)) + b2n (ok (2 * l + 1))
  let looms := List.range 16
  let a := (looms.filter (fun l => n l == 2)).length
  let b := (looms.filter (fun l => n l == 1)).length
  if kind = 1 then decide (a + b ≥ 1)
  else if kind = 2 then decide (a + b ≥ 2)
  else decide (a ≥ 2 ∨ (a = 1 ∧ b ≥ 2) ∨ b ≥ 4)

/-- A pair of free cores outside the looms `bad`: the preferred loom, else the lowest loom with both free, else the two
lowest-numbered. -/
def pickPair (free : Nat → Bool) (pref : Option Nat) (bad : List Nat) : Option (List Nat) :=
  let both := fun (l : Nat) => free (2 * l) && free (2 * l + 1) && !bad.contains l
  let first := (match pref with
    | some l => if both l then some l else none
    | none => none)
  match first.or ((List.range 16).find? both) with
  | some l => some [2 * l, 2 * l + 1]
  | none =>
    match cores.filter (fun c => free c && !bad.contains (c / 2)) with
    | x :: y :: _ => some [x, y]
    | _ => none

/-- The cores a job of the issuing loom is placed on (R218). -/
def placement (free : Nat → Bool) (kind loom : Nat) : Option (List Nat) :=
  let one := fun (pref : List Nat) (bad : List Nat) =>
    ((pref.filter free) ++ cores.filter (fun c => free c && !bad.contains (c / 2))).head?
  if kind = 4 then
    match pickPair free (some loom) [] with
    | none => none
    | some p => (pickPair free none (p.map (fun c => c / 2))).map (fun q => p ++ q)
  else match one [2 * loom, 2 * loom + 1] [] with
    | none => none
    | some c =>
      if kind = 1 then some [c]
      else (one [] [c / 2]).map (fun d => [c, d])

/-! ## Jobs -/

def State.job? (s : State) (j : Nat) : Option Job := s.bn.jobs.find? (fun x => x.id == j)
def State.modJob (s : State) (j : Nat) (f : Job → Job) : State :=
  { s with bn := { s.bn with jobs := updWhere (fun x => x.id == j) f s.bn.jobs } }

def bumpAborts (s : State) : State := { s with bn := { s.bn with aborts := (s.bn.aborts + 1) % 2 ^ 32 } }

/-- The job a command submits. -/
def newJob (s : State) (c : Cmd) (r : BnReq) : Job :=
  { id := s.bn.nextJob, who := c.place, req := r, kind := bnKind r, level := bnLevel r, rank := bnLevel r,
    keygen := r.op == 9 && isRsa r.alg, order := c.order, state := 0, cores := [], abort := false, noRng := false,
    since := s.evr.optime, asks := none, rnd := [] }

/-- What submitting a job gives: a hard status, or the job waiting and its number. A private-key job is stopped at once
while the DRBGs are (R221). -/
def submit (s : State) (c : Cmd) (r : BnReq) : Except (State × Nat) (State × Nat) :=
  if !formable (coreIn s) (bnKind r) then .error (s, 0x7003)
  else if bnKind r ≠ 1 ∧ s.rngOff then .error (bumpAborts s, 0x9001)
  else
    let j := newJob s c r
    .ok ({ s with bn := { s.bn with jobs := s.bn.jobs ++ [j], nextJob := s.bn.nextJob + 1 } }, j.id)

/-- Order of service: rank, then admission (R223). -/
def before (a b : Job) : Bool := decide (a.rank < b.rank) || (a.rank == b.rank && decide (a.order < b.order))

def insertJob (j : Job) : List Job → List Job
  | [] => [j]
  | x :: r => if before j x then j :: x :: r else x :: insertJob j r

def sortJobs : List Job → List Job
  | [] => []
  | j :: r => insertJob j (sortJobs r)

/-- RSA key generations that hold contexts. -/
def keygens (s : State) : Nat := (s.bn.jobs.filter (fun j => j.keygen && j.state != 0)).length

/-- Every SLOW job that has waited longer than STARVE_MS ranks as MEDIUM from now on (R223, R241). -/
def promoteAged (s : State) : State :=
  { s with bn := { s.bn with jobs := updWhere (fun j => j.level == 2 && j.state != 1 &&
      decide (s.evr.optime > j.since + max 1 s.bn.starve)) (fun j => { j with rank := min j.rank 1 }) s.bn.jobs } }

/-- The core runs nothing, or a job that parks at its next yield point for one of rank `rank` (R224). -/
def yieldsTo (s : State) (rank c : Nat) : Bool :=
  !(s.core c).running || s.bn.jobs.any (fun r => r.state == 1 && r.level != 0 && decide (rank < r.rank) &&
    r.cores.any (fun x => x.1 == c))

/-- The cores a waiting job would run on once the running jobs it outranks have parked, none of them in `taken`: a parked
job its own, a new job free ones, or else those it must be yielded. -/
def claimOf (s : State) (taken : List Nat) (x : Job) : Option (List Nat) :=
  let cs := x.cores.map (fun a => a.1)
  if x.state = 2 then (if cs.all (fun c => !taken.contains c && yieldsTo s x.rank c) then some cs else none)
  else if x.state ≠ 0 ∨ x.abort ∨ (x.keygen ∧ keygens s ≥ 4) then none
  else (placement (fun c => coreFree s c && !taken.contains c) x.kind (loomOf x.who)).or
    (placement (fun c => coreTakes s c && yieldsTo s x.rank c && !taken.contains c) x.kind (loomOf x.who))

/-- The waiting jobs in the order of R223, each with the cores it claims: none that one before it claims. -/
def claims (s : State) : List (Job × List Nat) :=
  ((sortJobs s.bn.jobs).foldl (fun (r : List (Job × List Nat) × List Nat) x =>
    match claimOf s r.2 x with
    | none => r
    | some cs => (r.1 ++ [(x, cs)], cs ++ r.2)) ([], [])).1

/-- The cores a new job may start on now. -/
def placeable (s : State) (j : Job) : Option (List Nat) :=
  if j.state ≠ 0 then none
  else ((claims s).find? (fun x => x.1.id == j.id && x.2.all (coreFree s))).map (fun x => x.2)

/-- Contexts of the members become held and the cores run. -/
def occupy (s : State) (cs : List Nat) : State × List (Nat × Nat) :=
  cs.foldl (fun r c =>
    match freeCtxOf (r.1.core c) with
    | none => r
    | some x => (r.1.modCore c (fun k => { k with held := x :: k.held, running := true }), r.2 ++ [(c, x)])) (s, [])

def rsaBits (size : Nat) : Nat := if size = 0 then 2048 else if size = 1 then 3072 else 4096
def rsaSizeOf (alg : Nat) : Nat := alg - 11
def sigBytes (size : Nat) : Nat := rsaBits size / 8

/-- Bytes of blinding values a member draws (R219): m and r of an RSA half, m and Z of a scalar multiplication, Z of a
ladder. -/
def blindLen (r : BnReq) : Nat :=
  if r.op = 6 ∨ r.op = 0x21 then 8 + sigBytes r.size
  else if bnKind r ≠ 2 ∨ (r.op = 9 ∧ isRsa r.alg) then 0
  else if r.op = 3 ∨ r.alg = 8 then 32
  else if (r.op = 4 ∧ r.size = 1) ∨ r.alg = 10 then 56 else 40

/-- Bytes the members are handed alike (R219, R237): the hedge of the ECDSA nonce, the PSS salt, the OAEP seed, a key
generation candidate. -/
def bnRandom (r : BnReq) : Nat :=
  if r.op = 4 then 32
  else if r.op = 6 then (if r.pss then r.operand.length else 0)
  else if r.op = 0x20 then 32
  else if r.op = 9 then (if isRsa r.alg then sigBytes (rsaSizeOf r.alg) else if r.alg = 10 then 48 else 32)
  else 0

/-- The instances a job asks as it starts, and for how many bytes: each member's loom for blinding values, then the issuing
loom for what both share. -/
def blindAsks (j : Job) (cs : List Nat) : List (Nat × Nat) :=
  (if j.kind = 1 then [] else cs.map (fun c => (c / 2, blindLen j.req))) ++ [(loomOf j.who, bnRandom j.req)]

/-- What a job draws, the last answer kept; or the instance that makes it wait. A SINGLE job waits for none: the seed of a
transport wrap is a free value where its instance gives no output (notes/assumptions/37.md). -/
def blind (s : State) (kind : Nat) : List (Nat × Nat) → Bytes → Except (State × Nat) (State × Bytes)
  | [], b => .ok (s, b)
  | (i, n) :: r, _ =>
    match s.random i n with
    | .bytes y x => blind y kind r x
    | .waits y => if kind = 1 then .ok (s.drawn n, s.draws n) else .error (y, i)
    | .off => if kind = 1 then .ok (s.drawn n, s.draws n) else .error (s, i)

/-- The command of a job, still waiting for it. -/
def jobCmd (s : State) (j : Job) : Option Cmd :=
  match s.cmd? j.who with
  | none => none
  | some c => if c.phase = .waitBn j.id then some c else none

/-- The job leaves; its contexts wait for their zero-fill (R227), its cores are free to run. -/
def endJob (s : State) (j : Job) : State :=
  let s1 := j.cores.foldl (fun t x => t.modCore x.1 (fun k =>
    { k with held := k.held.erase x.2, scrub := (x.2, j.who, j.order) :: k.scrub,
             running := if j.state = 1 then false else k.running })) s
  { s1 with bn := { s1.bn with jobs := s1.bn.jobs.filter (fun x => x.id != j.id) } }

/-- The job ends with a hard status for its command. -/
def failJob (s : State) (j : Job) (status : Nat) : State :=
  match jobCmd s j with
  | none => endJob s j
  | some c => (endJob s j).retire c (if c.abort then 0x7002 else status)

/-- The status a job that has not started ends with: its command is aborted, no group could be formed any more (R218), or
the DRBGs are stopped (R221). -/
def stopsNew (s : State) (j : Job) : Option Nat :=
  if j.state ≠ 0 then none
  else if j.abort then some 0x7002
  else if !formable (coreIn s) j.kind then some 0x7003
  else if j.kind ≠ 1 ∧ s.rngOff then some 0x9001
  else none

/-- A job stopped under R226 or R221 is counted in BN.ABORTS. -/
def stopJob (s : State) (j : Job) (status : Nat) : State :=
  if status = 0x7003 then failJob s j status else bumpAborts (failJob s j status)

/-- A job starts on cores: its values are drawn, its contexts held. -/
def startJob (s : State) (j : Job) (cs : List Nat) : State :=
  match blind s j.kind (blindAsks j cs) [] with
  | .error (t, i) => t.modJob j.id (fun x =>
      { x with asks := some (i, match x.asks with
                                | some (k, since) => if k = i then since else t.evr.optime
                                | none => t.evr.optime) })
  | .ok (t, b) =>
    let r := occupy t cs
    r.1.modJob j.id (fun x => { x with state := 1, cores := r.2, asks := none, rnd := b })

/-- BN_JOB_PLACE: the first new job, in the order of R223, that can be placed starts, or ends if it can no longer start. -/
def jobPlace (s0 : State) : State :=
  let s := promoteAged s0
  match (sortJobs s.bn.jobs).find? (fun j => (stopsNew s j).isSome || (placeable s j).isSome) with
  | none => s
  | some j =>
    match stopsNew s j, placeable s j with
    | some st, _ => stopJob s j st
    | none, some cs => startJob s j cs
    | none, none => s

def execBnJobPlace (s : State) : Outcome := .next (jobPlace s)

/-- Every member core is free of running jobs. -/
def idleCores (s : State) (cs : List Nat) : Bool := cs.all (fun c => !(s.core c).running)

/-- The cores of a job, running or not. -/
def State.runCores (s : State) (j : Job) (on : Bool) : State :=
  j.cores.foldl (fun t x => t.modCore x.1 (fun k => { k with running := on })) s

def resumeJob (s : State) (j : Job) : State := (s.runCores j true).modJob j.id (fun x => { x with state := 1 })

/-- All members park together and keep their contexts. -/
def parkGroup (s : State) (j : Job) : State :=
  let t := (s.runCores j false).modJob j.id (fun x => { x with state := 2, since := s.evr.optime })
  { t with bn := { t.bn with yields := (t.bn.yields + 1) % 2 ^ 32 } }

/-- Jobs parked on a core. -/
def parkedOn (s : State) (c : Nat) : Nat :=
  (s.bn.jobs.filter (fun j => j.state == 2 && j.cores.any (fun x => x.1 == c))).length

/-- The job of higher rank for which a group parks (R224): it claims one of the group's cores, and either resumes at once
or leaves each of them with at most three parked jobs (R225). -/
def rival (s : State) (j : Job) : Option Job :=
  let t := parkGroup s j
  ((claims s).find? (fun x => decide (x.1.rank < j.rank) && x.2.any (fun c => j.cores.any (fun b => b.1 == c)) &&
    ((x.1.state == 2 && idleCores t x.2) || j.cores.all (fun b => decide (parkedOn s b.1 < 3))))).map (fun x => x.1)

/-- BN_YIELD_POINT of a MEDIUM or SLOW job (R221, R224, R226). A parked rival whose members are now free resumes. -/
def yieldPoint (job : Nat) (s0 : State) : State :=
  let s := promoteAged s0
  match s.job? job with
  | none => s
  | some j =>
    if j.state ≠ 1 ∨ j.level = 0 then s
    else if j.abort then bumpAborts (failJob s j 0x7002)
    else if j.noRng then bumpAborts (failJob s j 0x9001)
    else match rival s j with
      | none => s
      | some x =>
        let t := parkGroup s j
        if x.state = 2 ∧ idleCores t (x.cores.map (fun a => a.1)) then resumeJob t x else t

def execBnYieldPoint (job : Nat) (s : State) : Outcome := .next (yieldPoint job s)

/-- BN_JOB_RESUME (R224): all members are free of running jobs, and the job is the highest-ranked one waiting for them. -/
def jobResume (job : Nat) (s0 : State) : State :=
  let s := promoteAged s0
  match (claims s).find? (fun x => x.1.id == job && x.1.state == 2 && idleCores s x.2) with
  | none => s
  | some x => resumeJob s x.1

def execBnJobResume (job : Nat) (s : State) : Outcome := .next (jobResume job s)

/-- BN_STARVE_PROMOTE: a SLOW job has waited longer than STARVE_MS and ranks as MEDIUM (R223). -/
def starvePromote (job : Nat) (s : State) : State :=
  match s.job? job with
  | none => s
  | some j =>
    if j.level = 2 ∧ j.state ≠ 1 then promoteAged (s.timeAtLeast (j.since + max 1 s.bn.starve + 1)) else s

def execBnStarvePromote (job : Nat) (s : State) : Outcome := .next (starvePromote job s)

/-! ## Removal of cores (R238) -/

/-- A pick of the core is requested in its slot (R238). -/
def requestCorePick (s : State) (c : Nat) : State :=
  let slot := if c < 16 then 0 else 1
  { s with bist := { s.bist with slots := updAt s.bist.slots slot (fun x => { x with reqs := x.reqs ++ [(128 + c, 0, 2, none)] }) } }

/-- A core leaves service with a cause of event 0x0C02. -/
def removeCore (s : State) (c cause : Nat) : State :=
  let s1 := s.modCore c (fun k => { k with removed := true, cause := cause, retired := k.retired || cause == 2 })
  requestCorePick (s1.raise 0x0C02 c cause 0 0) c

/-- A member of a mismatch: cause 2 for its second within 3,600,000 ms of operating time. -/
def mismatchCore (s : State) (c : Nat) : State :=
  let recent := ((s.core c).mismatches).filter (fun t => decide (s.evr.optime < t + 3600000))
  let s1 := s.modCore c (fun k => { k with mismatches := s.evr.optime :: recent })
  removeCore s1 c (if recent = [] then 1 else 2)

/-! ## What a job computes (R229-R234, Table 09.3) -/

/-- `again`: a key generation goes on with its next candidate; `fault`: the pairwise consistency test failed. -/
inductive BnRes where
  | rejected
  | again
  | fault
  | done (flag : Bool) (out : Bytes)

/-- A key, R and S as Table 09.2 gives for ED_VERIFY. -/
def edRejected (key sig : Bytes) : Bool :=
  edPointBad (sl key 0 32) || edPointBad (sl sig 0 32) || decide (leNat (sl sig 32 32) ≥ edL)

/-- An Ed25519 verification made in the CPC (R231). -/
def edOk (key sig msg : Bytes) : Bool := !edRejected key sig && Config.edEquation key sig msg

/-- Table 09.2 on e ‖ n. -/
def rsaPubRejected (size : Nat) (key : Bytes) : Bool :=
  let e := beNat (key.take 4)
  let n := beNat (key.drop 4)
  e % 2 == 0 || decide (e < 3) || n % 2 == 0 || !decide (2 ^ (rsaBits size - 1) ≤ n ∧ n < 2 ^ rsaBits size)

/-- e ‖ n of a private key's material. -/
def rsaPublic (alg : Nat) (m : Bytes) : Bytes :=
  let k := rsaBits (rsaSizeOf alg)
  sl m 0 4 ++ toBe (k / 8) (rsaPart m (k / 16) 0 * rsaPart m (k / 16) 1)

def outOf (x : BnRes) (n : Nat) : BnRes :=
  match x with
  | .done f b => .done f (sl b 0 n)
  | r => r

/-- The result of a job with drawn bytes `rnd`. -/
def bnCompute (r : BnReq) (rnd : Bytes) : BnRes :=
  let big := r.size == 1
  let w := if big then 48 else 32
  if r.op = 1 then .done false (sl (Config.edSign r.key r.operand) 0 64)
  else if r.op = 2 then
    let sig := sl r.operand 0 64
    if edRejected r.key sig then .rejected else .done (!Config.edEquation r.key sig (r.operand.drop 64)) []
  else if r.op = 3 then
    if xPointBad r.operand then .rejected
    else
      let z := sl (Config.x25519 r.key r.operand) 0 32
      if allZero z then .rejected else .done false z
  else if r.op = 4 then .done false (sl (Config.ecSign big r.key r.operand (rnd.take 32)) 0 (2 * w))
  else if r.op = 5 then
    let d := r.operand.take (r.operand.length - 2 * w)
    let sig := r.operand.drop (r.operand.length - 2 * w)
    let x := beNat (sl sig 0 w)
    let y := beNat (sl sig w w)
    let n := ecN big
    if ecPointBad big r.key ∨ x = 0 ∨ x ≥ n ∨ y = 0 ∨ y ≥ n then .rejected
    else .done (!Config.ecVerify big r.key d sig) []
  else if r.op = 6 then .done false (sl (Config.rsaSign r.key r.pss r.operand (rnd.take r.operand.length)) 0 (sigBytes r.size))
  else if r.op = 7 then
    let k := sigBytes r.size
    let d := r.operand.take (r.operand.length - k)
    let sig := r.operand.drop (r.operand.length - k)
    let x := beNat sig
    if rsaPubRejected r.size r.key ∨ x = 0 ∨ x ≥ beNat (r.key.drop 4) then .rejected
    else .done (!Config.rsaVerify r.key r.pss d sig) []
  else if r.op = 8 then
    if r.alg = 7 then .done false (sl (Config.edPublic r.key) 0 32)
    else if r.alg = 8 then .done false (sl (Config.x25519Public r.key) 0 32)
    else if r.alg = 9 then .done false (sl (Config.ecPublic false r.key) 0 33)
    else if r.alg = 10 then .done false (sl (Config.ecPublic true r.key) 0 49)
    else .done false (rsaPublic r.alg r.key)
  else if r.op = 9 then
    if r.alg = 7 ∨ r.alg = 8 then .done false (rnd.take 32)
    else if r.alg = 9 ∨ r.alg = 10 then
      let l := if r.alg = 10 then 48 else 32
      let x := beNat (rnd.take l)
      if x > ecN (r.alg == 10) - 2 then .again else .done false (toBe l (x + 1))
    else
      let k := rsaBits (rsaSizeOf r.alg)
      match Config.rsaGenerate k rnd with
      | none => .again
      | some m =>
        let key := toBe 4 65537 ++ sl m 0 (5 * (k / 16))
        if Config.rsaVerify (rsaPublic r.alg key) false Config.pctDigest
            (sl (Config.rsaSign key false Config.pctDigest []) 0 (k / 8)) then .done false key else .fault
  else if r.op = 0x20 then
    if rsaPubRejected r.size r.key then .rejected
    else .done false (sl (Config.rsaWrap r.key r.record r.operand (rnd.take 32)) 0 (sigBytes r.size) ++ r.record)
  else
    let x := beNat r.operand
    let pub := rsaPublic r.alg r.key
    if x = 0 ∨ x ≥ beNat (pub.drop 4) then .rejected
    else match Config.rsaUnwrap r.key r.record r.operand with
      | none => .rejected
      | some m => if m.length ≠ matLen (byteAt r.record 2) then .rejected else .done false m

/-! ## What a command's result does (Table 09.3) -/

/-- The agreed key of X25519 from the shared secret (R233): KDF key Z, LEVEL 0x02. -/
def agreedKey (s : State) (part : Nat) (priv : KeyInfo) (z rec_ : Bytes) : Option KeyInfo :=
  deriveKey s part { priv with mat := z, level := 1 } rec_

def agreeAsk (priv : KReg) (reg : Nat) (u rec_ : Bytes) (k : KeyInfo) : Ask :=
  { reg := reg, usage := k.usage, mask := anyAlg, source := 3, ident := sha32 (priv.tag ++ u ++ rec_), roles := 0,
    named := true, handle := 0, cacheOnly := false, isRef := false, fill := .ok k }

/-- A generated key's entry: source 6 and a random identity (Table 06.1). -/
def generatedAsk (s : State) (reg : Nat) (k : KeyInfo) : Ask :=
  { reg := reg, usage := k.usage, mask := anyAlg, source := 6, ident := s.draws 32, roles := 0, named := true, handle := 0,
    cacheOnly := false, isRef := false, fill := .ok k }

/-- A key transported under RSA (R234): the record's fields and the checks on them. -/
def transportKey (s : State) (c : Cmd) (rec_ m : Bytes) : Except Nat KeyInfo :=
  let usage := byteAt rec_ 1
  let alg := byteAt rec_ 2
  if rec_.length ≠ 32 ∨ byteAt rec_ 0 ≠ 2 ∨ byteAt rec_ 3 > 1 ∨ alg < 1 ∨ alg > 6 ∨ !(usagesOf alg).contains usage ∨
     !allZero (sl rec_ 22 10) then .error 0x3002
  else
    let k : KeyInfo := { usage := usage, alg := alg, mat := if isTdes alg then oddParity m else m,
                         name := fieldLe rec_ 4 8, version := fieldLe rec_ 12 4, notAfter := fieldLe rec_ 16 6,
                         exportable := byteAt rec_ 3 == 1, limited := false, level := 2, rsaPriv := false,
                         transport := false }
    match timeStatus s k.notAfter with
    | some st => .error st
    | none => if policyOk s c k.name usage alg (roleUse + roleImport) then .ok k else .error 0x2001

/-- The record that WRAP forms from a key (R234). -/
def transportRecord (k : KeyInfo) : Bytes :=
  [2#8, byte k.usage, byte k.alg, byte (b2n k.exportable)] ++ toLe 8 k.name ++ toLe 4 k.version ++ toLe 6 k.notAfter ++
    zeros 10

def transportAsk (wrap : KReg) (reg : Nat) (block : Bytes) (k : KeyInfo) : Ask :=
  { reg := reg, usage := k.usage, mask := anyAlg, source := 2, ident := sha32 (wrap.tag ++ block), roles := 0,
    named := true, handle := 0, cacheOnly := false, isRef := false, fill := .ok k }

/-- An RSA private key block of a GENERATE (R237): the header record `h` is bytes 72-74 and 80-97 of the inline
parameters; its field is padded only to a whole number of cipher blocks. -/
def rsaBlock (kbpk : KeyInfo) (alg : Nat) (h mat pad : Bytes) : Bytes :=
  let ku := sl h 0 2
  let os := keyOpts (fieldLe h 3 8) (fieldLe h 15 6) 0
  kbBuild kbpk.alg kbpk.mat ku (chr 'R') (if ku = ascii "S0" then chr 'S' else chr 'D') (fieldLe h 11 4)
    (byte (byteAt h 2)) os alg mat pad

/-- The draft step that waited for a job: its result takes effect, or the step ends with a hard status. -/
def bnStepDone (s : State) (c : Cmd) (a : StepArgs) (r : BnReq) (flag : Bool) (out : Bytes) : State :=
  let d := a.dOff.toNat
  let on := fun (x : State × Cmd × Option Way) => x.1.setCmd (x.2.1.advance a 0)
  if r.op = 2 ∨ r.op = 5 ∨ r.op = 7 then s.setCmd (c.advance a (uflags flag false false))
  else if r.op = 3 then
    match c.key a.kreg.toNat with
    | none => s.retire c 0x2002
    | some p =>
      match agreedKey s c.part p.key out r.record with
      | none => s.retire c 0x1003
      | some k => on (placeNew s c (agreeAsk p (bits a.param.toNat 7 4) r.operand r.record k) k)
  else if r.op = 9 then
    if isRsa r.alg then
      match c.key (bits a.param.toNat 7 4) with
      | none => s.retire c 0x2002
      | some w =>
        let pad := fieldPad (versionOf w.key.alg) r.alg out
        let b := rsaBlock w.key r.alg r.record out (s.draws pad)
        if dstOk d b.length then (s.drawn pad).setCmd ((c.wr d b).advance a 0) else s.retire c 0x1002
    else
      let k : KeyInfo := { usage := bits a.param.toNat 3 0, alg := r.alg, mat := out, name := 0, version := 0, notAfter := 0,
                           exportable := true, limited := false, level := 2, rsaPriv := false, transport := false }
      on (placeNew (s.drawn 32) c (generatedAsk s a.kreg.toNat k) k)
  else if r.op = 0x21 then
    match transportKey s c r.record out, c.key (bits a.param.toNat 7 4) with
    | .error st, _ => s.retire c st
    | _, none => s.retire c 0x2002
    | .ok k, some w =>
      if k.usage ≠ bits a.param.toNat 3 0 ∨ !bit a.imm.toNat k.alg then s.retire c 0x2002
      else on (placeNew (countPolicy s) c (transportAsk w a.kreg.toNat (r.operand ++ r.record) k) k)
  else if r.op = 8 then s.setCmd ((c.wr d out).setV 0 out.length |>.advance a 0)
  else s.setCmd ((c.wr d out).advance a 0)

/-- The next candidate of a key generation (R237): drawn from the issuing loom's instance, or the job stays as it is until
that instance has its block, or is stopped at its next yield point (R221). -/
def nextCandidate (s : State) (j : Job) : State :=
  match s.random (loomOf j.who) (bnRandom j.req) with
  | .bytes t b => t.modJob j.id (fun x => { x with rnd := b, asks := none })
  | .waits t => t.modJob j.id (fun x => { x with asks := some (loomOf j.who, (x.asks.map (fun a => a.2)).getD t.evr.optime) })
  | .off => s.modJob j.id (fun x => { x with noRng := true })

/-- BN_JOB_END (R220, R227, R229, R238): `differ` says that the twins' outputs differ, `ecc` names a member with an
uncorrectable error in its operand memory. -/
def jobEnd (job : Nat) (differ : Bool) (ecc : Option Nat) (s : State) : State :=
  match s.job? job with
  | none => s
  | some j =>
    if j.state ≠ 1 then s
    else if j.abort then bumpAborts (failJob s j 0x7002)
    else if j.noRng then bumpAborts (failJob s j 0x9001)
    else
      let part := ((jobCmd s j).map (fun c => c.part)).getD 0
      let op := ((jobCmd s j).map (fun c => c.opcode)).getD 0
      match (ecc.bind (fun c => j.cores.find? (fun x => x.1 == c))) with
      | some x => removeCore ((failJob s j 0x7001).raise 0x0C04 x.1 x.2 op part) x.1 4
      | none =>
        if j.kind ≠ 1 ∧ differ then
          let a := (j.cores.head?.map (fun x => x.1)).getD 0
          let b := ((j.cores[j.cores.length / 2]?).map (fun x => x.1)).getD 0
          let s1 := (failJob s j 0x7001).raise 0x0C01 op (a + 256 * b) part (bnClass j.req)
          j.cores.foldl (fun t x => mismatchCore t x.1)
            { s1 with bn := { s1.bn with mismatch := (s1.bn.mismatch + 1) % 2 ^ 32 } }
        else
          match bnCompute j.req j.rnd with
          | .rejected =>
            let s1 := failJob s j 0x4001
            { s1 with bn := { s1.bn with rejects := (s1.bn.rejects + 1) % 2 ^ 32 } }
          | .again => nextCandidate s j
          | .fault => failJob s j 0x7001
          | .done flag out =>
            match jobCmd s j with
            | none => endJob s j
            | some c =>
              let s1 := endJob s j
              match c.pend with
              | some a => bnStepDone s1 c a j.req flag out
              | none => s1.setCmd { c with phase := .bnDone 0 flag out }

def execBnJobEnd (job : Nat) (differ : Bool) (ecc : Option Nat) (s : State) : Outcome := .next (jobEnd job differ ecc s)

/-- FAULT_DETECTED for the command whose job held a context that does not read back zero (R238), unless the command has
retired, commits, or waits on an exception record. -/
def scrubFault (s : State) (p : Place) (order : Nat) : State :=
  match s.cmd? p with
  | none => s
  | some c =>
    let busy : Bool := match c.phase with
      | .waitCommit => true
      | .committed _ => true
      | .parked _ _ => true
      | .waitBn _ => true
      | _ => false
    if c.order ≠ order ∨ c.stamp ≠ 0 ∨ busy = true then s else s.retire c 0x7001

/-- BN_CONTEXT_SCRUBBED (R227): the context reads back zero and is free again, or its job ends with FAULT_DETECTED and the
core leaves service (R238). -/
def contextScrubbed (core ctx : Nat) (zero : Bool) (s : State) : State :=
  match (s.core core).scrub.find? (fun x => x.1 == ctx) with
  | none => s
  | some x =>
    let s1 := s.modCore core (fun k => { k with scrub := k.scrub.filter (fun y => y.1 != ctx) })
    if zero then s1
    else removeCore (scrubFault (s1.raise 0x0C06 core ctx 0 0) x.2.1 x.2.2) core 3

def execBnContextScrubbed (core ctx : Nat) (zero : Bool) (s : State) : Outcome :=
  .next (contextScrubbed core ctx zero s)

/-- BN_KEYGEN_LIMIT (R237): FAULT_DETECTED and event 0x0C05; no core leaves service. -/
def keygenLimit (job candidates : Nat) (s : State) : State :=
  match s.job? job with
  | none => s
  | some j =>
    if !j.keygen ∨ j.state ≠ 1 then s
    else
      let part := ((jobCmd s j).map (fun c => c.part)).getD 0
      let op := ((jobCmd s j).map (fun c => c.opcode)).getD 0
      (failJob s j 0x7001).raise 0x0C05 op part candidates 0

def execBnKeygenLimit (job candidates : Nat) (s : State) : Outcome := .next (keygenLimit job candidates s)

/-! ## BN steps -/

/-- A key register holds this usage and one of these algorithms; otherwise DENIED_USAGE (R98). -/
def regKey (c : Cmd) (reg usage : Nat) (algs : List Nat) : Option KReg :=
  match c.key reg with
  | none => none
  | some k => if k.key.usage = usage ∧ algs.contains k.key.alg then some k else none

/-- The step reads a key that a register holds. -/
def soundKey (s : State) (c : Cmd) (k : Option KReg) (f : KReg → StepOut) : StepOut :=
  match k with
  | none => .hard s c 0x2002
  | some k =>
    match regEcc s k with
    | some w => .hard (s.eccDrop w c.part) c 0x7001
    | none => f k

/-- The step reads the key of a register. -/
def withKey (s : State) (c : Cmd) (reg usage : Nat) (algs : List Nat) (f : KReg → StepOut) : StepOut :=
  soundKey s c (regKey c reg usage algs) f

/-- The job is handed over and the shed parks (R102). -/
def parkJob (s : State) (c : Cmd) (r : BnReq) : StepOut :=
  match submit s c r with
  | .error (s1, st) => .hard s1 c st
  | .ok (s1, j) => .park s1 c (.waitBn j)

/-- Range checks of a BN step: 8-byte alignment (R96). -/
def bnRanges (srcs : List (Nat × Nat)) (dst : Nat × Nat) (k : Unit → StepOut) : StepOut :=
  match rangeFault true srcs dst with
  | some f => .fault f 0
  | none => k ()

def bnEdSignOp (s : State) (c : Cmd) (a : StepArgs) : StepOut :=
  match stepLen c a with
  | none => .fault 1 0
  | some l =>
    if l > 3072 then .fault 2 0
    else bnRanges [(a.aOff.toNat, l)] (a.dOff.toNat, 64) (fun _ =>
      withKey s c a.kreg.toNat 7 [7] (fun k => parkJob s c
        { op := 1, size := 0, pss := false, alg := 7, key := k.key.mat, operand := c.rd a.aOff.toNat l, record := [] }))

/-- A public key from the register, or from B when PARAM[8] is set. -/
def pubKey (s : State) (c : Cmd) (a : StepArgs) (algs : List Nat) (f : Bytes → StepOut) (atB : Unit → Bytes) : StepOut :=
  if bit a.param.toNat 8 then f (atB ()) else withKey s c a.kreg.toNat 8 algs (fun k => f k.key.mat)

def bnEdVerifyOp (s : State) (c : Cmd) (a : StepArgs) : StepOut :=
  match stepLen c a with
  | none => .fault 1 0
  | some l =>
    if l < 64 ∨ l > 3072 then .fault 2 0
    else bnRanges ((a.aOff.toNat, l) :: (if bit a.param.toNat 8 then [(a.bOff.toNat, 32)] else [])) (0x100, 0) (fun _ =>
      pubKey s c a [7] (fun key => parkJob s c
        { op := 2, size := 0, pss := false, alg := 7, key := key, operand := c.rd a.aOff.toNat l, record := [] })
        (fun _ => c.rd a.bOff.toNat 32))

/-- Bit 255 of the peer value is cleared as RFC 7748 requires. -/
def peerU (b : Bytes) : Bytes := sl b 0 31 ++ [byte (byteAt b 31 % 128)]

def bnX25519Op (s : State) (c : Cmd) (a : StepArgs) : StepOut :=
  match stepLen c a with
  | none => .fault 1 0
  | some l => if l ≠ 32 then .fault 2 0 else bnRanges [(a.aOff.toNat, 32), (a.bOff.toNat, 32)] (0x100, 0) (fun _ =>
    withKey s c a.kreg.toNat 4 [8] (fun k =>
      let rec_ := c.rd a.bOff.toNat 32
      match deriveKey s c.part { k.key with level := 1 } rec_ with
      | none => .hard s c 0x1003
      | some child =>
        if !policyOk s c child.name child.usage child.alg (roleUse + roleImport) then .hard (countPolicy s) c 0x2001
        else parkJob (countPolicy s) c
          { op := 3, size := 0, pss := false, alg := 8, key := k.key.mat, operand := peerU (c.rd a.aOff.toNat 32),
            record := rec_ }))

def ecAlg (size : Nat) : Nat := 9 + size

def bnEcSignOp (s : State) (c : Cmd) (a : StepArgs) : StepOut :=
  let size := bits a.param.toNat 1 0
  match stepLen c a with
  | none => .fault 1 0
  | some l =>
    if size > 1 then .fault 1 0
    else if !([32, 48, 64].contains l) then .fault 2 0
    else bnRanges [(a.aOff.toNat, l)] (a.dOff.toNat, if size = 1 then 96 else 64) (fun _ =>
      withKey s c a.kreg.toNat 7 [ecAlg size] (fun k => parkJob s c
        { op := 4, size := size, pss := false, alg := ecAlg size, key := k.key.mat, operand := c.rd a.aOff.toNat l,
          record := [] }))

/-- Length of a SEC 1 point at B, from its first byte; any other first byte is left to be rejected. -/
def pointLen (first size : Nat) : Nat :=
  let w := if size = 1 then 48 else 32
  if first = 4 then 2 * w + 1 else w + 1

def bnEcVerifyOp (s : State) (c : Cmd) (a : StepArgs) : StepOut :=
  let size := bits a.param.toNat 1 0
  let w := if size = 1 then 96 else 64
  let pl := pointLen (byteAt (c.rd a.bOff.toNat 1) 0) size
  match stepLen c a with
  | none => .fault 1 0
  | some l =>
    if size > 1 then .fault 1 0
    else if !([32 + w, 48 + w, 64 + w].contains l) then .fault 2 0
    else bnRanges ((a.aOff.toNat, l) :: (if bit a.param.toNat 8 then [(a.bOff.toNat, pl)] else [])) (0x100, 0) (fun _ =>
      pubKey s c a [ecAlg size] (fun key => parkJob s c
        { op := 5, size := size, pss := false, alg := ecAlg size, key := key, operand := c.rd a.aOff.toNat l,
          record := [] }) (fun _ => c.rd a.bOff.toNat pl))

def bnRsaSignOp (s : State) (c : Cmd) (a : StepArgs) : StepOut :=
  let size := bits a.param.toNat 1 0
  match stepLen c a with
  | none => .fault 1 0
  | some l =>
    if size > 2 then .fault 1 0
    else if !([32, 48, 64].contains l) then .fault 2 0
    else bnRanges [(a.aOff.toNat, l)] (a.dOff.toNat, sigBytes size) (fun _ =>
      withKey s c a.kreg.toNat 7 [11 + size] (fun k => parkJob s c
        { op := 6, size := size, pss := bit a.param.toNat 4, alg := 11 + size, key := k.key.mat,
          operand := c.rd a.aOff.toNat l, record := [] }))

def bnRsaVerifyOp (s : State) (c : Cmd) (a : StepArgs) : StepOut :=
  let size := bits a.param.toNat 1 0
  let k := sigBytes size
  match stepLen c a with
  | none => .fault 1 0
  | some l =>
    if size > 2 then .fault 1 0
    else if !([32 + k, 48 + k, 64 + k].contains l) then .fault 2 0
    else bnRanges ((a.aOff.toNat, l) :: (if bit a.param.toNat 8 then [(a.bOff.toNat, 4 + k)] else [])) (0x100, 0) (fun _ =>
      pubKey s c a [11 + size] (fun key => parkJob s c
        { op := 7, size := size, pss := bit a.param.toNat 4, alg := 11 + size, key := key,
          operand := c.rd a.aOff.toNat l, record := [] }) (fun _ => c.rd a.bOff.toNat (4 + k)))

/-- Bytes of the public key that PUBLIC gives. -/
def publicLen (alg : Nat) : Nat :=
  if alg = 9 then 33 else if alg = 10 then 49 else if isRsa alg then 4 + sigBytes (rsaSizeOf alg) else 32

/-- A private key ASYM_PUBLIC accepts: SIGN (private), DERIVE for X25519, or an RSA key of mode S or D (Table 09.5). The
step PUBLIC takes no WRAP key (Table 09.3). -/
def publicOk (k : KeyInfo) : Bool :=
  (k.usage == 7 && ([7, 9, 10].contains k.alg || (isRsa k.alg && k.rsaPriv))) || (k.usage == 4 && k.alg == 8) ||
    (k.usage == 3 && isRsa k.alg && k.rsaPriv)

def bnPublicOp (s : State) (c : Cmd) (a : StepArgs) : StepOut :=
  match c.key a.kreg.toNat with
  | none => .hard s c 0x2002
  | some k =>
    if !publicOk k.key ∨ k.key.usage = 3 then .hard s c 0x2002
    else bnRanges [] (a.dOff.toNat, publicLen k.key.alg) (fun _ =>
      withKey s c a.kreg.toNat k.key.usage [k.key.alg] (fun _ => parkJob s c
        { op := 8, size := if k.key.alg = 10 then 1 else rsaSizeOf k.key.alg, pss := false, alg := k.key.alg,
          key := k.key.mat, operand := [], record := [] }))

/-- Usages GENERATE accepts for an algorithm (R127, R236). -/
def generateUsage (alg usage : Nat) : Bool := if isRsa alg then true else (alg == 8 && usage == 4) || (alg != 8 && usage == 7)

def bnGenerateOp (s : State) (c : Cmd) (a : StepArgs) : StepOut :=
  let alg := a.imm.toNat
  let usage := bits a.param.toNat 3 0
  if alg < 7 ∨ alg > 13 then .fault 1 0
  else if !generateUsage alg usage then .hard s c 0x1003
  else if isRsa alg then
    bnRanges [(a.bOff.toNat, 21)] (0x100, 0) (fun _ =>
      withKey s c (bits a.param.toNat 7 4) 3 [1, 2, 3, 4, 5] (fun _ => parkJob s c
        { op := 9, size := rsaSizeOf alg, pss := false, alg := alg, key := [], operand := [],
          record := c.rd a.bOff.toNat 21 }))
  else parkJob s c { op := 9, size := 0, pss := false, alg := alg, key := [], operand := [], record := [] }

def execBnEdSign (n k : Nat) (a : StepArgs) (s : State) : Outcome := .next (s.step1 n k a bnEdSignOp)
def execBnEdVerify (n k : Nat) (a : StepArgs) (s : State) : Outcome := .next (s.step1 n k a bnEdVerifyOp)
def execBnX25519 (n k : Nat) (a : StepArgs) (s : State) : Outcome := .next (s.step1 n k a bnX25519Op)
def execBnEcSign (n k : Nat) (a : StepArgs) (s : State) : Outcome := .next (s.step1 n k a bnEcSignOp)
def execBnEcVerify (n k : Nat) (a : StepArgs) (s : State) : Outcome := .next (s.step1 n k a bnEcVerifyOp)
def execBnRsaSign (n k : Nat) (a : StepArgs) (s : State) : Outcome := .next (s.step1 n k a bnRsaSignOp)
def execBnRsaVerify (n k : Nat) (a : StepArgs) (s : State) : Outcome := .next (s.step1 n k a bnRsaVerifyOp)
def execBnPublic (n k : Nat) (a : StepArgs) (s : State) : Outcome := .next (s.step1 n k a bnPublicOp)
def execBnGenerate (n k : Nat) (a : StepArgs) (s : State) : Outcome := .next (s.step1 n k a bnGenerateOp)

end Sys2Proof.Machine
end

