-- ==== Sys2Proof/Machine/Quorum.lean ====
section
/-! DEFINITION. Commands in a steward context, and dual control (chapter 11): custodian sets, nonces, the verification
of a quorum, and the custodian opcodes. A STEWARD row is the command's body; a command that demands a quorum waits for
QUORUM_VERIFY_DONE, and its row is then sent again. -/

namespace Sys2Proof.Machine

open Sys2Proof

/-! ## Bodies of STEWARD commands -/

/-- A steward core runs: not halted by the debug master (Table 18.3). -/
def State.stewardsUp (s : State) : Bool := (List.range 4).any (fun i => !s.dbg.halted.contains i)

/-- The body of a STEWARD opcode runs for the admitted command in a steward context (R88). -/
def stewardRow (s : State) (i op : Nat) (body : State → Cmd → State) : State :=
  match s.cmd? (.ctx i) with
  | none => s
  | some c =>
    if c.opcode ≠ op ∨ !s.stewardsUp then s
    else match c.phase with
      | .ready => if c.abort then s.retire c 0x7002 else body s c
      | .waitStaging => if c.abort then s.retire c 0x7002 else body s c
      | _ => s

/-- DONE with an inline result from byte 16 on. -/
def okInline (s : State) (c : Cmd) (inline : Bytes) : State :=
  s.retireWith (c.setInline 0 (sl inline 0 16)) 0 false false []

/-- DONE with reply data. -/
def okReply (s : State) (c : Cmd) (inline reply : Bytes) : State :=
  s.retireWith (c.setInline 0 (sl inline 0 16)) 0 false false reply

/-- A failing status with a detail or reason in inline byte 16. -/
def failDetail (s : State) (c : Cmd) (status : Nat) (detail : Bytes) : State :=
  s.retireWith (c.setInline 0 (sl detail 0 16)) status false true []

/-- A committed configuration change: the command takes its stamp, the record is mirrored, and the command completes.
While a supply warning holds commits, or no beat is open, the command waits (R368, R286). `s` already holds the change. -/
def commitDone (s0 s : State) (c : Cmd) (typ part : Nat) (body inline reply : Bytes) : State :=
  if !s0.canCommit then s0
  else
    let c1 := (s0.stamped c).setInline 0 (sl inline 0 16)
    (s.commitFor c1 (sl inline 0 16) typ part body).retireWith c1 0 false false reply

/-! ## Custodian sets (R257, R258) -/

def custRecord (p : Part) : Bytes :=
  ascii "SLKCUSTS" ++ toLe 2 p.id ++ [byte p.custN, byte p.custM] ++ toLe 4 p.custVer ++ sl p.custKeys.flatten 0 512

def custDigest (p : Part) : Bytes := sha32 (custRecord p)

/-! ## Reach (R40, R43, R266) -/

/-- The admin path reaches every partition, a bound queue its own and its descendants. -/
def inReach (s : State) (c : Cmd) (p : Nat) : Bool := c.admin || s.inSubtree c.part p

/-! ## Nonces (R261) -/

/-- A nonce never 0. -/
def nonceOf (b : Bytes) : Nat := if leNat b = 0 then 1 else leNat b

/-- Issues a nonce of a partition; a 17th discards that partition's oldest with event 0x0905, which counts the nonces
issued for the partition in the last minute, this one included (Table 11.6). -/
def issueNonce (s : State) (part value : Nat) : State :=
  let mine := s.qr.nonces.filter (fun n => n.part == part)
  let issued := (part, s.evr.optime) :: s.qr.issued.filter (fun x => decide (s.evr.optime < x.2 + 60000))
  let s1 := if mine.length ≥ 16 then s.raise 0x0905 part (issued.filter (fun x => x.1 == part)).length 0 0 else s
  let old := if mine.length ≥ 16 then mine.head? else none
  { s1 with qr := { s1.qr with issued := issued,
                               nonces := s1.qr.nonces.filter (fun n => some n != old) ++
                                           [{ part := part, value := value, time := s.evr.optime }] } }

def nonceOk (s : State) (part value : Nat) : Bool := s.qr.nonces.any (fun n => n.part == part && n.value == value)

def useNonce (s : State) (part value : Nat) : State :=
  { s with qr := { s.qr with nonces := s.qr.nonces.filter (fun n => !(n.part == part && n.value == value)) } }

/-- NONCE_EXPIRY: 1,200,000 ms of operating time have passed since its issue. -/
def nonceExpiry (part value : Nat) (s : State) : State :=
  match s.qr.nonces.find? (fun n => n.part == part && n.value == value) with
  | none => s
  | some n => useNonce (s.timeAtLeast (n.time + 1200000)) part value

def execNonceExpiry (part value : Nat) (s : State) : Outcome := .next (nonceExpiry part value s)

/-! ## What a command demands (R263, Table 11.3) -/

/-- The sets that may sign, the count demanded (none: the signing set's M), and whether the one access-key token of
R264 is demanded. -/
structure Demand where
  sets : List Nat
  count : Option Nat
  accessKey : Bool
deriving DecidableEq, Repr

/-- The partition whose custodians act as the parent's: partition 0's own for partition 0. -/
def parentSet (s : State) (p : Nat) : Nat := ((s.part? p).map (fun x => x.parent)).getD 0

/-- DELETE_QUORUM of the rule for an object's name, 0 without a rule. -/
def deleteQuorum (s : State) (c : Cmd) (o : Obj) : Nat :=
  ((policyLookup (s.rt.rules c.pgen) c.part (fieldLe (s.objBody o) 8 8)).map (fun r => byteAt r.body 5)).getD 0

def demandOf (s : State) (c : Cmd) : Demand :=
  let own := c.own true
  let named := c.inl 72 2
  let one := fun (p : Nat) => { sets := [p], count := none, accessKey := false : Demand }
  if c.opcode = 0x010 then one (fieldLe own 0 2)
  else if c.opcode = 0x011 then one (parentSet s (fieldLe own 2 2))
  else if c.opcode = 0x012 then { sets := [parentSet s named, named], count := none, accessKey := false }
  else if c.opcode = 0x014 then one named
  else if c.opcode = 0x015 ∨ c.opcode = 0x01B then one (parentSet s named)
  else if c.opcode = 0x018 then one (fieldLe own 0 2)
  else if c.opcode = 0x038 then
    if ((s.part? named).map (fun p => p.custN)).getD 0 = 0 then { sets := [named], count := some 1, accessKey := true }
    else one named
  else if c.opcode = 0x061 then
    { sets := [c.part], count := (s.liveObj c.part (c.inl 72 4)).map (deleteQuorum s c), accessKey := false }
  else one 0

/-- The command goes on once its quorum has passed; until then it waits its turn at the CPC, where its verification begins
at once when no other waits (R264). -/
def withQuorum (s : State) (c : Cmd) (f : State) : State :=
  if c.quorum.isSome then f
  else
    let s1 := s.setCmd { c with phase := .waitQuorum }
    { s1 with qr := { s1.qr with waiting := s1.qr.waiting ++ [c.place],
                                 verifying := if s1.qr.waiting = [] then some c.place else s1.qr.verifying } }

/-! ## Verification (R259, R260, R262, Table 11.4) -/

/-- The command digest. The image takes the place of DRAFT_LOAD's extended data, its inline bytes 72-83 are zeros. -/
def commandDigest (s : State) (c : Cmd) (blk : Nat) : Bytes :=
  let body := if c.opcode = 0x030 then c.inlB 40 32 ++ zeros 12 ++ c.inlB 84 44 ++ s.drafts.staging
    else c.inlB 40 88 ++ c.ext.take (c.extLen - blk)
  sha32 (ascii "SLKCMD01" ++ toLe 2 c.opcode ++ [byte c.krefs] ++ body)

def tokens (ext : Bytes) (k : Nat) : List Bytes :=
  (List.range k).map (fun i => sl ext (ext.length - 8 - 136 * k + 136 * i) 136)

def tokPart (t : Bytes) : Nat := fieldLe t 8 2
def tokIndex (t : Bytes) : Nat := byteAt t 10
def tokNonce (t : Bytes) : Nat := fieldLe t 16 8
def tokFrom (t : Bytes) : Nat := fieldLe t 24 6
def tokTo (t : Bytes) : Nat := fieldLe t 30 6

/-- The set can sign: not empty, and the count demanded does not exceed its N. -/
def setMeets (s : State) (d : Demand) (p : Nat) : Bool :=
  match s.part? p with
  | none => false
  | some x => d.accessKey || (x.custN != 0 && decide ((d.count.getD x.custM) ≤ x.custN))

/-- Checks 5 to 12 on one token: the first check that fails. `set` is the partition of the first token. -/
def tokenCheck (s : State) (d : Demand) (dig : Bytes) (ts : List Bytes) (i : Nat) (n : Nat) : Bool :=
  let t := (ts[i]?).getD []
  let set := tokPart ((ts[0]?).getD [])
  let x := (s.part? set).getD Part.owner
  let idx := tokIndex t
  if n = 5 then t.take 8 == ascii "SLKQUORM" && byteAt t 11 == 0 && allZero (sl t 36 4)
  else if n = 6 then tokPart t == set && d.sets.contains set && setMeets s d set
  else if n = 7 then fieldLe t 12 4 == x.custVer
  else if n = 8 then
    (if d.accessKey then idx == 0xFF else decide (idx < x.custN)) && !((ts.take i).any (fun u => tokIndex u == idx))
  else if n = 9 then sl t 40 32 == dig
  else if n = 10 then decide (tokFrom t ≤ tokTo t ∧ tokTo t ≤ tokFrom t + 600)
  else if n = 11 then !s.trusted || (decide (tokFrom t ≤ s.nowSec) && !s.beyond (tokTo t))
  else edOk (if d.accessKey then x.accessKey else (x.custKeys[idx]?).getD []) (sl t 72 64) (t.take 72)

/-- The first token that fails a check, the checks in order. -/
def firstBad (f : Nat → Nat → Bool) (k : Nat) : List Nat → Option (Nat × Nat)
  | [] => none
  | n :: r =>
    match (List.range k).find? (fun i => !f i n) with
    | some i => some (n, i)
    | none => firstBad f k r

/-- Status of a reason. -/
def quorumStatus (n : Nat) : Nat := if n = 1 ∨ n = 13 then 0x2003 else if n = 3 then 0x6001 else if n = 11 then 0x6002 else 0x2004

/-- The verdict on a command's quorum block: the state with the nonce consumed, and the reason and token index of the
first failure, or the signing partition and the mask of its indices. -/
def verifyQuorum (s : State) (c : Cmd) (d : Demand) : State × Except (Nat × Nat) (Nat × Nat) :=
  let ext := c.ext
  let n := ext.length
  let tr := ext.drop (n - 8)
  let k := byteAt tr 4
  let present := decide (n ≥ 8) && tr.take 4 == ascii "QTOK"
  if !d.sets.any (setMeets s d) ∨ !present then (s, .error (1, 0xFF))
  else if !allZero (tr.drop 5) ∨ k < 1 ∨ k > 16 ∨ 136 * k + 8 > n then (s, .error (2, 0xFF))
  else if s.lc.state = 0x40 ∧ !s.trusted then (s, .error (3, 0xFF))
  else
    let ts := tokens ext k
    let first := tokNonce ((ts[0]?).getD [])
    let s1 := ts.foldl (fun x t => useNonce x (tokPart t) (tokNonce t)) s
    match (List.range k).find? (fun i => let t := (ts[i]?).getD []
        !(tokNonce t == first && nonceOk s (tokPart t) (tokNonce t))) with
    | some i => (s1, .error (4, i))
    | none =>
      let dig := commandDigest s c (136 * k + 8)
      match firstBad (tokenCheck s1 d dig ts) k [5, 6, 7, 8, 9, 10, 11, 12] with
      | some x => (s1, .error x)
      | none =>
        let set := tokPart ((ts[0]?).getD [])
        let m := ((s1.part? set).map (fun p => p.custM)).getD 0
        if k < d.count.getD m then (s1, .error (13, 0xFF))
        else (s1, .ok (set, (ts.map (fun t => if tokIndex t < 16 then 2 ^ tokIndex t else 0)).sum))

/-- The sets whose quorum a command asks for: where it may be either of two, the one its first token names. -/
def signSets (c : Cmd) (d : Demand) : List Nat :=
  let t := (tokens c.ext (byteAt (c.ext.drop (c.ext.length - 8)) 4))[0]?
  if d.sets.length < 2 then d.sets else d.sets.filter (fun p => t.map tokPart == some p)

/-- A CUST_SET between its verification and its commit holds back every other quorum of its partition; a teardown signed
by the parent's set is none of them (R265). -/
def custSetOpen (s : State) (c : Cmd) (d : Demand) : Bool :=
  s.cmds.any (fun x => x.place != c.place && x.opcode == 0x038 && x.quorum.isSome &&
    (signSets c d).contains (x.inl 72 2))

/-- The command whose quorum comes next. -/
def quorumNext (s : State) : Option Place :=
  s.qr.waiting.find? (fun p => match s.cmd? p with
    | none => false
    | some c => c.phase == .waitQuorum)

/-- The partition a command names (Table 11.3). -/
def namedPart (c : Cmd) : Option Nat :=
  if c.opcode = 0x010 ∨ c.opcode = 0x018 then some (fieldLe (c.own true) 0 2)
  else if c.opcode = 0x011 then some (fieldLe (c.own true) 2 2)
  else if [0x012, 0x014, 0x015, 0x01B, 0x038].contains c.opcode then some (c.inl 72 2)
  else none

/-- The named partition has gone, or is being torn down where the command's own rule refuses that, when its verification
begins (R264). No rule of PART_SET_ACCESS_KEY refuses it. -/
def partGone (s : State) (c : Cmd) : Bool :=
  match namedPart c with
  | none => false
  | some n => ((s.part? n).map (fun p => p.tearing && c.opcode != 0x014)).getD true

/-- The next verification begins: the first command that waits, unless it is held back or its partition has gone. -/
def beginVerify (s : State) : State :=
  let next := (quorumNext s).filter (fun p => match s.cmd? p with
    | none => false
    | some c => !custSetOpen s c (demandOf s c) && !partGone s c)
  { s with qr := { s.qr with verifying := next } }

/-- BAD_FIELD before a token is examined; the table opcodes give detail 4 (Table 07.10). -/
def partGoneFail (s : State) (c : Cmd) : State :=
  if c.opcode = 0x018 then failDetail s c 0x1003 [4#8, 0#8, 0xFF#8, 0xFF#8]
  else if c.opcode = 0x01B then failDetail s c 0x1003 [4#8]
  else s.retire c 0x1003

/-- QUORUM_VERIFY_DONE: the verification of the command in place `p` ends (R264, R268). One that had begun goes on
whatever is marked meanwhile (R267). -/
def quorumVerifyDone (p : Place) (s : State) : State :=
  match s.cmd? p with
  | none => s
  | some c =>
    let d := demandOf s c
    if quorumNext s ≠ some p ∨ (s.qr.verifying ≠ some p ∧ custSetOpen s c d) then s
    else if s.qr.verifying ≠ some p ∧ partGone s c then
      beginVerify (partGoneFail { s with qr := { s.qr with waiting := s.qr.waiting.filter (fun x => x != p) } } c)
    else
      let r := verifyQuorum s c d
      let s1 := { r.1 with qr := { r.1.qr with waiting := r.1.qr.waiting.filter (fun x => x != p) } }
      beginVerify (match r.2 with
      | .error (n, i) =>
        let s2 := { s1 with qr := { s1.qr with refused := (s1.qr.refused + 1) % 2 ^ 32 } }
        let s3 := s2.raise 0x0902 ((d.sets.head?).getD 0) c.opcode n i
        if c.abort then s3.retire c 0x7002 else failDetail s3 c (quorumStatus n) [byte n, byte i]
      | .ok (set, mask) =>
        let s2 := { s1 with qr := { s1.qr with accepted := (s1.qr.accepted + 1) % 2 ^ 32 } }
        let s3 := s2.raise 0x0901 set c.opcode (((s2.part? set).map (fun x => x.custVer)).getD 0) mask
        if c.abort then s3.retire c 0x7002 else s3.setCmd { c with quorum := some (set, mask), phase := .ready })

def execQuorumVerifyDone (p : Place) (s : State) : Outcome := .next (quorumVerifyDone p s)

/-! ## Opcodes (R265, R266) -/

/-- QR_NONCE: a 64-bit value drawn from D16. -/
def qrNonce (s : State) (c : Cmd) : State :=
  let p := c.inl 72 2
  if !inReach s c p then s.retire c 0x2001
  else match s.part? p with
    | none => s.retire c 0x1003
    | some x =>
      if x.tearing then s.retire c 0x1003
      else match s.random 16 8 with
        | .off => s.retire c 0x9001
        | .waits s1 => s1.waitRng c
        | .bytes s1 b => okInline (issueNonce s1 p (nonceOf b)) c (toLe 8 (nonceOf b))

def execQrNonce (i : Nat) (s : State) : Outcome := .next (stewardRow s i 0x037 qrNonce)

/-- The keys of a record: those below N. -/
def recordKeys (r : Bytes) (n : Nat) : List Bytes := (List.range n).map (fun i => sl r (16 + 32 * i) 32)

/-- The record may replace the set (R265). -/
def custRecordOk (p : Part) (r : Bytes) : Bool :=
  let n := byteAt r 10
  let ks := recordKeys r n
  r.take 8 == ascii "SLKCUSTS" && fieldLe r 8 2 == p.id && decide (1 ≤ n ∧ n ≤ 16) &&
    decide (1 ≤ byteAt r 11 ∧ byteAt r 11 ≤ n) && fieldLe r 12 4 == p.custVer + 1 && decide ks.Nodup &&
    ks.all (fun k => !edPointBad k) && allZero (sl r (16 + 32 * n) (512 - 32 * n))

/-- The change of a set, its commit and its events. -/
def custCommit (s : State) (c : Cmd) (p : Part) (r : Bytes) : State :=
  if !s.canCommit then s
  else if p.tearing ∨ !custRecordOk p r then s.retire c 0x1003
  else
    let st := s.nextStamp
    let s1 := s.modPart p.id (fun x => { x with custN := byteAt r 10, custM := byteAt r 11, custVer := fieldLe r 12 4,
                                                custKeys := recordKeys r (byteAt r 10) })
    let s2 := s1.raise 0x0903 p.id p.custVer (byteAt r 10 + 256 * byteAt r 11) (st % 2 ^ 32)
    let s3 := if p.id = 0 ∧ p.custN = 0 then s2.raise 0x0904 (byteAt r 10) (byteAt r 11) (fieldLe (sha32 r) 0 4) 0 else s2
    commitDone s s3 c 0x05 p.id r [] []

/-- CUST_SET. -/
def custSet (s : State) (c : Cmd) : State :=
  let n := c.inl 72 2
  if !(c.admin || c.part == n) then s.retire c 0x2001
  else match s.part? n with
    | none => s.retire c 0x1003
    | some p =>
      if c.quorum.isNone ∧ p.tearing then s.retire c 0x1003
      else
        let r := c.own true
        if n = 0 ∧ p.custN = 0 then
          if s.lc.state ≠ 0x30 ∧ s.lc.state ≠ 0x40 then s.retire c 0xA001 else custCommit s c p r
        else withQuorum s c (custCommit s c p r)

def execCustSet (i : Nat) (s : State) : Outcome := .next (stewardRow s i 0x038 custSet)

def custQuery (s : State) (c : Cmd) : State :=
  let n := c.inl 72 2
  if !inReach s c n then s.retire c 0x2001
  else match s.part? n with
    | none => s.retire c 0x1003
    | some p => okReply s c (sl (custDigest p) 0 16) (custRecord p)

def execCustQuery (i : Nat) (s : State) : Outcome := .next (stewardRow s i 0x039 custQuery)

end Sys2Proof.Machine
end

