-- ==== Sys2Proof/Machine/Rng.lean ====
section
/-! DEFINITION. The entropy source (chapter 10): conditioned blocks and their order of service, test passes, health-test
failures and the latch, estimates, raw-sample mode, and HST.READY (R242-R256). -/

namespace Sys2Proof.Machine

open Sys2Proof

/-! ## Raw samples (R242-R246): what the noise sources delivered is a command's operand (notes/assumptions/63.md) -/

/-- Samples packed into bytes, the first into bit 7. -/
def packSamples : Nat → List Bool → Bytes
  | 0, _ => []
  | k + 1, l => byte ((l.take 8).foldl (fun n b => 2 * n + b2n b) 0) :: packSamples k (l.drop 8)

/-- Sources in use, ascending. -/
def usedSources (m : BitVec 8) : List Nat := (List.range 8).filter (fun i => m.getLsbD i)

/-- Samples a conditioned block takes from each of `n` sources, rounded up. -/
def perSource (n : Nat) : Nat := (1280 + n - 1) / n

/-- The conditioned block (R243) of the samples that follow position `p` of each source in use, none when too few are there. -/
def blockAt (used : List Nat) (x : List (List Bool)) (p : Nat) : Option Bytes :=
  let of := fun (i : Nat) => ((x[i]?).getD []).drop p
  if used = [] ∨ used.any (fun i => decide ((of i).length < perSource used.length)) then none
  else
    let seq := (List.range 1280).map (fun k => (((of ((used[k % used.length]?).getD 0))[k / used.length]?).getD false))
    some (sl (Config.sha512 (packSamples 160 seq)) 0 64)

/-- Repetition Count Test over what follows a run of `n` samples `b`. -/
def rctGo (b : Bool) (n : Nat) : List Bool → Bool
  | [] => false
  | x :: r => if x == b then decide (n + 1 ≥ 81) || rctGo b (n + 1) r else rctGo x 1 r

/-- A run of 81 identical consecutive samples (R245). -/
def rctFails : List Bool → Bool
  | [] => false
  | x :: r => rctGo x 1 r

/-- Adaptive Proportion Test of one window of 1,024 samples: the first sample's value occurs 840 times or more (R245). -/
def aptFails : List Bool → Bool
  | [] => false
  | x :: r => decide (((x :: r).take 1024).count x ≥ 840)

/-- An attempt of a test pass on 4,096 samples (R244). -/
def attemptOk (l : List Bool) : Bool :=
  l.length == 4096 && !rctFails l && (List.range 4).all (fun i => !aptFails ((l.drop (1024 * i)).take 1024))

/-- The first of a source's up to four attempts that passes; the first 1,024 samples are discarded. -/
def passAttempt (l : List Bool) : Option Nat :=
  (List.range 4).find? (fun a => attemptOk ((l.drop (1024 + 4096 * a)).take 4096))

/-- The sources that pass, as a mask. -/
def passMask (x : List (List Bool)) : BitVec 8 :=
  BitVec.ofNat 8 ((List.range 8).foldl (fun n i => if (passAttempt ((x[i]?).getD [])).isSome then n + 2 ^ i else n) 0)

/-- Samples of each source that a pass has used up before it fills the pool. -/
def passLength (x : List (List Bool)) : Nat :=
  1024 + 4096 * (1 + (List.range 8).foldl (fun n i => max n ((passAttempt ((x[i]?).getD [])).getD 3)) 0)

/-- The blocks with which a pass fills the pool. -/
def passBlocks (x : List (List Bool)) : List Bytes :=
  let used := usedSources (passMask x)
  (List.range 8).filterMap (fun k => blockAt used x (passLength x + k * perSource used.length))

/-- The samples show the failure: a run that reaches 81, or the window under way (R245). -/
def showsFailure (test : Nat) (w : List Bool) : Bool := if test = 1 then rctFails w else aptFails w

/-! ## Service of blocks (R247, R248) -/

/-- The instance the next block goes to: D16, then those not instantiated, lowest first, then those waiting to reseed,
longest first. -/
def nextInstance (s : State) : Option Nat :=
  if (s.drbg 16).wait ≠ 0 then some 16
  else match (List.range 16).find? (fun i => (s.drbg i).wait == 1) with
    | some i => some i
    | none =>
      (List.range 16).foldl (fun (best : Option Nat) i =>
        if (s.drbg i).wait ≠ 2 then best
        else match best with
          | none => some i
          | some b => if (s.drbg i).since < (s.drbg b).since then some i else some b) none

/-- Commands that waited for an instance go on; one with an abort request stops (R105). RNG_RAW_EXIT waits for the test
pass, not for a block. -/
def wakeDrbg (s : State) (i : Nat) : State :=
  (s.cmds.filter (fun c => c.phase == .waitRng && c.opcode != 0x1AA && drbgOf c.place == i)).foldl (fun t c =>
    if c.abort then t.retire c 0x7002 else t.setCmd { c with phase := .ready }) s

/-- Random output of D16 for the device itself, when it gives any. -/
def drawOnce (s : State) (n : Nat) (f : State → Bytes → State) : State :=
  match s.random 16 n with
  | .bytes s1 b => f s1 b
  | _ => s

/-- Once recovery is over and D16 is instantiated: CACHE_SALT, RT_SALT, a battery secret where BAT holds none (R142), and a
domain key where recovery found none live (R121, R249), each drawn once. A standby draws no keys (R289). -/
def drawSalts (s : State) : State :=
  if !s.ks.recovered ∨ !(s.drbg 16).seeded then s
  else
    let s1 := if s.kc.salt.isSome then s else drawOnce s 32 (fun t b => { t with kc := { t.kc with salt := some b } })
    let s2 := if s1.rt.salt.isSome then s1 else drawOnce s1 16 (fun t b => { t with rt := { t.rt with salt := some b } })
    let s3 := if s2.tmp.secret.isSome then s2 else drawOnce s2 32 (fun t b => { t with tmp := { t.tmp with secret := some b } })
    if s3.lk.role = 3 ∨ s3.ks.domainKey.isSome ∨ s3.ks.queue.any (fun x => match x.kind with
        | .domain _ => true
        | _ => false) then s3
    else drawOnce s3 32 (fun t b => t.enqueue (.domain b) none)

/-- Instance `i` takes a block: it is instantiated or reseeded. -/
def takeBlock (s : State) (i : Nat) (block : Bytes) : State :=
  let re := (s.drbg i).seeded
  let s1 := s.modDrbg i (if re then ctrReseed block else ctrInstantiate i block)
  let s2 := if re then { s1 with rng := { s1.rng with reseeds := (s1.rng.reseeds + 1) % 2 ^ 32 } } else s1
  let s3 := wakeDrbg s2 i
  if i = 16 then drawSalts s3 else s3

/-- Blocks of the pool go to the waiting instances. -/
def servePool : Nat → State → State
  | 0, s => s
  | k + 1, s =>
    match nextInstance s, s.rng.pool with
    | some i, b :: r => servePool k (takeBlock { s with rng := { s.rng with pool := r } } i b)
    | _, _ => s

/-- Every instance that is not instantiated waits for a block: D16, and that of a loom whose known-answer tests passed (R24,
R247). -/
def wantAll (s : State) : State :=
  (List.range 17).foldl (fun t i =>
    if (t.drbg i).seeded || !(if i = 16 then t.powered 33 else t.powered (i + 1) && (t.treadle i).katPassed) then t
    else t.drbgWait i 1) s

/-- Waiting instances are served from the pool while output is not stopped. -/
def feed (s : State) : State := if s.rng.srcReady && !s.rngOff then servePool 17 (wantAll s) else s

/-- RNG_BLOCK_CONDITIONED (R243): a finished block goes to a waiting instance or into the pool of eight. -/
def blockConditioned (samples : List (List Bool)) (s : State) : State :=
  if !s.rng.srcReady || s.rngOff then s
  else match blockAt (usedSources s.rng.inUse) samples 0 with
    | none => s
    | some b =>
      let s1 := wantAll s
      match nextInstance s1 with
      | some i => takeBlock s1 i b
      | none => if s1.rng.pool.length < 8 then { s1 with rng := { s1.rng with pool := s1.rng.pool ++ [b] } } else s1

def execRngBlockConditioned (samples : List (List Bool)) (s : State) : Outcome := .next (blockConditioned samples s)

/-! ## HST.READY (R249) -/

/-- The conditions of step 13 and of R249. -/
def readyOk (s : State) : Bool :=
  decide (s.looms ≥ 1) && !s.rngOff && (s.drbg 16).seeded &&
    (List.range 16).all (fun n => !(s.treadle n).inService || (s.drbg n).seeded) && s.kc.salt.isSome && s.rt.salt.isSome &&
    s.ks.domainKey.isSome && decide (s.sys.step ≥ 12) && !(s.sys.step == 12 && s.sag.warning) && !s.sys.inReset

/-- HST_READY_SET: the conditions hold, and READY is set; the first time it completes step 13 of Table 01.8, which a supply
warning holds (R33). -/
def readySet (s : State) : State :=
  if readyOk s then
    let s1 := s.setReady true
    { s1 with sys := { s1.sys with step := 13 } }
  else s

def execHstReadySet (s : State) : Outcome := .next (readySet s)

/-- A loom leaves service: HIRQ.CAUSE.FAULT, and READY clears with the last one (R249). -/
def loomLeft (s : State) : State :=
  let s1 := s.cause 3
  if s1.looms = 0 then s1.setReady false else s1

/-! ## Stops (R250, R251) -/

/-- Every request that waits for random output ends with RNG_UNAVAILABLE: commands, and jobs that wait for blinding values
(R221, R250). A running job ends at its next yield point. -/
def endWaits (s : State) : State :=
  let s1 := (s.cmds.filter (fun c => c.phase == .waitRng && c.opcode != 0x1AA)).foldl (fun t c =>
    t.retire c (if c.abort then 0x7002 else 0x9001)) s
  (s1.bn.jobs.filter (fun j => j.state == 0 && j.asks.isSome)).foldl (fun t j => stopJob t j 0x9001) s1

/-- Every instance and the pool are zeroed, every waiting request ends with RNG_UNAVAILABLE, jobs that hold blinding
values end at their next yield point, and READY clears. -/
def stopRandom (s : State) : State :=
  let s1 := { s with
    rng := { s.rng with pool := [], srcReady := false, drbgs := s.rng.drbgs.map (fun _ => Drbg.reset) }
    bn := { s.bn with jobs := updWhere (fun j => j.kind != 1 && j.state != 0) (fun j => { j with noRng := true }) s.bn.jobs } }
  (endWaits s1).setReady false

/-- Failures within the hour that ends now. -/
def recentFails (s : State) : List Nat := s.rng.fails.filter (fun t => decide (s.evr.optime ≤ t + 3600000))

/-- A failure is counted (R251): the third within the hour latches the fault, otherwise a test pass starts. -/
def countFail (s : State) (source test : Nat) : State :=
  let fs := recentFails s ++ [s.evr.optime]
  let s1 := { s with rng := { s.rng with fails := fs, failTotal := min (s.rng.failTotal + 1) 0xFFFFFFFF } }
  let s2 := s1.raise 0x0402 source test fs.length 0
  if fs.length ≥ 3 then
    let s3 := { s2 with rng := { s2.rng with latched := true, testing := false, stopped := true } }
    (s3.cause 3).raise 0x0403 fs.length ((fs.head?).getD 0 % 2 ^ 32) ((fs.head?).getD 0 / 2 ^ 32) 0
  else { s2 with rng := { s2.rng with testing := true, stopped := true } }

/-- RNG_HEALTH_FAILURE (R245, R250): the samples in which the test fails. In raw-sample mode it is only counted (R252). -/
def healthFailure (source test : Nat) (samples : List Bool) (s : State) : State :=
  if source ≥ 8 ∨ (test ≠ 1 ∧ test ≠ 2) ∨ !showsFailure test samples then s
  else if s.rng.raw then { s with rng := { s.rng with rawFails := s.rng.rawFails + 1, rawSeen := s.rng.rawSeen + 1 } }
  else if !s.rng.srcReady ∨ !s.rng.inUse.getLsbD source then s
  else countFail (stopRandom s) source test

def execRngHealthFailure (source test : Nat) (samples : List Bool) (s : State) : Outcome :=
  .next (healthFailure source test samples s)

/-! ## Test passes (R244) -/

/-- RNG_RAW_EXIT commands that wait for the end of the pass. -/
def endRawExit (s : State) (status : Nat) : State :=
  (s.cmds.filter (fun c => c.phase == .waitRng && c.opcode == 0x1AA)).foldl (fun t c => t.retire c (if c.abort then 0x7002 else status)) s

/-- RNG_TEST_PASS_DONE: the samples of each source from the start of the pass, whether the known-answer tests passed, and
the pass's duration. -/
def testPassDone (samples : List (List Bool)) (kat : Bool) (us : Nat) (s : State) : State :=
  if !s.rng.testing then s
  else
    let passed := passMask samples
    let out := (List.range 8).filter (fun i => !passed.getLsbD i)
    let s1 := out.foldl (fun t i => t.raise 0x0408 i 0 0 0) s
    if out.length ≤ 4 ∧ kat then
      let s2 := { s1 with rng := { s1.rng with testing := false, stopped := false, srcReady := true, inUse := passed,
                                               pool := passBlocks samples } }
      endRawExit (servePool 17 (wantAll (s2.raise 0x0401 passed.toNat us 0 0))) 0
    else
      let src := if out.length > 4 then (out.head?).getD 0 else 0
      endRawExit (countFail (endWaits { s1 with rng := { s1.rng with inUse := passed, srcReady := false } }) src
        (if out.length > 4 then 3 else 4)) 0x9001

def execRngTestPassDone (samples : List (List Bool)) (kat : Bool) (us : Nat) (s : State) : Outcome :=
  .next (testPassDone samples kat us s)

/-! ## Estimates (R246) -/

/-- Saturation to a signed 16-bit value. -/
def sat16 (x : Int) : Int := max (-32768) (min 32767 x)

/-- A signed value as a field of `n` bits. -/
def toField (n : Nat) (x : Int) : Nat := (x % (2 ^ n : Int)).toNat

/-- The estimates of a block of 65,536 samples and the four that follow it: BIAS, LAG1 to LAG4 (R246). -/
def estimates (l : List Bool) : List Int :=
  let block := l.take 65536
  (((block.count true : Nat) : Int) - 32768) ::
    [1, 2, 3, 4].map (fun k => (((List.zipWith (fun a b => a == b) block (l.drop k)).count true : Nat) : Int) - 32768)

/-- RNG_ESTIMATE_BLOCK: the estimates of one source, and event 0x0405 for the first beyond its threshold. The thresholds are
those in force when the block began (R256). -/
def estimateBlock (source : Nat) (samples : List Bool) (s : State) : State :=
  if source ≥ 8 ∨ !s.powered 32 ∨ samples.length < 65540 then s
  else
    let old := (s.rng.health[source]?).getD Health.reset
    let v := (estimates samples).map sat16
    let g := fun (i : Nat) => (v[i]?).getD 0
    let h : Health := { bias := g 0, lag1 := g 1, lag2 := g 2, lag3 := g 3, lag4 := g 4, warnBias := s.rng.warnBias,
                        warnLag := s.rng.warnLag }
    let s1 := { s with rng := { s.rng with health := s.rng.health.set source h } }
    let lim := fun (i : Nat) => if i = 0 then old.warnBias else old.warnLag
    match (List.range 5).find? (fun i => lim i != 0 && decide ((g i).natAbs > lim i)) with
    | none => s1
    | some i => s1.raise 0x0405 source i (toField 32 (g i)) 0

def execRngEstimateBlock (source : Nat) (samples : List Bool) (s : State) : Outcome :=
  .next (estimateBlock source samples s)

/-! ## The bound on a wait (R248) -/

/-- A request of instance `i` made at `t` has waited 50 ms. -/
def waitedOut (s : State) (t : Nat) : Bool := decide (s.evr.optime ≥ t + 50)

/-- Commands that wait for instance `i`. -/
def waiters (s : State) (i : Nat) : List Cmd :=
  s.cmds.filter (fun c => c.phase == .waitRng && c.opcode != 0x1AA && drbgOf c.place == i)

/-- Jobs that wait for instance `i`, each with the time its request was made. -/
def jobWaiters (s : State) (i : Nat) : List (Job × Nat) :=
  s.bn.jobs.filterMap (fun j => match j.asks with
    | some (k, t) => if k = i then some (j, t) else none
    | none => none)

/-- The oldest request that waits for instance `i`. -/
def oldestWait (s : State) (i : Nat) : Option Nat :=
  ((waiters s i).map (fun c => c.asked) ++ (jobWaiters s i).map (fun x => x.2)).min?

/-- A job whose request ends: it ends at once if it has not started, otherwise at its next yield point (R221). -/
def jobUnfed (s : State) (j : Job) : State :=
  if j.state = 0 then stopJob s j 0x9001 else s.modJob j.id (fun x => { x with noRng := true })

/-- RNG_RESEED_WAIT_TIMEOUT: the oldest request has waited 50 ms for a reseed. Those that have waited as long end; the
instance keeps waiting. -/
def reseedTimeout (i : Nat) (s : State) : State :=
  match oldestWait s i with
  | none => s
  | some t =>
    if (s.drbg i).wait ≠ 2 then s
    else
      let s1 := (s.timeAtLeast (t + 50)).raise 0x0404 i s.rng.pool.length 0 0
      let s2 := ((waiters s1 i).filter (fun c => waitedOut s1 c.asked)).foldl (fun u c =>
        u.retire c (if c.abort then 0x7002 else 0x9001)) s1
      ((jobWaiters s2 i).filter (fun x => waitedOut s2 x.2)).foldl (fun u x => jobUnfed u x.1) s2

def execRngReseedWaitTimeout (i : Nat) (s : State) : Outcome := .next (reseedTimeout i s)

/-! ## Raw-sample mode (R252, R253) -/

def badParam (s : State) (c : Cmd) : State := failDetail s c 0x1003 [7#8]

/-- Entry: the instances stop, waiting requests end, and event 0x0406 is written. -/
def rawEnterBody (s : State) (c : Cmd) : State :=
  if !allZero (c.inlB 73 55) then badParam s c
  else if s.rng.latched then s.retire c 0x9001
  else
    let s1 := stopRandom s
    let s2 := { s1 with rng := { s1.rng with raw := true, testing := false, rawReads := s.evr.optime, rawFails := 0,
                                             rawSeen := 0 } }
    okInline (s2.raise 0x0406 (c.inl 72 1) c.fn 0 0) c []

/-- RNG_RAW_ENTER: with the owner's quorum in MANUFACTURED and OPERATIONAL. -/
def rngRawEnter (s : State) (c : Cmd) : State :=
  if s.lc.state = 0x30 ∨ s.lc.state = 0x40 then withQuorum s c (rawEnterBody s c) else rawEnterBody s c

def execRngRawEnter (i : Nat) (s : State) : Outcome := .next (stewardRow s i 0x1A8 rngRawEnter)

/-- RNG_RAW_READ. The samples are free values (notes/assumptions/4.md); the test failures of the capture are those counted
since the read before it, or the entry (notes/assumptions/63.md). -/
def rngRawRead (s : State) (c : Cmd) : State :=
  let n := c.inl 76 2
  if !s.rng.raw ∨ c.inl 72 1 > 7 ∨ !allZero (c.inlB 73 3) ∨ !allZero (c.inlB 78 50) then badParam s c
  else if n < 16 ∨ n > 3072 ∨ n % 16 ≠ 0 then failDetail s c 0x1002 [8#8]
  else
    let s1 := { s with rng := { s.rng with rawReads := s.evr.optime, rawSeen := 0 } }
    okReply (s1.drawn n) c (toLe 2 (min s.rng.rawSeen 0xFFFF)) (s.draws n)

def execRngRawRead (i : Nat) (s : State) : Outcome := .next (stewardRow s i 0x1A9 rngRawRead)

/-- Raw-sample mode is left: event 0x0407, and a test pass with all eight sources. -/
def leaveRaw (s : State) (cause : Nat) : State :=
  let s1 := s.raise 0x0407 cause s.rng.rawFails 0 0
  { s1 with rng := { s1.rng with raw := false, testing := true } }

def rngRawExit (s : State) (c : Cmd) : State :=
  if !s.rng.raw ∨ !allZero (c.inlB 72 56) then badParam s c
  else (leaveRaw s 1).waitRng c

def execRngRawExit (i : Nat) (s : State) : Outcome := .next (stewardRow s i 0x1AA rngRawExit)

/-- RNG_RAW_TIMEOUT: 60 s of operating time without an RNG_RAW_READ. -/
def rawTimeout (s : State) : State :=
  if s.rng.raw then leaveRaw (s.timeAtLeast (s.rng.rawReads + 60000)) 2 else s

def execRngRawTimeout (s : State) : Outcome := .next (rawTimeout s)

/-- RNG_HEALTH_QUERY. -/
def rngHealthQuery (s : State) (c : Cmd) : State :=
  let i := c.inl 72 1
  if i > 7 ∨ !allZero (c.inlB 73 55) then badParam s c
  else
    let h := (s.rng.health[i]?).getD Health.reset
    okInline s c ([h.bias, h.lag1, h.lag2, h.lag3, h.lag4].flatMap (fun x => toLe 2 (toField 16 x)) ++
      [byte (b2n (s.rng.inUse.getLsbD i)), byte (recentFails s).length])

def execRngHealthQuery (i : Nat) (s : State) : Outcome := .next (stewardRow s i 0x1AB rngHealthQuery)

end Sys2Proof.Machine
end

