-- ==== Sys2Proof/Machine/Sched.lean ====
section
/-! DEFINITION. Admission: the checks of R73 in the order of Table 03.9a, the token buckets of R54, the two passes of
R52, deficit round robin (R53), the mailbox ahead of both (R80), and the command SCHED_ADMIT. -/

namespace Sys2Proof.Machine

open Sys2Proof

/-! ## The checks of R73 -/

/-- Bit of LC_MASK for a life-cycle state; none for SCRAPPED, where nothing is admitted. -/
def lcBit (st : Nat) : Option Nat :=
  if st = 0 then some 2 else if st < 0x20 then some 3 else if st < 0x30 then some 4
  else if st = 0x30 then some 0 else if st = 0x40 then some 1 else if st = 0x50 then some 5 else none

def lcPermits (st mask : Nat) : Bool :=
  match lcBit st with
  | none => false
  | some b => bit mask b

/-- The opcode may come on this path (R40, R80). -/
def pathOk (c : Cmd) : Bool :=
  match c.path with
  | .mailbox fn => if fn = 0 then true else vfMailboxOk c.opcode
  | .queue _ => !adminOnly c.opcode || c.admin

/-- A submission entry with reserved bits set: OPCODE [15:10] or FLAGS [7:4] (R64, R65, Table 03.14). -/
def reservedBits (c : Cmd) : Bool := decide (Mem.num c.mem 4 2 ≥ 1024) || decide (c.flags ≥ 16)

/-- Order 5 on the entry alone: reserved bits, FLAGS, the reference count and the references in the entry. -/
def entryFieldsOk (c : Cmd) : Bool :=
  let ext := bit c.flags 0
  decide (Mem.num c.mem 4 2 < 1024) && decide (c.flags < 16) && decide (c.krefs ≤ 8) &&
  (decide (c.krefs ≤ 2) || ext) &&
  (ext || (Mem.num c.mem 16 8 == 0)) && (c.replyLen != 0 || Mem.num c.mem 32 8 == 0) &&
  ((List.range 2).all (fun i => if i < c.krefs then (c.kref i).fieldsOk else allZero (c.inlB (40 + 16 * i) 16)))

/-- The mailbox data window of R79: a zero address on the mailbox path. -/
def inWindow (c : Cmd) (addr : Nat) : Bool :=
  match c.path with
  | .mailbox _ => addr == 0
  | .queue _ => false

/-- Order 6 on the entry alone: extended-data and reply-buffer lengths (R64, R69, R79). -/
def entryLengthsOk (c : Cmd) (d : DirEnt) : Bool :=
  let ext := bit c.flags 0
  let el := Mem.num c.mem 24 4
  let rl := c.replyLen
  let needs := d.replyMax != 0 || bit c.flags 1
  (if ext then decide (1 ≤ el ∧ el ≤ 3072) else el == 0) &&
  (if needs then decide (16 + d.replyMax ≤ rl ∧ rl ≤ 3088) else rl == 0) &&
  !(ext && inWindow c (Mem.num c.mem 16 8) && decide (el > 2048)) &&
  !(rl != 0 && inWindow c (Mem.num c.mem 32 8) && decide (rl > 2048))

/-- An address of host memory: 8-byte aligned, its range below 2^64, and on the mailbox path reached only while Bus
Master Enable is set (order 7, R79). -/
def hostAddrOk (s : State) (c : Cmd) (addr len : Nat) : Bool :=
  match c.path with
  | .mailbox fn => addr == 0 || (addr % 8 == 0 && decide (addr + len ≤ 2 ^ 64) && s.host.bme.contains fn)
  | .queue _ => addr % 8 == 0 && decide (addr + len ≤ 2 ^ 64)

def entryPointersOk (s : State) (c : Cmd) : Bool :=
  (!bit c.flags 0 || hostAddrOk s c (Mem.num c.mem 16 8) (Mem.num c.mem 24 4)) &&
  (c.replyLen == 0 || hostAddrOk s c (Mem.num c.mem 32 8) c.replyLen)

/-- Orders 5 to 7 on the references, once the extended data is in the shed (R66-R68): their fields, the lengths, and
the addresses of key-block pointers. -/
def refsStatus (c : Cmd) (d : DirEnt) : Option Nat :=
  let q := looksForQuorum c.opcode
  if !c.refs.all KRef.fieldsOk then some 0x1003
  else if c.extLen < c.ownOff ∨ !c.areaOk q then some 0x1002
  else if c.ownLen q < d.extMin ∨ c.ownLen q > d.extMax then some 0x1002
  else if !c.refs.all (fun r => r.typ != 3 || (r.long % 8 == 0 && decide (r.long + r.len ≤ 2 ^ 64))) then some 0x1004
  else none

/-- The oldest record of a full duplicate table is younger than 10 s (R76). -/
def dupFullYoung (s : State) : Bool :=
  match s.dups with
  | [] => false
  | d :: _ => decide (s.dups.length ≥ 131072) && decide (s.evr.optime < d.time + 10000)

/-- A record of the command's partition and tag (R75). -/
def dupRecord (s : State) (c : Cmd) : Option Dup :=
  if c.idem = 0 then none else s.dups.find? (fun d => d.part == c.part && d.tag == c.idem)

/-- A STEWARD command that would commit meets a supply warning (BUSY_RETRY, R368) or LONE under REFUSE
(MIRROR_UNAVAILABLE, R288) after its admission checks; TMP_CONFIG meets the warning too. -/
def stewardHold (s : State) (c : Cmd) (d : DirEnt) : Option Nat :=
  if !d.steward then none
  else if s.sag.warning && (d.commits || c.opcode == 0x03C) then some 0x5001
  else if s.lk.pstate == 4 && s.lk.lossAction && d.commits then some 0x8002
  else none

/-- Order 8: the idempotency lookup (R75, R76). A duplicate completes with the recorded stamp and inline result. -/
def idemCheck (s : State) (c : Cmd) (d : DirEnt) : State :=
  match dupRecord s c with
  | some r =>
    if r.opcode = c.opcode then
      s.retireWith { (c.setInline 0 (sl r.inline 0 16)) with stamp := r.stamp } 0x0001 false true []
    else s.retire c 0x1003
  | none =>
    if d.commits && c.idem != 0 && dupFullYoung s then s.retire c 0x5001
    else match stewardHold s c d with
      | some st => s.retire c st
      | none => s.setCmd { c with phase := .ready }

/-- Orders 6 and 7 on what the entry alone tells before the extended data is fetched: the lengths of its references and,
where no reference or quorum block lies in the extended data, the bound of the opcode's own data; then the address of a
key-block pointer. -/
def entryRefsStatus (c : Cmd) (d : DirEnt) : Option Nat :=
  let el := if bit c.flags 0 then Mem.num c.mem 24 4 else 0
  let rs := (List.range (min 2 c.krefs)).map c.kref
  let lo := (areaStart rs).getD el
  let inExt := fun (off len : Nat) => decide (off + len ≤ el)
  let lens := rs.all (fun r => match r.typ with
    | 2 => decide (1 ≤ r.len ∧ r.len ≤ 3072) && inExt r.word r.len
    | 3 => decide (1 ≤ r.len ∧ r.len ≤ 3072)
    | 4 => inExt r.len 32
    | _ => true)
  let own := min el lo - c.ownOff
  let known := decide (c.krefs ≤ 2) && !looksForQuorum c.opcode
  if !lens ∨ el < c.ownOff ∨ lo < c.ownOff then some 0x1002
  else if known ∧ (own < d.extMin ∨ own > d.extMax) then some 0x1002
  else if !rs.all (fun r => r.typ != 3 || (r.long % 8 == 0 && decide (r.long + r.len ≤ 2 ^ 64))) then some 0x1004
  else none

/-- The rest of admission once the extended data is present: orders 5 to 8. -/
def admitRest (s : State) (c : Cmd) (d : DirEnt) : State :=
  match refsStatus c d with
  | some st => s.retire c st
  | none => idemCheck s c d

/-- Orders 1 to 4 (Table 03.9a). The target of a pairing ceremony admits as a standby does (R281). -/
def gateStatus (s : State) (c : Cmd) : Option Nat :=
  let d := s.dirEnt? c.opcode
  if (!s.active ∨ (s.lk.ceremony ∧ !s.lk.source)) ∧ !((d.map (fun x => x.standbyOk)).getD false) then some 0x8001
  else match d with
    | none => some 0x1001
    | some x =>
      if x.state ≠ 1 then some 0x1001
      else if !lcPermits s.lc.state x.lcMask then some 0xA001
      else if !s.enabled c.part c.opcode ∨ !pathOk c then some 0x2001
      else none

/-- Orders 1 to 7 on the entry alone: the status of the first check that fails. The references in the extended data, and
the opcode's own data behind them, can only be checked once it has been fetched (notes/assumptions/41.md). -/
def entryStatus (s : State) (c : Cmd) : Option Nat :=
  match gateStatus s c, s.dirEnt? c.opcode with
  | some st, _ => some st
  | none, none => some 0x1001
  | none, some d =>
    if !entryFieldsOk c then some 0x1003
    else if !entryLengthsOk c d then some 0x1002
    else match entryRefsStatus c d with
      | some 0x1002 => some 0x1002
      | r => if !entryPointersOk s c then some 0x1004 else r

/-- A submission entry with reserved bits set is a protocol violation too (0x0B0C), when its turn in the order comes. -/
def noteReserved (s : State) (c : Cmd) : State :=
  let q := match c.path with
    | .queue q => some q
    | .mailbox _ => none
  if (gateStatus s c).isNone && reservedBits c then s.violation 0x0B0C c.fn q c.tag c.opcode else s

/-- A command that holds its shed or context is checked and, when it has extended data in host memory, read for. -/
def admitChecks (s : State) (c : Cmd) : State :=
  match entryStatus s c, s.dirEnt? c.opcode with
  | some st, _ => (noteReserved s c).retire c st
  | none, none => s.retire c 0x1001
  | none, some d =>
    if !bit c.flags 0 then admitRest s c d
    else
      let addr := Mem.num c.mem 16 8
      let len := Mem.num c.mem 24 4
      if inWindow c addr then
        let c1 := { c with mem := Mem.writeN c.mem 0x100 (Mem.readN (s.mbx c.fn).data 0 len), extLen := len }
        admitRest (s.setCmd c1) c1 d
      else s.send (.hostRead addr len)

/-! ## Cost and buckets (R51, R54) -/

/-- Cost of a submission entry: SCH.COST of its opcode, ALT for KB_GENERATE and ASYM_GENERATE with STORE clear, and
never below 15. -/
def State.cost (s : State) (entry : Bytes) : Nat :=
  let op := fieldLe entry 4 2 % 1024
  let e := ((s.sched.cost.find? (fun x => x.1 == op)).map (fun x => x.2)).getD (0, 0)
  let v := if (op = 0x042 ∨ op = 0x130) ∧ !bit (byteAt entry 77) 0 then e.2 else e.1
  max 15 v

/-- Units of a token bucket for one cost unit (notes/assumptions/12.md). -/
def tokUnit : Nat := 256000000

/-- One admission slot of 62.5 ns fills both buckets of every partition (R54). -/
def fillTokens (looms : Nat) (p : Part) : Part :=
  { p with minTok := min (p.minTok + p.minRate * looms) (16000 * (p.minRate * looms)),
           ceilTok := min (p.ceilTok + p.ceilRate * 16) (16000 * (p.ceilRate * 16)) }

/-- A command's cost charged to its partition and every ancestor, and counted as admitted. A bucket that holds less than
the cost is emptied: R54 does not say that it goes below zero (DESIGN CHOICE, notes/assumptions/12.md). -/
def charge (line : List Nat) (cost : Nat) (p : Part) : Part :=
  if line.contains p.id then
    { p with minTok := p.minTok - cost * tokUnit, ceilTok := p.ceilTok - cost * tokUnit,
             admitted := (p.admitted + 1) % 2 ^ 32 }
  else p

/-! ## Places -/

def busySheds (s : State) (n : Nat) : Nat :=
  (s.cmds.filter (fun c => match c.place with
    | .shed m _ => m == n
    | .ctx _ => false)).length

def freeShed (s : State) (n : Nat) : Option Nat :=
  (List.range 32).find? (fun k => (s.cmd? (.shed n k)).isNone)

/-- The loom is not held back by a pick of its treadle or a drain (R23, R379). -/
def loomOpen (s : State) (n : Nat) : Bool := (s.treadle n).inService && !(s.treadle n).draining

/-- Every symmetric core of the loom is retired (R382). -/
def symRetired (s : State) (n : Nat) : Bool :=
  (List.range 8).all (fun k => ((s.bist.units[8 * n + k]?).map (fun u => u.st == 3)).getD false)

/-- UNIT of a step's 128 bits (Table 04.3). -/
def stepUnit (w : Nat) : Nat := bits w 3 0

/-- The draft of an opcode holds a SYM step (R382): read from the steps of a loaded customer draft. Which vendor drafts hold
one is free (notes/assumptions/14.md). -/
def usesSym (s : State) (op : Nat) : Bool :=
  if op < 0x200 then Config.vendorSym op
  else ((s.dirEnt? op).map (fun d => (List.range d.steps).any (fun j =>
    ((d.lines[j / 16]?).map (fun l => stepUnit (Mem.num s.mem (lineAddr l + 16 * (j % 16)) 16) == 1)).getD false))).getD false

/-- The loom in service with the most free sheds, the lowest number among equals (R52). -/
def pickLoom (s : State) (op : Nat) : Option Nat :=
  let ok := (List.range 16).filter (fun n => loomOpen s n && decide (busySheds s n < 32) && !(symRetired s n && usesSym s op))
  ok.foldl (fun best n => match best with
    | none => some n
    | some b => if busySheds s n < busySheds s b then some n else some b) none

def freeCtx (s : State) : Option Nat := (List.range 16).find? (fun i => (s.cmd? (.ctx i)).isNone)

/-- The opcode runs in a steward context: its directory entry says so; an opcode with no entry takes a context to be
refused from (R73 order 2). -/
def isSteward (s : State) (op : Nat) : Bool := ((s.dirEnt? op).map (fun d => d.steward)).getD true

/-- A free place for an opcode, at most 512 commands in flight (R88, R90). -/
def freePlace (s : State) (op : Nat) : Option Place :=
  if s.cmds.length ≥ 512 then none
  else if isSteward s op then (freeCtx s).map Place.ctx
  else match pickLoom s op with
    | none => none
    | some n => (freeShed s n).map (Place.shed n)

/-! ## Admission of one entry -/

/-- The shed or context as the queue engine fills it (Table 04.2). -/
def freshCmd (s : State) (p : Place) (path : Path) (fn part : Nat) (entry : Bytes) : Cmd :=
  let op := fieldLe entry 4 2 % 1024
  let q := match path with
    | .queue q => q
    | .mailbox _ => 0xFFFF
  let m0 := Mem.writeN [] 0 (sl entry 0 128)
  let m1 := Mem.writeN m0 0xA4 (toLe 2 part ++ toLe 2 q ++ toLe 1 fn)
  { place := p, path := path, fn := fn, part := part, opcode := op, order := s.sched.nextOrder, mem := m1, extLen := 0,
    idx := 0, phase := .waitExt, kregs := [], rgen := s.rt.rgen, pgen := s.rt.pgen,
    dgen := ((s.dirEnt? op).map (fun d => d.gen)).getD 0, dir := s.dirEnt? op, asked := 0, abort := false, stored := false,
    stamp := 0,
    keyLoaded := false, ptrs := [], quorum := none, pend := none, discard := false, mirror := false }

/-- An entry is admitted: charged, placed, and checked (R51, R52, R73). -/
def admitEntry (s : State) (p : Place) (path : Path) (fn part : Nat) (entry : Bytes) : State :=
  let c := freshCmd s p path fn part entry
  let line := s.ancestors part
  let s1 := { s with parts := s.parts.map (charge line (s.cost entry)), cmds := s.cmds ++ [c],
                     sched := { s.sched with nextOrder := s.sched.nextOrder + 1 } }
  admitChecks s1 c

/-! ## The mailbox (R80) -/

/-- Admission is open: start-up has reached step 11, no reset, claim, promotion, drain or zeroisation holds it (R273, R290,
R328, Table 18.2). -/
def admitOpen (s : State) : Bool :=
  decide (s.sys.step ≥ 11) && !s.sys.inReset && s.lk.role != 1 && s.lk.claim != .suspended && s.lk.promo == 0 &&
    !s.sys.drainStop

/-- An earlier command of the partition and tag is unretired: in flight, or its completion is still held (R75). -/
def tagHeld (s : State) (part tag : Nat) : Bool :=
  let same := fun (h : Held) => h.part == part && fieldLe h.entry 8 8 == tag
  tag != 0 && (s.cmds.any (fun c => c.part == part && c.idem == tag) || s.lk.held.any same || s.d3held.any same)

/-- A LOOM opcode that finds no loom in service (R80). -/
def noLoom (s : State) (op : Nat) : Bool := !isSteward s op && s.looms == 0

/-- A mailbox command can be answered now: it has a place, or no loom can ever take it, and R75 does not hold it. -/
def mbxServable (s : State) (m : Mbx) : Bool :=
  let op := fieldLe m.entry 4 2 % 1024
  m.waiting && m.state == 1 && !tagHeld s 0 (fieldLe m.entry 8 8) && (noLoom s op || (freePlace s op).isSome)

/-- The waiting mailbox command of the lowest function that can be answered; one whose place is taken holds up nobody
else (notes/assumptions/34.md). -/
def waitingMbx (s : State) : Option Mbx := ((List.range 256).map s.mbx).find? (mbxServable s)

/-- A mailbox command is admitted when its place is free. A LOOM opcode with no loom in service completes with BUSY_RETRY
(R80), unless a check of R73 that needs no shed decides first (DESIGN CHOICE, notes/assumptions/34.md). -/
def admitMbx (s : State) (m : Mbx) : State :=
  let op := fieldLe m.entry 4 2 % 1024
  let s1 := s.setMbx { m with waiting := false }
  if !mbxServable s m then s
  else if noLoom s op then
    let c := freshCmd s (.ctx 0) (.mailbox m.fn) m.fn 0 m.entry
    (noteReserved s1 c).refuseEntry (.mailbox m.fn) m.fn 0 m.entry ((entryStatus s c).getD 0x5001)
  else match freePlace s op with
    | none => s
    | some p => admitEntry s1 p (.mailbox m.fn) m.fn 0 m.entry

/-! ## The two passes (R52, R53) -/

/-- Written and unconsumed completions, held ones, and commands of a queue in flight (R62). -/
def queueLoad (s : State) (q : Queue) : Nat :=
  (q.cqTail + 2 ^ q.log2 - q.cqHead) % 2 ^ q.log2 +
  (s.cmds.filter (fun c => c.path == Path.queue q.id)).length +
  (s.lk.held.filter (fun h => h.path == Path.queue q.id)).length +
  (s.d3held.filter (fun h => h.path == Path.queue q.id)).length

/-- The next entry of a queue in fetch order: a cancelled entry is none, and one held by R75 does not hold the others. -/
def queueHead (s : State) (q : Nat) : Option Fetched :=
  s.fetched.find? (fun e => e.q == q && !e.cancelled && !tagHeld s e.part (fieldLe e.entry 8 8))

/-- The queue is considered: bound, with a completion slot for one more command, counting an error completion that waits
(R62, 0x0B06). -/
def queueOpen (s : State) (q : Queue) : Bool := q.bound && decide (queueLoad s q + b2n q.errDue < 2 ^ q.log2 - 1)

/-- An entry has a free place. -/
def hasPlace (s : State) (e : Fetched) : Bool := (freePlace s (fieldLe e.entry 4 2 % 1024)).isSome

/-- Room for one more command of the partition: INFLIGHT_MAX and the ceiling buckets of it and its ancestors. -/
def roomFor (s : State) (part cost : Nat) : Bool :=
  (s.ancestors part).all (fun a => match s.part? a with
    | none => false
    | some x => decide (s.inflight a < x.inflightMax) &&
                (x.ceilRate == 0 || decide (cost * tokUnit ≤ x.ceilTok)))

/-- What a sibling offers: nothing waits in it; something waits and is held back by INFLIGHT_MAX, a ceiling or the places;
or its next entry, with the partition table after that choice. -/
inductive Pick where
  | nothing
  | held
  | next (e : Fetched) (ps : List Part)

/-- The heads of a partition's own queues that the scheduler considers. -/
def ownHeads (s : State) (p : Part) : List Fetched :=
  (s.queues.filter (fun q => q.part == p.id && queueOpen s q)).filterMap (fun q => queueHead s q.id)

/-- The next entry of a partition's own queues: one entry per queue per turn, ascending from the queue last served, and
fetch order within a queue. A queue whose head has no place is passed over. -/
def ownNext (s : State) (p : Part) : Option Fetched :=
  let ok := (ownHeads s p).filter (hasPlace s)
  let after := ok.filter (fun e => decide (e.q > p.lastQ))
  let pool := if after = [] then ok else after
  match (pool.map (fun e => e.q)).min? with
  | none => none
  | some q => pool.find? (fun e => e.q == q)

/-- What the own queues of a partition offer. -/
def ownPick (s : State) (ps : List Part) (p : Part) : Pick :=
  match ownNext s p with
  | none => if ownHeads s p = [] then .nothing else .held
  | some e =>
    if !roomFor s e.part (s.cost e.entry) then .held
    else .next e (updWhere (fun x => x.id == p.id) (fun y => { y with lastQ := e.q }) ps)

/-- The guaranteed pass: the partitions whose minimum-rate bucket holds the cost of their next command, in rotation of
partition ID after the one last served. A partition whose next command is LOW_PRIORITY is not served here. -/
def guaranteed (s : State) : Option Fetched :=
  let ready := s.parts.filterMap (fun p => match ownNext s p with
    | none => none
    | some e =>
      let c := s.cost e.entry
      if !bit (byteAt e.entry 6) 2 ∧ c * tokUnit ≤ p.minTok ∧ roomFor s p.id c then some (p.id, e) else none)
  let after := ready.filter (fun x => decide (x.1 > s.sched.lastGuar))
  let pool := if after = [] then ready else after
  match (pool.map (fun x => x.1)).min? with
  | none => none
  | some i => (pool.find? (fun x => x.1 == i)).map (fun x => x.2)

def setPart (ps : List Part) (i : Nat) (f : Part → Part) : List Part := updWhere (fun p => p.id == i) f ps

/-- The siblings visited at a parent: its own queues (as 0) and its children in ascending order. -/
def siblings (s : State) (p : Nat) : List Nat := 0 :: (s.children p).map (fun c => c.id)

/-- A visited sibling's weight and deficit; `0` stands for the parent's own queues. -/
def sibWeight (ps : List Part) (p sib : Nat) : Nat :=
  match ps.find? (fun x => x.id == (if sib = 0 then p else sib)) with
  | none => 0
  | some x => if sib = 0 then x.selfWeight else x.weight
def sibDeficit (ps : List Part) (p sib : Nat) : Nat :=
  match ps.find? (fun x => x.id == (if sib = 0 then p else sib)) with
  | none => 0
  | some x => if sib = 0 then x.selfDeficit else x.deficit
def setDeficit (ps : List Part) (p sib d : Nat) : List Part :=
  if sib = 0 then setPart ps p (fun x => { x with selfDeficit := d })
  else setPart ps sib (fun x => { x with deficit := d })

/-- Visits siblings in turn until one's deficit covers its next command (R53). `next` tells what a sibling offers: with
nothing waiting its deficit is set to zero, held back it is skipped with its deficit as it is. -/
def visit (quantum p : Nat) (next : List Part → Nat → Pick) (cost : Fetched → Nat) :
    Nat → List Nat → List Nat → List Part → Bool → Pick
  | 0, _, _, _, _ => .held
  | k + 1, all, [], ps, fresh => visit quantum p next cost k all all ps fresh
  | k + 1, all, sib :: rest, ps, fresh =>
    match next ps sib with
    | .nothing => visit quantum p next cost k all rest (setDeficit ps p sib 0) true
    | .held => visit quantum p next cost k all rest ps true
    | .next e ps' =>
      let d := sibDeficit ps p sib + (if fresh then sibWeight ps p sib * quantum else 0)
      if cost e ≤ d then .next e (setPart (setDeficit ps' p sib (d - cost e)) p (fun x => { x with turn := sib }))
      else visit quantum p next cost k all rest (setDeficit ps p sib d) true

/-- A sibling's offer is an entry. -/
def Pick.isNext : Pick → Bool
  | .next _ _ => true
  | _ => false

def Pick.isNothing : Pick → Bool
  | .nothing => true
  | _ => false

/-- Deficit round robin at a parent, over its own queues and its children's subtrees (R53). The visit that admitted
last goes on without a new quantum. -/
def drr (s : State) : Nat → List Part → Nat → Pick
  | 0, _, _ => .nothing
  | k + 1, ps, p =>
    let next := fun (qs : List Part) (sib : Nat) =>
      if sib = 0 then
        match qs.find? (fun x => x.id == p) with
        | none => Pick.nothing
        | some x => ownPick s qs x
      else drr s k qs sib
    let all := siblings s p
    let turn := ((ps.find? (fun x => x.id == p)).map (fun x => x.turn)).getD 0
    if all.any (fun sib => (next ps sib).isNext) then
      visit (max 1 s.sched.quantum) p next (fun e => s.cost e.entry) (65536 * (all.length + 1)) all
        (all.dropWhile (fun x => x != turn)) ps false
    else if all.all (fun sib => (next ps sib).isNothing) then .nothing
    else .held

/-- The entry admitted by the weighted pass and the partition table after it. -/
def weighted (s : State) : Option (Fetched × List Part) :=
  match drr s 8 s.parts 0 with
  | .next e ps => some (e, ps)
  | _ => none

/-- The first occurrence of an entry removed. -/
def dropFetched (l : List Fetched) (e : Fetched) : List Fetched := l.erase e

/-- Admission of a fetched entry. -/
def admitFetched (s : State) (e : Fetched) : State :=
  match s.queue? e.q, freePlace s (fieldLe e.entry 4 2 % 1024) with
  | some q, some p =>
    admitEntry { s with fetched := dropFetched s.fetched e } p (.queue e.q) q.fn e.part e.entry
  | _, _ => s

/-- One admission slot (R52): the buckets fill, then the mailbox, the guaranteed pass and the weighted pass. -/
def schedAdmit (s0 : State) : State :=
  let s := { s0 with parts := s0.parts.map (fillTokens s0.looms) }
  if !admitOpen s then s
  else match waitingMbx s with
    | some m => admitMbx s m
    | none =>
      match guaranteed s with
      | some e =>
        admitFetched { s with sched := { s.sched with lastGuar := e.part },
                              parts := setPart s.parts e.part (fun y => { y with lastQ := e.q }) } e
      | none =>
        match weighted s with
        | some (e, ps) => admitFetched { s with parts := ps } e
        | none => s

def execSchedAdmit (s : State) : Outcome := .next (schedAdmit s)

/-- Extended data reaches the shed (R68); the rest of admission follows. The image of a DRAFT_LOAD or FW_STAGE reaches
the staging area in the same way (R88; notes/assumptions/22.md). -/
def extDataFetched (p : Place) (data : Bytes) (s : State) : State :=
  match s.cmd? p with
  | none => s
  | some c =>
    match c.phase with
    | .waitExt =>
      if c.abort then s.retire c 0x7002
      else
        let len := Mem.num c.mem 24 4
        let c1 := { c with mem := Mem.writeN c.mem 0x100 (sl data 0 len), extLen := len }
        match c.dir with
        | none => s.retire c 0x1001
        | some d => admitRest (s.setCmd c1) c1 d
    | .waitImage =>
      if c.abort then s.retire c 0x7002
      else { (s.setCmd { c with phase := .ready }) with
             drafts := { s.drafts with staging := sl data 0 (min (c.inl 80 4) 0x200000) } }
    | _ => s

def execExtDataFetched (p : Place) (data : Bytes) (s : State) : Outcome := .next (extDataFetched p data s)

end Sys2Proof.Machine
end

