-- ==== Sys2Proof/Machine/Bist.lean ====
section
/-! DEFINITION. Online self-test (R376-R383, R393, R238, R239): the slots' walks and requests, a pick from isolation to
its verdict, retirement, and the self-test opcodes. -/

namespace Sys2Proof.Machine

open Sys2Proof

/-! ## Units (Table 17.1) -/

/-- The loom of a unit. -/
def unitLoom (u : Nat) : Nat := if u < 128 then u / 8 else if u < 160 then (u - 128) / 2 else u - 160
/-- The kind of a unit in the signature table: 0 symmetric core, 1 bignum core, 2 treadle. -/
def unitKind (u : Nat) : Nat := if u < 128 then 0 else if u < 160 then 1 else 2

def State.bunit (s : State) (u : Nat) : BUnit := (s.bist.units[u]?).getD { st := 0, fails := 0, passes := 0, returns := [] }
def State.modUnit (s : State) (u : Nat) (f : BUnit → BUnit) : State :=
  { s with bist := { s.bist with units := updAt s.bist.units u f } }
def State.slot (s : State) (i : Nat) : Slot := (s.bist.slots[i]?).getD Slot.reset
def State.modSlot (s : State) (i : Nat) (f : Slot → Slot) : State :=
  { s with bist := { s.bist with slots := updAt s.bist.slots i f } }

def slotOf (u : Nat) : Nat := if unitLoom u < 8 then 0 else 1

/-- The 88 units of a slot in ascending order. -/
def slotUnits (i : Nat) : List Nat := (List.range 176).filter (fun u => slotOf u == i)

/-- A unit that the walk passes over: retired, or its loom off or out of service. A treadle that awaits its repeat has
taken its own loom out of service and is tested all the same (R378, R381). -/
def skipUnit (s : State) (u : Nat) : Bool :=
  let x := s.bunit u
  x.st == 3 || !s.powered (unitLoom u + 1) || (!(s.treadle (unitLoom u)).inService && !(unitKind u == 2 && x.st == 2))

/-! ## What holds picks (R383) -/

/-- The response code of a configurable input. -/
def tamperCode (s : State) (i : Nat) : Nat := s.tmp.cfg.toNat / 4 ^ i % 4

/-- An input responds with ZEROISE (Table 16.1, R359). -/
def zeroiseInput (s : State) (i : Nat) : Bool := decide (i ≥ 8) || decide (tamperCode s i ≥ 2)

/-- A ZEROISE condition is present. Of the clock faults only a stopped REFCLK holds start-up (R30). -/
def zeroiseLive (s : State) : Bool :=
  (List.range 15).any (fun i => s.tmp.live.getLsbD i && zeroiseInput s i && !(i == 11 && s.sys.refOk))

def picksHeld (s : State) : Bool := s.sag.warning || zeroiseLive s

/-! ## The start of a pick (R378, Table 17.2) -/

/-- Step 1: the unit is unavailable. -/
def takeUnit (s : State) (u : Nat) : State :=
  let s1 := s.modUnit u (fun x => { x with st := 1 })
  if unitKind u = 1 then s1.modCore (u - 128) (fun k => { k with underTest := true })
  else if unitKind u = 2 then loomLeft (s1.modTreadle (u - 160) (fun t => { t with inService := false })) else s1

def startPick (s : State) (i u pick : Nat) (requested : Bool) (kind : Nat) (who : Option Place) : State :=
  (takeUnit s u).modSlot i (fun x => { x with phase := 1, unit := u, pick := pick, requested := requested, repeat_ := kind == 1,
                                              bnCause := kind == 2, who := who })

/-- The requests in front that can no longer be served are dropped; BIST_PICK then answers abandoned. -/
def dropRequests (s : State) (i : Nat) : Nat → State
  | 0 => s
  | k + 1 =>
    match (s.slot i).reqs with
    | [] => s
    | r :: rest =>
      if !skipUnit s r.1 then s
      else
        let s1 := s.modSlot i (fun x => { x with reqs := rest })
        let s2 := match (r.2.2.2).bind s1.cmd? with
          | none => s1
          | some c => okInline s1 c [3#8]
        dropRequests s2 i k

/-- The walk's next place from its own on that is not passed over: pick and unit. -/
def walkFrom (s : State) (i : Nat) : Option (Nat × Nat) :=
  let x := s.slot i
  let us := slotUnits i
  let now := (us.filter (fun u => decide (u ≥ x.walkUnit))).map (fun u => (x.walkPick, u))
  let later := (List.range 16).flatMap (fun k => us.map (fun u => ((x.walkPick + 1 + k) % 16, u)))
  (now ++ later).find? (fun p => !skipUnit s p.2)

/-- The walk stands after a pick of a unit. -/
def advanceWalk (s : State) (i pick u : Nat) : State :=
  match (slotUnits i).find? (fun v => decide (v > u)) with
  | some v => s.modSlot i (fun x => { x with walkPick := pick, walkUnit := v })
  | none =>
    let s1 := s.modSlot i (fun x => { x with walkPick := (pick + 1) % 16, walkUnit := ((slotUnits i).head?).getD 0 })
    if pick ≠ 15 then s1
    else
      let x := s1.slot i
      let s2 := { s1 with bist := { s1.bist with cycles := (s1.bist.cycles + 1) % 2 ^ 32 } }
      let s3 := s2.raise 0x0501 i (s.evr.optime - x.began) x.cycleFails (x.cycles + 1)
      s3.modSlot i (fun y => { y with cycles := (y.cycles + 1) % 2 ^ 32, cycleFails := 0, began := s.evr.optime })

/-- BIST_SLOT_PERIOD: the start of a slot's period (R378). -/
def slotPeriod (i : Nat) (s : State) : State :=
  if i ≥ 2 ∨ s.sys.step < 13 ∨ s.sys.inReset ∨ !s.bist.enable ∨ (s.slot i).phase ≠ 0 ∨ picksHeld s then s
  else
    let s1 := dropRequests s i ((s.slot i).reqs.length)
    match (s1.slot i).reqs with
    | r :: rest => startPick (s1.modSlot i (fun x => { x with reqs := rest })) i r.1 r.2.1 true r.2.2.1 r.2.2.2
    | [] =>
      match walkFrom s1 i with
      | none => s1
      | some (p, u) => startPick (s1.modSlot i (fun x => { x with walkPick := p, walkUnit := u })) i u p false 0 none

def execBistSlotPeriod (slot : Nat) (s : State) : Outcome := .next (slotPeriod slot s)

/-- A pick joins its slot's queue of eight. -/
def requestPick (s : State) (u pick kind : Nat) (who : Option Place) : State :=
  s.modSlot (slotOf u) (fun x => { x with reqs := x.reqs ++ [(u, pick, kind, who)] })

/-- BIST.REQ: privileged steward code queues a pick. -/
def bistRequest (w : Writer) (value : Nat) (s : State) : State :=
  if !Writer.priv w then s.denyWrite w 0x10100010 4
  else
    let u := value % 256
    if !bit value 12 ∨ u > 175 ∨ (s.slot (slotOf u)).reqs.length ≥ 8 then s else requestPick s u (value / 256 % 16) 0 none

def execBistReq (w : Writer) (value : Nat) (s : State) : Outcome :=
  .next (bistRequest w value s)

/-! ## The end of a pick -/

/-- The unit is available again. A loom returns only once its DRBG is instantiated (Table 18.3). -/
def giveUnit (s : State) (u st : Nat) : State :=
  let s1 := s.modUnit u (fun x => { x with st := st })
  if unitKind u = 1 then s1.modCore (u - 128) (fun k => { k with underTest := st == 2 })
  else if unitKind u = 2 ∧ st = 0 then
    s1.modTreadle (u - 160) (fun t => { t with inService := (s.drbg (u - 160)).seeded && !s.rngOff })
  else s1

/-- The unit is retired until the next reset (R382). -/
def retireUnit (s : State) (u cause : Nat) : State :=
  let s1 := s.modUnit u (fun x => { x with st := 3 })
  let s2 := if unitKind u = 1 then s1.modCore (u - 128) (fun k => { k with removed := true, retired := true, underTest := false })
    else s1
  s2.raise 0x0503 u cause 0 0

/-- BIST_PICK completes with a verdict: 1 pass, 2 fail, 3 abandoned, 4 postponed. -/
def answerPick (s : State) (x : Slot) (v : Nat) : State :=
  match x.who.bind s.cmd? with
  | none => s
  | some c => if c.phase == Phase.waitPick (slotOf x.unit) then okInline s c [byte v] else s

/-- The slot is free, and a walk's pick counts as done. -/
def closeSlot (s : State) (i : Nat) (x : Slot) : State :=
  let s1 := s.modSlot i (fun y => { y with phase := 0, who := none, requested := false, repeat_ := false, bnCause := false })
  if x.requested then s1 else advanceWalk s1 i x.pick x.unit

/-- A pick fails (R381; R238 for a pick that followed a mismatch). -/
def failPick (s : State) (i misr : Nat) : State :=
  let x := s.slot i
  let u := x.unit
  let s1 := (s.modUnit u (fun y => { y with st := 2, fails := min 255 (y.fails + 1) }))
  let b := s1.bist
  let s2 : State := { s1 with bist := { b with picks := (b.picks + 1) % 2 ^ 32, fails := (b.fails + 1) % 2 ^ 32 } }
  let s3 := (s2.modSlot i (fun y => { y with cycleFails := y.cycleFails + 1 })).raise 0x0502 u x.pick (misr % 2 ^ 32) (misr / 2 ^ 32 % 2 ^ 32)
  let s4 := s3.cause 3
  let s5 := if x.bnCause then s4.modCore (u - 128) (fun k => { k with underTest := false })
    else if x.repeat_ then retireUnit s4 u 1
    else requestPick s4 u x.pick 1 none
  answerPick (closeSlot s5 i x) x 2

/-- A unit returns after its repeat; a second return within the hour retires it. -/
def returnRepeat (s : State) (u pick : Nat) : State :=
  let recent := (s.bunit u).returns.filter (fun t => decide (s.evr.optime < t + 3600000))
  if recent ≠ [] then retireUnit s u 2
  else (giveUnit (s.modUnit u (fun y => { y with returns := s.evr.optime :: recent })) u 0).raise 0x0504 u pick 0 0

/-- A pick passes. -/
def passPick (s : State) (i : Nat) : State :=
  let x := s.slot i
  let u := x.unit
  let s1 := s.modUnit u (fun y => { y with passes := (y.passes + 1) % 65536 })
  let s2 : State := { s1 with bist := { s1.bist with picks := (s1.bist.picks + 1) % 2 ^ 32 } }
  let s3 :=
    if x.bnCause then
      let k := s2.core (u - 128)
      if k.retired then (s2.modUnit u (fun y => { y with st := 3 })).modCore (u - 128) (fun y => { y with underTest := false })
      else ((giveUnit s2 u 0).modCore (u - 128) (fun y => { y with removed := false, cause := 0 })).raise 0x0C03 (u - 128) 0 0 0
    else if x.repeat_ then returnRepeat s2 u x.pick
    else giveUnit s2 u 0
  answerPick (closeSlot s3 i x) x 1

/-- The unit of a slot is idle (step 2 of Table 17.2); a symmetric core's step has returned whenever a command comes. -/
def unitIdle (s : State) (u : Nat) : Bool :=
  if unitKind u = 0 then true
  else if unitKind u = 1 then
    let k := s.core (u - 128)
    k.held == [] && k.scrub == [] && !k.running
  else busySheds s (u - 160) == 0

/-- BIST_UNIT_IDLE: outputs clamped, the unit's state zeroed, and the patterns run. -/
def bistIdle (i : Nat) (s : State) : State :=
  let x := s.slot i
  if i ≥ 2 ∨ x.phase ≠ 1 ∨ !unitIdle s x.unit then s
  else
    let s1 := s.modSlot i (fun y => { y with phase := 2 })
    if unitKind x.unit = 2 then
      s1.modTreadle (x.unit - 160) (fun t => { Treadle.reset with draining := t.draining })
    else s1

def execBistUnitIdle (slot : Nat) (s : State) : Outcome := .next (bistIdle slot s)

/-- BIST_ISOLATE_TIMEOUT: the pick is postponed (R380). A request stays in front of its queue, but BIST_PICK is
answered. -/
def isolateTimeout (i : Nat) (s : State) : State :=
  let x := s.slot i
  if i ≥ 2 ∨ x.phase ≠ 1 ∨ unitIdle s x.unit then s
  else
    let kind := if x.repeat_ then 1 else if x.bnCause then 2 else 0
    let s1 := giveUnit s x.unit (if x.repeat_ then 2 else 0)
    let s2 := (s1.raise 0x0506 x.unit x.pick s.bist.isolate 0).modSlot i (fun y =>
      { y with phase := 0, who := none, requested := false, repeat_ := false, bnCause := false,
               reqs := if x.requested && x.who.isNone then (x.unit, x.pick, kind, none) :: y.reqs else y.reqs })
    answerPick { s2 with bist := { s2.bist with skips := (s2.bist.skips + 1) % 2 ^ 32 } } x 4

def execBistIsolateTimeout (slot : Nat) (s : State) : Outcome := .next (isolateTimeout slot s)

/-- BIST_PATTERNS_DONE: the MISR against the stored signature. -/
def patternsDone (i misr : Nat) (s : State) : State :=
  let x := s.slot i
  if i ≥ 2 ∨ x.phase ≠ 2 then s
  else if misr = Config.bistSignature (unitKind x.unit) x.pick then s.modSlot i (fun y => { y with phase := 3 })
  else failPick s i misr

def execBistPatternsDone (slot : Nat) (misr : Nat) (s : State) : Outcome := .next (patternsDone slot misr s)

/-- BIST_UNIT_RESTORED: the known-answer tests of step 6 end. After an abandoned pick the unit only returns. -/
def unitRestored (i : Nat) (kat : Bool) (s : State) : State :=
  let x := s.slot i
  if i ≥ 2 ∨ (x.phase ≠ 3 ∧ x.phase ≠ 4) then s
  else if !kat then failPick s i (Config.bistSignature (unitKind x.unit) x.pick)
  else if x.phase = 3 then passPick s i
  else
    (giveUnit s x.unit (if x.repeat_ then 2 else 0)).modSlot i (fun y =>
      { y with phase := 0, requested := false, repeat_ := false, bnCause := false })

def execBistUnitRestored (slot : Nat) (kat : Bool) (s : State) : Outcome := .next (unitRestored slot kat s)

/-- A pick is abandoned (R383): causes 1 sag, 2 zeroisation, 3 protection fault. A pick that had not yet isolated its
unit leaves it at once; otherwise the unit is re-initialised first. A request goes back to the front of its queue. -/
def abandonPick (cause : Nat) (s : State) (i : Nat) : State :=
  let x := s.slot i
  if x.phase = 0 ∨ x.phase = 4 then s
  else
    let kind := if x.repeat_ then 1 else if x.bnCause then 2 else 0
    let s1 := s.raise 0x0505 x.unit x.pick cause 0
    let s2 : State := { s1 with bist := { s1.bist with skips := (s1.bist.skips + 1) % 2 ^ 32 } }
    let s3 := s2.modSlot i (fun y => { y with
      who := none, reqs := if x.requested && x.who.isNone then (x.unit, x.pick, kind, none) :: y.reqs else y.reqs })
    let s4 := if x.phase = 1 then
        (giveUnit s3 x.unit (if x.repeat_ then 2 else 0)).modSlot i (fun y =>
          { y with phase := 0, requested := false, repeat_ := false, bnCause := false })
      else s3.modSlot i (fun y => { y with phase := 4 })
    answerPick s4 x 3

def abandonPicks (cause : Nat) (s : State) : State := [0, 1].foldl (abandonPick cause) s

/-! ## Opcodes (R393) -/

/-- BIST.USTAT.STATE. -/
def unitState (s : State) (u : Nat) : Nat :=
  if !s.powered (unitLoom u + 1) then 4
  else if unitKind u = 1 ∧ (s.bunit u).st = 0 ∧ (s.core (u - 128)).removed then (if (s.core (u - 128)).retired then 3 else 2)
  else (s.bunit u).st

/-- The next pick of the walk for a unit. -/
def nextPick (s : State) (u : Nat) : Nat :=
  let x := s.slot (slotOf u)
  if u ≥ x.walkUnit then x.walkPick else (x.walkPick + 1) % 16

/-- BIST_QUERY. -/
def bistQuery (s : State) (c : Cmd) : State :=
  let u := c.inl 72 2
  if u > 175 ∨ !allZero (c.inlB 74 54) then badParam s c
  else
    let x := s.bunit u
    okInline s c ([byte (unitState s u), byte (nextPick s u), byte x.fails, 0#8] ++ toLe 4 x.passes ++
      toLe 4 (s.slot (slotOf u)).cycles)

def execBistQuery (i : Nat) (s : State) : Outcome := .next (stewardRow s i 0x1A4 bistQuery)

/-- BIST_PICK. -/
def bistPick (s : State) (c : Cmd) : State :=
  let u := c.inl 72 2
  if u > 175 ∨ c.inl 74 1 > 15 ∨ !allZero (c.inlB 75 53) ∨ skipUnit s u then badParam s c
  else if (s.slot (slotOf u)).reqs.length ≥ 8 then s.retire c 0x5001
  else requestPick (s.setCmd { c with phase := .waitPick (slotOf u) }) u (c.inl 74 1) 0 (some c.place)

def execBistPick (i : Nat) (s : State) : Outcome := .next (stewardRow s i 0x1A5 bistPick)

/-- BIST_SET_PACE: the values are loaded again at step 11 (BIST.CFG). -/
def bistSetPace (s : State) (c : Cmd) : State :=
  let on := bit (c.inl 72 1) 0
  let p := c.inl 74 2
  let iso := c.inl 76 1
  if c.inl 72 1 > 1 ∨ c.inl 73 1 ≠ 0 ∨ !allZero (c.inlB 77 51) ∨ iso < 1 then badParam s c
  else if s.lc.state = 0x40 ∧ (!on ∨ p < 10 ∨ p > 1000) then s.retire c 0x2001
  else if p < 10 ∨ p > 10000 then badParam s c
  else okInline { s with bist := { s.bist with enable := on, period := p, isolate := iso, cfgPace := some (on, p, iso) } } c []

def execBistSetPace (i : Nat) (s : State) : Outcome := .next (stewardRow s i 0x1A6 bistSetPace)

end Sys2Proof.Machine
end

