-- ==== Sys2Proof/Machine/Draft.lean ====
section
/-! DEFINITION. Draft steps of the treadle datapath: MOVE (Table 04.6), CMP (Table 04.7), DONE and EXC (Table 04.11),
the step cache (R104) and the exception FIFO (R106-R108). -/

namespace Sys2Proof.Machine

open Sys2Proof

/-! ## MOVE -/

/-- A byte operation on A and B with U0 set for an all-zero result. -/
def moveBytes (g : Bytes → Bytes → Bytes) (useB : Bool) (s : State) (c : Cmd) (a : StepArgs) : StepOut :=
  match stepLen c a with
  | none => .fault 1 0
  | some l =>
    let ao := a.aOff.toNat
    let bo := a.bOff.toNat
    let d := a.dOff.toNat
    match rangeFault false ((ao, l) :: (if useB then [(bo, l)] else [])) (d, l) with
    | some k => .fault k 0
    | none =>
      let r := g (c.rd ao l) (c.rd bo l)
      .flags s (c.wr d r) (uflags (allZero r) false false)

def moveCopyOp (s : State) (c : Cmd) (a : StepArgs) : StepOut := moveBytes (fun x _ => x) false s c a
def moveXorOp (s : State) (c : Cmd) (a : StepArgs) : StepOut := moveBytes xorBytes true s c a
def moveAndOp (s : State) (c : Cmd) (a : StepArgs) : StepOut :=
  moveBytes (fun x y => List.zipWith (fun p q => p &&& q) x y) true s c a

def moveFillOp (s : State) (c : Cmd) (a : StepArgs) : StepOut :=
  match stepLen c a with
  | none => .fault 1 0
  | some l =>
    match rangeFault false [] (a.dOff.toNat, l) with
    | some k => .fault k 0
    | none => .flags s (c.wr a.dOff.toNat (List.replicate l (byte (a.imm.toNat % 256)))) 0

/-- The value register a MOVE or CMP step names. -/
def vreg (a : StepArgs) : Nat := a.param.toNat % 8

def moveLoadvOp (s : State) (c : Cmd) (a : StepArgs) : StepOut :=
  .flags s (c.setV (vreg a) a.imm.toNat) (uflags (a.imm == 0) false false)

def moveGetvOp (s : State) (c : Cmd) (a : StepArgs) : StepOut :=
  match stepLen c a with
  | none => .fault 1 0
  | some l =>
    if l < 1 ∨ l > 4 ∨ !srcOk a.aOff.toNat l then .fault 2 0
    else
      let v := leNat (c.rd a.aOff.toNat l)
      .flags s (c.setV (vreg a) v) (uflags (v == 0) false false)

def movePutvOp (s : State) (c : Cmd) (a : StepArgs) : StepOut :=
  match stepLen c a with
  | none => .fault 1 0
  | some l =>
    if l < 1 ∨ l > 4 ∨ !dstOk a.dOff.toNat l then .fault 2 0
    else .flags s (c.wr a.dOff.toNat (toLe l (c.v (vreg a)))) 0

def moveAddvOp (s : State) (c : Cmd) (a : StepArgs) : StepOut :=
  let sum := c.v (vreg a) + a.imm.toNat
  .flags s (c.setV (vreg a) (sum % 2 ^ 32)) (uflags (sum % 2 ^ 32 == 0) (decide (sum ≥ 2 ^ 32)) false)

/-- SETF changes F[15:4] as its action says; U = 0 then writes F[3:0] (R94). -/
def moveSetfOp (s : State) (c : Cmd) (a : StepArgs) : StepOut :=
  let clr := (a.imm.extractLsb' 16 12).setWidth 16
  let set := (a.imm.extractLsb' 0 12).setWidth 16
  let hi := ((c.f >>> 4) &&& ~~~clr) ||| set
  .flags s (c.setF ((hi <<< 4) ||| (c.f &&& 0xF#16))) 0

/-! ## CMP -/

/-- A comparison of A and B over LEN bytes. -/
def cmpBytes (g : Bytes → Bytes → BitVec 4) (s : State) (c : Cmd) (a : StepArgs) : StepOut :=
  match stepLen c a with
  | none => .fault 1 0
  | some l =>
    match rangeFault false [(a.aOff.toNat, l), (a.bOff.toNat, l)] (0x100, 0) with
    | some k => .fault k 0
    | none => .flags s c (g (c.rd a.aOff.toNat l) (c.rd a.bOff.toNat l))

def cmpEqCtOp (s : State) (c : Cmd) (a : StepArgs) : StepOut :=
  cmpBytes (fun x y => uflags (x != y) false false) s c a
def cmpMagOp (s : State) (c : Cmd) (a : StepArgs) : StepOut :=
  cmpBytes (fun x y => uflags (beNat x == beNat y) (decide (beNat x < beNat y)) (decide (beNat x > beNat y))) s c a
def cmpTestvOp (s : State) (c : Cmd) (a : StepArgs) : StepOut :=
  .flags s c (uflags (BitVec.ofNat 32 (c.v (vreg a)) &&& a.imm != 0) false false)
def cmpCmpvOp (s : State) (c : Cmd) (a : StepArgs) : StepOut :=
  let v := c.v (vreg a)
  let i := a.imm.toNat
  .flags s c (uflags (v == i) (decide (v < i)) (decide (v > i)))
def cmpRangevOp (s : State) (c : Cmd) (a : StepArgs) : StepOut :=
  let v := c.v (vreg a)
  let i := a.imm.toNat
  .flags s c (uflags (decide (v < i % 65536 ∨ v > i / 65536)) false false)

/-! ## DONE and EXC -/

/-- A customer draft (R103). -/
def Cmd.customer (c : Cmd) : Bool := decide (c.opcode ≥ 0x200)

/-- Statuses a DONE step may name (R103). -/
def doneStatuses (customer : Bool) : List Nat :=
  if customer then [0x0000, 0x1002, 0x1003, 0x2001]
  else [0x0000, 0x1002, 0x1003, 0x2001, 0x3001, 0x3003, 0x5002, 0x6001, 0x6002]

def doneRetireOp (s : State) (c : Cmd) (a : StepArgs) : StepOut :=
  let st := a.imm.toNat % 65536
  match stepLen c a with
  | none => .fault 1 0
  | some l =>
    let rmax := (c.dir.map (fun d => d.replyMax)).getD 0
    if !(doneStatuses c.customer).contains st then .fault 6 0
    else if !srcOk a.aOff.toNat l ∨ l > rmax then .fault 2 0
    else
      let rf := (bit a.param.toNat 0 && c.f.getLsbD a.bflag.toNat) || bit a.param.toNat 1
      .gone (s.retireWith c st (rf && st == 0) true (c.rd a.aOff.toNat l))

/-- EXC is for vendor drafts only; a customer draft that holds it faults (Table 04.4). -/
def excServiceOp (_ : State) (c : Cmd) (a : StepArgs) : StepOut :=
  if c.customer then .fault 1 0 else .fault 8 (a.imm.toNat % 65536)

/-! ## The rows -/

def execMoveCopy (n k : Nat) (a : StepArgs) (s : State) : Outcome := .next (s.step1 n k a moveCopyOp)
def execMoveXor (n k : Nat) (a : StepArgs) (s : State) : Outcome := .next (s.step1 n k a moveXorOp)
def execMoveAnd (n k : Nat) (a : StepArgs) (s : State) : Outcome := .next (s.step1 n k a moveAndOp)
def execMoveFill (n k : Nat) (a : StepArgs) (s : State) : Outcome := .next (s.step1 n k a moveFillOp)
def execMoveLoadv (n k : Nat) (a : StepArgs) (s : State) : Outcome := .next (s.step1 n k a moveLoadvOp)
def execMoveGetv (n k : Nat) (a : StepArgs) (s : State) : Outcome := .next (s.step1 n k a moveGetvOp)
def execMovePutv (n k : Nat) (a : StepArgs) (s : State) : Outcome := .next (s.step1 n k a movePutvOp)
def execMoveAddv (n k : Nat) (a : StepArgs) (s : State) : Outcome := .next (s.step1 n k a moveAddvOp)
def execMoveSetf (n k : Nat) (a : StepArgs) (s : State) : Outcome := .next (s.step1 n k a moveSetfOp)
def execCmpEqCt (n k : Nat) (a : StepArgs) (s : State) : Outcome := .next (s.step1 n k a cmpEqCtOp)
def execCmpMag (n k : Nat) (a : StepArgs) (s : State) : Outcome := .next (s.step1 n k a cmpMagOp)
def execCmpTestv (n k : Nat) (a : StepArgs) (s : State) : Outcome := .next (s.step1 n k a cmpTestvOp)
def execCmpCmpv (n k : Nat) (a : StepArgs) (s : State) : Outcome := .next (s.step1 n k a cmpCmpvOp)
def execCmpRangev (n k : Nat) (a : StepArgs) (s : State) : Outcome := .next (s.step1 n k a cmpRangevOp)
def execDoneRetire (n k : Nat) (a : StepArgs) (s : State) : Outcome := .next (s.step1 n k a doneRetireOp)
def execExcService (n k : Nat) (a : StepArgs) (s : State) : Outcome := .next (s.step1 n k a excServiceOp)

/-! ## Step cache (R104) -/

/-- The set of a line in the four-way cache of 512 lines: 128 sets, by opcode and line index. The manual does not give
the index function: it is free (notes/assumptions/13.md). -/
def lineSet (op line : Nat) : Nat := Config.stepCacheSet op line % 128

/-- A line enters the step cache; the least recently filled of a full set gives way. -/
def State.cacheLine (s : State) (n : Nat) (l : CacheLine) : State :=
  s.modTreadle n (fun t =>
    let others := t.lines.filter (fun x => x.tag != l.tag)
    let sameSet := others.filter (fun x => lineSet x.tag.1 x.tag.2.1 == lineSet l.tag.1 l.tag.2.1)
    let drop := if sameSet.length ≥ 4 then sameSet.getLast? else none
    { t with lines := l :: others.filter (fun x => some x != drop) })

/-- The draft-store lines a command runs: those of its directory GENERATION (R112). -/
def linesOf (s : State) (c : Cmd) : List Nat :=
  match s.drafts.dir.find? (fun d => d.opcode == c.opcode && d.gen == c.dgen) with
  | some d => d.lines
  | none => ((s.drafts.oldLines.find? (fun o => o.1 == c.opcode && o.2.1 == c.dgen)).map (fun o => o.2.2)).getD []

/-- The line of a command's next step as the draft store holds it; the steps of vendor drafts are not in the manual. -/
def storeLine (s : State) (c : Cmd) : CacheLine :=
  { tag := c.lineTag, bad := false,
    data := (((linesOf s c)[c.idx / 16]?).map (fun l => Mem.readN s.mem (lineAddr l) 256)).getD [] }

/-- A parked shed's line arrives from the draft store. An uncorrectable error there faults the step with STORE_ECC and
sets the directory entry to FAILED (R106). -/
def stepCacheFill (n k : Nat) (ecc : Bool) (s : State) : State :=
  match s.cmd? (.shed n k) with
  | none => s
  | some c =>
    match c.phase with
    | .waitLine _ =>
      if c.abort then s.retire c 0x7002
      else if ecc then
        let mark := fun (d : DirEnt) => if d.opcode = c.opcode then { d with state := 2 } else d
        let s1 := { s with drafts := { s.drafts with dir := s.drafts.dir.map mark } }
        s1.parkExc n k c (c.pend.getD noArgs) 7 0
      else (s.cacheLine n (storeLine s c)).setCmd { c with phase := .ready }
    | _ => s

def execStepCacheLineFilled (n k : Nat) (ecc : Bool) (s : State) : Outcome := .next (stepCacheFill n k ecc s)

/-! ## The exception FIFO (R106-R108) -/

/-- The head record leaves the FIFO and the oldest waiting record enters it. -/
def Treadle.pop (t : Treadle) : Treadle :=
  match t.exc with
  | [] => t
  | _ :: r =>
    match t.excWait with
    | [] => { t with exc := r }
    | w :: ws => { t with exc := r ++ [w], excWait := ws }

/-- A write of a TRD register: privileged steward code only, and only while the loom's domain is on (R16, R114). -/
def trdWrite (w : Writer) (n off : Nat) (s : State) (f : State → State) : State :=
  let addr := 0x100A0800 + 0x1000 * n + off
  if !s.powered (n + 1) then s.send (.error addr)
  else if !Writer.priv w then s.denyWrite w addr 4
  else f s

def execTrdExcpop (w : Writer) (n : Nat) (value : Nat) (s : State) : Outcome :=
  .next (trdWrite w n 0x20 s (fun s => if bit value 0 then s.modTreadle n Treadle.pop else s))

/-- A command parked on an exception, with its kind. An OBJ_DELETE whose tombstone is committed stays parked on its EXC step
until the stewards resume it (R107, R146). -/
def State.parkedCmd (s : State) (n k : Nat) : Option (Cmd × Nat) :=
  match s.cmd? (.shed n k) with
  | none => none
  | some c =>
    match c.phase with
    | .parked kind _ => some (c, kind)
    | .committed _ => if c.opcode = 0x061 ∧ c.idx = 0 then some (c, 8) else none
    | _ => none

/-- The phase in which a resumed draft goes on: its commit, if it made one, still to hand. -/
def Phase.resumed : Phase → Phase
  | .committed h => .committed h
  | _ => .ready

/-- TRD.RESUME (R107): continue at a step with a U value applied first, the EXC step then counted as executed (R95), or
retire with TRD.RSTATUS. A step fault retires with its event (Table 04.12); a shed that is not parked sets RESUME_ERR. -/
def trdResume (n value : Nat) (s : State) : State :=
  let k := bits value 4 0
  match s.parkedCmd n k with
  | none => s.modTreadle n (fun t => { t with resumeErr := true })
  | some (c, kind) =>
    let t := s.treadle n
    if bit value 5 then
      let s1 := if kind = 8 then s else s.raise (faultEvent kind) 0 0 0 0
      s1.retire c (if c.abort then 0x7002 else t.rstatus)
    else
      let a := c.pend.getD noArgs
      let f := saveFlags c.f (BitVec.ofNat 4 (bits value 18 15)) a.fsel
      let c1 := c.setF f
      (if kind = 8 then s.modTreadle n Treadle.count else s).setCmd
        { c1 with mem := if kind = 8 then Mem.writeN c1.mem 0xA2 (toLe 2 (c.count + 1)) else c1.mem,
                  idx := branch f a (bits value 14 6), phase := c.phase.resumed, pend := none }

def execTrdResume (w : Writer) (n : Nat) (value : Nat) (s : State) : Outcome :=
  .next (trdWrite w n 0x28 s (trdResume n value))

end Sys2Proof.Machine
end

