-- ==== Sys2Proof/Machine/Journal.lean ====
section
/-! DEFINITION. The journal (R133-R142): versions written, stores, tombstones, reservations, relocation, the sequence
reservation, and recovery. A commit ends with its JOURNAL_COMMIT_DONE; the head of the queue is the one being written
whenever commits are not held (notes/assumptions/17.md). -/

namespace Sys2Proof.Machine

open Sys2Proof

/-! ## Slots -/

/-- The free slot that follows the allocation pointer in cyclic order. -/
def freeSlot (s : State) : Option Nat :=
  (firstFree (fun i => !s.ks.used.contains ((s.ks.alloc + i) % slotCount)) slotCount 0).map (fun i =>
    (s.ks.alloc + i) % slotCount)

/-- A version written (R135): its slot, with SEQUENCE, body and commit word; `old` is the slot it supersedes. -/
def writeVersion (s : State) (handle kind : Nat) (body : Bytes) (old : Option Nat) : Option (State × Nat × Nat) :=
  match freeSlot s, s.ksEnc, s.ksMac with
  | some k, some e, some m =>
    let seq := s.ks.nextSeq
    let cipher := xorBytes (sl body 0 96) (slotStream e seq k)
    let head := [byte kind, 1#8, 0#8, 0#8] ++ toLe 4 handle ++ toLe 8 seq
    let mem := Mem.writeN s.mem (slotAddr k) (cipher ++ head ++ slotMac m k cipher head)
    some ({ s with
      mem := mem
      ks := { s.ks with alloc := (k + 1) % slotCount, nextSeq := seq + 1, commits := (s.ks.commits + 1) % 2 ^ 32,
                        sinceReloc := s.ks.sinceReloc + 1,
                        used := k :: s.ks.used.filter (fun x => some x != old && x != k) } }, k, seq)
  | _, _, _ => none

/-- 128 zero bytes over a slot, which becomes free. -/
def zeroSlot (s : State) (k : Nat) : State :=
  { s with mem := Mem.writeN s.mem (slotAddr k) (zeros 128)
           ks := { s.ks with used := s.ks.used.filter (fun x => x != k) } }

/-- The slot in whose commit word an address lies. -/
def wordSlot (a : Nat) : Option Nat :=
  if 0x02000000 ≤ a ∧ a < 0x02800000 then
    (if a % 128 ≥ 96 then some (a / 128 % 65536) else none)
  else if 0x02BF0000 ≤ a ∧ a < 0x02C00000 then
    (if a % 128 ≥ 96 then some (65536 + a / 128 % 512) else none)
  else none

/-- The slots whose commit word is not all zero, ascending. -/
def writtenSlots (s : State) : List Nat :=
  (s.mem.filterMap (fun x => wordSlot x.1)).dedup

def slotHandle (s : State) (k : Nat) : Nat := fieldLe (s.slotWord k) 4 4
def slotSeq (s : State) (k : Nat) : Nat := fieldLe (s.slotWord k) 8 8
def slotKind (s : State) (k : Nat) : Nat := byteAt (s.slotWord k) 0

/-! ## Index -/

def State.setObj (s : State) (o : Obj) : State :=
  { s with ks := { s.ks with objs := o :: s.ks.objs.filter (fun x => x.handle != o.handle) } }
def State.dropObj (s : State) (h : Nat) : State :=
  { s with ks := { s.ks with objs := s.ks.objs.filter (fun x => x.handle != h) } }
def State.obj? (s : State) (h : Nat) : Option Obj := s.ks.objs.find? (fun o => o.handle == h)

/-- Entries of the superseded version leave the cache at the commit (R136, R160). -/
def State.dropEntries (s : State) (h : Nat) : State :=
  let hit := fun (w : Way) => w.source == 1 && w.handle == h && !w.invalidated
  let gone := s.kc.ways.filter (fun w => hit w && w.pins == 0 && !w.filling && !w.cont)
  let s1 := { s with kc := { s.kc with
    ways := updWhere hit (fun w => { w with invalidated := true })
      (s.kc.ways.filter (fun w => !gone.any (fun g => w.sameKey g))) } }
  s1.mirrorRemovals (s.kc.ways.filter hit)

/-- Live objects of a subtree, as OBJECT_QUOTA counts them. -/
def objCount (s : State) (root : Nat) : Nat :=
  (s.liveObjs.filter (fun o => s.inSubtree root (fieldLe (s.objBody o) 0 2))).length

/-- The lowest free index. -/
def freeIndex (s : State) : Option Nat :=
  firstFree (fun i => !s.liveObjs.any (fun o => o.handle % 65536 == i)) 65536 0

def nextIncarnation (s : State) (i : Nat) : Nat :=
  let x := assocGet s.ks.incs i 0
  if x ≥ 0xFFFE then 1 else x + 1

/-! ## Stores (R130) -/

/-- The body a STORE writes. -/
def storeBody (part gen : Nat) (attr : Bytes) (k : KeyInfo) (generated : Bool) (reserved : Nat) : Bytes :=
  toLe 2 part ++ [byte k.usage, byte k.alg, byte (byteAt attr 0 % 4 + 4 * b2n generated), byte k.mat.length, 0#8, 0#8] ++
    sl attr 4 8 ++ sl attr 12 4 ++ toLe 4 gen ++ sl attr 16 6 ++ zeros 2 ++ sl attr 24 4 ++ toLe 4 reserved ++ sl k.mat 0 56

/-- The live object of the same non-zero NAME and VERSION. -/
def sameName (s : State) (part : Nat) (attr : Bytes) : Option Obj :=
  if fieldLe attr 4 8 = 0 then none
  else s.liveObjs.find? (fun o =>
    let b := s.objBody o
    fieldLe b 0 2 == part && sl b 8 8 == sl attr 4 8 && sl b 16 4 == sl attr 12 4)

/-- A quota of the partition or an ancestor, or the store's 65,536 objects, would be exceeded. -/
def objQuotaFull (s : State) (part : Nat) : Bool :=
  decide (s.liveObjs.length ≥ 65536) ||
  (s.ancestors part).any (fun a => match s.part? a with
    | none => true
    | some p => decide (objCount s a ≥ p.objQuota))

/-- Where a STORE lands: the handle, the body and the superseded object; or the status. -/
def storeTarget (s : State) (part : Nat) (attr : Bytes) (k : KeyInfo) (generated : Bool) :
    Except Nat (Nat × Bytes × Option Obj) :=
  match sameName s part attr with
  | some o =>
    let b := s.objBody o
    if byteAt b 2 ≠ k.usage ∨ byteAt b 3 ≠ k.alg then .error 0x2001
    else .ok (o.handle, storeBody part (fieldLe b 20 4) attr k generated (fieldLe b 36 4), some o)
  | none =>
    if objQuotaFull s part then .error 0x5002
    else match freeIndex s with
      | none => .error 0x5002
      | some i =>
        .ok (nextIncarnation s i * 65536 + i, storeBody part (s.partGen part) attr k generated 0, none)

/-! ## The commits -/

/-- The command whose commit is written goes on: a STORE step writes the handle to D and returns its flags; a vendor
draft goes on when its row is sent again (R101). -/
def committed (s : State) (who : Option Place) (stamp : Nat) (mirror : Bool) (handle : Nat) : State :=
  match who with
  | none => s
  | some p =>
    match s.cmd? p with
    | none => s
    | some c0 =>
      let c := { c0 with stamp := stamp, mirror := mirror, abort := false }
      match c.pend with
      | some a => s.setCmd ((c.wr a.dOff.toNat (toLe 4 handle)).advance a 0)
      | none => s.setCmd { c with phase := .committed handle }

/-- A request at the journal fails: its command retires with the status. -/
def refused (s : State) (who : Option Place) (status : Nat) : State :=
  match who with
  | none => s
  | some p => match s.cmd? p with
    | none => s
    | some c => s.retire c (if c.abort then 0x7002 else status)

/-- The mirrored part of a commit, with the stamp it takes. -/
def stampFor (s : State) (who : Option Place) : Nat × Bool :=
  (s.nextStamp, match who.bind s.cmd? with
    | none => false
    | some c => s.waitsBeat c.flags)

/-- The commit of a version, with the duplicate record of its command in the same beat (R75). -/
def commitBy (s : State) (who : Option Place) (typ part : Nat) (body : Bytes) : State :=
  match who.bind s.cmd? with
  | none => s.commit typ part body
  | some c => s.commitFor { c with stamp := s.nextStamp } c.inlineResult typ part body

def commitStore (s : State) (who : Option Place) (part : Nat) (attr : Bytes) (k : KeyInfo) (generated : Bool) : State :=
  match storeTarget s part attr k generated with
  | .error st =>
    let s1 := if st = 0x5002 then s.raise 0x0A07 part s.liveObjs.length 0 0 else s
    refused s1 who st
  | .ok (h, body, old) =>
    match writeVersion s h 1 body (old.map (fun o => o.slot)) with
    | none => refused s who 0x5001
    | some (s1, slot, seq) =>
      let s2 := s1.setObj { handle := h, slot := slot, seq := seq, keySeq := seq,
                            limitLogged := (old.map (fun o => o.limitLogged)).getD false,
                            resBeat := old.bind (fun o => o.resBeat) }
      let s3 := { s2 with ks := { s2.ks with incs := assocSet s2.ks.incs (h % 65536) (h / 65536) } }
      let s4 := if old.isSome then s3.dropEntries h else s3
      let (st, mi) := stampFor s4 who
      committed (commitBy s4 who 0x01 part (toLe 4 h ++ body)) who st mi h

/-- A tombstone and the zeroing that follows it (R137). -/
def commitTombstone (s : State) (who : Option Place) (h : Nat) : State :=
  match s.obj? h with
  | none => refused s who 0x3001
  | some o =>
    let part := fieldLe (s.objBody o) 0 2
    match writeVersion s h 2 (zeros 96) none with
    | none => refused s who 0x5001
    | some (s1, _, _) =>
      let s2 := ((writtenSlots s1).filter (fun k => slotHandle s1 k == h)).foldl zeroSlot s1
      let s3 := (s2.dropObj h).dropEntries h
      let (st, mi) := stampFor s3 who
      committed (commitBy s3 who 0x02 part (toLe 4 h)) who st mi h

/-- A version of an object with more uses reserved (R132); the key does not change. -/
def commitUses (s : State) (h add : Nat) (resv : Bool) : State :=
  match s.obj? h with
  | none => s
  | some o =>
    let b := s.objBody o
    let lim := fieldLe b 32 4
    let body := b.take 36 ++ toLe 4 (min lim (fieldLe b 36 4 + add)) ++ b.drop 40
    match writeVersion s h 1 body (some o.slot) with
    | none => s
    | some (s1, slot, seq) =>
      (s1.setObj { o with slot := slot, seq := seq, resBeat := if resv then some s.lk.beat else o.resBeat }).commit 0x01
        (fieldLe b 0 2) (toLe 4 h ++ body)

/-- The uses a reservation of R132 adds. -/
def reserveAmount (s : State) (h : Nat) : Nat :=
  match s.obj? h with
  | none => 0
  | some o => min 4096 (fieldLe (s.objBody o) 32 4 - fieldLe (s.objBody o) 36 4)

/-- A reservation is committed: a fill that waited for it ends, one use taken; a valid way takes the uses and its
waiting lookups go on. -/
def commitReserve (s : State) (h b u w : Nat) : State :=
  let n := reserveAmount s h
  let s1 := commitUses s h 4096 true
  match s1.kc.fills.find? (fun f => f.bank == b && f.bucket == u && f.way == w && f.reserving && f.handle == h) with
  | some f =>
    match f.key with
    | none => s1
    | some k => if n = 0 then failFill s1 f 0x3003 none else finishFill s1 f k (n - 1) true
  | none =>
    wakeWay (s1.modWays (fun x => Way.here b u w x && x.handle == h && x.valid && !x.cont) (fun x => { x with uses := n })) b u w

/-- The live version that holds the next slot after the relocation pointer, rewritten unchanged (R138). -/
def relocate (s : State) : State :=
  let order := fun (o : Obj) => (o.slot + slotCount - s.ks.reloc) % slotCount
  match s.ks.objs.foldl (fun (best : Option Obj) o => match best with
      | none => some o
      | some x => if order o < order x then some o else some x) none with
  | none => s
  | some o =>
    let kind := slotKind s o.slot
    match writeVersion s o.handle kind (s.objBody o) (some o.slot) with
    | none => s
    | some (s1, slot, seq) =>
      let s2 := s1.setObj { o with slot := slot, seq := seq }
      { s2 with ks := { s2.ks with reloc := (o.slot + 1) % slotCount } }

/-- The domain key's commit (R121); event 0x0A06. -/
def commitDomain (s : State) (key : Bytes) : State :=
  let old := (s.obj? domainHandle).map (fun o => o.slot)
  match writeVersion s domainHandle 3 (sl key 0 96) old with
  | none => s
  | some (s1, slot, seq) =>
    let st := s.nextStamp
    let s2 := s1.setObj { handle := domainHandle, slot := slot, seq := seq, keySeq := seq, limitLogged := false, resBeat := none }
    let s3 := ({ s2 with ks := { s2.ks with domainKey := some (sl key 0 32) } }).commit 0x03 0 (sl key 0 32)
    s3.raise 0x0A06 (st % 2 ^ 32) (st / 2 ^ 32) 0 0

/-- Commits go on: recovery is over, no supply warning (or the commit began before it), the next SEQUENCE is below the
reservation, the keys exist, and a beat is open (R135, R139, R141, R286). -/
def journalOpen (s : State) (started : Bool) : Bool :=
  !s.ks.hold && (!s.sag.warning || started) && decide (s.ks.nextSeq < s.ks.reservation) && s.ksEnc.isSome && s.beatOpen

/-- In LONE under REFUSE a STORE is refused before its commit (R288). -/
def storeRefused (s : State) : Bool := s.lk.pstate == 4 && s.lk.lossAction

/-- The next commit of the queue is written (R135, R136). -/
def journalCommit (s : State) : State :=
  match s.headCommit with
  | none => s
  | some h =>
    if !journalOpen s h.started then s
    else
      let t := { s with ks := { s.ks with queue := s.ks.queue.erase h } }
      match h.kind with
      | .store p a k g => if storeRefused s then refused t h.who 0x8002 else commitStore t h.who p a k g
      | .reserve hd b u w => commitReserve t hd b u w
      | .tombstone hd => commitTombstone t h.who hd
      | .relocate _ => relocate t
      | .domain k => commitDomain t k
      | .raise hd => commitUses t hd (3 * 4096) false

/-- A reset that cuts the write of a version off (R135): the first `n` bytes of the slot are written. -/
def tornWrite (s : State) (n : Nat) : State :=
  match freeSlot s with
  | none => s
  | some k => { s with mem := Mem.writeN s.mem (slotAddr k) ((Mem.readN (journalCommit s).mem (slotAddr k) 128).take n) }

/-- The relocation that follows every 64th commit is asked for (R138). -/
def journalRelocate (s : State) : State :=
  if s.ks.sinceReloc < 64 then s
  else ({ s with ks := { s.ks with sinceReloc := s.ks.sinceReloc - 64 } }).enqueue (.relocate 0) none

def execJournalRelocate (s : State) : Outcome := .next (journalRelocate s)

/-- The new reservation is durable (R135): it lies 0x1_0000 above the next SEQUENCE. -/
def reservationDurable (s : State) : State :=
  if s.ks.hold ∨ s.sag.warning ∨ s.ks.nextSeq < s.ks.reservation then s
  else { s with ks := { s.ks with reservation := s.ks.nextSeq + 0x10000, cfgStone := s.ks.stone } }

def execSequenceReservationDurable (s : State) : Outcome := .next (reservationDurable s)

/-! ## Recovery (R139) -/

/-- The accepted versions: slot, handle, SEQUENCE, KIND. -/
structure Version where
  slot : Nat
  handle : Nat
  seq : Nat
  kind : Nat
deriving DecidableEq, Repr

def versionsOf (s : State) : List Version :=
  ((writtenSlots s).filter s.slotOk).map (fun k =>
    { slot := k, handle := slotHandle s k, seq := slotSeq s k, kind := slotKind s k })

/-- Versions of one handle that share a sequence are torn. -/
def twins (vs : List Version) (v : Version) : Bool :=
  vs.any (fun x => x.slot != v.slot && x.handle == v.handle && x.seq == v.seq)

/-- The newest version of each handle. -/
def newestOf (vs : List Version) : List Version :=
  vs.filter (fun v => !vs.any (fun x => x.handle == v.handle && decide (x.seq > v.seq)))

/-- The journal as recovery leaves it. The reservation itself becomes durable before the first commit. -/
def recover (s0 : State) : State :=
  let all := writtenSlots s0
  let ok := versionsOf s0
  let bad := all.filter (fun k => !ok.any (fun v => v.slot == k))
  let tw := ok.filter (twins ok)
  let vs := ok.filter (fun v => !twins ok v)
  let news := newestOf vs
  let older := vs.filter (fun v => !news.any (fun x => x.slot == v.slot))
  let dead := news.filter (fun v => v.kind == 2)
  let live := news.filter (fun v => v.kind != 2)
  let wipe := dead.map (fun v => v.slot) ++
    (older.filter (fun v => dead.any (fun d => d.handle == v.handle))).map (fun v => v.slot)
  let maxSeq := (ok.map (fun v => v.seq)).foldl max 0
  let next := max (1 + maxSeq) s0.ks.reservation
  let newest := live.foldl (fun (best : Option Version) v => match best with
    | none => some v
    | some x => if v.seq > x.seq then some v else some x) none
  let ptr := (newest.map (fun v => (v.slot + 1) % slotCount)).getD 0
  let objs : List Obj := live.map (fun v =>
    { handle := v.handle, slot := v.slot, seq := v.seq, keySeq := v.seq, limitLogged := false, resBeat := none })
  let dom := objs.find? (fun o => o.handle == domainHandle)
  let s1 := (bad ++ tw.map (fun v => v.slot)).foldl (fun t k => t.raise 0x0A02 k 0 0 0) s0
  let s2 := wipe.foldl zeroSlot s1
  let s3 := { s2 with ks := { s2.ks with
    objs := objs
    incs := objs.foldl (fun (l : List (Nat × Nat)) (o : Obj) => if o.handle ≥ pairHandle then l else assocSet l (o.handle % 65536) (o.handle / 65536)) s2.ks.incs
    alloc := ptr
    reloc := ptr
    nextSeq := next
    torn := bad.length + tw.length
    used := live.map (fun (v : Version) => v.slot)
    domainKey := dom.map (fun o => sl (s2.objBody o) 0 32)
    recovered := true
    hold := false } }
  let s4 := if s0.tmp.secret.isSome then s3 else s3.raise 0x0A03 s3.evr.power 0 0 0
  s4.raise 0x0A01 s4.liveObjs.length s4.ks.torn older.length (next % 2 ^ 32)

/-- Objects whose partition is gone or has another GENERATION are removed, and the older of two of one name (R139). -/
def orphan (s : State) (o : Obj) : Bool :=
  let b := s.objBody o
  match s.part? (fieldLe b 0 2) with
  | none => true
  | some p => p.gen != fieldLe b 20 4

def dupName (s : State) (o : Obj) : Bool :=
  let b := s.objBody o
  fieldLe b 8 8 != 0 && s.liveObjs.any (fun x =>
    let y := s.objBody x
    x.handle != o.handle && sl y 0 2 == sl b 0 2 && sl y 8 8 == sl b 8 8 && sl y 16 4 == sl b 16 4 && decide (x.seq > o.seq))

def afterRecovery (s : State) : State :=
  let bad := s.liveObjs.filter (orphan s)
  let s1 := bad.foldl (fun t o =>
    (t.raise 0x0A04 o.slot (fieldLe (s.objBody o) 0 2) (fieldLe (s.objBody o) 20 4) 0).enqueue (.tombstone o.handle) none) s
  let dup := (s.liveObjs.filter (fun o => !orphan s o)).filter (dupName s)
  dup.foldl (fun t o => (t.raise 0x0A09 o.handle (fieldLe (s.objBody o) 0 2) 0 0).enqueue (.tombstone o.handle) none) s1

end Sys2Proof.Machine
end

