-- ==== Sys2Proof/Machine/Keys.lean ====
section
/-! DEFINITION. KEY steps (R98, R100, R101, Table 04.9), fills as an event, and the sweeper (R158-R160). -/

namespace Sys2Proof.Machine

open Sys2Proof

/-- A request for random output by a step: the bytes, RNG_UNAVAILABLE, or a wait for a block (R248). -/
def withRandom (s : State) (c : Cmd) (n : Nat) (f : State → Bytes → StepOut) : StepOut :=
  match s.random (drbgOf c.place) n with
  | .bytes s1 b => f s1 b
  | .off => .hard s c 0x9001
  | .waits s1 => .wait s1 { c with asked := s1.evr.optime } .waitRng

def refFlags (m l : Bool) : BitVec 4 := uflags m l false
def cachedFlag (m _l : Bool) : BitVec 4 := uflags (!m) false false

def keyGetOp (s : State) (c : Cmd) (a : StepArgs) : StepOut :=
  let p := a.param.toNat
  (getRef s c (bits p 6 4) a.kreg.toNat (bits p 3 0) a.imm.toNat (bit p 7)).step refFlags

/-- Register of the wrapping, parent or initial key. -/
def otherReg (a : StepArgs) : Nat := bits a.param.toNat 7 4

/-- An RSA transport block handed to the bignum unit (R234): mode D is demanded. -/
def rsaUnwrapStep (s : State) (c : Cmd) (w : KReg) (block : Bytes) : StepOut :=
  let k := sigBytes (rsaSizeOf w.key.alg)
  if !w.key.rsaPriv then .hard s c 0x2002
  else if block.length ≠ k + 32 then .hard s c 0x3002
  else parkJob s c { op := 0x21, size := rsaSizeOf w.key.alg, pss := false, alg := w.key.alg, key := w.key.mat,
                     operand := block.take k, record := block.drop k }

def keyUnwrapOp (s : State) (c : Cmd) (a : StepArgs) : StepOut :=
  match stepLen c a with
  | none => .fault 1 0
  | some l =>
    match rangeFault false [(a.aOff.toNat, l)] (0x100, 0) with
    | some k => .fault k 0
    | none =>
      withKey s c (otherReg a) 3 [1, 2, 3, 4, 5, 11, 12, 13] (fun w =>
        let b := c.rd a.aOff.toNat l
        if isRsa w.key.alg then rsaUnwrapStep s c w b
        else (getBlock s c w a.kreg.toNat b (bits a.param.toNat 3 0) a.imm.toNat 0xFF false false).step cachedFlag)

/-- A key may be wrapped out: exportable, not RSA, and its recorded name has the EXPORT role (R211, Table 07.6). -/
def exportOk (s : State) (c : Cmd) (k : KReg) : Bool :=
  k.key.exportable && !isRsa k.key.alg && k.named && policyOk s c k.key.name k.key.usage k.key.alg roleExport

/-- Key usages of Table 08.8 that pair with a key. -/
def pairedUsages (k : KeyInfo) : List Bytes :=
  (usageRows.map (fun r => ascii r.usage)).filter (fun u => kuPairs u k.alg k.usage)

/-- A block of a key under a KBPK with given key usage, exportability and padding (R211). -/
def exportBlock (kbpk k : KeyInfo) (ku : Bytes) (exp : Byte) (pad : Bytes) : Bytes :=
  kbBuild kbpk.alg kbpk.mat ku (algChar k.alg) (modeOf k.usage) k.version exp (keyOpts k.name k.notAfter k.alg) k.alg k.mat pad

def exportPad (kbpk k : KeyInfo) : Nat := fieldPad (versionOf kbpk.alg) k.alg k.mat

/-- WRAP. The step does not say which X9.143 key usage and which exportability character its block carries: both are
free choices among those the tables permit (notes/assumptions/18.md). Under an RSA key the job goes to the bignum unit
(R234). -/
def keyWrapOp (s : State) (c : Cmd) (a : StepArgs) : StepOut :=
  match stepLen c a with
  | none => .fault 1 0
  | some l =>
    let d := a.dOff.toNat
    if !dstOk d l then .fault 2 0
    else soundKey s c (c.key a.kreg.toNat) (fun k =>
        withKey s c (otherReg a) 3 [1, 2, 3, 4, 5, 11, 12, 13] (fun w =>
          if !exportOk s c k then .hard (countPolicy s) c 0x2001
          else if isRsa w.key.alg then
            if w.key.rsaPriv ∨ k.key.alg > 6 then .hard s c 0x2002
            else if sigBytes (rsaSizeOf w.key.alg) + 32 > l then .hard s c 0x1002
            else parkJob (countPolicy s) c
              { op := 0x20, size := rsaSizeOf w.key.alg, pss := false, alg := w.key.alg, key := w.key.mat,
                operand := k.key.mat, record := transportRecord k.key }
          else
            let us := pairedUsages k.key
            match us[Config.freeNat s.draw % us.length]? with
            | none => .hard (countPolicy s) c 0x2002
            | some ku =>
              if k.key.version > 99 then .hard (countPolicy s) c 0x1003
              else withRandom ((countPolicy s).drawn 2) c (exportPad w.key k.key) (fun s1 pad =>
                let e := ([chr 'E', chr 'N', chr 'S'][Config.freeNat (s.draw + 1) % 3]?).getD (chr 'N')
                let b := exportBlock w.key k.key ku e pad
                if b.length > l then .hard s1 c 0x1002 else .flags s1 (c.wr d b) 0)))

def keyDeriveOp (s : State) (c : Cmd) (a : StepArgs) : StepOut :=
  match stepLen c a with
  | none => .fault 1 0
  | some l =>
    match rangeFault false [(a.aOff.toNat, l)] (0x100, 0) with
    | some k => .fault k 0
    | none =>
      withKey s c (otherReg a) 4 [3] (fun p =>
        (getDerived s c p a.kreg.toNat (c.rd a.aOff.toNat l) (bits a.param.toNat 3 0) a.imm.toNat false false).step cachedFlag)

/-! ## DUKPT (R201, R202) -/

/-- Bits set in a number of 32 bits. -/
def popcount (n : Nat) : Nat := ((List.range 32).filter (fun i => bit n i)).length

/-- The transaction counter of a key serial number. -/
def ksnCounter (alg : Nat) (ksn : Bytes) : Nat :=
  if isAes alg then beNat (sl ksn 8 4) else beNat (sl ksn 7 3) % 2 ^ 21

/-- The counter is non-zero and has at most 16 (AES) or 10 (TDES) bits set. -/
def ksnOk (alg : Nat) (ksn : Bytes) : Bool :=
  let n := ksnCounter alg ksn
  n != 0 && decide (popcount n ≤ if isAes alg then 16 else 10)

def ksnLen (alg : Nat) : Nat := if isAes alg then 12 else 10

/-- The usage of a working key type. -/
def wktUsage (t : Nat) : Nat := if t = 1 then 6 else 2

def dukptInfo (init : KeyInfo) (t : Nat) (ksn : Bytes) : KeyInfo :=
  { usage := wktUsage t, alg := init.alg, mat := sl (Config.dukptKey init.alg t init.mat ksn) 0 (matLen init.alg), name := 0,
    version := 0, notAfter := 0, exportable := false, limited := false, level := 2, rsaPriv := false, transport := false,
    wkt := t }

/-- The working key of an initial key in a register. -/
def getDukpt (s : State) (c : Cmd) (init : KReg) (reg t : Nat) (ksn : Bytes) : Got :=
  let k := dukptInfo init.key t ksn
  cacheGet s c { reg := reg, usage := k.usage, mask := anyAlg, source := 5, ident := sha32 (init.tag ++ ksn), roles := 0,
                 named := false, handle := 0, cacheOnly := false, isRef := false, fill := .ok k }

def keyDukptOp (s : State) (c : Cmd) (a : StepArgs) : StepOut :=
  let t := bits a.param.toNat 11 8
  match stepLen c a with
  | none => .fault 1 0
  | some l =>
    match rangeFault false [(a.aOff.toNat, l)] (0x100, 0) with
    | some k => .fault k 0
    | none =>
      withKey s c (otherReg a) 4 [1, 2, 3, 4] (fun i =>
        let ksn := c.rd a.aOff.toNat l
        if t > 2 ∨ l ≠ ksnLen i.key.alg then .hard s c 0x1003
        else if bits a.param.toNat 3 0 ≠ wktUsage t ∨ !bit a.imm.toNat i.key.alg then .hard s c 0x2002
        else if !ksnOk i.key.alg ksn then .flags s c (uflags true false false)
        else (getDukpt s c i a.kreg.toNat t ksn).step (fun _ _ => 0))

/-! ## GENERATE, STORE, RELEASE -/

/-- The one algorithm a GENERATE mask names. -/
def oneAlg (m : Nat) : Option Nat :=
  match (List.range 32).filter (fun i => bit m i) with
  | [x] => some x
  | _ => none

def generatedKey (alg usage : Nat) (m : Bytes) : KeyInfo :=
  { usage := usage, alg := alg, mat := if isTdes alg then oddParity m else m, name := 0, version := 0, notAfter := 0,
    exportable := true, limited := false, level := 2, rsaPriv := false, transport := false }

def keyGenerateOp (s : State) (c : Cmd) (a : StepArgs) : StepOut :=
  let usage := bits a.param.toNat 3 0
  match oneAlg a.imm.toNat with
  | none => .hard s c 0x1003
  | some alg =>
    if alg < 1 ∨ alg > 10 ∨ !(usagesOf alg).contains usage ∨ (alg > 6 ∧ !generateUsage alg usage) then .hard s c 0x1003
    else if alg > 6 then parkJob s c { op := 9, size := 0, pss := false, alg := alg, key := [], operand := [], record := [] }
    else withRandom s c (matLen alg) (fun s1 m =>
      let k := generatedKey alg usage m
      let r := placeNew (s1.drawn 32) c (generatedAsk s1 a.kreg.toNat k) k
      .flags r.1 r.2.1 0)

/-- A store or delete that reaches the journal while commits are held gives BUSY_RETRY (R141); in LONE under REFUSE a
commit gives MIRROR_UNAVAILABLE (R288). -/
def commitHold (s : State) : Option Nat :=
  if s.ks.hold ∨ s.sag.warning then some 0x5001
  else if s.lk.pstate = 4 ∧ s.lk.lossAction then some 0x8002 else none

/-- The attribute record of R130 fits its key. -/
def attrOk (k : KeyInfo) (attr : Bytes) : Bool :=
  attr.length == 32 && decide (byteAt attr 0 < 4) && allZero (sl attr 1 3) && allZero (sl attr 22 2) &&
    allZero (sl attr 28 4) && !isRsa k.alg && (usagesOf k.alg).contains k.usage &&
    (!bit (byteAt attr 0) 0 || k.exportable)

/-- A STORE: its checks, then the request at the journal. -/
def storeKey (s0 : State) (c : Cmd) (k : KReg) (attr : Bytes) : Except Nat (State × Cmd) :=
  let s := countPolicy s0
  if !attrOk k.key attr then .error 0x2001
  else if !policyOk s c (fieldLe attr 4 8) k.key.usage k.key.alg roleStore then .error 0x2001
  else match commitHold s with
    | some st => .error st
    | none => .ok (s.enqueue (.store c.part attr k.key (k.source == 6)) (some c.place), { c with stored := true })

def keyStoreOp (s : State) (c : Cmd) (a : StepArgs) : StepOut :=
  match stepLen c a with
  | none => .fault 1 0
  | some l =>
    if c.stored ∨ !(c.dir.map (fun d => d.commits)).getD false then .fault 5 0
    else match rangeFault false [(a.aOff.toNat, l)] (a.dOff.toNat, 4) with
      | some k => .fault k 0
      | none =>
        soundKey s c (c.key a.kreg.toNat) (fun k =>
          match storeKey s c k (c.rd a.aOff.toNat l) with
          | .error st => .hard s c st
          | .ok (s1, c1) => .park s1 c1 .waitCommit)

def keyReleaseOp (s : State) (c : Cmd) (a : StepArgs) : StepOut :=
  let r := emptyReg s c a.kreg.toNat
  .flags r.1 r.2 0

def execKeyGet (n k : Nat) (a : StepArgs) (s : State) : Outcome := .next (s.step1 n k a keyGetOp)
def execKeyUnwrap (n k : Nat) (a : StepArgs) (s : State) : Outcome := .next (s.step1 n k a keyUnwrapOp)
def execKeyWrap (n k : Nat) (a : StepArgs) (s : State) : Outcome := .next (s.step1 n k a keyWrapOp)
def execKeyDerive (n k : Nat) (a : StepArgs) (s : State) : Outcome := .next (s.step1 n k a keyDeriveOp)
def execKeyDukpt (n k : Nat) (a : StepArgs) (s : State) : Outcome := .next (s.step1 n k a keyDukptOp)
def execKeyGenerate (n k : Nat) (a : StepArgs) (s : State) : Outcome := .next (s.step1 n k a keyGenerateOp)
def execKeyStore (n k : Nat) (a : StepArgs) (s : State) : Outcome := .next (s.step1 n k a keyStoreOp)
def execKeyRelease (n k : Nat) (a : StepArgs) (s : State) : Outcome := .next (s.step1 n k a keyReleaseOp)

/-! ## The sweeper (R158, R159) -/

/-- PERIOD in ms: values below 1 act as 1, above 60,000 as 60,000. -/
def sweepPeriod (s : State) : Nat := max 1 (min 60000 s.kc.period)

/-- KC_SWEEP_PASS_START: a standby does not sweep (R161); a pass still running is not started again. -/
def sweepStart (s : State) : State :=
  if s.kc.sweeping ∨ !s.active ∨ s.kc.salt = none then s
  else { s with kc := { s.kc with sweeping := true, bucket := 0 } }

def execKcSweepPassStart (s : State) : Outcome := .next (sweepStart s)

/-- A head way of the bucket that the visit removes: unpinned, and not used since the visit before last or expired. -/
def sweepGone (s : State) (w : Way) : Bool :=
  w.pins == 0 && ((!w.hit && w.seen) || (s.trusted && w.key.notAfter != 0 && s.beyond w.key.notAfter))

/-- The visit to a head way that stays. -/
def sweepKeep (w : Way) : Way :=
  let w1 := if w.hit then { w with hit := false, seen := false } else if w.pins > 0 then w else { w with seen := true }
  { w1 with age := min 255 (w.age + 1) }

/-- KC_SWEEP_VISIT: the visit to one bucket of all four banks (R158). -/
def sweepVisit (s : State) : State :=
  if !s.kc.sweeping ∨ !s.active then s
  else
    let here := fun (w : Way) => w.bucket == s.kc.bucket && w.valid && !w.cont && !w.filling
    let bad := s.eccHeads (fun w => here w && !w.invalidated)
    let s1 := bad.foldl (fun t w => t.eccDrop w 0xFFFFFFFF) s
    let gone := s1.kc.ways.filter (fun w => here w && sweepGone s1 w)
    let s2 := gone.foldl (fun t w => (t.dropKey w).mirrorRemovals [w]) s1
    let s3 := s2.modWays here sweepKeep
    let next := s.kc.bucket + 1
    { s3 with kc := { (s3.kc.bump 0 0 0 gone.length 0 0) with bucket := next % 16384, sweeping := decide (next < 16384) } }

def execKcSweepVisit (s : State) : Outcome := .next (sweepVisit s)

end Sys2Proof.Machine
end

