-- ==== Sys2Proof/Machine/Sym.lean ====
section
/-! DEFINITION. SYM steps (R99, R195, R197, Table 04.8), FMT steps and RAND.GEN (R101, Table 04.10). -/

namespace Sys2Proof.Machine

open Sys2Proof

/-! ## A symmetric core (R99, R382) -/

/-- A SYM step on a granted core; with none free it waits its turn (R99). -/
def withCore (s : State) (c : Cmd) (f : Unit → StepOut) : StepOut :=
  match symAvail s c with
  | .granted => f ()
  | .offline => .hard s c 0x7003
  | .busy => .wait s c .waitCore

def symAlgs : List Nat := [1, 2, 3, 4, 5]

/-- A whole number of blocks, or ALIGN (R96, R106). -/
def blockFault (alg l : Nat) : Bool := l % blockLen alg != 0

/-- A block-mode step on the key register, with an initial value from B or none. -/
def symBlocks (usages : List Nat) (iv : Bool) (whole : Bool) (g : KeyInfo → Bytes → Bytes → Bytes) (s : State) (c : Cmd)
    (a : StepArgs) : StepOut :=
  match stepLen c a with
  | none => .fault 1 0
  | some l =>
    let u := ((c.key a.kreg.toNat).map (fun k => k.key.usage)).getD 0
    if !usages.contains u then .hard s c 0x2002
    else withKey s c a.kreg.toNat u symAlgs (fun k =>
      let ao := a.aOff.toNat
      let bo := a.bOff.toNat
      let w := blockLen k.key.alg
      match rangeFault true ((ao, l) :: (if iv then [(bo, w)] else [])) (a.dOff.toNat, l) with
      | some f => .fault f 0
      | none =>
        if whole && blockFault k.key.alg l then .fault 3 0
        else withCore s c (fun _ => .flags s (c.wr a.dOff.toNat (g k.key (c.rd bo w) (c.rd ao l))) 0))

def symEcbEncOp := symBlocks [1] false true (fun k _ m => ecbEnc k.alg k.mat m)
def symEcbDecOp := symBlocks [2] false true (fun k _ m => ecbDec k.alg k.mat m)
def symCbcEncOp := symBlocks [1] true true (fun k iv m => cbcEnc k.alg k.mat iv m)
def symCbcDecOp := symBlocks [2] true true (fun k iv m => cbcDec k.alg k.mat iv m)
def symCtrOp := symBlocks [1, 2] true false (fun k iv m => ctrCrypt k.alg k.mat iv m)
def symCodeEcbOp := symBlocks [9] false true (fun k _ m => ecbEnc k.alg k.mat m)

/-- CODE_CBC: CBC, or the ISO 9797-1 algorithm 3 output over LEN bytes with a zero initial value (R195). -/
def symCodeCbcOp (s : State) (c : Cmd) (a : StepArgs) : StepOut :=
  let m := bits a.param.toNat 1 0
  if m = 0 then symBlocks [9] true true (fun k iv x => cbcEnc k.alg k.mat iv x) s c a
  else if m ≠ 1 then .fault 1 0
  else match stepLen c a with
    | none => .fault 1 0
    | some l =>
      withKey s c a.kreg.toNat 9 [4] (fun k =>
        match rangeFault true [(a.aOff.toNat, l)] (a.dOff.toNat, 8) with
        | some f => .fault f 0
        | none =>
          if blockFault 4 l then .fault 3 0
          else withCore s c (fun _ => .flags s (c.wr a.dOff.toNat (macAlg3 k.key.mat (c.rd a.aOff.toNat l))) 0))

/-- The EMV function of MAC_GEN method 2 (R197): output, with its length. -/
def emvFunction (k : KeyInfo) (fn : Nat) (pad2 : Bool) (ctx msg : Bytes) : Bytes :=
  let sk := Config.emvSession k.alg k.mat ctx
  if fn = 0 then
    if isAes k.alg then sl (macCmac k.alg sk msg) 0 8
    else macAlg3 sk (padMsg (1 + b2n pad2) 8 msg)
  else if fn = 1 then sl (Config.emvArpc k.alg 1 sk msg) 0 8
  else sl (Config.emvArpc k.alg 2 sk msg) 0 4

/-- LEN of an EMV function: 10 bytes for ARPC method 1, 12 to 20 for method 2. -/
def emvLenOk (fn l : Nat) : Bool := fn == 0 || (fn == 1 && l == 10) || (fn == 2 && decide (12 ≤ l ∧ l ≤ 20))

def macEmv (s : State) (c : Cmd) (a : StepArgs) (l : Nat) : StepOut :=
  let fn := bits a.param.toNat 3 2
  if fn = 3 then .fault 1 0
  else if !emvLenOk fn l then .fault 2 0
  else
    withKey s c a.kreg.toNat 5 [1, 2, 3, 4] (fun k =>
      match rangeFault true [(a.aOff.toNat, l), (a.bOff.toNat, 16)] (a.dOff.toNat, if fn = 2 then 4 else 8) with
      | some f => .fault f 0
      | none => withCore s c (fun _ =>
          .flags s (c.wr a.dOff.toNat
            (emvFunction k.key fn (bit a.param.toNat 4) (c.rd a.bOff.toNat 16) (c.rd a.aOff.toNat l))) 0))

/-- Algorithms of MAC methods 0 and 1. -/
def macAlgs (m : Nat) : List Nat := if m = 0 then symAlgs else [4]

def macOf (m : Nat) (k : KeyInfo) (msg : Bytes) : Bytes := if m = 0 then macCmac k.alg k.mat msg else macAlg3 k.mat msg

/-- MAC_GEN and MAC_VERIFY of methods 0 and 1: IMM[4:0] bytes of MAC, 4 to the full MAC. -/
def macStep (usage : Nat) (verify : Bool) (s : State) (c : Cmd) (a : StepArgs) (l : Nat) : StepOut :=
  let m := bits a.param.toNat 1 0
  let n := bits a.imm.toNat 4 0
  withKey s c a.kreg.toNat usage (macAlgs m) (fun k =>
    let full := if m = 0 then blockLen k.key.alg else 8
    if n < 4 ∨ n > full then .fault 2 0
    else match rangeFault true ((a.aOff.toNat, l) :: (if verify then [(a.bOff.toNat, n)] else []))
        (a.dOff.toNat, if verify then 0 else n) with
      | some f => .fault f 0
      | none =>
        if m = 1 ∧ blockFault 4 l then .fault 3 0
        else withCore s c (fun _ =>
          let mac := sl (macOf m k.key (c.rd a.aOff.toNat l)) 0 n
          if verify then .flags s c (uflags (mac != c.rd a.bOff.toNat n) false false)
          else .flags s (c.wr a.dOff.toNat mac) 0))

def symMacGenOp (s : State) (c : Cmd) (a : StepArgs) : StepOut :=
  match stepLen c a with
  | none => .fault 1 0
  | some l =>
    let m := bits a.param.toNat 1 0
    if m = 3 then .fault 1 0 else if m = 2 then macEmv s c a l else macStep 5 false s c a l

def symMacVerifyOp (s : State) (c : Cmd) (a : StepArgs) : StepOut :=
  match stepLen c a with
  | none => .fault 1 0
  | some l => if bits a.param.toNat 1 0 > 1 then .fault 1 0 else macStep 6 true s c a l

/-- HMAC writes the 64-byte MAC to D. HMAC_VERIFY compares IMM[6:0] bytes at B, 16 to 64 (notes/assumptions/19.md). -/
def symHmacOp (s : State) (c : Cmd) (a : StepArgs) : StepOut :=
  match stepLen c a with
  | none => .fault 1 0
  | some l =>
    withKey s c a.kreg.toNat 5 [6] (fun k =>
      match rangeFault true [(a.aOff.toNat, l)] (a.dOff.toNat, 64) with
      | some f => .fault f 0
      | none => withCore s c (fun _ => .flags s (c.wr a.dOff.toNat (macHmac k.key.mat (c.rd a.aOff.toNat l))) 0))

def symHmacVerifyOp (s : State) (c : Cmd) (a : StepArgs) : StepOut :=
  let n := bits a.imm.toNat 6 0
  match stepLen c a with
  | none => .fault 1 0
  | some l =>
    if n < 16 ∨ n > 64 then .fault 2 0
    else withKey s c a.kreg.toNat 6 [6] (fun k =>
      match rangeFault true [(a.aOff.toNat, l), (a.bOff.toNat, n)] (0x100, 0) with
      | some f => .fault f 0
      | none => withCore s c (fun _ =>
          .flags s c (uflags (sl (macHmac k.key.mat (c.rd a.aOff.toNat l)) 0 n != c.rd a.bOff.toNat n) false false)))

/-- The digests of HASH (R254): 1 SHA-256, 2 SHA-384, 3 SHA-512. -/
def digestOf (h : Nat) (m : Bytes) : Bytes :=
  if h = 1 then sl (Config.sha256 m) 0 32 else if h = 2 then sl (Config.sha384 m) 0 48 else sl (Config.sha512 m) 0 64

def hashStep (h n : Nat) (s : State) (c : Cmd) (a : StepArgs) : StepOut :=
  match stepLen c a with
  | none => .fault 1 0
  | some l =>
    match rangeFault true [(a.aOff.toNat, l)] (a.dOff.toNat, n) with
    | some f => .fault f 0
    | none => withCore s c (fun _ => .flags s (c.wr a.dOff.toNat (digestOf h (c.rd a.aOff.toNat l))) 0)

def symSha256Op (s : State) (c : Cmd) (a : StepArgs) : StepOut := hashStep 1 32 s c a
def symSha512Op (s : State) (c : Cmd) (a : StepArgs) : StepOut :=
  if bit a.param.toNat 0 then hashStep 2 48 s c a else hashStep 3 64 s c a

def execSymEcbEnc (n k : Nat) (a : StepArgs) (s : State) : Outcome := .next (s.step1 n k a symEcbEncOp)
def execSymEcbDec (n k : Nat) (a : StepArgs) (s : State) : Outcome := .next (s.step1 n k a symEcbDecOp)
def execSymCbcEnc (n k : Nat) (a : StepArgs) (s : State) : Outcome := .next (s.step1 n k a symCbcEncOp)
def execSymCbcDec (n k : Nat) (a : StepArgs) (s : State) : Outcome := .next (s.step1 n k a symCbcDecOp)
def execSymCtr (n k : Nat) (a : StepArgs) (s : State) : Outcome := .next (s.step1 n k a symCtrOp)
def execSymCodeEcb (n k : Nat) (a : StepArgs) (s : State) : Outcome := .next (s.step1 n k a symCodeEcbOp)
def execSymCodeCbc (n k : Nat) (a : StepArgs) (s : State) : Outcome := .next (s.step1 n k a symCodeCbcOp)
def execSymMacGen (n k : Nat) (a : StepArgs) (s : State) : Outcome := .next (s.step1 n k a symMacGenOp)
def execSymMacVerify (n k : Nat) (a : StepArgs) (s : State) : Outcome := .next (s.step1 n k a symMacVerifyOp)
def execSymHmac (n k : Nat) (a : StepArgs) (s : State) : Outcome := .next (s.step1 n k a symHmacOp)
def execSymHmacVerify (n k : Nat) (a : StepArgs) (s : State) : Outcome := .next (s.step1 n k a symHmacVerifyOp)
def execSymSha256 (n k : Nat) (a : StepArgs) (s : State) : Outcome := .next (s.step1 n k a symSha256Op)
def execSymSha512 (n k : Nat) (a : StepArgs) (s : State) : Outcome := .next (s.step1 n k a symSha512Op)

/-! ## FMT (Table 04.10, R190, R191) -/

/-- The digits of a PAN string of 12 to 19 decimal digits (R187 without its padding check). -/
def panDigits (b : Bytes) : Option (List Nat) :=
  let n := byteAt b 0
  let ds := (nibbles (sl b 1 10)).take n
  if 12 ≤ n ∧ n ≤ 19 ∧ ds.all (fun d => decide (d ≤ 9)) then some ds else none

/-- The PAN field of a format (ISO 9564-1): the 12 rightmost digits without the check digit, or for format 4 the
length less 12, the digits and zeros. -/
def panField (fmt : Nat) (ds : List Nat) : Bytes :=
  if fmt = 4 then sl (packNibbles ((ds.length - 12) :: ds ++ List.replicate (31 - ds.length) 0)) 0 16
  else
    let p := (ds.take (ds.length - 1)).drop (ds.length - 1 - 12)
    sl (packNibbles (List.replicate (16 - p.length) 0 ++ p)) 0 8

/-- A destination whose content the manual leaves open when a check fails: free bytes (notes/assumptions/4.md). -/
def freeDst (s : State) (c : Cmd) (d n : Nat) (u : BitVec 4) : StepOut := .flags (s.drawn n) (c.wr d (s.draws n)) u

def fmtPanFieldOp (s : State) (c : Cmd) (a : StepArgs) : StepOut :=
  let f := bits a.param.toNat 2 0
  let n := if f = 4 then 16 else 8
  if f ≠ 0 ∧ f ≠ 3 ∧ f ≠ 4 then .fault 1 0
  else match rangeFault false [(a.aOff.toNat, 11)] (a.dOff.toNat, n) with
    | some k => .fault k 0
    | none =>
      match panDigits (c.rd a.aOff.toNat 11) with
      | none => freeDst s c a.dOff.toNat n (uflags true false false)
      | some ds => .flags s (c.wr a.dOff.toNat (panField f ds)) 0

/-- The PIN of a PIN field, checked as ISO 9564-1 checks its format (R191). -/
def pinOfField (fmt : Nat) (b : Bytes) : Option (List Nat) :=
  let nb := nibbles (sl b 0 8)
  let len := (nb[1]?).getD 0
  let pin := (nb.drop 2).take len
  let fill := nb.drop (2 + len)
  let fillOk := if fmt = 0 then fill.all (fun x => x == 15) else if fmt = 3 then fill.all (fun x => decide (10 ≤ x))
    else if fmt = 4 then fill.all (fun x => x == 10) else true
  if (nb[0]?).getD 16 = fmt ∧ 4 ≤ len ∧ len ≤ 12 ∧ pin.all (fun x => decide (x ≤ 9)) ∧ fillOk then some pin else none

/-- A PIN record: length, digits padded with 0xF, a zero byte. -/
def pinRecord (pin : List Nat) : Bytes :=
  byte pin.length :: sl (packNibbles (pin ++ List.replicate (12 - pin.length) 15)) 0 6 ++ [0#8]

def pinFormats : List Nat := [0, 1, 3, 4]

/-- PIN_DECODE. Formats 0, 3 and 4 use a PAN field; that of format 4 does not enter the plaintext PIN field
(notes/assumptions/20.md). -/
def fmtPinDecodeOp (s : State) (c : Cmd) (a : StepArgs) : StepOut :=
  let f := bits a.param.toNat 2 0
  let n := if f = 4 then 16 else 8
  if !pinFormats.contains f then .fault 1 0
  else match rangeFault false ((a.aOff.toNat, n) :: (if f = 1 then [] else [(a.bOff.toNat, n)]))
      (a.dOff.toNat, 8) with
    | some k => .fault k 0
    | none =>
      let b := c.rd a.aOff.toNat n
      let x := if f = 0 ∨ f = 3 then xorBytes b (c.rd a.bOff.toNat 8) else b
      match pinOfField f x with
      | none => freeDst s c a.dOff.toNat 8 (uflags true false false)
      | some pin => .flags s (c.wr a.dOff.toNat (pinRecord pin)) 0

/-- The PIN of a record. -/
def recordPin (r : Bytes) : List Nat := (nibbles (sl r 1 6)).take (byteAt r 0)

/-- The PIN field of a format from a PIN and eight bytes of fill; format 3 takes each fill nibble x as 0xA + (x mod 6)
(notes/assumptions/20.md). -/
def pinField (fmt : Nat) (pin : List Nat) (fill : Bytes) : Bytes :=
  let head := fmt :: pin.length :: pin
  let fb := (nibbles (sl fill 0 8)).drop head.length
  let tail := if fmt = 0 then List.replicate (16 - head.length) 15
    else if fmt = 1 then fb else if fmt = 3 then fb.map (fun x => 10 + x % 6) else List.replicate (16 - head.length) 10
  let p := sl (packNibbles (head ++ tail)) 0 8
  if fmt = 4 then p ++ sl fill 0 8 else p

/-- A record outside its form has no flag; it faults as a reserved encoding (notes/assumptions/20.md). -/
def fmtPinEncodeOp (s : State) (c : Cmd) (a : StepArgs) : StepOut :=
  let f := bits a.param.toNat 2 0
  let n := if f = 4 then 16 else 8
  if !pinFormats.contains f then .fault 1 0
  else match rangeFault false ((a.aOff.toNat, 8) :: (if f = 0 then [] else [(a.bOff.toNat, 8)])) (a.dOff.toNat, n) with
    | some k => .fault k 0
    | none =>
      let r := c.rd a.aOff.toNat 8
      let pin := recordPin r
      if byteAt r 0 < 4 ∨ byteAt r 0 > 12 ∨ pin.any (fun x => decide (x > 9)) then .fault 1 0
      else .flags s (c.wr a.dOff.toNat (pinField f pin (c.rd a.bOff.toNat 8))) 0

/-- LEN bytes of nibbles through the 16-digit table. -/
def decimalise (tab : Bytes) (m : Bytes) : Bytes :=
  let t := nibbles (sl tab 0 8)
  packNibbles ((nibbles m).map (fun x => (t[x]?).getD 0))

def fmtDecimaliseOp (s : State) (c : Cmd) (a : StepArgs) : StepOut :=
  match stepLen c a with
  | none => .fault 1 0
  | some l =>
    match rangeFault false [(a.aOff.toNat, l), (a.bOff.toNat, 8)] (a.dOff.toNat, l) with
    | some k => .fault k 0
    | none => .flags s (c.wr a.dOff.toNat (decimalise (c.rd a.bOff.toNat 8) (c.rd a.aOff.toNat l))) 0

/-- ASCII digits packed, an odd count followed by 0xF. -/
def bcdPack (m : Bytes) : Option Bytes :=
  (allSome decVal m).map (fun ds => packNibbles (if ds.length % 2 = 1 then ds ++ [15] else ds))

/-- Packed digits as ASCII; a final 0xF nibble is padding. -/
def bcdUnpack (m : Bytes) : Option Bytes :=
  let nb := nibbles m
  let ds := if nb.getLast? = some 15 then nb.dropLast else nb
  if ds.all (fun x => decide (x ≤ 9)) then some (ds.map (fun x => byte (0x30 + x))) else none

/-- A BCD step: `n` bytes of destination; with a non-digit the destination is left open (notes/assumptions/20.md). -/
def bcdStep (g : Bytes → Option Bytes) (dlen : Nat → Nat) (s : State) (c : Cmd) (a : StepArgs) : StepOut :=
  match stepLen c a with
  | none => .fault 1 0
  | some l =>
    match rangeFault false [(a.aOff.toNat, l)] (a.dOff.toNat, dlen l) with
    | some k => .fault k 0
    | none =>
      match g (c.rd a.aOff.toNat l) with
      | none => freeDst s c a.dOff.toNat (dlen l) (uflags true false false)
      | some b => .flags s (c.wr a.dOff.toNat b) 0

def fmtBcdPackOp := bcdStep bcdPack (fun l => (l + 1) / 2)
def fmtBcdUnpackOp := bcdStep bcdUnpack (fun l => 2 * l)

def fmtPadOp (s : State) (c : Cmd) (a : StepArgs) : StepOut :=
  let m := bits a.param.toNat 1 0
  match stepLen c a with
  | none => .fault 1 0
  | some l =>
    if m ≠ 1 ∧ m ≠ 2 then .fault 1 0
    else
      let b := padMsg m (if bit a.param.toNat 4 then 8 else 16) (c.rd a.aOff.toNat l)
      match rangeFault false [(a.aOff.toNat, l)] (a.dOff.toNat, b.length) with
      | some k => .fault k 0
      | none => .flags s (c.wr a.dOff.toNat b) 0

/-- The later bytes of a tag: all up to the first with bit 8 clear; none when the data end first. -/
def tagTail : Bytes → Option Bytes
  | [] => none
  | y :: r => if y.toNat < 128 then some [y] else (tagTail r).map (fun l => y :: l)

/-- The tag of a BER-TLV object at an offset: its bytes, read as one big-endian number, and how many they are; none when
malformed. -/
def tlvTag (b : Bytes) (p : Nat) : Option (Nat × Nat) :=
  match b.drop p with
  | [] => none
  | x :: r =>
    if x.toNat % 32 = 31 then (tagTail r).map (fun l => (beNat (x :: l), 1 + l.length)) else some (x.toNat, 1)

/-- The length field: length and its bytes. The long form has one or two bytes, which reach every length a shed holds; the
indefinite form and longer ones count as malformed (notes/assumptions/20.md). -/
def tlvLen (b : Bytes) (p : Nat) : Option (Nat × Nat) :=
  match b[p]? with
  | none => none
  | some x =>
    let n := x.toNat
    if n < 128 then some (n, 1)
    else
      let k := n - 128
      if k < 1 ∨ k > 2 ∨ p + 1 + k > b.length then none else some (beNat (sl b (p + 1) k), 1 + k)

inductive Tlv where
  | found (off len : Nat)
  | absent
  | malformed
deriving DecidableEq, Repr

/-- Top-level objects from `p`; the offset found is that of the value, from the start of the data. -/
def tlvFind (b : Bytes) (tag : Nat) : Nat → Nat → Tlv
  | 0, _ => .absent
  | k + 1, p =>
    if p ≥ b.length then .absent
    else match tlvTag b p with
      | none => .malformed
      | some (t, tn) =>
        match tlvLen b (p + tn) with
        | none => .malformed
        | some (l, ln) =>
          if p + tn + ln + l > b.length then .malformed
          else if t = tag then .found (p + tn + ln) l
          else tlvFind b tag k (p + tn + ln + l)

def fmtTlvFindOp (s : State) (c : Cmd) (a : StepArgs) : StepOut :=
  match stepLen c a with
  | none => .fault 1 0
  | some l =>
    match rangeFault false [(a.aOff.toNat, l)] (0x100, 0) with
    | some k => .fault k 0
    | none =>
      match tlvFind (c.rd a.aOff.toNat l) (a.imm.toNat % 65536) (l + 1) 0 with
      | .found o n => .flags s ((c.setV 0 o).setV 1 n) 0
      | .absent => .flags (s.drawn 8) ((c.setV 0 (leNat (s.draws 4))).setV 1 (leNat (sl (s.draws 8) 4 4))) (uflags true false false)
      | .malformed =>
        .flags (s.drawn 8) ((c.setV 0 (leNat (s.draws 4))).setV 1 (leNat (sl (s.draws 8) 4 4))) (uflags false true false)

def randGenOp (s : State) (c : Cmd) (a : StepArgs) : StepOut :=
  match stepLen c a with
  | none => .fault 1 0
  | some l =>
    if l < 1 ∨ l > 256 then .fault 2 0
    else match rangeFault true [] (a.dOff.toNat, l) with
      | some k => .fault k 0
      | none => withRandom s c l (fun s1 b => .flags s1 (c.wr a.dOff.toNat b) 0)

def execFmtPanField (n k : Nat) (a : StepArgs) (s : State) : Outcome := .next (s.step1 n k a fmtPanFieldOp)
def execFmtPinDecode (n k : Nat) (a : StepArgs) (s : State) : Outcome := .next (s.step1 n k a fmtPinDecodeOp)
def execFmtPinEncode (n k : Nat) (a : StepArgs) (s : State) : Outcome := .next (s.step1 n k a fmtPinEncodeOp)
def execFmtDecimalise (n k : Nat) (a : StepArgs) (s : State) : Outcome := .next (s.step1 n k a fmtDecimaliseOp)
def execFmtBcdPack (n k : Nat) (a : StepArgs) (s : State) : Outcome := .next (s.step1 n k a fmtBcdPackOp)
def execFmtBcdUnpack (n k : Nat) (a : StepArgs) (s : State) : Outcome := .next (s.step1 n k a fmtBcdUnpackOp)
def execFmtPad (n k : Nat) (a : StepArgs) (s : State) : Outcome := .next (s.step1 n k a fmtPadOp)
def execFmtTlvFind (n k : Nat) (a : StepArgs) (s : State) : Outcome := .next (s.step1 n k a fmtTlvFindOp)
def execRandGen (n k : Nat) (a : StepArgs) (s : State) : Outcome := .next (s.step1 n k a randGenOp)

end Sys2Proof.Machine
end

