-- ==== Sys2Proof/Machine/Drafts.lean ====
section
/-! DEFINITION. Customer drafts (R109-R113): the image and its checks, loading and unloading, the signing keys, the
mirrored form of a directory change, and the run of a loaded draft step by step. -/

namespace Sys2Proof.Machine

open Sys2Proof

/-! ## Steps as stored (Table 04.3) -/

/-- OP of a step. -/
def stepOp (w : Nat) : Nat := bits w 11 4

/-- The other fields of a step's 128 bits. -/
def stepArgs (w : Nat) : StepArgs :=
  { br := BitVec.ofNat 3 (bits w 14 12), bflag := BitVec.ofNat 4 (bits w 19 16), target := BitVec.ofNat 9 (bits w 28 20),
    fsel := BitVec.ofNat 2 (bits w 30 29), aOff := BitVec.ofNat 12 (bits w 43 32), bOff := BitVec.ofNat 12 (bits w 55 44),
    dOff := BitVec.ofNat 12 (bits w 67 56), len := BitVec.ofNat 12 (bits w 79 68), kreg := BitVec.ofNat 4 (bits w 83 80),
    param := BitVec.ofNat 12 (bits w 95 84), imm := BitVec.ofNat 32 (bits w 127 96), rsv := bit w 15 || bit w 31 }

/-- A step operation. -/
abbrev StepFn := State → Cmd → StepArgs → StepOut

/-- Operation `op`, from 1 on, of a unit's list. -/
def nthOp (l : List StepFn) (op : Nat) : Option StepFn := if op = 0 then none else l[op - 1]?

/-- The defined operations (Tables 04.4, 04.6 to 04.11, 09.3). -/
def unitOp (unit op : Nat) : Option StepFn :=
  if unit = 0 then nthOp [moveCopyOp, moveXorOp, moveAndOp, moveFillOp, moveLoadvOp, moveGetvOp, movePutvOp, moveAddvOp,
    moveSetfOp] op
  else if unit = 1 then nthOp [symEcbEncOp, symEcbDecOp, symCbcEncOp, symCbcDecOp, symCtrOp, symCodeEcbOp, symCodeCbcOp,
    symMacGenOp, symMacVerifyOp, symHmacOp, symHmacVerifyOp, symSha256Op, symSha512Op] op
  else if unit = 2 then nthOp [bnEdSignOp, bnEdVerifyOp, bnX25519Op, bnEcSignOp, bnEcVerifyOp, bnRsaSignOp, bnRsaVerifyOp,
    bnPublicOp, bnGenerateOp] op
  else if unit = 3 then nthOp [keyGetOp, keyUnwrapOp, keyWrapOp, keyDeriveOp, keyDukptOp, keyGenerateOp, keyStoreOp,
    keyReleaseOp] op
  else if unit = 4 then nthOp [routePanLookupOp, routePolicyLookupOp] op
  else if unit = 5 then nthOp [fmtPanFieldOp, fmtPinDecodeOp, fmtPinEncodeOp, fmtDecimaliseOp, fmtBcdPackOp, fmtBcdUnpackOp,
    fmtPadOp, fmtTlvFindOp] op
  else if unit = 6 then nthOp [cmpEqCtOp, cmpMagOp, cmpTestvOp, cmpCmpvOp, cmpRangevOp] op
  else if unit = 7 then nthOp [randGenOp] op
  else if unit = 0xE then nthOp [excServiceOp] op
  else if unit = 0xF then nthOp [doneRetireOp] op
  else none

/-! ## Literal ranges (check 10 of Table 04.14) -/

/-- Algorithms that the steps of a draft may place in key register `r`: those their masks accept (R100), the one a GENERATE
names (Table 09.3), any for an agreed key. -/
def fillAlgs (ws : List Nat) (r : Nat) : List Nat :=
  ws.flatMap (fun w =>
    let a := stepArgs w
    let o := stepOp w
    if stepUnit w = 3 ∧ [1, 2, 4, 5, 6].contains o ∧ a.kreg.toNat = r then (List.range 14).filter (fun i => bit a.imm.toNat i)
    else if stepUnit w = 2 ∧ o = 9 ∧ a.kreg.toNat = r then [a.imm.toNat]
    else if stepUnit w = 2 ∧ o = 3 ∧ bits a.param.toNat 7 4 = r then List.range 14
    else [])

/-- The least length that the algorithms in `algs` give a range whose length follows from the key in register `r`. -/
def leastLen (ws : List Nat) (r : Nat) (algs : List Nat) (f : Nat → Nat) : Nat :=
  let l := (fillAlgs ws r).filter (fun x => algs.contains x)
  (((if l = [] then algs else l).map f).min?).getD 0

/-- What a step of the draft `ws` reads: each range a literal offset and the length the draft gives it. -/
def readRanges (ws : List Nat) (unit op : Nat) (a : StepArgs) (l : Nat) : List (Nat × Nat) :=
  let x := a.aOff.toNat
  let y := a.bOff.toNat
  let p := a.param.toNat
  if unit = 0 then
    (if op = 1 ∨ op = 6 then [(x, l)] else if op = 2 ∨ op = 3 then [(x, l), (y, l)] else [])
  else if unit = 1 then
    (x, l) :: (if op = 3 ∨ op = 4 ∨ op = 5 ∨ (op = 7 ∧ p % 4 = 0) then [(y, leastLen ws a.kreg.toNat symAlgs blockLen)]
      else if op = 8 ∧ p % 4 = 2 then [(y, 16)]
      else if op = 9 then [(y, bits a.imm.toNat 4 0)] else if op = 11 then [(y, bits a.imm.toNat 6 0)] else [])
  else if unit = 2 then
    (if op = 3 then [(x, 32), (y, 32)] else if op = 9 then (if isRsa a.imm.toNat then [(y, 21)] else [])
     else if op = 8 then []
     else (x, l) :: (if !bit p 8 then [] else if op = 2 then [(y, 32)] else if op = 5 then [(y, if p % 4 = 1 then 49 else 33)]
       else if op = 7 then [(y, 4 + sigBytes (p % 4))] else []))
  else if unit = 3 then (if op = 2 ∨ op = 4 ∨ op = 5 ∨ op = 7 then [(x, l)] else [])
  else if unit = 4 then [(x, if op = 1 then 11 else 8)]
  else if unit = 5 then
    (if op = 1 then [(x, 11)] else if op = 2 then [(x, if p % 8 = 4 then 16 else 8), (y, if p % 8 = 4 then 16 else if p % 8 = 0 ∨ p % 8 = 3 then 8 else 0)]
     else if op = 3 then [(x, 8), (y, if p % 8 = 0 then 0 else 8)] else if op = 4 then [(x, l), (y, 8)] else [(x, l)])
  else if unit = 6 then (if op ≤ 2 then [(x, l), (y, l)] else [])
  else if unit = 0xF then [(x, l)]
  else []

/-- What a step of the draft `ws` writes, as far as the draft tells; of an RSA key block its 16-byte header. -/
def writeRange (ws : List Nat) (unit op : Nat) (a : StepArgs) (l : Nat) : Nat × Nat :=
  let p := a.param.toNat
  let blk := if bit p 4 then 8 else 16
  let n :=
    if unit = 0 then (if op ≤ 4 ∨ op = 7 then l else 0)
    else if unit = 1 then
      (if op ≤ 6 then l else if op = 7 then (if p % 4 = 1 then 8 else l) else if op = 8 then (if p % 4 = 2 then 4 else bits a.imm.toNat 4 0)
       else if op = 10 then 64 else if op = 12 then 32 else if op = 13 then (if bit p 0 then 48 else 64) else 0)
    else if unit = 2 then
      (if op = 1 then 64 else if op = 4 then (if p % 4 = 1 then 96 else 64) else if op = 6 then sigBytes (p % 4)
       else if op = 8 then leastLen ws a.kreg.toNat [7, 8, 9, 10, 11, 12, 13] publicLen
       else if op = 9 ∧ isRsa a.imm.toNat then 16 else 0)
    else if unit = 3 then (if op = 3 then l else if op = 7 then 4 else 0)
    else if unit = 4 then 16
    else if unit = 5 then
      (if op = 1 ∨ op = 3 then (if p % 8 = 4 then 16 else 8) else if op = 2 then 8 else if op = 4 then l
       else if op = 5 then (l + 1) / 2 else if op = 6 then 2 * l
       else if op = 7 then (padMsg (p % 4) blk (zeros l)).length else 0)
    else if unit = 7 then l
    else 0
  (a.dOff.toNat, n)

/-- Every literal range within the shed, the destination writable, a literal LEN at most 3,072. -/
def literalsOk (ws : List Nat) (unit op : Nat) (a : StepArgs) : Bool :=
  let l := a.len.toNat
  let lit := if l ≤ 3072 then l else 0
  let w := writeRange ws unit op a lit
  (decide (l ≤ 3072) || decide (l ≥ 0xFF8)) && (readRanges ws unit op a lit).all (fun r => srcOk r.1 r.2) && dstOk w.1 w.2

/-! ## The image (Table 04.13) and its checks (Table 04.14) -/

def imgSteps (img : Bytes) : Nat := fieldLe img 12 2
def imgWord (img : Bytes) (i : Nat) : Nat := fieldLe img (64 + 16 * i) 16
def imgWords (img : Bytes) : List Nat := (List.range (imgSteps img)).map (imgWord img)

def headerOk (img : Bytes) : Bool :=
  decide (byteAt img 14 ≤ 8) && decide (byteAt img 15 < 2) && decide (fieldLe img 16 4 ≤ fieldLe img 20 4) &&
    decide (fieldLe img 20 4 ≤ 3072) && decide (fieldLe img 24 4 ≤ 3072) && decide (15 ≤ fieldLe img 28 2) &&
    decide (byteAt img 30 < 4) && decide (byteAt img 31 < 4) && decide (1 ≤ fieldLe img 32 4) && allZero (sl img 36 28)

def State.signer (s : State) (slot : Nat) : Option Bytes :=
  (s.drafts.signers.find? (fun x => x.1 == slot)).map (fun x => x.2)

def State.highestVersion (s : State) (op : Nat) : Nat := assocGet s.drafts.highest op 0

/-- Draft-store lines of the vendor drafts, those in use, and those free (R113). -/
def draftLines : Nat := 6144
def usedLines (s : State) : List Nat :=
  s.drafts.dir.flatMap (fun d => d.lines) ++ s.drafts.oldLines.flatMap (fun o => o.2.2)
def freeLines (s : State) : List Nat :=
  let used := usedLines s
  ((List.range draftLines).drop (min Config.vendorLines draftLines)).filter (fun l => !used.contains l)

def linesFor (steps : Nat) : Nat := (steps + 15) / 16

def encodingOk (w : Nat) : Bool :=
  let a := stepArgs w
  (unitOp (stepUnit w) (stepOp w)).isSome && stepUnit w != 0xE && !a.rsv && decide (a.br.toNat ≤ 3)

def donesOk (ws : List Nat) (commits : Bool) : Bool :=
  ws.all (fun w => stepUnit w != 0xF || (doneStatuses true).contains ((stepArgs w).imm.toNat % 65536)) &&
    decide ((ws.filter (fun w => stepUnit w == 3 && stepOp w == 7)).length ≤ b2n commits)

def lastOk (ws : List Nat) : Bool :=
  match ws.getLast? with
  | none => false
  | some w => stepUnit w == 0xF || (stepArgs w).br == 3

/-- Check `n` of an image whose length in the command is `len`. -/
def draftCheck (s : State) (img : Bytes) (len : Nat) (n : Nat) : Bool :=
  let ws := imgWords img
  if n = 1 then img.take 8 == ascii "SLKDRAFT" && fieldLe img 8 2 == 1
  else if n = 2 then decide (0x200 ≤ fieldLe img 10 2 ∧ fieldLe img 10 2 ≤ 0x3FF)
  else if n = 3 then decide (1 ≤ imgSteps img ∧ imgSteps img ≤ 512) && len == 128 + 16 * imgSteps img
  else if n = 4 then headerOk img
  else if n = 5 then (s.signer (byteAt img 31)).isSome
  else if n = 6 then edOk ((s.signer (byteAt img 31)).getD []) (sl img (len - 64) 64) (img.take (len - 64))
  else if n = 7 then decide (s.highestVersion (fieldLe img 10 2) < fieldLe img 32 4)
  else if n = 8 then ws.all encodingOk
  else if n = 9 then ws.all (fun w => decide ((stepArgs w).target.toNat < imgSteps img))
  else if n = 10 then ws.all (fun w => literalsOk ws (stepUnit w) (stepOp w) (stepArgs w))
  else if n = 11 then donesOk ws (bit (byteAt img 15) 0)
  else if n = 12 then lastOk ws
  else decide (linesFor (imgSteps img) ≤ (freeLines s).length)

def draftStatus (n : Nat) : Nat :=
  if n = 3 then 0x1002 else if n = 5 ∨ n = 6 ∨ n = 7 then 0x2001 else if n = 13 then 0x5002 else 0x1003

/-- The first check that fails. -/
def draftFailure (s : State) (img : Bytes) (len : Nat) : Option Nat :=
  ((List.range 13).map (fun i => i + 1)).find? (fun n => !draftCheck s img len n)

/-! ## The directory (R112) -/

/-- Steps written to lines, 256 bytes each. -/
def writeLines : Mem → List Nat → Bytes → Mem
  | m, [], _ => m
  | m, l :: ls, b => writeLines (Mem.writeN m (lineAddr l) (sl b 0 256)) ls (b.drop 256)

/-- The entry's lines wait for the commands admitted under its GENERATION. -/
def retireLines (s : State) (op : Nat) : List (Nat × Nat × List Nat) :=
  match s.dirEnt? op with
  | none => s.drafts.oldLines
  | some d =>
    if d.lines ≠ [] ∧ s.cmds.any (fun c => c.opcode == op && c.dgen == d.gen) then s.drafts.oldLines ++ [(op, d.gen, d.lines)]
    else s.drafts.oldLines

def nextGen (s : State) (op : Nat) : Nat := (((s.dirEnt? op).map (fun d => d.gen)).getD 0 + 1) % 2 ^ 32

/-- A directory entry replaced, its old lines kept for the commands that still run them, its cost loaded (R51). -/
def putEntry (s : State) (d : DirEnt) : State :=
  { s with
    drafts := { s.drafts with dir := s.drafts.dir.filter (fun x => x.opcode != d.opcode) ++ [d],
                              oldLines := retireLines s d.opcode }
    sched := if d.state = 1 then
        { s.sched with cost := (d.opcode, d.cost, 0) :: s.sched.cost.filter (fun x => x.1 != d.opcode) }
      else s.sched }

/-- An image's header and steps (without the signature) take the entry of their opcode with a GENERATION. -/
def installDraft (s : State) (img : Bytes) (gen : Nat) : State :=
  let op := fieldLe img 10 2
  let n := imgSteps img
  let ls := (freeLines s).take (linesFor n)
  let s1 := putEntry s
    { opcode := op, state := 1, steward := false, gen := gen, steps := n, lines := ls, extMin := fieldLe img 16 4,
      extMax := fieldLe img 20 4, replyMax := fieldLe img 24 4, krefMax := byteAt img 14, lcMask := byteAt img 30,
      standbyOk := false, commits := bit (byteAt img 15) 0, version := fieldLe img 32 4, cost := fieldLe img 28 2 }
  { s1 with mem := writeLines s1.mem ls (sl img 64 (16 * n))
            drafts := { s1.drafts with highest := assocSet s1.drafts.highest op (fieldLe img 32 4) } }

/-- An entry becomes EMPTY and leaves every partition's enable map; its highest version is kept (R113). -/
def unloadDraft (s : State) (op gen high : Nat) : State :=
  let s1 := putEntry s
    { opcode := op, state := 0, steward := false, gen := gen, steps := 0, lines := [], extMin := 0, extMax := 0, replyMax := 0,
      krefMax := 0, lcMask := 0, standbyOk := false, commits := false, version := 0, cost := 0 }
  { s1 with parts := s1.parts.map (fun p => { p with enables := p.enables &&& ~~~(1#1024 <<< op) })
            drafts := { s1.drafts with highest := assocSet s1.drafts.highest op high } }

/-- The mirrored records: GENERATION, then header and steps for a load, opcode and highest version for an unload
(notes/assumptions/23.md). -/
def loadRecord (img : Bytes) (gen : Nat) : Bytes := toLe 4 gen ++ sl img 0 (64 + 16 * imgSteps img)
def unloadRecord (op gen high : Nat) : Bytes := toLe 4 gen ++ toLe 2 op ++ toLe 4 high

/-- A DRAFT record applied on a standby. -/
def applyDraft (s : State) (body : Bytes) : State :=
  if body.length = 10 then unloadDraft s (fieldLe body 4 2) (fieldLe body 0 4) (fieldLe body 6 4)
  else installDraft s (body.drop 4) (fieldLe body 0 4)

/-- A customer signing key, zeros emptying its slot, and its CONFIG record. -/
def setSigner (s : State) (slot : Nat) (key : Bytes) : State :=
  let rest := s.drafts.signers.filter (fun x => x.1 != slot)
  { s with drafts := { s.drafts with signers := if allZero key then rest else (slot, sl key 0 32) :: rest } }
def signerRecord (slot : Nat) (key : Bytes) : Bytes := [1#8, byte slot] ++ sl key 0 32

/-! ## The staging area (R88) -/

/-- Host address of an image: 8-byte aligned, in range, and reached on the mailbox path only while Bus Master Enable is set. -/
def imageAddrOk (s : State) (c : Cmd) : Bool :=
  let a := c.inl 72 8
  a % 8 == 0 && decide (a + c.inl 80 4 ≤ 2 ^ 64) && (match c.path with
    | .mailbox fn => s.host.bme.contains fn
    | .queue _ => true)

/-- An earlier command waits for the area. -/
def stagingQueued (s : State) (c : Cmd) : Bool :=
  s.cmds.any (fun x => x.phase == .waitStaging && decide (x.order < c.order))

/-- A command that carries an image takes the area and asks for its image, or waits its turn; with the image there it goes
on. A zero length reads nothing. -/
def withImage (s : State) (c : Cmd) (f : State → State) : State :=
  if s.drafts.holder = some c.place then f s
  else if !imageAddrOk s c then s.retire c 0x1004
  else if s.drafts.holder.isSome || stagingQueued s c then s.setCmd { c with phase := .waitStaging }
  else
    let s1 : State := { s with drafts := { s.drafts with holder := some c.place, staging := [] } }
    if c.inl 80 4 = 0 then s1.setCmd { c with phase := .ready }
    else (s1.send (.hostRead (c.inl 72 8) (min (c.inl 80 4) 0x200000))).setCmd { c with phase := .waitImage }

/-! ## The opcodes -/

/-- The checks of an image that has been read, and the committed directory write. -/
def draftCommit (s : State) (c : Cmd) : State :=
  let img := s.drafts.staging
  match draftFailure s img (c.inl 80 4) with
  | some n => failDetail s c (draftStatus n) [byte n]
  | none =>
    let gen := nextGen s (fieldLe img 10 2)
    commitDone s (installDraft s img gen) c 0x08 0 (loadRecord img gen) [] []

def draftLoad (s : State) (c : Cmd) : State := withImage s c (fun t => withQuorum t c (draftCommit t c))

def execDraftLoad (i : Nat) (s : State) : Outcome := .next (stewardRow s i 0x030 draftLoad)

/-- DRAFT_UNLOAD of a customer opcode whose entry is not EMPTY. -/
def draftUnload (s : State) (c : Cmd) : State :=
  let op := c.inl 72 2
  let st : Nat := ((s.dirEnt? op).map (fun d => d.state)).getD 0
  withQuorum s c
    (if op < 0x200 ∨ op > 0x3FF ∨ st = 0 then s.retire c 0x1003
     else commitDone s (unloadDraft s op (nextGen s op) (s.highestVersion op)) c 0x08 0
       (unloadRecord op (nextGen s op) (s.highestVersion op)) [] [])

def execDraftUnload (i : Nat) (s : State) : Outcome := .next (stewardRow s i 0x031 draftUnload)

def draftSignerSet (s : State) (c : Cmd) : State :=
  let slot := c.inl 72 1
  let key := c.inlB 80 32
  withQuorum s c
    (if slot > 3 then s.retire c 0x1003
     else commitDone s (setSigner s slot key) c 0x09 0 (signerRecord slot key) [] [])

def execDraftSignerSet (i : Nat) (s : State) : Outcome := .next (stewardRow s i 0x032 draftSignerSet)

/-- DRAFT_QUERY: STATE, STEPS, VERSION, GENERATION and the free lines; their places are the model's
(notes/assumptions/23.md). -/
def draftQuery (s : State) (c : Cmd) : State :=
  let op := c.inl 72 2
  if op > 0x3FF then s.retire c 0x1003
  else
    let num := fun (f : DirEnt → Nat) => ((s.dirEnt? op).map f).getD 0
    okInline s c (toLe 2 (num (fun d => d.state)) ++ toLe 2 (num (fun d => d.steps)) ++ toLe 4 (num (fun d => d.version)) ++
      toLe 4 (num (fun d => d.gen)) ++ toLe 4 (freeLines s).length)

def execDraftQuery (i : Nat) (s : State) : Outcome := .next (stewardRow s i 0x033 draftQuery)

/-! ## The run of a loaded draft -/

/-- The 128 bits of a command's next step, read from the step-cache line (R104); none beyond the draft's lines. -/
def stepWord (s : State) (n : Nat) (c : Cmd) : Option Nat :=
  match s.line? n c with
  | none => none
  | some l => if l.data = [] then none else some (fieldLe l.data (16 * (c.idx % 16)) 16)

/-- One step of the draft in a shed. A step beyond the last line, or of a reserved UNIT or OP, faults (R106). -/
def draftStep (s : State) (n k : Nat) (c : Cmd) : State :=
  let w := (stepWord s n c).getD 0
  s.step1 n k (stepArgs w) ((unitOp (stepUnit w) (stepOp w)).getD (fun _ _ _ => .fault 1 0))

/-- The command in shed `k` runs a customer draft and has a step to issue. -/
def State.draftReady (s : State) (n k : Nat) : Option Cmd := (s.readyCmd n k).filter Cmd.customer

/-- The shed a treadle issues from next: the lowest-numbered ready shed after the shed it last issued from, wrapping round
(R104). -/
def nextShed (s : State) (n : Nat) : Option Nat :=
  ((List.range 32).map (fun i => ((s.treadle n).last + 1 + i) % 32)).find? (fun j => (s.draftReady n j).isSome)

/-- Steps of the loom's customer drafts, in the treadle's order, until the command in shed `k` parks, waits or retires. -/
def draftRun : Nat → State → Nat → Nat → State
  | 0, s, _, _ => s
  | fuel + 1, s, n, k =>
    match s.draftReady n k, nextShed s n with
    | some c, some j =>
      let s1 := draftStep s n j (if j = k then c else (s.draftReady n j).getD c)
      match s1.draftReady n k with
      | none => s1
      | some c1 => if j = k ∧ c1.count = c.count then s1 else draftRun fuel s1 n k
    | _, _ => s

/-- CUSTOMER_DRAFT_COMMAND: the draft of a customer opcode runs as far as it can, beside the other customer drafts of its
loom: at most 8,193 issues of each of the 32 sheds. -/
def customerDraft (n k : Nat) (s : State) : State :=
  match s.cmd? (.shed n k) with
  | none => s
  | some c => if c.opcode < 0x200 then s else draftRun (32 * 8193) s n k

def execCustomerDraftCommand (n k : Nat) (s : State) : Outcome := .next (customerDraft n k s)

end Sys2Proof.Machine
end

