-- ==== Sys2Proof/Machine/Loom.lean ====
section
/-! DEFINITION. What every vendor draft of KIND LOOM shares: a row runs the draft as far as it goes, parks the command
where it must wait, and is sent again when the command is ready (notes/assumptions/21.md). -/

namespace Sys2Proof.Machine

open Sys2Proof

/-- The draft of an opcode goes on for the command in a shed: ready, its wait for a symmetric core over, or with a commit or
a bignum result to hand. -/
def loomRow (s : State) (n k op : Nat) (body : State → Cmd → State) : State :=
  match s.cmd? (.shed n k) with
  | none => s
  | some c =>
    if c.opcode ≠ op then s
    else match c.phase with
      | .ready => if c.abort then s.retire c 0x7002 else body s c
      | .waitCore => if symAvail s c = .busy then s else body s { c with phase := .ready }
      | .committed _ => body s c
      | .bnDone _ _ _ => if c.abort then s.retire c 0x7002 else body s c
      | _ => s

/-- BAD_FIELD or BAD_LENGTH with its detail in inline byte 16 (R189). -/
def failWith (s : State) (c : Cmd) (status d : Nat) : State :=
  s.retireWith (c.setInline 0 (byte d :: zeros 15)) status false true []
def badField (s : State) (c : Cmd) (d : Nat) : State := failWith s c 0x1003 d
def badLength (s : State) (c : Cmd) : State := failWith s c 0x1002 8

/-- DONE with an inline result and reply data. -/
def doneWith (s : State) (c : Cmd) (inline reply : Bytes) : State :=
  s.retireWith (c.setInline 0 (sl inline 0 16)) 0 false false reply

/-- DONE of a verify opcode (R188): RESULT_FALSE on a mismatch. -/
def doneVerify (s : State) (c : Cmd) (ok : Bool) : State :=
  s.retireWith (c.setInline 0 (zeros 16)) 0 (!ok) false []

/-- The outcome of key resolution. -/
inductive Keys where
  | ready (s : State) (c : Cmd)
  | stop (s : State)

/-- A lookup's outcome in a vendor draft. -/
def Got.keys (s0 : State) : Got → Keys
  | .got s c _ _ => .ready (s.setCmd c) c
  | .hard s c st => .stop (s.retire c st)
  | .filling s c b u w => .stop (s.setCmd { c with phase := .waitFill b u w })
  | .wait s c p => .stop (s.setCmd { c with phase := p })
  | .later => .stop s0

/-- References resolved into the registers of their own numbers: (reference, usage, algorithms). -/
def needKeys (s : State) (c : Cmd) : List (Nat × Nat × Nat) → Keys
  | [] => .ready s c
  | (i, u, m) :: r =>
    if (c.key i).isSome then needKeys s c r
    else match (getRef s c i i u m false).keys s with
      | .ready s1 c1 => needKeys s1 c1 r
      | x => x

/-- The draft goes on with its keys, on a granted symmetric core. -/
def withKeys (s : State) (c : Cmd) (sym : Bool) (l : List (Nat × Nat × Nat)) (f : State → Cmd → State) : State :=
  match needKeys s c l with
  | .stop s1 => s1
  | .ready s1 c1 =>
    if !sym then f s1 c1
    else match symAvail s1 c with
      | .granted => f s1 c1
      | .offline => s1.retire c1 0x7003
      | .busy => s1.setCmd { c1 with phase := .waitCore }

/-- The key of a register of the draft, with its entry's error answered (R160). -/
def useKey (s : State) (c : Cmd) (reg : Nat) (f : KReg → State) : State :=
  match c.key reg with
  | none => s.retire c 0x2002
  | some k => match regEcc s k with
    | some w => (s.eccDrop w c.part).retire c 0x7001
    | none => f k

/-- Random output of the loom's instance in a draft, with additional input. -/
def rowRandomWith (s : State) (c : Cmd) (n : Nat) (add : Bytes) (f : State → Bytes → State) : State :=
  match s.randomWith (drbgOf c.place) n add with
  | .bytes s1 b => f s1 b
  | .off => s.retire c 0x9001
  | .waits s1 => s1.waitRng c

def rowRandom (s : State) (c : Cmd) (n : Nat) (f : State → Bytes → State) : State := rowRandomWith s c n [] f

/-- A bignum job of a draft: the first call submits it, the call after its end goes on with the result. -/
def rowJob (s : State) (c : Cmd) (r : BnReq) (f : Bool → Bytes → State) : State :=
  match c.phase with
  | .bnDone _ flag out => f flag out
  | _ => match submit s c r with
    | .error (s1, st) => s1.retire c st
    | .ok (s1, j) => s1.setCmd { c with phase := .waitBn j }

/-- Reference count of Table 08.1: one more when a reference before the last is a key block (R185). -/
def countOk (c : Cmd) (base : Nat) : Bool :=
  c.krefs == base + b2n ((List.range base).any (fun i => (c.kref i).typ == 2 || (c.kref i).typ == 3))

def aesMask : Nat := 0x0E
def tdesMask : Nat := 0x30
def wrapMask : Nat := 0x3E

/-- The commit a draft makes: enqueued on the first call, its handle to hand on the call after. -/
def rowStore (s : State) (c : Cmd) (k : KReg) (attr : Bytes) (f : Nat → State) : State :=
  match c.phase with
  | .committed h => f h
  | _ => match storeKey s c k attr with
    | .error st => s.retire c st
    | .ok (s1, c1) => s1.setCmd { c1 with phase := .waitCommit }

/-! ## Cache entries as bytes (Table 06.2) and their mirroring (R161) -/

def wayFlags (w : Way) : Nat :=
  b2n w.valid + 2 * b2n w.hit + 4 * b2n w.seen + 8 * b2n w.key.exportable + 16 * b2n w.key.limited +
    32 * b2n w.handled + 64 * b2n w.cont + 128 * b2n w.invalidated

/-- A public point is kept as its x-coordinate and Y_ODD. -/
def isPoint (k : KeyInfo) : Bool := (k.alg == 9 || k.alg == 10) && k.usage == 8

/-- The 64 bytes of an entry. -/
def wayBytes (w : Way) : Bytes :=
  let m := if isPoint w.key then w.key.mat.drop 1 else w.key.mat
  let part := if w.cont then sl m 32 16 else m.take 32
  let info := part.length + 64 * b2n (isPoint w.key && byteAt w.key.mat 0 == 3) + 128 * b2n (isRsa w.key.alg)
  sl w.tag 0 16 ++ toLe 4 w.inc ++ toLe 6 w.key.notAfter ++
    [byte (wayFlags w), byte w.key.alg, byte w.age, byte info] ++ toLe 2 w.uses ++ sl part 0 32

/-- What a mirrored fill carries (R161): the entry, its continuation, bank, bucket and way, then the way of the continuation,
the object's handle and the attributes that the 64 bytes do not show (notes/assumptions/23.md). -/
def fillBody (s : State) (y : Way) : Bytes :=
  let cont := s.kc.ways.filter (fun z => z.sameKey y && z.cont)
  wayBytes y ++ cont.flatMap wayBytes ++ toLe 1 y.bank ++ toLe 2 y.bucket ++ toLe 1 y.way ++
    toLe 1 ((cont.head?.map (fun z => z.way)).getD 0) ++ toLe 4 y.handle ++ toLe 8 y.key.name ++ toLe 4 y.key.version ++
    [byte y.key.level, byte (b2n y.key.rsaPriv + 2 * b2n y.key.transport), byte y.source, byte y.key.usage]

/-- A handle is returned to host software: the entry is HANDLED, and its fill is mirrored. -/
def markHandled (s : State) (b u w inc : Nat) : State :=
  match s.kc.ways.find? (Way.at_ b u w inc) with
  | none => s
  | some x =>
    if x.handled then s
    else
      let y := { x with handled := true }
      let s1 := s.modWays (Way.at_ b u w inc) (fun z => { z with handled := true })
      s1.record { stamp := 0, typ := 0x12, part := x.part, body := fillBody s y }

/-- Inline bytes 16-25 of a command that returns a cache handle: handle, source, FLAGS; none for a shadow entry. -/
def handleResult (s : State) (k : KReg) : Option (State × Bytes) :=
  match k.loc with
  | .shadow => none
  | .way b u w inc =>
    let s1 := markHandled s b u w inc
    (s1.kc.ways.find? (Way.at_ b u w inc)).map (fun x =>
      (s1, toLe 8 (cacheHandle x) ++ [byte x.source, byte (wayFlags x)] ++ zeros 6))

/-- A key that found no victim cannot be handed out: the statuses of Table 06.6. -/
def noHandle (s : State) (c : Cmd) : State :=
  ({ s with kc := s.kc.bump 0 0 0 0 0 1 }).retire c (if (confining s c.part).isSome then 0x5002 else 0x5001)

end Sys2Proof.Machine
end

