-- ==== Sys2Proof/Machine/Otp.lean ====
section
/-! DEFINITION. The OTP: its map, the two encodings of the life-cycle state, marks and their resumption, the anti-rollback
counter (R318-R323, R335). -/

namespace Sys2Proof.Machine

open Sys2Proof

/-- PCIe Device Serial Number, words 48 and 49. -/
def State.serial (s : State) : Bytes := s.lc.otpBytes 48 2

def LifeCycle.num (l : LifeCycle) (w : Nat) : Nat := (l.word w).toNat

/-- One word programmed: bits only set. -/
def LifeCycle.program (l : LifeCycle) (w : Nat) (v : BitVec 32) : LifeCycle :=
  { l with otp := (w, l.word w ||| v) :: l.otp.filter (fun x => x.1 != w) }

/-! ## State vectors (R318-R321) -/

structure Vec where
  t : Nat
  mfg : Bool
  op : Bool
  rma : Bool
  scrap : Bool
deriving DecidableEq, Repr

def LifeCycle.variantF (l : LifeCycle) : Bool := l.word 129 == 0x46464646#32
def LifeCycle.variantM (l : LifeCycle) : Bool := l.word 129 == 0x4D4D4D4D#32

/-- P(i), and equally the mark of a state value. -/
def pattern (i : Nat) : Nat := (0xFF - i) * 256 + i

/-- The SLK9216-F vector: strokes (R319). -/
def LifeCycle.vecF (l : LifeCycle) : Option Vec :=
  let set := fun (i : Nat) => l.num (i - 1) == pattern i
  let ok := (List.range 18).all (fun k => l.num k == 0 || set (k + 1))
  let t := ((List.range 14).filter (fun k => set (k + 1))).length
  if ok && (List.range t).all (fun k => set (k + 1)) then
    some { t := t, mfg := set 15, op := set 16, rma := set 17, scrap := set 18 }
  else none

def majority3 (a b c : BitVec 32) : BitVec 32 := (a &&& b) ||| (a &&& c) ||| (b &&& c)

def LifeCycle.majority (l : LifeCycle) : BitVec 32 := majority3 (l.word 0) (l.word 8) (l.word 16)

/-- The SLK9216-M vector: the majority of three copies (R320). -/
def LifeCycle.vecM (l : LifeCycle) : Option Vec :=
  let m := l.majority.toNat
  match (List.range 15).find? (fun t => m % 2 ^ 14 == 2 ^ t - 1) with
  | none => none
  | some t => if m < 2 ^ 18 then some { t := t, mfg := bit m 14, op := bit m 15, rma := bit m 16, scrap := bit m 17 } else none

/-- A valid vector (R321). -/
def LifeCycle.vec (l : LifeCycle) : Option Vec :=
  let v := if l.variantF then l.vecF else if l.variantM then l.vecM else none
  v.filter (fun x => (x.mfg || (!x.op && !x.rma)) && (!x.mfg || decide (x.t ≥ 1)))

/-- The state of a vector. -/
def Vec.state (v : Vec) : Nat :=
  if v.scrap then 0x60 else if v.rma then 0x50 else if v.op then 0x40 else if v.mfg then 0x30
  else if v.t = 0 then 0 else if v.t % 2 = 1 then 0x10 + (v.t - 1) / 2 else 0x20 + v.t / 2 - 1

/-- Decoding: the state and INVALID. A device that has left MANUFACTURED behind without a valid DEVICE_SECRET slot, or
OPERATIONAL without a valid OWNER_SEED slot, decodes as SCRAPPED (R318; notes/assumptions/27.md). -/
def LifeCycle.decode (l : LifeCycle) : Nat × Bool :=
  match l.vec with
  | none => (0x60, true)
  | some v =>
    if v.scrap then (0x60, false)
    else if (v.mfg && l.deviceSecret.isNone) || (v.op && l.ownerSeed.isNone) then (0x60, true)
    else (v.state, false)

/-- The first code word without its defined form, for event 0x0105; 129 for the variant word. -/
def LifeCycle.badWord (l : LifeCycle) : Nat :=
  if l.variantF then ((List.range 18).find? (fun k => l.num k != 0 && l.num k != pattern (k + 1))).getD 0
  else if l.variantM then 0 else 129

/-! ## Transitions as code words -/

/-- The test count of a test state value. -/
def testCount (v : Nat) : Nat := if v < 0x20 then 2 * (v - 0x10) + 1 else 2 * (v - 0x20) + 2

def isTest (v : Nat) : Bool := decide (0x10 ≤ v ∧ v ≤ 0x16) || decide (0x20 ≤ v ∧ v ≤ 0x26)
def isTarget (v : Nat) : Bool := isTest v || [0x30, 0x40, 0x50, 0x60].contains v

/-- The stroke a target adds. -/
def strokeOf (v : Nat) : Nat :=
  if isTest v then testCount v else if v = 0x30 then 15 else if v = 0x40 then 16 else if v = 0x50 then 17 else 18
/-- The bits a target adds to each copy. -/
def targetBits (v : Nat) : Nat :=
  if isTest v then 2 ^ testCount v - 1 else if v = 0x30 then 2 ^ 14 else if v = 0x40 then 2 ^ 15 else if v = 0x50 then 2 ^ 16
  else 2 ^ 17

/-- The code words of a transition, in order, but for those already as they will be. `base` is what each copy is given
beside its own bits. -/
def LifeCycle.codeWords (l : LifeCycle) (target : Nat) (base : BitVec 32) : List (Nat × BitVec 32) :=
  let ws : List (Nat × BitVec 32) := if l.variantM then [0, 8, 16].map (fun w => (w, base ||| BitVec.ofNat 32 (targetBits target)))
    else [(strokeOf target - 1, BitVec.ofNat 32 (pattern (strokeOf target)))]
  ws.filter (fun x => l.word x.1 ||| x.2 != l.word x.1)

/-! ## Marks (R322) -/

def LifeCycle.progress (l : LifeCycle) (e : Nat) : Nat := l.num (24 + e) % 65536
def LifeCycle.completion (l : LifeCycle) (e : Nat) : Nat := l.num (24 + e) / 65536

/-- The lowest free entry. -/
def LifeCycle.freeMark (l : LifeCycle) : Option Nat := (List.range 20).find? (fun e => l.progress e == 0)
/-- Entries used. -/
def LifeCycle.marks (l : LifeCycle) : Nat := ((List.range 20).filter (fun e => l.progress e != 0)).length
/-- The target a progress mark names. -/
def markTarget (p : Nat) : Option Nat := if p = pattern (p % 256) ∧ isTarget (p % 256) then some (p % 256) else none
/-- Token `n` is consumed: some progress mark names TEST_UNLOCKED_n. -/
def LifeCycle.consumed (l : LifeCycle) (n : Nat) : Bool := (List.range 20).any (fun e => l.progress e == pattern (0x10 + n))
/-- LC.STATE.TOKENS_USED. -/
def LifeCycle.tokensUsed (l : LifeCycle) : Nat := ((List.range 7).map (fun n => if l.consumed n then 2 ^ n else 0)).sum

/-! ## Resumption (R323) -/

/-- What step 4 finds to do: nothing, closing an entry, or completing a transition. -/
inductive Resume where
  | nothing
  | close (e : Nat)
  | finish (e target : Nat)
deriving DecidableEq, Repr

def LifeCycle.resume (l : LifeCycle) : Resume :=
  match ((List.range 20).reverse).find? (fun e => l.progress e != 0) with
  | none => .nothing
  | some e =>
    let p := l.progress e
    let c := l.completion e
    match markTarget p with
    | none => if c ≠ 0xFFFF then .close e else .nothing
    | some t => if c = p ∨ c = 0xFFFF then .nothing else if c ||| p ≠ p then .close e else .finish e t

/-- Step 4: the OTP after it, whether a transition was resumed, and its event: code and three parameters. -/
def LifeCycle.runResume (l : LifeCycle) : LifeCycle × Bool × Option (Nat × Nat × Nat × Nat) :=
  match l.resume with
  | .nothing => (l, false, none)
  | .close e => (l.program (24 + e) 0xFFFF0000#32, false, some (0x0104, e, l.progress e, l.completion e))
  | .finish e t =>
    let ws := l.codeWords t l.majority
    let l1 := ws.foldl (fun x w => x.program w.1 w.2) l
    (l1.program (24 + e) (BitVec.ofNat 32 (l.progress e * 65536)), true, some (0x0103, t, e, ws.length + 1))

/-! ## Anti-rollback (R335) -/

/-- The index of the highest set bit of the thermometer plus 1. -/
def LifeCycle.rollback (l : LifeCycle) : Nat :=
  (((List.range 256).filter (fun i => (l.word (120 + i / 32)).getLsbD (i % 32))).getLast?.map (fun i => i + 1)).getD 0

def LifeCycle.revoked (l : LifeCycle) : Nat := l.num 128 % 16

/-- HID.VARIANT. -/
def LifeCycle.variantByte (l : LifeCycle) : Nat := if l.variantF then 0x46 else if l.variantM then 0x4D else 0

end Sys2Proof.Machine
end

