-- ==== Sys2Proof/Machine/Host.lean ====
section
/-! DEFINITION. The host interface: doorbells and rings (R58-R63), failed host accesses (Table 03.14), mailboxes
(R78-R81), power states and resets of functions (R49, R85), and PCI Express configuration requests (R84, R85). -/

namespace Sys2Proof.Machine

open Sys2Proof

/-! ## Doorbells -/

/-- The doorbell pair an offset of a function's BAR0 falls in: the global queue number on the physical function, the
local index on a virtual one (R44). -/
def pairIndex (fn off : Nat) : Option Nat :=
  if fn = 0 then (if 0x100000 ≤ off ∧ off < 0x120000 then some ((off - 0x100000) / 8) else none)
  else if 0x8000 ≤ off ∧ off < 0xA000 then some ((off - 0x8000) / 8) else none

/-- The queue of a doorbell pair, assigned to the writing function. -/
def pairQueue (s : State) (fn off : Nat) : Option Queue :=
  match pairIndex fn off with
  | none => none
  | some i => s.queues.find? (fun q => q.fn == fn && (if fn = 0 then q.id == i else q.localIdx == i))

/-- Entries ready to fetch (R60). -/
def Queue.ready (q : Queue) : Nat := (q.sqTail + 2 ^ q.log2 - q.sqHead) % 2 ^ q.log2

/-- A fetch begins: up to 8 consecutive slots, not past the ring's end, for a bound queue with admission space, unless
its function is in D3hot, the device is a standby, or fetching stopped after a failed read (R60, R62, R85, R289). -/
def State.tryFetch (s : State) (qid : Nat) : State :=
  match s.queue? qid with
  | none => s
  | some q =>
    let d := 2 ^ q.log2
    let n := min 8 (min q.ready (d - q.sqHead))
    if q.bound && !q.stopped && q.reading == 0 && n != 0 && !s.host.d3.contains q.fn && s.active &&
       decide (queueLoad s q + b2n q.errDue < d - 1) then
      (s.modQueue qid (fun x => { x with reading := n })).send (.hostRead (q.sq + 128 * q.sqHead) (128 * n))
    else s

/-- The error completion of 0x0B06 is written once a slot is free for it, and not while the function is in D3hot (R85). -/
def State.tryErr (s : State) (qid : Nat) : State :=
  match s.queue? qid with
  | none => s
  | some q =>
    if q.errDue && decide (queueLoad s q < 2 ^ q.log2 - 1) && !s.host.d3.contains q.fn then
      (s.modQueue qid (fun x => { x with errDue := false })).ringComplete false { q with errDue := false } 0xFFFFFFFF 0x1004 0
        0 (zeros 16)
    else s

/-- Completions of cancelled entries of a queue are written while slots are free for them (R77, R61), at most `k`. -/
def State.tryCancelled (s : State) (qid : Nat) : Nat → State
  | 0 => s
  | k + 1 =>
    match s.queue? qid, s.fetched.find? (fun e => e.q == qid && e.cancelled) with
    | some q, some e =>
      if queueLoad s q + b2n q.errDue < 2 ^ q.log2 - 1 then
        (({ s with fetched := s.fetched.erase e }).refuseEntry (.queue qid) q.fn e.part e.entry 0x7002).tryCancelled qid k
      else s
    | _, _ => s

/-- A slot may have become free: what waits for one in the queue is written, and fetching goes on. -/
def State.slotFree (s : State) (qid : Nat) : State :=
  let s1 := s.tryErr qid
  (s1.tryCancelled qid s1.fetched.length).tryFetch qid

/-- The submission-tail half (R60). A write equal to the current tail is an accepted one, and so it retries a slot whose
fetch failed (0x0B06); R60's 'no effect' is read of the tail alone (DESIGN CHOICE, notes/assumptions/61.md). -/
def writeSqTail (s : State) (q : Queue) (fn off v p4 : Nat) : State :=
  let d := 2 ^ q.log2
  if v ≥ d ∨ (v + d - q.sqHead) % d < q.ready then s.violation 0x0B04 fn (some q.id) off p4
  else if v = q.sqTail then
    if q.stopped then (s.modQueue q.id (fun x => { x with stopped := false })).tryFetch q.id else s
  else (s.modQueue q.id (fun x => { x with sqTail := v, stopped := false })).tryFetch q.id

/-- The completion-head half (R61). -/
def writeCqHead (s : State) (q : Queue) (fn off v p4 : Nat) : State :=
  let d := 2 ^ q.log2
  if v ≥ d ∨ (v + d - q.cqHead) % d > (q.cqTail + d - q.cqHead) % d then s.violation 0x0B05 fn (some q.id) off p4
  else (s.modQueue q.id (fun x => { x with cqHead := v })).slotFree q.id

/-- A doorbell write (R59, Table 03.14): a wrong size or alignment, a queue not assigned to the function, a standby's or
an UNBOUND queue, then the halves, the submission tail first. -/
def doorbell (fn off size value : Nat) (s : State) : State :=
  let q := pairQueue s fn off
  let qid := q.map (fun x => x.id)
  let p4 := value % 2 ^ 32
  if (pairIndex fn off).isNone then s
  else if !((size == 4 && off % 4 == 0) || (size == 8 && off % 8 == 0)) then s.violation 0x0B03 fn qid off p4
  else match q with
    | none => s.violation 0x0B01 fn none off p4
    | some x =>
      if !x.bound ∨ !s.active then s.violation 0x0B02 fn qid off p4
      else if size = 8 then
        let s1 := writeSqTail s x fn off (value % 2 ^ 32) p4
        match s1.queue? x.id with
        | none => s1
        | some y => writeCqHead s1 y fn off (value / 2 ^ 32 % 2 ^ 32) p4
      else if off % 8 = 0 then writeSqTail s x fn off p4 p4
      else writeCqHead s x fn off p4 p4

/-- A write whose first byte falls in a submission-tail half. -/
def execDoorbellSqTail (fn off size value : Nat) (s : State) : Outcome :=
  .next (if off % 8 < 4 then doorbell fn off size value s else s)

/-- A write whose first byte falls in a completion-head half. -/
def execDoorbellCqHead (fn off size value : Nat) (s : State) : Outcome :=
  .next (if off % 8 ≥ 4 then doorbell fn off size value s else s)

/-! ## Ring fetches -/

/-- The entries of a fetch arrive; the partition is read from the queue's binding (R47, R60). -/
def sqEntryFetched (qid : Nat) (entries : List Bytes) (s : State) : State :=
  match s.queue? qid with
  | none => s
  | some q =>
    if q.reading = 0 ∨ entries.length < q.reading then s
    else
      let es := (entries.take q.reading).map (fun e => { q := qid, part := q.part, entry := sl e 0 128, cancelled := false : Fetched })
      let s1 := s.modQueue qid (fun x => { x with reading := 0, sqHead := (x.sqHead + q.reading) % 2 ^ x.log2 })
      ({ s1 with fetched := s1.fetched ++ es }).tryFetch qid

def execSqEntryFetched (q : Nat) (entries : List Bytes) (s : State) : Outcome := .next (sqEntryFetched q entries s)

/-- A ring read fails (0x0B06): fetching stops until the next accepted tail write, and one error completion is due. -/
def ringFailed (qid : Nat) (s : State) : State :=
  match s.queue? qid with
  | none => s
  | some q =>
    if q.reading = 0 then s
    else
      let addr := q.sq + 128 * q.sqHead
      let s1 := s.violation 0x0B06 q.fn (some qid) (addr % 2 ^ 32) (addr / 2 ^ 32)
      (s1.modQueue qid (fun x => { x with reading := 0, stopped := true, errDue := true })).tryErr qid

def execSqFetchFailed (q : Nat) (s : State) : Outcome := .next (ringFailed q s)

/-- The queue a path names. -/
def Path.queue? : Path → Option Nat
  | .queue q => some q
  | .mailbox _ => none

/-- A read of a command's own data fails (0x0B08): the command completes with BAD_POINTER. -/
def readFailed (p : Place) (addr : Nat) (s : State) : State :=
  match s.cmd? p with
  | none => s
  | some c =>
    match c.phase with
    | .waitExt | .waitPtr _ | .waitImage =>
      (s.violation 0x0B08 c.fn (Path.queue? c.path) (addr % 2 ^ 32) (addr / 2 ^ 32)).retire c
        (if c.abort then 0x7002 else 0x1004)
    | _ => s

def execHostReadError (p : Place) (addr : Nat) (s : State) : Outcome := .next (readFailed p addr s)

/-- A read with no completion within 10 to 12 ms has failed (R85). -/
def execHostReadTimeout (t : ReadTarget) (addr : Nat) (s : State) : Outcome :=
  .next (match t with
    | .ring q => ringFailed q s
    | .cmd p => readFailed p addr s)

/-! ## Unbinding and deletion (R48, R49) -/

/-- The mirrored context of a queue (record type 0x11); state 0 FREE, 1 UNBOUND, 2 BOUND (notes/assumptions/23.md). -/
def Queue.body (q : Queue) (st : Nat) : Bytes :=
  [byte st, byte q.fn] ++ toLe 2 q.id ++ toLe 2 q.part ++ [byte q.log2, byte (b2n q.intEn)] ++ toLe 2 q.vec ++
    toLe 2 q.localIdx ++ toLe 8 q.sq ++ toLe 8 q.cq

/-- A change of a queue's context goes to the standby, unstamped. -/
def State.mirrorQueue (s : State) (qid : Nat) : State :=
  match s.queue? qid with
  | none => s
  | some q => s.record { stamp := 0, typ := 0x11, part := q.part, body := q.body (if q.bound then 2 else 1) }

/-- A queue leaves BOUND: fetching stops and its unadmitted entries are abandoned. -/
def State.unbind (s : State) (qid : Nat) : State :=
  let s1 := s.modQueue qid (fun x => { x with bound := false, part := 0, reading := 0, stopped := false,
                                              errDue := false })
  ({ s1 with fetched := s1.fetched.filter (fun e => e.q != qid) }).mirrorQueue qid

/-- A queue is removed, with its local index; commands in flight on it write no completion any more. -/
def State.dropQueue (s : State) (qid : Nat) : State :=
  let s0 := s.unbind qid
  let s1 := match s0.queue? qid with
    | none => s0
    | some q => s0.record { stamp := 0, typ := 0x11, part := 0, body := q.body 0 }
  { s1 with
    queues := s1.queues.filter (fun q => q.id != qid)
    cmds := updWhere (fun c => c.path == Path.queue qid) (fun c => { c with discard := true }) s1.cmds
    d3held := s1.d3held.filter (fun h => h.path != Path.queue qid) }

/-- A completion or reply write refused by the host (0x0B07): the queue goes to UNBOUND and its commands complete
internally with ABORTED. -/
def writeRefused (p : Path) (addr : Nat) (s : State) : State :=
  match p with
  | .mailbox fn => s.violation 0x0B07 fn none (addr % 2 ^ 32) (addr / 2 ^ 32)
  | .queue qid =>
    match s.queue? qid with
    | none => s
    | some q =>
      let s1 := (s.violation 0x0B07 q.fn (some qid) (addr % 2 ^ 32) (addr / 2 ^ 32)).unbind qid
      let s2 := { s1 with cmds := updWhere (fun c => c.path == Path.queue qid) (fun c => { c with discard := true }) s1.cmds,
                          lk := { s1.lk with held := s1.lk.held.filter (fun h => h.path != Path.queue qid) } }
      s2.abortWhere (fun c => c.path == Path.queue qid)

def execHostWriteRefused (p : Path) (addr : Nat) (s : State) : Outcome := .next (writeRefused p addr s)

/-! ## Key-block pointers (R67) -/

/-- A key block named by a type 3 reference arrives; the draft goes on. -/
def keyBlockPointerRead (p : Place) (ref : Nat) (data : Bytes) (s : State) : State :=
  match s.cmd? p with
  | none => s
  | some c =>
    match c.phase with
    | .waitPtr r =>
      if r ≠ ref then s
      else if c.abort then s.retire c 0x7002
      else s.setCmd { c with phase := .ready, ptrs := (ref, sl data 0 (c.kref ref).len) :: c.ptrs }
    | _ => s

def execKeyBlockPointerRead (p : Place) (ref : Nat) (data : Bytes) (s : State) : Outcome :=
  .next (keyBlockPointerRead p ref data s)

/-! ## Mailboxes (R78-R81) -/

/-- Function 0, or an enabled virtual function. -/
def State.fnExists (s : State) (fn : Nat) : Bool := fn == 0 || (s.host.vfEnable && decide (fn ≤ s.host.numVfs))

/-- The host can reach BAR0: the configuration is up from step 11 (Table 01.8). -/
def State.hostUp (s : State) : Bool := decide (s.sys.step ≥ 11) && !s.sys.inReset

/-- GO against the state before the write: in IDLE it starts the command, elsewhere it is refused (0x0B0A). -/
def mbxStart (fn : Nat) (m : Mbx) (s : State) : State :=
  if m.state = 0 then
    let s1 := s.setMbx { m with state := 1, waiting := true, readcnt := 0 }
    if admitOpen s1 ∧ waitingMbx s1 = some (s1.mbx fn) then admitMbx s1 (s1.mbx fn) else s1
  else (s.setMbx { m with refused := true }).violation 0x0B0A fn none 0 0

/-- ACK in DONE returns the mailbox to IDLE and zeroes RESULT and DATA. -/
def mbxAck (fn : Nat) (s : State) : State :=
  let m := s.mbx fn
  if m.state = 2 then s.setMbx { m with state := 0, result := zeros 32, data := [] } else s

/-- A write of HMB.MBX_CTRL: IE (virtual functions), then GO, then ACK, both against the state before the write. -/
def mbxCtrl (fn value : Nat) (s : State) : State :=
  let m0 := s.mbx fn
  let m := if fn = 0 then m0 else { m0 with ie := bit value 2 }
  let s0 := s.setMbx m
  let s1 := if bit value 0 then mbxStart fn m s0 else s0
  if bit value 1 && m0.state == 2 then mbxAck fn s1 else s1

def execMbxGo (fn : Nat) (value : Nat) (s : State) : Outcome :=
  .next (if s.hostUp && s.fnExists fn && bit value 0 then mbxCtrl fn value s else s)

def execMbxAck (fn : Nat) (value : Nat) (s : State) : Outcome :=
  .next (if s.hostUp && s.fnExists fn && bit value 1 then mbxCtrl fn value s else s)

/-- HMB.MBX_STATUS as a read returns it. -/
def Mbx.status (m : Mbx) : Nat := m.state + 4 * b2n m.refused + 65536 * m.readcnt

/-- A read of HMB.MBX_STATUS, which then counts itself (R81). -/
def execMbxStatusRead (fn : Nat) (s : State) : Outcome :=
  .next (if s.hostUp && s.fnExists fn then
      let m := s.mbx fn
      (s.setMbx { m with readcnt := min (m.readcnt + 1) 0xFFFF }).send (.barRead fn 0x1084 m.status)
    else s)

/-! ## Functions (R49, R85) -/

def execFunctionD3hotEntry (fn : Nat) (s : State) : Outcome :=
  .next (if s.fnExists fn && !s.host.d3.contains fn then
      { s with host := { s.host with d3 := fn :: s.host.d3 } }
    else s)

/-- The return to D0: completions that waited are written, and fetching resumes. -/
def d0Return (fn : Nat) (s : State) : State :=
  let s1 := { s with host := { s.host with d3 := s.host.d3.filter (fun f => f != fn) },
                     d3held := s.d3held.filter (fun h => h.fn != fn) }
  let s2 := s1.deliverAll (s.d3held.filter (fun h => h.fn == fn))
  (s2.queues.filter (fun q => q.fn == fn)).foldl (fun t q => t.slotFree q.id) s2

def execFunctionD0Return (fn : Nat) (s : State) : Outcome :=
  .next (if s.host.d3.contains fn then d0Return fn s else s)

/-- A virtual function is reset: its queues are deleted, its commands abort without completion, its mailbox returns to
IDLE, and its interrupt and power configuration take their reset values (R48, R49, R81). -/
def State.resetVf (s : State) (fn : Nat) : State :=
  let qs := (s.queues.filter (fun q => q.fn == fn)).map (fun q => q.id)
  let mine := fun (c : Cmd) => c.fn == fn
  let s1 := qs.foldl (fun t q => t.dropQueue q) s
  let s2 := { s1 with cmds := updWhere mine (fun c => { c with discard := true }) s1.cmds,
                      lk := { s1.lk with held := s1.lk.held.filter (fun h => h.fn != fn) },
                      d3held := s1.d3held.filter (fun h => h.fn != fn) }
  let s3 := (s2.abortWhere mine).setMbx (Mbx.idle fn)
  let h := s3.host
  let drop := fun (l : List Nat) => l.filter (fun f => f != fn)
  { s3 with host := { h with bme := drop h.bme, relaxed := drop h.relaxed, d3 := drop h.d3, msixEn := drop h.msixEn,
                             msixMask := drop h.msixMask, msix := h.msix.filter (fun e => e.fn != fn),
                             pba := h.pba.filter (fun p => p.1 != fn) } }

def execVfFlr (fn : Nat) (s : State) : Outcome :=
  .next (if fn ≠ 0 ∧ s.fnExists fn then s.resetVf fn else s)

/-- VF Enable is cleared: every virtual function's queues are deleted (R49). -/
def vfEnableClear (s : State) : State :=
  let s1 := ((List.range s.host.numVfs).map (fun i => i + 1)).foldl (fun t fn => t.resetVf fn) s
  { s1 with host := { s1.host with vfEnable := false } }

def execVfEnableClear (s : State) : Outcome := .next (if s.host.vfEnable then vfEnableClear s else s)

/-! ## PCI Express configuration (R84, R85) -/

/-- First dword of the configuration header: Device ID and Vendor ID. -/
def cfgIds (fn : Nat) : Nat := (if fn = 0 then 0x9216 else 0x9217) * 65536 + 0x1D9F

/-- A field of configuration space as Table 03.11 gives it, with the encodings of PCI Express Base 5.0. A capability that
the function does not have reads 0. -/
def cfgItem (h : HostIf) (fn : Nat) (i : CfgItem) : Nat :=
  let pf := fun (v : Nat) => if fn = 0 then v else 0
  let own := fun (l : List Nat) => b2n (l.contains fn)
  match i with
  | .ids => cfgIds fn
  | .classRev => 0x108000 * 256 + 0xB0
  | .bar0 => pf (h.bar0 + 4)
  | .vfBar0 => pf (h.vfBar0 + 4)
  | .otherBar => 0
  | .interruptPin => 0
  | .busMaster => own h.bme
  | .msixControl => (if fn = 0 then 2047 else 63) + 2 ^ 14 * own h.msixMask + 2 ^ 15 * own h.msixEn
  | .msixTable => if fn = 0 then 0x18000 else 0x4000
  | .msixPba => if fn = 0 then 0x14000 else 0x5000
  | .powerState => pf (3 * own h.d3 + 2 ^ 3)
  | .aerStatus => pf h.aer.toNat
  | .totalVfs => pf 255
  | .initialVfs => pf 255
  | .numVfs => pf h.numVfs
  | .vfEnable => pf (b2n h.vfEnable)
  | .firstVfOffset => pf 1
  | .vfStride => pf 1
  | .vfDeviceId => pf 0x9217
  | .supportedPages => pf 0x11
  | .systemPage => pf h.sysPage
  | .ari => 1
  | .serialNumber => pf (leNat (sl Config.pcieSerial 0 8))
  | .maxPayload => 2
  | .maxReadRequest => 5
  | .tenBitTags => 3
  | .relaxedOrdering => own h.relaxed
  | .completionTimeout => 0

/-- AER uncorrectable error status bits of a poisoned and of a malformed request (R86; PCI Express Base 5.0). -/
def aerPoisoned : BitVec 32 := 1#32 <<< 12
def aerMalformed : BitVec 32 := 1#32 <<< 18

/-- A configuration request. Until step 11 it is answered with Configuration Request Retry Status (Table 01.8); with
the link not up it does not reach the device. -/
def cfgRequest (r : CfgReq) (s : State) : State :=
  let h := s.host
  if !h.training && !h.linkUp then s
  else if r = .malformed then { s with host := { h with aer := h.aer ||| aerMalformed } }
  else if s.sys.step < 11 then s.send (.retry (match r with
    | .other _ reg => reg
    | _ => 0))
  else match r with
    | .writeNumVfs n => if n > 255 ∨ h.vfEnable then s else { s with host := { h with numVfs := n } }
    | .writeVfEnable on =>
      if on then { s with host := { h with vfEnable := true } } else if h.vfEnable then vfEnableClear s else s
    | .writeSysPageSize v => { s with host := { h with sysPage := if v = 0x10 then 0x10 else 1 } }
    | .writeBusMaster fn on =>
      { s with host := { h with bme := if on then fn :: h.bme.filter (fun f => f != fn)
                                        else h.bme.filter (fun f => f != fn) } }
    | .writeRelaxed fn on =>
      { s with host := { h with relaxed := if on then fn :: h.relaxed.filter (fun f => f != fn)
                                           else h.relaxed.filter (fun f => f != fn) } }
    | .writeMsixCtrl fn en mask =>
      let en' := if en then fn :: h.msixEn.filter (fun f => f != fn) else h.msixEn.filter (fun f => f != fn)
      let mk' := if mask then fn :: h.msixMask.filter (fun f => f != fn) else h.msixMask.filter (fun f => f != fn)
      let s1 := { s with host := { h with msixEn := en', msixMask := mk' } }
      let due := if en && !mask then h.pba.filter (fun p => p.1 == fn) else []
      let s2 := { s1 with host := { s1.host with pba := s1.host.pba.filter (fun p => !due.contains p) } }
      due.foldl (fun t p => t.msix p.1 p.2) s2
    | .read fn i => s.send (.cfgRead (cfgItem h fn i))
    | .writeBar0 v => { s with host := { h with bar0 := v / 2 ^ 21 % 2 ^ 43 * 2 ^ 21 } }
    | .writeVfBar0 v => { s with host := { h with vfBar0 := v / 2 ^ 16 % 2 ^ 48 * 2 ^ 16 } }
    | .clearAer v => { s with host := { h with aer := h.aer &&& ~~~BitVec.ofNat 32 v } }
    | .malformed => s
    | .other _ _ => s.send (.cfgRead 0)

def execPcieConfigurationRequest (r : CfgReq) (s : State) : Outcome := .next (cfgRequest r s)

/-- The link reaches L0 (Table 01.8, step 8). -/
def execPcieLinkUp (s : State) : Outcome :=
  .next (if s.host.training then { s with host := { s.host with training := false, linkUp := true } } else s)

end Sys2Proof.Machine
end

