-- ==== Sys2Proof/Machine/Partition.lean ====
section
/-! DEFINITION. Partitions and queues (chapter 02): the management opcodes, binding, teardown, cancelling; the table
opcodes (R175-R181) and the cache opcodes (R162) that run in a steward context. -/

namespace Sys2Proof.Machine

open Sys2Proof

/-! ## Partition records (Tables 02.1, 02.3) -/

/-- The attributes of a partition record. -/
structure Attrs where
  weight : Nat
  selfWeight : Nat
  minRate : Nat
  ceilRate : Nat
  cacheMin : Nat
  cacheMax : Nat
  inflightMax : Nat
  queueQuota : Nat
  objQuota : Nat
deriving DecidableEq, Repr

def Attrs.of (r : Bytes) : Attrs :=
  { weight := fieldLe r 4 2, selfWeight := fieldLe r 6 2, minRate := fieldLe r 8 4, ceilRate := fieldLe r 12 4,
    cacheMin := fieldLe r 16 4, cacheMax := fieldLe r 20 4, inflightMax := fieldLe r 24 2, queueQuota := fieldLe r 26 2,
    objQuota := fieldLe r 28 4 }

/-- The ranges of Table 02.1. -/
def Attrs.rangeOk (a : Attrs) : Bool :=
  decide (1 ≤ a.weight ∧ a.weight ≤ 1024) && decide (1 ≤ a.selfWeight ∧ a.selfWeight ≤ 1024) &&
    decide (a.minRate ≤ 240000000) && (a.ceilRate == 0 || decide (a.ceilRate ≥ a.minRate)) &&
    decide (a.cacheMin ≤ a.cacheMax ∧ a.cacheMax ≤ 262144) && decide (1 ≤ a.inflightMax ∧ a.inflightMax ≤ 512) &&
    decide (a.queueQuota ≤ 16384) && decide (a.objQuota ≤ 65536)

/-- The limits against a parent of given attributes, with the sums over the other children. -/
def Attrs.under (a : Attrs) (p : Part) (sibs : List Part) : Bool :=
  let sum := fun (f : Part → Nat) => (sibs.map f).sum
  decide (sum (fun x => x.minRate) + a.minRate ≤ p.minRate) &&
    (a.ceilRate == 0 || p.ceilRate == 0 || decide (a.ceilRate ≤ p.ceilRate)) &&
    decide (sum (fun x => x.cacheMin) + a.cacheMin ≤ p.cacheMin) && decide (a.cacheMax ≤ p.cacheMax) &&
    decide (a.inflightMax ≤ p.inflightMax) && decide (sum (fun x => x.queueQuota) + a.queueQuota ≤ p.queueQuota) &&
    decide (sum (fun x => x.objQuota) + a.objQuota ≤ p.objQuota)

def Part.attrs (p : Part) : Attrs :=
  { weight := p.weight, selfWeight := p.selfWeight, minRate := p.minRate, ceilRate := p.ceilRate, cacheMin := p.cacheMin,
    cacheMax := p.cacheMax, inflightMax := p.inflightMax, queueQuota := p.queueQuota, objQuota := p.objQuota }

def Part.withAttrs (p : Part) (a : Attrs) : Part :=
  { p with weight := a.weight, selfWeight := a.selfWeight, minRate := a.minRate, ceilRate := a.ceilRate,
           cacheMin := a.cacheMin, cacheMax := a.cacheMax, inflightMax := a.inflightMax, queueQuota := a.queueQuota,
           objQuota := a.objQuota }

/-- The record of Table 02.3. -/
def Part.record (p : Part) : Bytes :=
  toLe 2 p.parent ++ toLe 2 p.id ++ toLe 2 p.weight ++ toLe 2 p.selfWeight ++ toLe 4 p.minRate ++ toLe 4 p.ceilRate ++
    toLe 4 p.cacheMin ++ toLe 4 p.cacheMax ++ toLe 2 p.inflightMax ++ toLe 2 p.queueQuota ++ toLe 4 p.objQuota ++
    sl p.accessKey 0 32

/-- The mirrored partition context (record type 0x04): the record, state (0 removed, 1 ACTIVE, 2 TEARING_DOWN), depth,
eviction mode, GENERATION and opcode enables (notes/assumptions/23.md). -/
def Part.body (p : Part) (st : Nat) : Bytes :=
  p.record ++ [byte st, byte p.depth, byte (b2n p.oldest), 0#8] ++ toLe 4 p.gen ++ toLe 128 p.enables.toNat

/-- The mirrored removal of a partition, with the table generations it leaves: the teardown's table updates have no record
of their own (R180, R183; notes/assumptions/23.md). -/
def Part.gone (p : Part) (rgen pgen : Nat) : Bytes := p.body 0 ++ toLe 4 rgen ++ toLe 4 pgen

/-- A partition's own change, committed and mirrored. -/
def partDone (s : State) (c : Cmd) (p : Part) (inline : Bytes) : State :=
  commitDone s { s with parts := updWhere (fun x => x.id == p.id) (fun _ => p) s.parts } c 0x04 p.id (p.body 1) inline []

/-! ## PART_CREATE, PART_MODIFY, PART_SET_ACCESS_KEY, PART_ENABLE_OPCODES, PART_SET_CACHE_POLICY -/

/-- The effective enables of a partition for the vendor opcodes. -/
def effective (s : State) (p : Nat) : BitVec 1024 :=
  (s.ancestors p).foldl (fun m a => m &&& ((s.part? a).map (fun x => x.enables)).getD 0) (BitVec.ofNat 1024 (2 ^ 512 - 1))

/-- The ID of a new partition. -/
def newId (s : State) (req : Nat) : Except Nat Nat :=
  if req = 0xFFFF then
    match firstFree (fun i => (s.part? i).isNone) 4095 1 with
    | some i => .ok i
    | none => .error 0x5002
  else if req < 1 ∨ req > 4095 ∨ (s.part? req).isSome then .error 0x1003 else .ok req

/-- The new partition of a record, under its parent. -/
def newPart (s : State) (id : Nat) (par : Part) (r : Bytes) : Part :=
  { Part.owner with id := id, parent := par.id, depth := par.depth + 1, accessKey := sl r 32 32,
                    gen := assocGet s.gens id 0 + 1, enables := effective s par.id, prefixLimit := some 0,
                    ruleLimit := some 0 }.withAttrs (Attrs.of r)

def partCreateBody (s : State) (c : Cmd) (par : Part) (r : Bytes) : State :=
  let a := Attrs.of r
  match newId s (fieldLe r 2 2) with
  | .error st => s.retire c st
  | .ok id =>
    if par.tearing ∨ par.depth ≥ 8 ∨ !a.rangeOk ∨ edPointBad (sl r 32 32) then s.retire c 0x1003
    else if !a.under par (s.children par.id) then s.retire c 0x5002
    else
      let p := newPart s id par r
      commitDone s { s with parts := s.parts ++ [p], gens := assocSet s.gens id p.gen } c 0x04 id (p.body 1) (toLe 2 id) []

/-- PART_CREATE (R41). -/
def partCreate (s : State) (c : Cmd) : State :=
  let r := c.own true
  match s.part? (fieldLe r 0 2) with
  | none => s.retire c 0x1003
  | some par => if par.tearing then s.retire c 0x1003 else withQuorum s c (partCreateBody s c par r)

def execPartCreate (i : Nat) (s : State) : Outcome := .next (stewardRow s i 0x010 partCreate)

/-- The children keep their limits under changed attributes, and the subtree's use stays within them (R37, R42). -/
def fitsBelow (s : State) (p : Part) (a : Attrs) : Bool :=
  let cs := s.children p.id
  let sum := fun (f : Part → Nat) => (cs.map f).sum
  decide (sum (fun x => x.minRate) ≤ a.minRate) && decide (sum (fun x => x.cacheMin) ≤ a.cacheMin) &&
    decide (sum (fun x => x.queueQuota) ≤ a.queueQuota) && decide (sum (fun x => x.objQuota) ≤ a.objQuota) &&
    cs.all (fun x => (x.ceilRate == 0 || a.ceilRate == 0 || decide (x.ceilRate ≤ a.ceilRate)) &&
      decide (x.cacheMax ≤ a.cacheMax) && decide (x.inflightMax ≤ a.inflightMax)) &&
    decide (s.boundQueues p.id ≤ a.queueQuota) && decide (objCount s p.id ≤ a.objQuota)

/-- The attributes of partition 0 other than SELF_WEIGHT are fixed (R38). -/
def ownerFixed (a : Attrs) : Bool := decide ({ a with selfWeight := 1 } = Part.owner.attrs)

def partModifyBody (s : State) (c : Cmd) (p : Part) (r : Bytes) : State :=
  let a := Attrs.of r
  if p.tearing ∨ !a.rangeOk ∨ (p.id = 0 ∧ !ownerFixed a) then s.retire c 0x1003
  else
    let par := (s.part? p.parent).getD p
    let sibs := (s.children par.id).filter (fun x => x.id != p.id)
    if p.id ≠ 0 ∧ !(a.under par sibs && fitsBelow s p a) then s.retire c 0x5002
    else partDone s c (p.withAttrs a) []

/-- PART_MODIFY (R41, R42). -/
def partModify (s : State) (c : Cmd) : State :=
  let r := c.own true
  match s.part? (fieldLe r 2 2) with
  | none => s.retire c 0x1003
  | some p => if p.tearing then s.retire c 0x1003 else withQuorum s c (partModifyBody s c p r)

def execPartModify (i : Nat) (s : State) : Outcome := .next (stewardRow s i 0x011 partModify)

/-- PART_SET_ACCESS_KEY: from the admin path or the partition's own queues. -/
def partSetAccessKey (s : State) (c : Cmd) : State :=
  let n := c.inl 72 2
  let key := c.inlB 80 32
  if !(c.admin || c.part == n) then s.retire c 0x2001
  else match s.part? n with
    | none => s.retire c 0x1003
    | some p => withQuorum s c (if edPointBad key then s.retire c 0x1003 else partDone s c { p with accessKey := key } [])

def execPartSetAccessKey (i : Nat) (s : State) : Outcome := .next (stewardRow s i 0x014 partSetAccessKey)

/-- PART_ENABLE_OPCODES (R89). -/
def partEnableOpcodes (s : State) (c : Cmd) : State :=
  match s.part? (c.inl 72 2) with
  | none => s.retire c 0x1003
  | some p =>
    if p.tearing then s.retire c 0x1003
    else withQuorum s c (partDone s c { p with enables := BitVec.ofNat 1024 (leNat (sl (c.own true) 0 128)) } [])

def execPartEnableOpcodes (i : Nat) (s : State) : Outcome := .next (stewardRow s i 0x015 partEnableOpcodes)

/-- PART_SET_CACHE_POLICY (Table 06.6). -/
def partSetCachePolicy (s : State) (c : Cmd) : State :=
  let n := c.inl 72 2
  match s.part? n with
  | none => s.retire c 0x1003
  | some p =>
    if p.tearing ∨ c.inl 74 1 > 1 ∨ !(c.admin || c.part == n) then s.retire c 0x1003
    else partDone s c { p with oldest := c.inl 74 1 == 1 } []

def execPartSetCachePolicy (i : Nat) (s : State) : Outcome := .next (stewardRow s i 0x016 partSetCachePolicy)

/-- The reply of Table 02.9. -/
def partReply (s : State) (p : Part) : Bytes :=
  p.record ++ [if p.tearing then 2#8 else 1#8, byte p.depth, byte (b2n p.oldest), 0#8] ++ toLe 4 p.gen ++
    toLe 4 (s.inflight p.id) ++ toLe 4 p.admitted ++ toLe 4 (s.boundQueues p.id) ++ toLe 4 (objCount s p.id) ++
    toLe 4 (s.occ p.id) ++ toLe 4 p.custVer ++
    toLe 4 ((s.rt.routes s.rt.rgen).filter (fun r => r.part == p.id)).length ++
    toLe 4 ((s.rt.rules s.rt.pgen).filter (fun r => r.part == p.id)).length ++
    toLe 2 (s.children p.id).length ++ zeros 22

/-- PART_QUERY (R43). -/
def partQuery (s : State) (c : Cmd) : State :=
  let n := c.inl 72 2
  if !inReach s c n then s.retire c 0x2001
  else match s.part? n with
    | none => s.retire c 0x1003
    | some p => okReply s c [] (partReply s p)

def execPartQuery (i : Nat) (s : State) : Outcome := .next (stewardRow s i 0x013 partQuery)

/-! ## Queues (R44-R48) -/

/-- MSI-X vectors of a function (Table 03.11). -/
def vectors (fn : Nat) : Nat := if fn = 0 then 2048 else 64

/-- Q_CREATE (R45). A ring that ends beyond 2^64 gives BAD_POINTER as a misaligned one does, and 0xFFFF with no free queue ID
gives BAD_FIELD: R45 names neither case (DESIGN CHOICE, notes/assumptions/24.md). -/
def qCreate (s : State) (c : Cmd) : State :=
  let req := c.inl 72 2
  let fn := c.inl 74 1
  let lg := c.inl 75 1
  let sq := c.inl 80 8
  let cq := c.inl 88 8
  let mine := s.queues.filter (fun q => q.fn == fn)
  let id := if req = 0xFFFF then firstFree (fun i => (s.queue? i).isNone) 16384 0
    else if req > 16383 ∨ (s.queue? req).isSome then none else some req
  if !s.host.ready then s.retire c 0x5001
  else match id, firstFree (fun k => !mine.any (fun q => q.localIdx == k)) 1024 0 with
    | some i, some k =>
      if !s.fnExists fn ∨ lg < 1 ∨ lg > 16 ∨ c.inl 76 2 ≥ vectors fn ∨ c.inl 78 1 > 1 ∨ !allZero (c.inlB 79 1) ∨
         !allZero (c.inlB 96 32) then s.retire c 0x1003
      else if sq % 4096 ≠ 0 ∨ cq % 4096 ≠ 0 ∨ sq + 128 * 2 ^ lg > 2 ^ 64 ∨ cq + 32 * 2 ^ lg > 2 ^ 64 then s.retire c 0x1004
      else
        let q : Queue := { id := i, fn := fn, localIdx := k, log2 := lg, vec := c.inl 76 2, intEn := c.inl 78 1 == 1, sq := sq,
                           cq := cq, bound := false, part := 0, sqHead := 0, sqTail := 0, cqHead := 0, cqTail := 0,
                           phase := true, reading := 0, stopped := false, errDue := false, deleting := false }
        okInline (({ s with queues := s.queues ++ [q] }).mirrorQueue i) c (toLe 2 i)
    | _, _ => s.retire c 0x1003

/-- Another command of a queue is unretired: in flight, or its completion is held. -/
def queueBusy (s : State) (c : Cmd) (q : Nat) : Bool :=
  s.cmds.any (fun x => x.place != c.place && x.path == Path.queue q) || s.lk.held.any (fun h => h.path == Path.queue q) ||
    s.d3held.any (fun h => h.path == Path.queue q)

/-- Transitions of queues are made in the order of admission (R48): a command whose transition is still to come waits for
those admitted before it. A command that has made its own (its `idx` is 1) holds up no other. -/
def queueTurn (s : State) (c : Cmd) : Bool :=
  !s.cmds.any (fun x => [0x020, 0x021, 0x022, 0x023].contains x.opcode && decide (x.order < c.order) && x.idx == 0)

/-- A queue-management command runs when its turn has come, or when its transition is made and it waits to complete. -/
def inTurn (body : State → Cmd → State) (s : State) (c : Cmd) : State :=
  if c.idx = 0 ∧ !queueTurn s c then s else body s c

def execQCreate (i : Nat) (s : State) : Outcome := .next (stewardRow s i 0x020 (inTurn qCreate))

/-- The command has begun: the queue has left BOUND. -/
def begun (s : State) (c : Cmd) (q : Nat) : State × Cmd :=
  let c1 := { c with idx := 1 }
  ((s.unbind q).setCmd c1, c1)

/-- Q_DELETE (R48): the queue leaves BOUND at once; once its commands have finished, it is freed. A command that deletes
its own queue writes its completion first. For a command admitted later the queue is FREE already. -/
def qDelete (s : State) (c : Cmd) : State :=
  let q := c.inl 72 2
  match s.queue? q with
  | none => s.retire c 0x1003
  | some x =>
    if c.idx = 0 ∧ x.deleting then s.retire c 0x1003
    else
      let r := if c.idx = 0 then begun (s.modQueue q (fun y => { y with deleting := true })) c q else (s, c)
      if queueBusy r.1 r.2 q then r.1 else (r.1.retireWith r.2 0 false false []).dropQueue q

def execQDelete (i : Nat) (s : State) : Outcome := .next (stewardRow s i 0x021 (inTurn qDelete))

/-- The reason a binding is refused (Table 02.8). -/
def bindReason (s : State) (q : Queue) (st sig : Bytes) : Option Nat :=
  match s.part? (fieldLe st 12 2) with
  | none => some 4
  | some p =>
    if p.tearing then some 4
    else if st.take 8 ≠ ascii "SLKQBIND" ∨ fieldLe st 8 2 ≠ q.id ∨ byteAt st 10 ≠ q.fn ∨ byteAt st 11 ≠ 0 ∨
            !allZero (sl st 14 2) ∨ !allZero (sl st 24 8) then some 3
    else if !nonceOk s p.id (fieldLe st 16 8) then some 2
    else if !edOk p.accessKey sig st then some 1 else none

/-- The status of a refused binding: DENIED_POLICY (R46), but BAD_FIELD for a partition that is TEARING_DOWN, as R50 says,
where Table 02.8 has reason 4 under DENIED_POLICY (DESIGN CHOICE between the two, notes/assumptions/60.md). -/
def bindStatus (s : State) (part reason : Nat) : Nat :=
  if reason = 4 ∧ (s.part? part).isSome then 0x1003 else 0x2001

/-- One more queue fits the quota of the partition and of every ancestor. -/
def queueRoom (s : State) (p : Nat) : Bool :=
  (s.ancestors p).all (fun a => match s.part? a with
    | none => false
    | some x => decide (s.boundQueues a < x.queueQuota))

/-- Q_BIND (R46, R47). -/
def qBind (s : State) (c : Cmd) : State :=
  let own := c.own false
  let st := sl own 0 32
  match s.queue? (c.inl 72 2) with
  | none => s.retire c 0x1003
  | some q =>
    if q.bound ∨ q.deleting then s.retire c 0x1003
    else
      let p := fieldLe st 12 2
      let s1 := useNonce s p (fieldLe st 16 8)
      match bindReason s q st (sl own 32 64) with
      | some n => failDetail s1 c (bindStatus s p n) [byte n]
      | none =>
        if !queueRoom s1 p then s1.retire c 0x5002
        else
          let s2 := s1.modQueue q.id (fun x => { x with bound := true, part := p, sqHead := 0, sqTail := 0, cqHead := 0,
                                                        cqTail := 0, phase := true, reading := 0, stopped := false })
          okInline (s2.mirrorQueue q.id) c []

def execQBind (i : Nat) (s : State) : Outcome := .next (stewardRow s i 0x022 (inTurn qBind))

/-- Q_UNBIND (R48). It completes once the queue's other commands have finished or aborted, so on its own queue its
completion is the last that the device writes there. -/
def qUnbind (s : State) (c : Cmd) : State :=
  let q := c.inl 72 2
  let self := c.path == Path.queue q
  if !(c.admin || self) then s.retire c 0x2001
  else match s.queue? q with
    | none => s.retire c 0x1003
    | some x =>
      if c.idx = 0 ∧ !x.bound then s.retire c 0x1003
      else
        let r := if c.idx = 0 then begun s c q else (s, c)
        if queueBusy r.1 r.2 q then r.1 else okInline r.1 r.2 []

def execQUnbind (i : Nat) (s : State) : Outcome := .next (stewardRow s i 0x023 (inTurn qUnbind))

/-- Q_QUERY. The manual names the fields of bytes 16-31 but not their places; a queue that is FREE reads zeros
(notes/assumptions/24.md). -/
def qQuery (s : State) (c : Cmd) : State :=
  let n := c.inl 72 2
  if !(c.admin || c.path == Path.queue n) then s.retire c 0x2001
  else if n > 16383 then s.retire c 0x1003
  else match s.queue? n with
    | none => okInline s c []
    | some q => okInline s c ([if q.bound then 2#8 else 1#8, byte q.fn] ++ toLe 2 q.part ++ [byte q.log2, 0#8] ++
        toLe 2 q.localIdx ++ toLe 2 q.sqHead ++ toLe 2 q.sqTail ++ toLe 2 q.cqHead ++ toLe 2 q.cqTail)

def execQQuery (i : Nat) (s : State) : Outcome := .next (stewardRow s i 0x024 qQuery)

/-! ## CMD_CANCEL (R77) -/

/-- The command can no longer be aborted. -/
def tooLate (s : State) (c : Cmd) : Bool :=
  c.stamp != 0 || (match c.phase with
    | .committed _ => true
    | .waitCommit => (s.headCommit.bind (fun x => x.who)) == some c.place
    | .waitTeardown _ => true
    | _ => false)

/-- CMD_CANCEL acts on every other fetched, unretired command of the queue with the tag. An entry not yet admitted
completes with ABORTED as soon as a completion slot is free for it (R61). -/
def cmdCancel (s : State) (c : Cmd) : State :=
  let q := c.inl 72 2
  let tag := c.inl 76 4
  if !(c.admin || c.path == Path.queue q) then s.retire c 0x2001
  else
    let hit := fun (e : Fetched) => e.q == q && fieldLe e.entry 0 4 == tag && !e.cancelled
    let cs := s.cmds.filter (fun x => x.place != c.place && x.path == Path.queue q && x.tag == tag)
    let own := fun (h : Held) => h.path == Path.queue q && fieldLe h.entry 0 4 == tag
    let late := s.lk.held.any own || s.d3held.any own || cs.any (tooLate s)
    let code := if late then 3 else if cs ≠ [] then 2 else if s.fetched.any hit then 1 else 0
    let s1 := { s with fetched := updWhere hit (fun e => { e with cancelled := true }) s.fetched }
    let s2 := s1.tryCancelled q s1.fetched.length
    let s3 := cs.foldl (fun t x => t.abort x) s2
    okInline s3 c [byte code]

def execCmdCancel (i : Nat) (s : State) : Outcome := .next (stewardRow s i 0x026 cmdCancel)

/-- ADMISSION_DRAIN_TIMEOUT (R328, R292): 10 ms after admission stopped, what is still in flight is aborted. -/
def drainTimeout (s : State) : State :=
  if !s.sys.drainStop then s
  else s.abortWhere (fun c => !(c.phase == .waitOtp) && !(c.phase == .waitSwitch))

def execAdmissionDrainTimeout (s : State) : Outcome := .next (drainTimeout s)

/-! ## Teardown (R50) -/

def subtree (s : State) (p : Nat) : List Nat := ((s.parts.filter (fun x => s.inSubtree p x.id)).map (fun x => x.id))

/-- Commands of the partition in flight, the teardown itself apart. -/
def partBusy (s : State) (p : Nat) (who : Option Place) : Bool :=
  s.cmds.any (fun c => some c.place != who && c.part == p)

/-- The partition of a subtree that is processed next: the deepest, and among those the first. -/
def deepest (s : State) (root : Nat) : Option Part :=
  (s.parts.filter (fun x => s.inSubtree root x.id)).foldl (fun best x => match best with
    | none => some x
    | some b => if x.depth > b.depth then some x else some b) none

/-- Steps 1 and 2 for one partition: its mark stands, and its queues are unbound. -/
def tearPart (s : State) (root cur : Nat) (who : Option Place) : State :=
  let s1 := (s.queues.filter (fun q => q.bound && q.part == cur)).foldl (fun t q => t.unbind q.id) s
  { s1 with tears := s1.tears.filter (fun t => t.root != root) ++ [{ root := root, cur := cur, step := 3, who := who }] }

/-- The start of a teardown: the mark on the partition and every descendant, one committed change; then the deepest
partition is processed first. -/
def teardownStart (s : State) (c : Cmd) (p : Part) : State :=
  if !s.canCommit then s
  else
    let ids := subtree s p.id
    let s1 := { s with parts := updWhere (fun x => ids.contains x.id) (fun x => { x with tearing := true }) s.parts,
                       qr := { s.qr with nonces := s.qr.nonces.filter (fun n => !ids.contains n.part) } }
    let s2 := (s1.commit 0x04 p.id (p.body 2)).setCmd { c with phase := .waitTeardown p.id }
    tearPart s2 p.id (((deepest s2 p.id).map (fun x => x.id)).getD p.id) (some c.place)

/-- PART_TEARDOWN. Partition 0 cannot be torn down (R35): a command that names it completes with BAD_FIELD, like other field
checks after its quorum has passed and its nonce is consumed; R35 gives neither status nor moment (DESIGN CHOICE,
notes/assumptions/57.md). -/
def partTeardown (s : State) (c : Cmd) : State :=
  let n := c.inl 72 2
  if !(c.admin || c.part == n) then s.retire c 0x2001
  else match s.part? n with
    | none => s.retire c 0x1003
    | some p =>
      if p.tearing then s.retire c 0x1003
      else withQuorum s c (if n = 0 then s.retire c 0x1003 else teardownStart s c p)

def execPartTeardown (i : Nat) (s : State) : Outcome := .next (stewardRow s i 0x012 partTeardown)

/-- A teardown moves to a step. -/
def setTear (s : State) (root step : Nat) : State :=
  { s with tears := updWhere (fun t => t.root == root) (fun t => { t with step := step }) s.tears }

/-- Step 3: the abort point of the partition under way, 1 ms after the mark; step 4 then begins as a walk. -/
def abortPoint (p : Nat) (s : State) : State :=
  match s.tears.find? (fun t => t.cur == p && t.step == 3) with
  | none => s
  | some t =>
    let s1 := s.abortWhere (fun c => some c.place != t.who && c.part == p)
    let w : Walk := { parts := [p], who := none, teardown := some t.root }
    setTear { s1 with kc := { s1.kc with walks := s1.kc.walks ++ [w] } } t.root 4

def execTeardownAbortPoint (part : Nat) (s : State) : Outcome := .next (abortPoint part s)

/-- A live object's partition. -/
def objPart (s : State) (o : Obj) : Nat := fieldLe (s.objBody o) 0 2

/-- Step 5: tombstones for every object of the partition, and places in the table queues. -/
def teardownObjects (s : State) (t : Tear) : State :=
  let s1 := (s.liveObjs.filter (fun o => objPart s o == t.cur)).foldl (fun u o => u.enqueue (.tombstone o.handle) none) s
  let s2 := match t.who with
    | none => s1
    | some w => { s1 with rt := { s1.rt with rWait := s1.rt.rWait ++ [w], pWait := s1.rt.pWait ++ [w] } }
  setTear s2 t.root 5

/-- Nothing of a partition is left in the store or in the tables, and the updates that removed it are made. -/
def teardownClear (s : State) (t : Tear) : Bool :=
  let gone := fun (l : List Place) => match t.who with
    | none => true
    | some w => !l.contains w
  !s.liveObjs.any (fun o => objPart s o == t.cur) && gone s.rt.rWait && gone s.rt.pWait &&
    !(s.rt.routes s.rt.rgen).any (fun r => r.part == t.cur) && !(s.rt.rules s.rt.pgen).any (fun r => r.part == t.cur)

/-- Step 6 for one partition: its record goes, with a commit, and the duplicate records that followed it (R76). -/
def removePart (s : State) (p : Part) (c : Option Cmd) : State :=
  let s1 := { s with parts := s.parts.filter (fun x => x.id != p.id), dups := s.dups.filter (fun d => d.part != p.id) }
  match c with
  | none => s1.commit 0x04 p.id (p.gone s.rt.rgen s.rt.pgen)
  | some x => s1.commitFor x (zeros 16) 0x04 p.id (p.gone s.rt.rgen s.rt.pgen)

/-- Step 6; then the next partition, or the end of the teardown, whose completion carries the stamp of the last commit. -/
def teardownFinish (s : State) (t : Tear) : State :=
  let c := ((t.who.bind s.cmd?).filter (fun c => c.phase == .waitTeardown t.root)).map (fun x => s.stamped x)
  let p := (s.part? t.cur).getD Part.owner
  if t.cur ≠ t.root then
    let s1 := removePart s p none
    tearPart s1 t.root (((deepest s1 t.root).map (fun x => x.id)).getD t.root) t.who
  else
    let s1 := removePart s p c
    let s2 := { s1 with tears := s1.tears.filter (fun x => x.root != t.root) }
    match c with
    | none => s2
    | some x => s2.retireWith (x.setInline 0 (zeros 16)) 0 false false []

/-- A teardown in step 5 whose work is done goes on, when a commit may be made. -/
def teardownAdvance (s : State) : State :=
  match s.tears.find? (fun t => t.step == 5 && teardownClear s t) with
  | none => s
  | some t => if s.canCommit then teardownFinish s t else s

/-- The tables lose the partition's entries, as one update without a stamp (R180). -/
def teardownTables (policy : Bool) (s : State) (p : Nat) (w : Place) : State :=
  let drop := fun (l : List Place) => l.erase w
  if policy then
    let s1 := commitRules s ((s.rt.rules s.rt.pgen).filter (fun r => r.part != p)) [p]
    { s1 with rt := { s1.rt with pWait := drop s1.rt.pWait } }
  else
    let s1 := commitRoutes s ((s.rt.routes s.rt.rgen).filter (fun r => r.part != p))
    { s1 with rt := { s1.rt with rWait := drop s1.rt.rWait } }

/-- The command whose update comes next (R178): the first admitted among those that wait for the table and the update
commands of that table that are still on their way to it. -/
def nextUpdate (policy : Bool) (s : State) : Option Cmd :=
  let wait := if policy then s.rt.pWait else s.rt.rWait
  let op := if policy then 0x018 else 0x017
  (s.cmds.filter (fun c => wait.contains c.place || c.opcode == op)).foldl (fun best c => match best with
    | none => some c
    | some b => if c.order < b.order then some c else some b) none

/-- RT_UPDATE_SETTLED (R178): on a settled table the update whose turn it is runs. -/
def updateSettled (policy : Bool) (s : State) : State :=
  let ready := if policy then s.rt.pSettled else s.rt.rSettled
  match nextUpdate policy s with
  | none => s
  | some c =>
    if !ready ∨ !s.canCommit ∨ !(if policy then s.rt.pWait else s.rt.rWait).contains c.place then s
    else match c.phase, s.tears.find? (fun t => t.who == some c.place) with
      | .waitTeardown _, some t => teardownAdvance (teardownTables policy s t.cur c.place)
      | _, _ => runUpdate policy s c.place

def execRtUpdateSettled (policy : Bool) (s : State) : Outcome := .next (updateSettled policy s)

/-! ## Walks (R160) and the cache opcodes (R162) -/

/-- The walk at the head ends: entries removed, errors met by it logged. A teardown's walk begins only when no command of
its partitions is left in flight. -/
def walkDone (s : State) : State :=
  match s.kc.walks with
  | [] => s
  | w :: rest =>
    let tear := w.teardown.bind (fun p => s.tears.find? (fun t => t.root == p))
    if (tear.map (fun t => partBusy s t.cur t.who)).getD false then s
    else
      let s0 := { s with kc := { s.kc with walks := rest } }
      let bad := s0.eccHeads (fun x => x.valid && !x.invalidated)
      let s1 := bad.foldl (fun t x => t.eccDrop x 0xFFFFFFFF) s0
      let n := (s1.kc.ways.filter (fun x => w.parts.contains x.part && !x.cont && x.valid && !x.invalidated)).length
      let s2 := s1.walk w.parts
      match tear, w.who.bind s2.cmd? with
      | some t, _ => teardownAdvance (teardownObjects s2 t)
      | none, some c => if c.phase == .waitWalk then okInline s2 c (toLe 4 n) else s2
      | none, none => s2

def execKcWalkDone (s : State) : Outcome := .next (walkDone s)

/-- KC_FLUSH. -/
def kcFlush (s : State) (c : Cmd) : State :=
  let h := c.inl 72 8
  if h = 0 then
    let ps := if bit (c.inl 80 1) 0 then subtree s c.part else [c.part]
    let s1 := s.setCmd { c with phase := .waitWalk }
    { s1 with kc := { s1.kc with walks := s1.kc.walks ++ [{ parts := ps, who := some c.place, teardown := none }] } }
  else match handleWay s c.part h with
    | none => s.retire c 0x3001
    | some w => okInline (flushWay s w) c (toLe 4 1)

def execKcFlush (i : Nat) (s : State) : Outcome := .next (stewardRow s i 0x035 kcFlush)

/-- KC_QUERY. -/
def kcQuery (s : State) (c : Cmd) : State :=
  match handleWay s c.part (c.inl 72 8) with
  | none => s.retire c 0x3001
  | some w =>
    okInline s c (toLe 2 w.part ++ [byte w.key.usage, byte w.key.alg, byte w.source, byte (wayFlags w), byte w.age] ++
      toLe 2 w.pins ++ toLe 6 w.key.notAfter)

def execKcQuery (i : Nat) (s : State) : Outcome := .next (stewardRow s i 0x036 kcQuery)

/-! ## Table opcodes (R175-R181) -/

/-- An update waits for its table (R178). -/
def enqueueUpdate (policy : Bool) (s : State) (c : Cmd) : State :=
  if !allZero (c.inlB 72 56) then updateFail s c 2 0xFFFF
  else
    let s1 := s.setCmd { c with phase := .waitTable }
    if policy then { s1 with rt := { s1.rt with pWait := s1.rt.pWait ++ [c.place] } }
    else { s1 with rt := { s1.rt with rWait := s1.rt.rWait ++ [c.place] } }

/-- RT_ROUTE_UPDATE. -/
def execRtRouteUpdate (i : Nat) (s : State) : Outcome := .next (stewardRow s i 0x017 (enqueueUpdate false))

/-- RT_POLICY_UPDATE: the header's partition is resolved before the quorum, the caller's reach after it (R264). -/
def rtPolicyUpdate (s : State) (c : Cmd) : State :=
  let p := fieldLe (c.own true) 0 2
  match s.part? p with
  | none => updateFail s c 4 0xFFFF
  | some x => if x.tearing then updateFail s c 4 0xFFFF else withQuorum s c (enqueueUpdate true s c)

def execRtPolicyUpdate (i : Nat) (s : State) : Outcome := .next (stewardRow s i 0x018 rtPolicyUpdate)

/-- A failing RT_QUERY, RT_ROUTE_LAYOUT or RT_SET_LIMITS: the detail in byte 16. -/
def tableFail (s : State) (c : Cmd) (d : Nat) : State := failDetail s c (detailStatus d) [byte d]

def holds (t : RtTables) (len : Nat) : Bool := (t.routes0 ++ t.routes1).any (fun r => r.len == len)

/-- The range of a new layout meets that of another length that holds entries. -/
def layoutClash (t : RtTables) (len k base : Nat) : Bool :=
  (List.range 19).any (fun i => match t.layout[i]? with
    | none => false
    | some (_, b') => i + 1 != len && holds t (i + 1) &&
        decide (base < b' + 2 ^ (t.lenCfg (i + 1)).1 ∧ b' < base + 2 ^ k))

/-- RT_ROUTE_LAYOUT (R181): takes effect at once; an unstamped record (Table 12.6). -/
def rtRouteLayout (s : State) (c : Cmd) : State :=
  let len := c.inl 72 1
  let k := c.inl 73 1
  let base := c.inl 76 4
  if len < 1 ∨ len > 19 ∨ k > 17 ∨ !allZero (c.inlB 74 2) ∨ !allZero (c.inlB 80 48) ∨ holds s.rt len ∨
     base + 2 ^ k > 163840 ∨ layoutClash s.rt len k base then tableFail s c 2
  else
    let s1 := { s with rt := { s.rt with layout := s.rt.layout.set (len - 1) (k, base) } }
    okInline (s1.record { stamp := 0, typ := 0x14, part := 0, body := [1#8, byte len, byte k, 0#8] ++ toLe 4 base }) c []

def execRtRouteLayout (i : Nat) (s : State) : Outcome := .next (stewardRow s i 0x019 rtRouteLayout)

/-- RT_QUERY. -/
def rtQuery (s : State) (c : Cmd) : State :=
  let sel := c.inl 72 1
  let p := c.inl 74 2
  let used := if sel = 0 then 11 else 8
  if sel > 1 ∨ !allZero (c.inlB 73 1) ∨ !allZero (c.inlB 76 4) ∨ !allZero (c.inlB (80 + used) (48 - used)) then tableFail s c 2
  else match s.part? p with
    | none => tableFail s c 4
    | some x =>
      if x.tearing ∨ !(c.admin || c.part == p) then tableFail s c 4
      else if sel = 0 then
        let b := c.inlB 80 11
        let ds := if byteAt b 0 > 19 then [] else digitString b
        let r := panLookup (s.rt.routes s.rt.rgen) p ds
        okInline { s with rt := { s.rt with probes := (s.rt.probes + r.2) % 2 ^ 32 } } c (routeOutput r.1)
      else okInline (countPolicy s) c (ruleOutput (policyLookup (s.rt.rules s.rt.pgen) p (c.inl 80 8)))

def execRtQuery (i : Nat) (s : State) : Outcome := .next (stewardRow s i 0x01A rtQuery)

def limitOf (n : Nat) : Option Nat := if n = 0xFFFFFFFF then none else some n

/-- RT_SET_LIMITS (R181). -/
def rtSetLimits (s : State) (c : Cmd) : State :=
  let n := c.inl 72 2
  match s.part? n with
  | none => tableFail s c 4
  | some p =>
    if p.tearing then tableFail s c 4
    else withQuorum s c (
      if !allZero (c.inlB 74 2) ∨ !allZero (c.inlB 84 44) then tableFail s c 2
      else if c.inl 76 4 < ((s.rt.routes s.rt.rgen).filter (fun r => r.part == n)).length ∨
              c.inl 80 4 < ((s.rt.rules s.rt.pgen).filter (fun r => r.part == n)).length then tableFail s c 9
      else
        let s1 := s.modPart n (fun x => { x with prefixLimit := limitOf (c.inl 76 4), ruleLimit := limitOf (c.inl 80 4) })
        okInline (s1.record { stamp := 0, typ := 0x14, part := n, body := [2#8, 0#8] ++ toLe 2 n ++ c.inlB 76 8 }) c [])

def execRtSetLimits (i : Nat) (s : State) : Outcome := .next (stewardRow s i 0x01B rtSetLimits)

end Sys2Proof.Machine
end

