-- ==== Sys2Proof/Machine/Time.lean ====
section
/-! DEFINITION. Network time (chapter 13): the counter, the time states, the servo, PTP, PPS, the partner exchange of a
standby, and the time opcodes. -/

namespace Sys2Proof.Machine

open Sys2Proof

/-! ## The counter (R300, R301) -/

/-- One second in the accumulator's units of 2^-28 ns. -/
def secUnits : Nat := 1000000000 * 2 ^ 28

/-- The counter in ns since the epoch. -/
def State.timeNs (s : State) : Int := (s.pt.sec * 1000000000 + s.pt.acc / 2 ^ 28 : Nat)

/-- ADDEND kept within 25 ppm of nominal (R300). -/
def clampAddend (n : Nat) : Nat := max (0x42AAAAAB - 27962) (min (0x42AAAAAB + 27962) n)

/-- One tick: ADDEND, the carry into the seconds, and PPS_OUT (R300, R309). A pulse that has begun completes. -/
def TimeKeep.tick (t : TimeKeep) (trusted : Bool) : TimeKeep :=
  let a := t.acc + t.addend
  let left := t.ppsLeft - t.addend
  if a < secUnits then { t with acc := a, ppsLeft := left }
  else { t with acc := a - secUnits, sec := (t.sec + 1) % 2 ^ 48,
                ppsLeft := if t.ppsOut && trusted && left == 0 then t.ppsWidth * 2000000 * 2 ^ 28 else left }

/-- TIME_COUNTER_TICK. While the root PLL is unlocked the counter does not advance (R30). -/
def execTimeCounterTick (s : State) : Outcome :=
  .next (if s.sys.pllLock then { s with pt := s.pt.tick s.trusted } else s)

/-- PT_TIME_CAPTURE: a read of PT.TIME_NS captures all 80 bits (R301). -/
def timeCapture (s : State) : State :=
  ({ s with pt := { s.pt with capSec := s.nowSec, capNs := s.nowNs } }).send (.regRead 0x100E0008 s.nowNs true)

def execPtTimeCapture (s : State) : Outcome := .next (timeCapture s)

/-- A step: the counter becomes counter - offset, within one tick; event 0x0803 (R304). -/
def stepTime (s : State) (off : Int) : State :=
  let t := (s.timeNs - off) % (2 ^ 48 * 1000000000 : Int)
  let n := t.toNat
  let st := toField 64 (-off)
  ({ s with pt := { s.pt with sec := n / 1000000000, acc := n % 1000000000 * 2 ^ 28 + s.pt.acc % 2 ^ 28 } }).raise 0x0803
    (st % 2 ^ 32) (st / 2 ^ 32) (s.pt.sec % 2 ^ 32) 0

/-! ## Time states (R302, R303) -/

/-- A change of state writes event 0x0801 and raises HIRQ.CAUSE.TIME. -/
def changeTime (s : State) (n : Nat) (off : Int) : State :=
  if s.pt.state = n then s
  else (({ s with pt := { s.pt with outliers := 0, count := if n = 2 then s.pt.count else 0 } }).setTimeState n).raise 0x0801
    s.pt.state n (toField 32 off) 0

/-- ADDEND at its mean over the last 64 measurements. -/
def meanAddend (t : TimeKeep) : Nat :=
  if t.history = [] then t.addend else clampAddend (t.history.sum / t.history.length)

/-- LOCKED becomes HOLDOVER. -/
def toHoldover (s : State) : State :=
  changeTime { s with pt := { s.pt with addend := meanAddend s.pt, holdSec := s.pt.sec } } 3 0

/-- The source is lost, PD26 is switched off or reset, or 3 s pass without a measurement (Table 13.2). -/
def loseSource (s : State) : State :=
  if s.pt.state = 1 then changeTime s 0 0 else if s.pt.state = 2 then toHoldover s else s

/-- The source is another one (Table 13.2): only LOCKED ends. -/
def changeSource (s : State) : State := if s.pt.state = 2 then toHoldover s else s

/-- The root PLL loses its lock: FREE_RUN (R30). -/
def timeUnlock (s : State) : State := changeTime s 0 0

/-- The proportional-integral loop on the offset (R304): nominal ADDEND, corrected by KP times the offset and KI times the sum
of the offsets, at a scale that the manual does not give (notes/assumptions/25.md). -/
def servoAddend (t : TimeKeep) (off : Int) : Nat :=
  clampAddend (0x42AAAAAB - Config.servoScale (t.kp * off + t.ki * (t.integ + off))).toNat

/-- The servo slews by ADDEND; the value used joins the last 64. -/
def slew (s : State) (off : Int) : State :=
  let a := servoAddend s.pt off
  { s with pt := { s.pt with addend := a, integ := s.pt.integ + off,
                             history := ((s.pt.history ++ [a]).drop ((s.pt.history.length + 1) - 64)) } }

/-- A measurement of LOCKED or HOLDOVER beyond the outlier bound; one of 1 ms or more in HOLDOVER follows Table 13.2
instead (notes/assumptions/25.md). -/
def isOutlier (s : State) (off : Int) : Bool :=
  (s.pt.state == 2 || s.pt.state == 3) && decide (off.natAbs > s.pt.outlierUs * 1000) &&
    !(s.pt.state == 3 && decide (off.natAbs ≥ 1000000))

/-- An outlier is discarded; eight in a row in LOCKED lead to ACQUIRING (R307). -/
def outlier (s : State) (off : Int) : State :=
  let s1 := ({ s with pt := { s.pt with outliers := s.pt.outliers + 1, drops := (s.pt.drops + 1) % 2 ^ 32 } }).raise 0x0805
    (toField 32 off) 0 0 0
  if s.pt.state = 2 ∧ s.pt.outliers + 1 ≥ 8 then changeTime s1 1 off else s1

/-- A signed 32-bit value, saturating. -/
def sat32 (x : Int) : Int := max (-2147483648) (min 2147483647 x)

/-- One measurement (Table 13.2); the sixteenth in a row below 1 µs leads to state `lock`. -/
def measureTo (lock : Nat) (s : State) (off : Int) : State :=
  if isOutlier s off then outlier s off
  else
    let s0 := { s with pt := { s.pt with outliers := 0, lastOffset := sat32 off } }
    if off.natAbs ≥ 1000000 ∧ s.pt.state ≠ 2 then
      changeTime (stepTime { s0 with pt := { s0.pt with count := 0 } } off) 1 off
    else
      let s1 := slew (if s.pt.state = 0 then changeTime s0 1 off else s0) off
      let n := if off.natAbs < 1000 then min 16 (s1.pt.count + 1) else 0
      let s2 := { s1 with pt := { s1.pt with count := n } }
      if n = 16 ∧ s2.pt.state ≠ lock then
        { changeTime s2 lock off with pt := { (changeTime s2 lock off).pt with count := n } }
      else s2

/-- A measurement of the device's own source. -/
def measure (s : State) (off : Int) : State := measureTo 2 s off

/-- TIME_SOURCE_TIMEOUT: no measurement accepted for 3 s. -/
def execTimeSourceTimeout (s : State) : Outcome := .next (loseSource s)

/-- The holdover time in seconds; the seconds count modulo 2^48. -/
def holdSeconds (s : State) : Nat := if s.pt.state = 3 then (s.pt.sec + 2 ^ 48 - s.pt.holdSec) % 2 ^ 48 else 0

/-- The holdover time has reached PT.HOLD.LIMIT_H. -/
def holdOver (s : State) : Bool := s.pt.state == 3 && decide (s.pt.limitH * 3600 ≤ holdSeconds s)

/-- HOLDOVER_LIMIT: event 0x0804. -/
def execHoldoverLimit (s : State) : Outcome :=
  .next (if holdOver s then (changeTime s 0 0).raise 0x0804 s.pt.limitH 0 0 0 else s)

/-- The holdover time in minutes (PT.HOLD.ELAPSED_MIN). -/
def holdMinutes (s : State) : Nat := holdSeconds s / 60

/-! ## PTP (R305-R307) -/

/-- A violation of Table 13.4: dropped, counted and logged. -/
def ptpBad (s : State) (typ : Nat) (m : PtpMsg) : State :=
  ({ s with pt := { s.pt with drops := (s.pt.drops + 1) % 2 ^ 32 } }).raise 0x0807 typ m.seqId 0 0

/-- The port hears the message: PD26 on, its mapping and its domain. -/
def ptpHeard (s : State) (m : PtpMsg) : Bool := s.powered 26 && m.mapping == s.pt.mapping && m.domain == s.pt.domain

/-- The counts of the second under way (at most 16 Syncs and 16 Announces). -/
def ptpSecond (s : State) : State :=
  let n := s.evr.optime / 1000
  if s.pt.rateSec = n then s else { s with pt := { s.pt with rateSec := n, syncs := 0, announces := 0 } }

/-- A message of a defined version, whole, and at least `n` bytes long: 64 for an Announce, 44 for a Sync or Follow_Up, 54 for
a Delay_Resp (IEEE 1588-2019, which R305 names; notes/assumptions/69.md). -/
def ptpWhole (m : PtpMsg) (n : Nat) : Bool :=
  !m.malformed && m.version == 2 && decide (n ≤ m.length) && decide (m.length ≤ m.octets)

/-- An interval of 2^k seconds, in ms. -/
def intervalMs (k : Int) : Nat := if 0 ≤ k then 1000 * 2 ^ k.toNat else 1000 / 2 ^ (-k).toNat

/-- The dataset of an Announce in the order of the dataset comparison of clause 9.3: the lower is the better. Of one
grandmaster the fewer steps decide, then the sender (notes/assumptions/69.md). -/
def ptpDataset (m : PtpMsg) : List Nat :=
  [m.priority1, m.clockClass, m.accuracy, m.variance, m.priority2, m.grandmaster, m.stepsRemoved, m.clockId]

/-- The first list comes before the second. -/
def lexBefore : List Nat → List Nat → Bool
  | [], _ => false
  | _ :: _, [] => false
  | a :: as, b :: bs => if a = b then lexBefore as bs else decide (a < b)

/-- A master is qualified: two Announces within four announce intervals (Table 13.3). -/
def Master.qualified (x : Master) (now : Nat) : Bool :=
  decide (2 ≤ (x.heard.filter (fun t => decide (now ≤ t + 4 * intervalMs x.msg.logInterval))).length)

/-- The best qualified master. -/
def bestMaster (s : State) : Option Master :=
  (s.pt.masters.filter (fun x => x.qualified s.evr.optime)).foldl (fun b x => match b with
    | none => some x
    | some y => if lexBefore (ptpDataset x.msg) (ptpDataset y.msg) then some x else some y) none

/-- The exchange in progress is given up. -/
def TimeKeep.noExchange (t : TimeKeep) : TimeKeep := { t with syncSeq := none, t1 := none, req := none, resp := none }

/-- A master is selected (event 0x0802); another than the one in force is a change of source. -/
def selectMaster (s : State) (m : PtpMsg) : State :=
  let s1 := if s.pt.gmid ≠ 0 then changeSource { s with pt := { s.pt with drops := (s.pt.drops + 1) % 2 ^ 32 } } else s
  ({ s1 with pt := { s1.pt.noExchange with gmid := m.clockId, utcOff := m.utcOffset, minReq := 0 } }).raise 0x0802
    (m.clockId % 2 ^ 32) (m.clockId / 2 ^ 32) 0 0

/-- The best qualified master is the one selected. -/
def electMaster (s : State) : State :=
  match bestMaster s with
  | none => s
  | some x => if x.msg.clockId = s.pt.gmid then s else selectMaster s x.msg

/-- A master leaves the list; the selected one is a lost source. -/
def dropMaster (s : State) (id : Nat) : State :=
  let s1 := { s with pt := { s.pt with masters := s.pt.masters.filter (fun x => x.msg.clockId != id) } }
  if s.pt.gmid = id ∧ id ≠ 0 then electMaster (loseSource { s1 with pt := { s1.pt.noExchange with gmid := 0 } }) else s1

/-- A master's Announce joins those it has sent; the last two matter. -/
def hearMaster (s : State) (m : PtpMsg) : State :=
  let old := ((s.pt.masters.find? (fun x => x.msg.clockId == m.clockId)).map (fun x => x.heard)).getD []
  { s with pt := { s.pt with
      masters := { msg := m, heard := s.evr.optime :: old.take 1 } :: s.pt.masters.filter (fun y => y.msg.clockId != m.clockId)
      utcOff := if s.pt.gmid = m.clockId then m.utcOffset else s.pt.utcOff } }

/-- PTP_ANNOUNCE: best-master selection (Table 13.3). -/
def ptpAnnounce (m : PtpMsg) (s0 : State) : State :=
  if !ptpHeard s0 m then s0
  else
    let s := ptpSecond s0
    if !ptpWhole m 64 ∨ s.pt.announces ≥ 16 then ptpBad s 0xB m
    else
      let s1 := { s with pt := { s.pt with announces := s.pt.announces + 1 } }
      if m.clockClass = 255 ∨ m.stepsRemoved ≥ 255 then dropMaster (ptpBad s1 0xB m) m.clockId
      else if !m.ptpTimescale then dropMaster s1 m.clockId
      else electMaster (hearMaster s1 m)

def execPtpAnnounce (m : PtpMsg) (s : State) : Outcome := .next (ptpAnnounce m s)

/-- The message comes from the selected master. -/
def fromMaster (s : State) (m : PtpMsg) : Bool := m.clockId == s.pt.gmid && s.pt.gmid != 0

/-- Addresses of a Delay_Req (Table 13.3): the multicast address of the mapping; the port's MAC, PT.IPV4, or the link-local
address that the MAC gives. -/
def ptpDst (mapping : Nat) : Bytes :=
  if mapping = 0 then [0x01#8, 0x1B#8, 0x19#8, 0x00#8, 0x00#8, 0x00#8]
  else if mapping = 1 then [224#8, 0#8, 1#8, 129#8]
  else [0xFF#8, 0x0E#8] ++ zeros 12 ++ [0x01#8, 0x81#8]

def ptpSrc (t : TimeKeep) : Bytes :=
  let mac := sl Config.portMac 0 6
  if t.mapping = 0 then mac
  else if t.mapping = 1 then toBe 4 t.ipv4
  else [0xFE#8, 0x80#8] ++ zeros 6 ++ (mac.take 1).map (fun b => b ^^^ 2#8) ++ sl mac 1 2 ++ [0xFF#8, 0xFE#8] ++ sl mac 3 3

/-- The master's logMinDelayReqInterval allows a Delay_Req now (R306). -/
def delayDue (s : State) : Bool :=
  match s.pt.lastReq with
  | none => true
  | some t => decide (t + intervalMs s.pt.minReq ≤ s.evr.optime)

/-- A Delay_Req leaves, timestamped at egress. -/
def sendDelayReq (s : State) : State :=
  ({ s with pt := { s.pt with req := some (s.pt.reqSeq, s.timeNs + Config.pathOut), reqSeq := (s.pt.reqSeq + 1) % 65536,
                              lastReq := some s.evr.optime } } : State).send
    (.delayReq s.pt.mapping (ptpDst s.pt.mapping) (ptpSrc s.pt) s.pt.domain s.pt.reqSeq)

/-- PTP_SYNC: timestamped at ingress; a Delay_Req follows when the master's interval allows one. -/
def ptpSync (m : PtpMsg) (s0 : State) : State :=
  if !ptpHeard s0 m then s0
  else
    let s := ptpSecond s0
    if !ptpWhole m 44 ∨ !fromMaster s m ∨ s.pt.syncs ≥ 16 then ptpBad s 0 m
    else
      let s1 := { s with pt := { s.pt with syncs := s.pt.syncs + 1, syncSeq := some m.seqId, t2 := m.rxNs - Config.pathIn,
                                           cfSync := m.cf, t1 := if m.twoStep then none else some m.originNs, req := none,
                                           resp := none } }
      if delayDue s1 then sendDelayReq s1 else s1

def execPtpSync (m : PtpMsg) (s : State) : Outcome := .next (ptpSync m s)

/-- The offset of an exchange (R306). -/
def offsetOf (t1 t2 t3 t4 cfSync cfResp asym : Int) : Int := ((t2 - t1 - cfSync) - (t4 - t3 - cfResp)) / 2 + asym

/-- A measurement's whole seconds, to the nearest. -/
def wholeSeconds (off : Int) : Int := (off + 500000000) / 1000000000 * 1000000000

/-- A PTP measurement: on a standby it feeds nothing; beside PPS_IN it steers only whole seconds (R308, R310). -/
def ptpMeasure (s : State) (off : Int) : State :=
  if s.lk.role = 3 then s
  else if s.pt.ppsLock then (if wholeSeconds off = 0 then s else measure s (wholeSeconds off))
  else measure s off

/-- The exchange is complete once t1, the Delay_Req and its answer are there (R306). -/
def ptpExchange (s : State) : State :=
  match s.pt.t1, s.pt.req, s.pt.resp with
  | some t1, some r, some a =>
    ptpMeasure { s with pt := s.pt.noExchange } (offsetOf t1 s.pt.t2 r.2 a.1 s.pt.cfSync a.2 s.pt.asym)
  | _, _, _ => s

/-- PTP_FOLLOW_UP: t1 of a two-step master. -/
def ptpFollowUp (m : PtpMsg) (s : State) : State :=
  if !ptpHeard s m then s
  else if !ptpWhole m 44 ∨ !fromMaster s m ∨ s.pt.syncSeq ≠ some m.seqId ∨ s.pt.t1.isSome then ptpBad s 8 m
  else ptpExchange { s with pt := { s.pt with t1 := some m.originNs, cfSync := s.pt.cfSync + m.cf } }

def execPtpFollowUp (m : PtpMsg) (s : State) : Outcome := .next (ptpFollowUp m s)

/-- The Delay_Resp answers the Delay_Req outstanding: its sequenceId, its requestingPortIdentity, and no answer yet. -/
def answersReq (s : State) (m : PtpMsg) : Bool :=
  m.reqPortOk && s.pt.req.any (fun r => r.1 == m.seqId) && s.pt.resp.isNone

/-- PTP_DELAY_RESP: t4, and the master's logMinDelayReqInterval. -/
def ptpDelayResp (m : PtpMsg) (s : State) : State :=
  if !ptpHeard s m then s
  else if !ptpWhole m 54 ∨ !fromMaster s m ∨ !answersReq s m then ptpBad s 9 m
  else ptpExchange { s with pt := { s.pt with resp := some (m.originNs, m.cf), minReq := m.logInterval } }

def execPtpDelayResp (m : PtpMsg) (s : State) : Outcome := .next (ptpDelayResp m s)

/-- PTP_IGNORED_MESSAGE: discarded without a violation count (Table 13.3). -/
def execPtpIgnoredMessage (s : State) : Outcome := .next s

/-! ## PPS_IN (R308) -/

/-- The timestamp's nanoseconds folded into half a second either side. -/
def foldPhase (ns : Nat) : Int := if ns % 1000000000 ≥ 500000000 then (ns % 1000000000 : Nat) - 1000000000 else (ns % 1000000000 : Nat)

/-- PPS_IN_EDGE. With no PTP master nothing supplies the seconds, and the edge is no measurement. Causes of event 0x0806: 1
dropped, 2 lost (notes/assumptions/25.md). -/
def ppsEdge (ns : Nat) (s : State) : State :=
  if !s.pt.ppsIn ∨ s.lk.role = 3 ∨ s.pt.gmid = 0 then s
  else
    let off := foldPhase ns + s.pt.asym
    if off.natAbs > 1000000 then
      ({ s with pt := { s.pt with drops := (s.pt.drops + 1) % 2 ^ 32 } }).raise 0x0806 1 0 0 0
    else measure { s with pt := { s.pt with ppsLock := true } } off

def execPpsInEdge (ns : Nat) (s : State) : Outcome := .next (ppsEdge ns s)

def execPpsInLoss (s : State) : Outcome :=
  .next (if s.pt.ppsLock then ({ s with pt := { s.pt with ppsLock := false } }).raise 0x0806 2 0 0 0 else s)

/-! ## Time on a standby (R310, R311) -/

/-- STANDBY_TIME_EXCHANGE: a TIME frame of kind 1. The manual gives no layout for TIME frames; the model's is the kind,
then two times in ns, the state and the holdover start (notes/assumptions/23.md). -/
def timeExchange (s : State) : State :=
  if s.lk.role ≥ 1 ∧ s.lk.role ≤ 2 ∨ s.lk.pstate = 0 ∨ s.lk.sessTx = [] then s
  else ({ s with pt := { s.pt with xchg := some s.timeNs } }).frame 0x08 false s.lk.beat [1#8]

def execStandbyTimeExchange (s : State) : Outcome := .next (timeExchange s)

/-- The answer of kind 2. -/
def timeAnswer (s : State) (rx : Int) : State :=
  s.frame 0x08 false s.lk.beat ([2#8] ++ toLe 10 (toField 80 rx) ++ toLe 10 (toField 80 s.timeNs) ++ [byte s.pt.state] ++
    toLe 6 s.pt.holdSec)

/-- One partner exchange ends: slave time minus source time; one that took more than 10 ms is no measurement
(Table 18.5). Sixteen exchanges below 1 µs give the standby the active member's state; otherwise its state follows
Table 13.2. -/
def partnerMeasure (s : State) (p : Bytes) (rx : Int) : State :=
  match s.pt.xchg with
  | none => s
  | some t1 =>
    let t2 : Int := (fieldLe p 1 10 : Nat)
    let t3 : Int := (fieldLe p 11 10 : Nat)
    let ps := byteAt p 21 % 4
    let s0 := { s with pt := { s.pt with xchg := none } }
    if rx - t1 > 10000000 then s0
    else
      let s1 := { s0 with pt := { s0.pt with partner := true, partnerState := ps, partnerHold := fieldLe p 22 6 } }
      let s2 := measureTo ps s1 (-(((t2 - t1) - (rx - t3)) / 2))
      if s2.pt.count = 16 ∧ ps = 3 then { s2 with pt := { s2.pt with holdSec := fieldLe p 22 6 } } else s2

/-- A promoted member keeps trusted time as HOLDOVER (R311). -/
def timePromote (s : State) : State :=
  let s0 := { s with pt := { s.pt with partner := false, xchg := none } }
  if s.pt.state ≠ 2 ∧ s.pt.state ≠ 3 then s0
  else
    let start := if s.pt.partner && s.pt.partnerState == 3 then s.pt.partnerHold else if s.pt.state = 3 then s.pt.holdSec else s.pt.sec
    let s1 := if s.pt.state = 2 then toHoldover s0 else s0
    { s1 with pt := { s1.pt with holdSec := start } }

/-! ## Configuration (R313) -/

def timeCfg (c : Cmd) (t : TimeKeep) : PtCfg :=
  let a := c.inl 80 4
  { mapping := c.inl 72 1, domain := c.inl 73 1, ppsIn := bit (c.inl 74 1) 0, ppsOut := bit (c.inl 74 1) 1,
    ppsWidth := c.inl 75 1, outlierUs := c.inl 78 2, kp := t.kp, ki := t.ki,
    asym := if a ≥ 2 ^ 31 then (a : Int) - 2 ^ 32 else a, limitH := c.inl 76 2, ipv4 := c.inl 84 4 }

/-- Values of the configuration region take effect. -/
def TimeKeep.load (t : TimeKeep) (k : PtCfg) : TimeKeep :=
  { t with mapping := k.mapping, domain := k.domain, ppsIn := k.ppsIn, ppsLock := t.ppsLock && k.ppsIn, ppsOut := k.ppsOut,
           ppsWidth := k.ppsWidth,
           outlierUs := k.outlierUs, kp := k.kp, ki := k.ki, asym := k.asym, limitH := k.limitH, ipv4 := k.ipv4 }

/-- PT_SET_CONFIG. A new mapping or domain leaves the port without its master. -/
def ptSetConfig (s : State) (c : Cmd) : State :=
  let w := c.inl 75 1
  let lim := c.inl 76 2
  let out := c.inl 78 2
  if c.inl 72 1 > 2 ∨ c.inl 73 1 > 127 ∨ c.inl 74 1 ≥ 4 ∨ w < 1 ∨ w > 250 ∨ lim < 1 ∨ lim > 168 ∨ out < 1 ∨ out > 1000 ∨
     !allZero (c.inlB 88 40) then badParam s c
  else
    let k := timeCfg c s.pt
    let moved := k.mapping ≠ s.pt.mapping ∨ k.domain ≠ s.pt.domain
    let s1 := { s with pt := { s.pt.load k with cfgStored := some k } }
    okInline (if moved then dropMaster { s1 with pt := { s1.pt with masters := [] } } s1.pt.gmid else s1) c []

def execPtSetConfig (i : Nat) (s : State) : Outcome := .next (stewardRow s i 0x1A0 ptSetConfig)

/-- PT_QUERY. -/
def ptQuery (s : State) (c : Cmd) : State :=
  okInline s c ([byte s.pt.state] ++ toLe 8 s.pt.gmid ++ toLe 4 (toField 32 s.pt.lastOffset) ++
    toLe 2 (min 0xFFFF (holdMinutes s)) ++ [byte s.pt.mapping])

def execPtQuery (i : Nat) (s : State) : Outcome := .next (stewardRow s i 0x1A1 ptQuery)

end Sys2Proof.Machine
end

