-- ==== Sys2Proof/Machine/Link.lean ====
section
/-! DEFINITION. The Luaka link of a pair (R275-R282, R286, R296): HELLO, the keys of an establishment, the pairing ceremony's
exchange, what the active member sends when the link comes up, and the reception of a frame. -/

namespace Sys2Proof.Machine

open Sys2Proof

def State.modLk (s : State) (f : Link → Link) : State := { s with lk := f s.lk }

/-! ## Who a member is -/

/-- The link trains while PD25 is on and a pair record exists or a PAIR_BEGIN is pending (R275). -/
def State.linkWanted (s : State) : Bool := s.powered 25 && (s.lk.pairRec.isSome || s.lk.ceremony)

/-- The seed of the device identity key (R119, R144). -/
def State.idSeed (s : State) : Bytes := identitySeed (s.stoneKey.getD (zeros 32))

/-- The pair identity public key, zeros while unpaired. -/
def State.pairPublic (s : State) : Bytes :=
  match s.lk.pairRec with
  | none => zeros 32
  | some r => sl (Config.edPublic (pairSeed r.secret)) 0 32

/-- MIRROR_FORMAT of the running firmware (Table 14.7). -/
def State.mirrorFormat (s : State) : Nat := fieldLe s.lc.running.header 10 2

/-- The last beat a HELLO shows: the last closed of an ACTIVE member, otherwise the last applied, 0 for none. -/
def State.lastBeat (s : State) : Nat :=
  if s.lk.role = 2 then s.lk.closed else if s.lk.done ≠ 0 then s.lk.done else s.lk.recorded.getD 0

/-- Lanes that a link which begins to train tries, 0 while it does not train (R275). -/
def trainLanes (s : State) : State :=
  s.modLk (fun l => { l with lanes := if s.linkWanted then (if l.lanes = 0 then 4 else l.lanes) else 0 })

/-! ## HELLO (Table 12.4) -/

/-- Bits of byte 12. A standby that waits for the snapshot of event 0x0715 shows COMPLETE clear: nothing else in the link
protocol asks its partner for one (DESIGN CHOICE, notes/assumptions/64.md). -/
def helloFlags (s : State) : Nat :=
  b2n s.lk.pairRec.isSome + 2 * b2n (s.lk.role == 2) + 4 * b2n (s.lk.role == 1) +
    8 * b2n (s.lk.complete && !(s.lk.role == 3 && s.lk.pstate == 2)) +
    16 * b2n s.lk.ceremony + 32 * b2n (s.lk.ceremony && s.lk.source)

def helloBody (s : State) : Bytes :=
  ascii "SLKLUAKA" ++ toLe 2 s.mirrorFormat ++ [byte (b2n s.lk.strap), byte s.lc.state, byte (helloFlags s), 0#8, 0#8, 0#8] ++
    sl s.serial 0 8 ++ toLe 6 s.lastBeat ++ [0#8, 0#8] ++ sl (Config.edPublic s.idSeed) 0 32 ++
    sl (Config.x25519Public s.lk.eph) 0 32 ++ sl s.lk.ownNonce 0 32 ++
    (if s.lk.ceremony then zeros 32 else sha32 s.pairPublic)

/-- A HELLO carries SEQUENCE 0 and a clear payload (R277). -/
def sendHello (s : State) : State :=
  let b := helloBody s
  (s.modLk (fun l => { l with tx := (l.tx + 1) % 2 ^ 32, helloDue := false })).send
    (.frame { header := frameHeader 0x01 false 224 0 0, body := b ++ sl (Config.edSign s.idSeed b) 0 64, tag := zeros 16 })

def Hello.of (p : Bytes) : Hello :=
  { strap := byteAt p 10 == 1, lc := byteAt p 11, flags := byteAt p 12, serial := fieldLe p 16 8, lastBeat := fieldLe p 24 6,
    idKey := sl p 32 32, ephKey := sl p 64 32, nonce := sl p 96 32, format := fieldLe p 8 2 }

/-- Its signature verifies under the key it carries, and its fixed parts stand. -/
def helloSigned (p : Bytes) : Bool :=
  p.length == 224 && p.take 8 == ascii "SLKLUAKA" && decide (byteAt p 10 < 2) && decide (byteAt p 12 < 64) &&
    allZero (sl p 13 3) && allZero (sl p 30 2) && edOk (sl p 32 32) (sl p 160 64) (p.take 160)

/-- The event of Table 12.9 for a HELLO that is not valid against an expected key and serial (R278). -/
def helloFault (s : State) (p key : Bytes) (serial : Nat) (digest paired : Bool) : Option Nat :=
  let h := Hello.of p
  if !helloSigned p ∨ h.idKey ≠ key ∨ h.serial ≠ serial ∨ (digest ∧ sl p 128 32 ≠ sha32 s.pairPublic) ∨
     (paired ∧ !bit h.flags 0) then some 0x0713
  else if h.strap = s.lk.strap ∨ h.format ≠ s.mirrorFormat ∨ h.lc ≠ s.lc.state then some 0x0714
  else none

/-! ## The end of an establishment (R296) -/

/-- The session's state goes; records of a beat received in part are discarded. -/
def Link.clear (l : Link) : Link :=
  { l with up := false, hello := none, helloDue := false, eph := [], ownNonce := [], sessTx := [], sessRx := [], txSeq := 0,
           rxSeq := 0, partial_ := [], rxBuf := [], snapRx := none, snapBuf := [], snapPos := (0, 0), snapSeen := [],
           snapTx := none, viol := 0 }

/-- The link is taken down to be established again: cause 1 lane loss, 2 violation, 3 heartbeat (event 0x0708). -/
def relink (cause : Nat) (s : State) : State :=
  let s1 := s.modLk (fun l => { l.clear with relinks := (l.relinks + 1) % 2 ^ 32,
                                             rxWait := if cause = 3 then l.rxWait else [] })
  let s2 := { s1 with pt := { s1.pt with xchg := none } }
  if s.lk.up then s2.raise 0x0708 cause 0 0 0 else s2

/-! ## Keys of an establishment (R279) -/

/-- One derivation of R279: an AES-256 key. -/
def linkKdf (key : Bytes) (label : String) (name : Nat) (data : Bytes) : Bytes :=
  kdf key (ascii label) 0 0 3 0 0 name 0 (sl data 0 16) 256

/-- The PRIMARY's bytes before the SECONDARY's. -/
def inOrder (s : State) (own peer : Bytes) : Bytes := if s.lk.strap then peer ++ own else own ++ peer

def pairSecretOf (s : State) (h : Hello) (z : Bytes) : Bytes :=
  linkKdf z "SLK PAIR SECRET " 0
    (Config.sha512 (inOrder s (sl (Config.edPublic s.idSeed) 0 32) h.idKey ++ inOrder s s.lk.ownNonce h.nonce))

/-- The session key of a sender: 1 the PRIMARY, 2 the SECONDARY. -/
def sessionKey (s : State) (h : Hello) (secret z : Bytes) (sender : Nat) : Bytes :=
  linkKdf (xorBytes secret z) "SLK PAIR LINK   " sender (Config.sha512 (inOrder s s.lk.ownNonce h.nonce))

def withSession (s : State) (h : Hello) (secret z : Bytes) : State :=
  let p := sessionKey s h secret z 1
  let q := sessionKey s h secret z 2
  s.modLk (fun l => { l with sessTx := if l.strap then q else p, sessRx := if l.strap then p else q, txSeq := 1, rxSeq := 1 })

/-! ## The pair record (R280) -/

def PairRec.body (r : PairRec) : Bytes :=
  sl r.secret 0 32 ++ sl r.partnerKey 0 32 ++ toLe 8 r.partnerSerial ++ [byte (b2n r.strap)] ++ zeros 23

def PairRec.of (b : Bytes) : PairRec :=
  { secret := sl b 0 32, partnerKey := sl b 32 32, partnerSerial := fieldLe b 64 8, strap := byteAt b 72 == 1 }

/-- The sequence reservation is raised where the next version needs it (R135). -/
def ensureReservation (s : State) : State :=
  if s.ks.nextSeq < s.ks.reservation then s
  else { s with ks := { s.ks with reservation := s.ks.nextSeq + 0x10000, cfgStone := s.ks.stone } }

/-- The record is written locally: no stamp, no mirroring (notes/assumptions/17.md). -/
def commitPairRec (s : State) (r : PairRec) : State :=
  match writeVersion (ensureReservation s) pairHandle 3 r.body ((s.obj? pairHandle).map (fun o => o.slot)) with
  | none => s
  | some (s1, slot, seq) =>
    (s1.setObj { handle := pairHandle, slot := slot, seq := seq, keySeq := seq, limitLogged := false, resBeat := none }).modLk
      (fun l => { l with pairRec := some r })

/-! ## What an active member sends (R282, R286, R296) -/

/-- A device that begins to mirror holds the open beat in a buffer from now on. -/
def startMirroring (s : State) : State :=
  if s.mirroring ∧ s.lk.beats = [] then
    s.modLk (fun l => { l with beats := [{ num := l.beat, closed := false, recs := [], bytes := 0 }] })
  else s

def sendRecords (s : State) (typ beat : Nat) (b : Bytes) : State :=
  if b = [] then s else (chunks (b.length + 1) b).foldl (fun t c => t.frame typ false beat c) s

/-- The unacknowledged beats go again, oldest first. -/
def resendBeats (s : State) : State :=
  s.lk.beats.foldl (fun t b =>
    let t1 := sendRecords t 0x02 b.num (b.recs.flatMap BeatRec.bytes)
    let last := ((b.recs.filter (fun r => r.stamp != 0)).getLast?.map (fun r => r.stamp)).getD 0
    if b.closed then t1.frame 0x03 true b.num (toLe 4 b.recs.length ++ toLe 4 b.bytes ++ toLe 8 last) else t1) s

def rec0 (typ part : Nat) (body : Bytes) : BeatRec := { stamp := 0, typ := typ, part := part, body := body }

/-- CONFIG bodies: LK.CFG and LK.SOLO, and a SCH.COST entry (notes/assumptions/23.md). -/
def linkCfgBody (policy loss : Bool) (beatUs soloMs : Nat) : Bytes :=
  [3#8, byte (b2n policy), byte (b2n loss), 0#8] ++ toLe 2 beatUs ++ toLe 2 soloMs
def costBody (op cost alt : Nat) : Bytes := [2#8, 0#8] ++ toLe 2 op ++ toLe 2 cost ++ toLe 2 alt

/-- A customer draft as its image shows it, without the signature. -/
def imageOf (s : State) (d : DirEnt) : Bytes :=
  ascii "SLKDRAFT" ++ toLe 2 1 ++ toLe 2 d.opcode ++ toLe 2 d.steps ++ [byte d.krefMax, byte (b2n d.commits)] ++ toLe 4 d.extMin ++
    toLe 4 d.extMax ++ toLe 4 d.replyMax ++ toLe 2 d.cost ++ [byte d.lcMask, 0#8] ++ toLe 4 d.version ++ zeros 28 ++
    sl (d.lines.flatMap (fun l => Mem.readN s.mem (lineAddr l) 256)) 0 (16 * d.steps)

def draftRecord (s : State) (d : DirEnt) : BeatRec :=
  rec0 0x08 0 (if d.state = 0 then unloadRecord d.opcode d.gen (s.highestVersion d.opcode) else loadRecord (imageOf s d) d.gen)


/-- Batches that set the entries of a partition (R176), at most 1,500 a record. In a snapshot the place of each entry
follows the records, so that every batch fits identically on both members (R183; notes/assumptions/23.md). -/
def batchHead (p n : Nat) : Bytes := toLe 2 p ++ toLe 2 n ++ zeros 4
def routeBytes (r : Route) : Bytes := [1#8, byte r.len] ++ packDigits r.digits ++ sl r.payload 0 12
def routePlace (r : Route) : Bytes := toLe 2 r.index ++ toLe 4 r.bucket ++ [byte r.way]
def ruleBytes (r : Rule) : Bytes := [1#8, byte r.len] ++ zeros 6 ++ toLe 8 r.pfx ++ sl r.body 0 12 ++ zeros 4
def rulePlace (r : Rule) : Bytes := toLe 4 r.index

def batches {α : Type} (l : List α) : List (List α) :=
  ((List.range (l.length / 1500 + 1)).map (fun i => (l.drop (1500 * i)).take 1500)).filter (fun c => !c.isEmpty)

def routeBatches (s : State) (p : Nat) : List BeatRec :=
  (batches ((s.rt.routes s.rt.rgen).filter (fun r => r.part == p))).map (fun c =>
    rec0 0x06 p (batchHead p c.length ++ c.flatMap routeBytes ++ c.flatMap routePlace ++ toLe 4 s.rt.rgen))

def ruleBatches (s : State) (p : Nat) : List BeatRec :=
  (batches ((s.rt.rules s.rt.pgen).filter (fun r => r.part == p))).map (fun c =>
    rec0 0x07 p (batchHead p c.length ++ c.flatMap ruleBytes ++ c.flatMap rulePlace ++ toLe 4 s.rt.pgen))

def tableState (s : State) : Bytes :=
  toLe 4 s.rt.rgen ++ toLe 4 s.rt.pgen ++ s.rt.layout.flatMap (fun x => toLe 1 x.1 ++ toLe 4 x.2) ++
    s.parts.flatMap (fun p => toLe 2 p.id ++ toLe 4 (p.prefixLimit.getD 0xFFFFFFFF) ++ toLe 4 (p.ruleLimit.getD 0xFFFFFFFF))

/-- Partitions, parents before children. -/
def partsInOrder (s : State) : List Part := (List.range 9).flatMap (fun d => s.parts.filter (fun p => p.depth == d))

/-- Elements in ascending order of a key below `n`. -/
def ascending {α : Type} (l : List α) (k : α → Nat) : List α := l.mergeSort (fun x y => decide (k x ≤ k y))

def dupRecordOf (d : Dup) : BeatRec :=
  { stamp := d.stamp, typ := 0x0A, part := d.part,
    body := toLe 2 d.part ++ toLe 8 d.tag ++ toLe 2 d.opcode ++ toLe 8 d.stamp ++ sl d.inline 0 16 }

/-- IDs used before that no partition holds, with their last GENERATION: a partition created on one later takes the next
(R39; notes/assumptions/23.md). -/
def goneParts (s : State) : List Part :=
  (s.gens.filter (fun g => (s.part? g.1).isNone)).map (fun g => { Part.owner with id := g.1, gen := g.2 })

/-- The records of a snapshot in the order of R282. -/
def snapshotRecords (s : State) : List BeatRec :=
  let ps := partsInOrder s
  [rec0 0x09 0 (linkCfgBody s.lk.cfgPolicy s.lk.cfgLoss s.lk.cfgBeatUs s.lk.cfgSolo)] ++
    s.sched.cost.map (fun c => rec0 0x09 0 (costBody c.1 c.2.1 c.2.2)) ++
    [rec0 0x20 0 (sl (s.kc.salt.getD []) 0 32 ++ sl (s.rt.salt.getD []) 0 16)] ++
    (goneParts s).map (fun p => rec0 0x04 p.id (p.gone s.rt.rgen s.rt.pgen)) ++
    ps.map (fun p => rec0 0x04 p.id (p.body (if p.tearing then 2 else 1))) ++
    (ps.filter (fun p => p.custN != 0)).map (fun p => rec0 0x05 p.id (custRecord p)) ++
    s.drafts.signers.map (fun k => rec0 0x09 0 (signerRecord k.1 k.2)) ++
    (s.drafts.dir.filter (fun d => decide (d.opcode ≥ 0x200))).map (draftRecord s) ++
    (match s.ks.domainKey with
     | none => []
     | some k => [rec0 0x03 0 (sl k 0 32)]) ++
    (ascending s.liveObjs (fun o => o.handle % 65536)).map (fun o =>
      rec0 0x01 (fieldLe (s.objBody o) 0 2) (toLe 4 o.handle ++ s.objBody o)) ++
    [rec0 0x21 0 (tableState s)] ++
    (ascending s.parts (fun p => p.id)).flatMap (fun p => routeBatches s p.id ++ ruleBatches s p.id) ++
    s.dups.map dupRecordOf ++
    s.queues.map (fun q => rec0 0x11 q.part (q.body (if q.bound then 2 else 1))) ++
    (s.kc.ways.filter (fun w => w.handled && w.valid && !w.cont && !w.invalidated)).map (fun w => rec0 0x12 w.part (fillBody s w))

/-- The snapshot and its SNAP_END, read at one moment. -/
def sendSnapshot (s : State) : State :=
  let rs := snapshotRecords s
  let s1 := sendRecords s 0x05 s.lk.beat (rs.flatMap BeatRec.bytes)
  (s1.frame 0x06 true s.lk.beat (toLe 4 rs.length)).modLk (fun l => { l with snapTx := some rs.length })

/-! ## The link comes up (R278, R281, R293) -/

/-- A device that finds its partner ACTIVE takes the role STANDBY and waits for its snapshot (R293). -/
def rejoin (s : State) : State :=
  let s1 := (s.setPair 2 3).modLk (fun l => { l with actOut := false, claim := .idle, beats := [], late := [] })
  s1.raise 0x0705 3 0 0 0

/-- PAIR_BEGIN completes with the pair identity key, and the ceremony ends. -/
def ceremonyDone (s : State) : State :=
  if !s.lk.ceremony then s
  else
    let s1 := s.modLk (fun l => { l with ceremony := false, named := none })
    match s.lk.beginBy.bind s.cmd? with
    | none => s1.modLk (fun l => { l with beginBy := none })
    | some c => okReply s1 c [] s1.pairPublic

/-- The first encrypted frame verifies: the link is established. -/
def linkUp (s : State) : State :=
  let s1 := (s.modLk (fun l => { l with up := true, heartbeat := false, solo := false, rxWait := [], viol := 0 })).raise 0x0707
    s.lk.lanes 0 0 0
  let s2 := ceremonyDone s1
  let h := s2.lk.hello
  if s2.lk.role = 2 then
    if s2.lk.pstate = 3 ∧ (h.map (fun x => bit x.flags 3)).getD false then resendBeats s2
    else sendSnapshot (resendBeats (startMirroring (s2.setPair 2 2)))
  else if (h.map (fun x => bit x.flags 1)).getD false ∧ (s2.lk.role = 0 ∨ (s2.lk.role = 3 ∧ s2.lk.pstate = 1)) then rejoin s2
  else s2

/-! ## Reception (Tables 12.2, 12.9) -/

def frameDropped (s : State) : State := s.modLk (fun l => { l with drops := (l.drops + 1) % 2 ^ 32 })

/-- 0x0710; the eighth within a beat period takes the link down. -/
def badFrame (s : State) : State :=
  let s1 := ((frameDropped s).modLk (fun l => { l with viol := l.viol + 1 })).raise 0x0710 0 0 0 0
  if s1.lk.viol ≥ 8 then relink 2 s1 else s1

/-- 0x0712. -/
def notPermitted (s : State) : State := (frameDropped s).raise 0x0712 0 0 0 0

/-- 0x0715: the standby waits for a full snapshot. COMPLETE stays until that begins (R272). -/
def badBeat (s : State) : State := relink 2 ((s.setPair 2 3).raise 0x0715 0 0 0 0)

/-- 0x0716: what came of the snapshot is discarded, and SNAP_DATA counts again from a snapshot's first record. No frame of
Table 12.3 asks the partner for the restart (DESIGN CHOICE, notes/assumptions/64.md). -/
def badSnapshot (s : State) : State :=
  (s.modLk (fun l => { l with snapRx := none, snapBuf := [], snapPos := (0, 0), snapSeen := [] })).raise 0x0716 0 0 0 0

/-- A frame as its receiver reads it: the header fields, and the payload deciphered under the sender's session key. -/
def State.opened (s : State) (w : Wire) : Frame :=
  let seq := fieldLe w.header 8 8
  { typ := byteAt w.header 0, last := bit (byteAt w.header 1) 0, seq := seq, beat := fieldLe w.header 16 6,
    payload := gcmCipher s.lk.sessRx (frameNonce (!s.lk.strap) seq) w.body }

/-- TYPE, LENGTH, the reserved fields and the tag of an encrypted frame stand (Table 12.2, R277). -/
def frameSound (s : State) (w : Wire) : Bool :=
  let h := w.header
  decide (2 ≤ byteAt h 0 ∧ byteAt h 0 ≤ 10) && h.length == 24 && decide (byteAt h 1 < 2) && allZero (sl h 4 4) &&
    allZero (sl h 22 2) && decide (fieldLe h 2 2 ≤ 4096) && w.body.length == fieldLe h 2 2 &&
    w.tag == gcmTag s.lk.sessRx (frameNonce (!s.lk.strap) (fieldLe h 8 8)) h w.body

/-- Frames reach a receiver that holds a session key on trained lanes. -/
def State.receiving (s : State) : Bool := s.linkWanted && s.lk.lanes != 0 && s.lk.sessRx != []

/-- A beat the active member may see acknowledged: the oldest, closed. -/
def ackOk (s : State) (beat : Nat) : Bool :=
  match s.lk.beats.head? with
  | none => false
  | some b => b.num == beat && b.closed

/-- The type is permitted from a sender in the other role, in this device's state. -/
def permitted (s : State) (f : Frame) : Bool :=
  let standby := s.lk.role == 3 || (s.lk.role == 0 && s.lk.pstate == 1)
  if f.typ = 2 ∨ f.typ = 3 ∨ f.typ = 5 then standby
  else if f.typ = 4 then s.mirroring && ackOk s f.beat
  else if f.typ = 6 then standby && s.lk.snapRx.isSome
  else if f.typ = 7 then s.lk.role == 2 && s.lk.pstate == 2 && s.lk.snapTx.isSome
  else if f.typ = 8 then true
  else if f.typ = 9 then s.lk.role == 3 && s.lk.pstate == 3
  else s.lk.role != 2

/-- A frame of a sound form is taken in its SEQUENCE; what it does is `k`. -/
def receive (w : Wire) (s : State) (k : Frame → State → State) : State :=
  let f := s.opened w
  if !s.receiving then s
  else if !frameSound s w then badFrame s
  else if f.seq < s.lk.rxSeq then (frameDropped s).raise 0x0711 0 0 0 0
  else if f.seq > s.lk.rxSeq then relink 2 (s.raise 0x0711 0 0 0 0)
  else
    let s1 := s.modLk (fun l => { l with rxSeq := l.rxSeq + 1 })
    let s2 := if s1.lk.up then s1 else linkUp s1
    if !permitted s2 f then notPermitted s2
    else k f (s2.modLk (fun l => { l with rx := (l.rx + 1) % 2 ^ 32 }))

/-- A row acts on frames of its own type. -/
def luakaFrame (typ : Nat) (w : Wire) (s : State) (k : Frame → State → State) : State :=
  if byteAt w.header 0 ≠ typ then s else receive w s k

/-- The frame violates Table 12.9 as it stands. -/
def violates (w : Wire) (s : State) : Bool :=
  !frameSound s w || (s.opened w).seq != s.lk.rxSeq || !permitted (if s.lk.up then s else linkUp s) (s.opened w)

/-- LUAKA_PEER_VIOLATION: the answer to a frame that violates the protocol. -/
def execLuakaPeerViolation (w : Wire) (s : State) : Outcome :=
  .next (if violates w s then receive w s (fun _ t => t) else s)

/-! ## HELLO received -/

/-- The ceremony fails: PAIR_BEGIN completes with a check's status and detail, and nothing has changed. -/
def ceremonyFails (s : State) (status d : Nat) : State :=
  match s.lk.beginBy.bind s.cmd? with
  | none => s
  | some c => failDetail s c status [byte d]

/-- Checks 4 to 9 of Table 12.12. -/
def ceremonyFault (s : State) (p : Bytes) : Option (Nat × Nat) :=
  let h := Hello.of p
  if s.lk.named ≠ some (h.idKey, h.serial) then some (0x2001, 4)
  else if !helloSigned p then some (0x2001, 5)
  else if h.strap = s.lk.strap then some (0x1003, 6)
  else if bit h.flags 5 = s.lk.source then some (0x1003, 7)
  else if h.format ≠ s.mirrorFormat then some (0x1003, 8)
  else if h.lc ≠ s.lc.state ∨ (h.lc ≠ 0x30 ∧ h.lc ≠ 0x40) then some (0xA001, 9)
  else none

/-- Step 3 and 4 of R281: the pair record is committed, and each member takes its side. -/
def ceremonyCommit (s : State) (h : Hello) (z : Bytes) : State :=
  let r : PairRec := { secret := pairSecretOf s h z, partnerKey := h.idKey, partnerSerial := h.serial, strap := s.lk.strap }
  let s1 := commitPairRec s r
  if s1.lk.pairRec.isNone then s
  else
    let s2 := withSession s1 h r.secret z
    let s3 := s2.raise 0x0701 (b2n s.lk.strap) (b2n s.lk.source) (h.serial % 2 ^ 32) (h.serial / 2 ^ 32)
    trainLanes (if s.lk.source then startMirroring ((s3.setPair 2 2).modLk (fun l => { l with complete := true }))
      else (s3.setPair 2 3).modLk (fun l => { l with actOut := false }))

/-- Both halves of an establishment are there: Z, then the keys. An all-zero Z is an invalid HELLO. -/
def deriveKeys (s : State) (h : Hello) : State :=
  if s.lk.eph = [] then s
  else
    let z := sl (Config.x25519 s.lk.eph h.ephKey) 0 32
    if allZero z then (s.modLk (fun l => { l with hello := none })).raise 0x0713 0 0 0 0
    else match s.lk.pairRec with
      | some r => withSession s h r.secret z
      | none => ceremonyCommit s h z

/-- A valid HELLO is held. One that the partner repeats asks for this device's again; one of a new establishment ends an
established link. -/
def takeHello (s : State) (h : Hello) : State :=
  if (s.lk.hello.map (fun x => x.nonce)) = some h.nonce ∧ s.lk.sessRx ≠ [] then
    (if s.lk.up then s else s.modLk (fun l => { l with helloDue := true }))
  else
    let s1 := if s.lk.up then relink 2 s else s
    let s2 := s1.modLk (fun l => { l with hello := some h, helloDue := true, rx := (l.rx + 1) % 2 ^ 32 })
    if s2.lk.eph ≠ [] then deriveKeys s2 h
    else drawOnce s2 64 (fun t b => deriveKeys (t.modLk (fun l => { l with ownNonce := sl b 0 32, eph := sl b 32 32 })) h)

/-- HELLO_TIMER: the nonce and the ephemeral key are drawn from D16 first; HELLOs go out until a valid one is held, and
once more for a partner that repeats its own (R278). -/
def helloTimer (s : State) : State :=
  if !s.linkWanted ∨ s.lk.lanes = 0 ∨ s.lk.up ∨ (s.lk.hello.isSome ∧ !s.lk.helloDue) then s
  else if s.lk.eph ≠ [] then sendHello s
  else drawOnce s 64 (fun t b =>
    let t1 := sendHello (t.modLk (fun l => { l with ownNonce := sl b 0 32, eph := sl b 32 32 }))
    match t1.lk.hello with
    | none => t1
    | some h => deriveKeys t1 h)

def execHelloTimer (s : State) : Outcome := .next (helloTimer s)

/-- LUAKA_HELLO. During the ceremony the checks of Table 12.12 apply; the record needs an open journal. -/
def luakaHello (p : Bytes) (s : State) : State :=
  if !s.linkWanted ∨ s.lk.lanes = 0 then s
  else match s.lk.pairRec with
    | some r =>
      let cer := s.lk.ceremony
      match helloFault s p r.partnerKey r.partnerSerial (!cer) (!cer) with
      | some e => s.raise e 0 0 0 0
      | none => takeHello s (Hello.of p)
    | none =>
      if !bit (byteAt p 12) 4 then
        match s.lk.named with
        | none => s
        | some n => match helloFault s p n.1 n.2 true false with
          | some e => s.raise e 0 0 0 0
          | none => s
      else if !journalOpen (ensureReservation s) false then s
      else match ceremonyFault s p with
        | none => takeHello s (Hello.of p)
        | some (st, d) =>
          let s1 := if d ≤ 5 then s.raise 0x0713 0 0 0 0 else if d = 7 then s else s.raise 0x0714 0 0 0 0
          ceremonyFails s1 st d

def execLuakaHello (payload : Bytes) (s : State) : Outcome := .next (luakaHello payload s)

/-! ## Lanes (R275) -/

/-- LUAKA_LANE_TIMEOUT: training goes on with two lanes, then with one. -/
def laneTimeout (s : State) : State :=
  if !s.linkWanted ∨ s.lk.up then s else s.modLk (fun l => { l with lanes := if l.lanes = 4 then 2 else if l.lanes = 2 then 1 else l.lanes })

def execLuakaLaneTimeout (s : State) : Outcome := .next (laneTimeout s)

/-- LUAKA_LANE_LOSS of a lane in use: the link goes down and trains at four lanes again. -/
def laneLoss (lane : Nat) (s : State) : State :=
  if !s.linkWanted ∨ lane ≥ s.lk.lanes then s else (relink 1 s).modLk (fun l => { l with lanes := 4 })

def execLuakaLaneLoss (lane : Nat) (s : State) : Outcome := .next (laneLoss lane s)

end Sys2Proof.Machine
end

