-- ==== Sys2Proof/Machine/Objects.lean ====
section
/-! DEFINITION. The opcodes on key objects (R146), KC_LOAD (R162), and attestation (R144-R146). -/

namespace Sys2Proof.Machine

open Sys2Proof

/-! ## Objects -/

/-- A draft with an EXC step goes on (R107): its own steps while it is ready, the stewards' service while it is parked on the
SERVICE record, unless an abort waits for them to retire it. -/
def excRow (s : State) (n k op : Nat) (draft serve : State → Cmd → State) : State :=
  match s.cmd? (.shed n k) with
  | none => s
  | some c =>
    if c.opcode ≠ op then s
    else match c.phase with
      | .ready => if c.abort then s.retire c 0x7002 else draft s c
      | .committed _ => draft s c
      | .parked _ _ => if c.abort ∨ !s.stewardsUp then s else serve s c
      | _ => s

/-- The EXC step of a vendor draft: the shed is parked on a SERVICE record. The service code is free, and the step is the
draft's first (notes/assumptions/66.md). -/
def excStep (s : State) (c : Cmd) : State :=
  match c.place with
  | .shed n k => s.parkExc n k c noArgs 8 (Config.serviceCode c.opcode % 65536)
  | .ctx _ => s

/-- The handle is resolved in the key port, then the object operation is handed to the stewards (R146). -/
def resolveThenExc (s : State) (c : Cmd) : State :=
  match s.liveObj c.part (c.inl 72 4) with
  | none => s.retire c 0x3001
  | some _ => excStep s c

/-- OBJ_QUERY: resolved and handed over, and, once resumed, DONE with the bytes that the stewards copied. -/
def objQuery (s : State) (c : Cmd) : State :=
  if c.idx = 0 then resolveThenExc s c else doneWith s c [] (c.rd 0x100 40)

/-- The service of OBJ_QUERY: body bytes 0-39 of the live version, as recovery accepted it (R140), into the data area. -/
def serveQuery (s : State) (c : Cmd) : State :=
  match s.liveObj c.part (c.inl 72 4) with
  | none => s.retire c 0x3001
  | some o => s.setCmd (c.wr 0x100 (sl (s.objBody o) 0 40))

def execObjQuery (n k : Nat) (s : State) : Outcome := .next (excRow s n k 0x060 objQuery serveQuery)

/-- The tombstone's request at the journal (R137), unless commits are held (R141) or refused (R288). -/
def requestDelete (s : State) (c : Cmd) (o : Obj) : State :=
  match commitHold s with
  | some st => s.retire c st
  | none => (s.setCmd { c with phase := .waitCommit }).enqueue (.tombstone o.handle) (some c.place)

/-- The service of OBJ_DELETE: any quorum that the rule for the object's name demands (R263), then the tombstone. -/
def serveDelete (s : State) (c0 : Cmd) : State :=
  let c := { c0 with pend := none }
  match s.liveObj c.part (c.inl 72 4) with
  | none => s.retire c 0x3001
  | some o => if deleteQuorum s c o = 0 then requestDelete s c o else withQuorum s c (requestDelete s c o)

/-- OBJ_DELETE: resolved and handed over; the service goes on once its quorum has passed; a committed command waits for the
stewards to resume it, and is then DONE. -/
def objDelete (s : State) (c : Cmd) : State :=
  if c.idx ≠ 0 then doneWith s c [] []
  else match c.phase with
    | .committed _ => s
    | _ => if c.quorum.isSome then serveDelete s c else resolveThenExc s c

def execObjDelete (n k : Nat) (s : State) : Outcome := .next (excRow s n k 0x061 objDelete serveDelete)

/-- KC_LOAD: a cache-only GET of reference 0; its handle, source and FLAGS. -/
def kcLoad (s : State) (c : Cmd) : State :=
  match c.key 0 with
  | some k => match handleResult s k with
    | none => noHandle s c
    | some (s1, b) => doneWith s1 c b []
  | none =>
    match (getRef s c 0 0 (c.inl 72 1) (c.inl 76 4) true).keys s with
    | .stop s1 => s1
    | .ready s1 c1 =>
      match c1.key 0 with
      | none => noHandle s1 c1
      | some k => match handleResult s1 k with
        | none => noHandle s1 c1
        | some (s2, b) => doneWith s2 c1 b []

def execKcLoad (n k : Nat) (s : State) : Outcome := .next (loomRow s n k 0x034 kcLoad)

/-! ## Attestation (R144, R145, Table 05.9) -/

/-- The digest of an image: header bytes 0-191 and body (R334). -/
def Image.digest (i : Image) : Bytes := sha32 (sl i.header 0 192 ++ i.body)

/-- A report signed by a seed: its kind, signer code, nonce, the partition of kind 2, and the public key it shows. -/
def report (s : State) (kind signer : Nat) (seed nonce pub : Bytes) (p : Option Part) : Bytes :=
  let body := ascii "SLKATTST" ++ toLe 2 1 ++ [byte kind, byte signer, byte s.lc.state, byte s.pt.state,
      byte s.lc.variantByte, 0xB0#8] ++ s.serial ++ toLe 4 s.host.fwver ++ toLe 4 s.lc.rollback ++ s.lc.running.digest ++
    toLe 6 s.nowSec ++ toLe 4 s.nowNs ++ zeros 6 ++ sl nonce 0 8 ++ toLe 2 ((p.map (fun x => x.id)).getD 0) ++
    [byte ((p.map (fun x => x.depth)).getD 0), byte (b2n s.paired + 2 * b2n s.active)] ++
    toLe 4 ((p.map (fun x => x.gen)).getD 0) ++ ((p.map (fun x => sha32 (sl x.accessKey 0 32))).getD (zeros 32)) ++
    custDigest ((p.or (s.part? 0)).getD Part.owner) ++ sl pub 0 32
  body ++ sl (Config.edSign seed body) 0 64

/-- The signer that byte 82 chooses: code and seed, or the status. -/
def signerOf (s : State) (c : Cmd) : Except Nat (Nat × Bytes) :=
  let b := c.inl 82 1
  match s.stoneKey with
  | none => .error 0xA001
  | some st =>
    if b = 0 then .ok (0, identitySeed st)
    else if b = 1 then match s.lk.pairRec with
      | none => .error 0x1003
      | some r => .ok (1, pairSeed r.secret)
    else .error 0x1003

/-- ATTEST_DEVICE. -/
def attestDevice (s : State) (c : Cmd) : State :=
  match signerOf s c with
  | .error st => s.retire c st
  | .ok (n, seed) => okReply s c [] (report s 1 n seed (c.inlB 72 8) (Config.edPublic seed) none)

def execAttestDevice (i : Nat) (s : State) : Outcome := .next (stewardRow s i 0x1B0 attestDevice)

/-- ATTEST_PARTITION. -/
def attestPartition (s : State) (c : Cmd) : State :=
  let n := c.inl 80 2
  if !inReach s c n then s.retire c 0x2001
  else match s.part? n with
    | none => s.retire c 0x1003
    | some p => match signerOf s c with
      | .error st => s.retire c st
      | .ok (g, seed) => okReply s c [] (report s 2 g seed (c.inlB 72 8) (Config.edPublic seed) (some p))

def execAttestPartition (i : Nat) (s : State) : Outcome := .next (stewardRow s i 0x1B1 attestPartition)

/-- The kind 3 report: the OWNER identity key signed with the MANUFACTURE identity key (R329). -/
def endorsement (s : State) (nonce : Bytes) : Bytes :=
  let own := identitySeed ((stoneOf s.lc 3).getD (zeros 32))
  report s 3 2 (identitySeed ((stoneOf s.lc 2).getD (zeros 32))) nonce (Config.edPublic own) none

end Sys2Proof.Machine
end

