-- ==== Sys2Proof/Machine/Resets.lean ====
section
/-! DEFINITION. Resets (R25-R28, Table 01.7): what each kind clears, how resets combine, their triggers, the watchdogs,
and the end of a debug grant (R342), which every reset brings. -/

namespace Sys2Proof.Machine

open Sys2Proof

/-! ## The end of a debug grant (R342) -/

/-- A grant ends: halted stewards resume, a pin with DBG_TRIG is released (Table 18.6), PD36 is to go off in its turn (R22),
and event 0x0108 is written with the cause. -/
def endGrant (cause : Nat) (s : State) : State :=
  if !s.dbg.active then s
  else
    let s1 : State := { s with
      dbg := { s.dbg with grant := 0, active := false, ends := 0, halted := [] }
      iom := { s.iom with pins := updWhere (fun p => p.granted == 8) (fun p => { p with granted := 0 }) s.iom.pins }
      sys := { s.sys with pdctl := s.sys.pdctl &&& ~~~(1#36 <<< 35), wdtPaused := [] } }
    s1.raise 0x0108 cause 0 0 0

/-! ## What a reset clears -/

/-- Bits of the reset kinds. -/
def kP : BitVec 4 := 1
def kW : BitVec 4 := 2
def kZ : BitVec 4 := 4
def kS : BitVec 4 := 8

/-- The MRAM part of the memory, which every reset keeps (Table 01.7). -/
def keepMram (m : Mem) : Mem := m.filter (fun x => decide (0x02000000 ≤ x.1 ∧ x.1 < 0x02C00000))

/-- A partition record after a reset: its definition stays, its scheduler figures and table limits do not (R36, R182). -/
def Part.afterReset (p : Part) : Part :=
  { p with deficit := 0, selfDeficit := 0, turn := 0, lastQ := 0, minTok := 0, ceilTok := 0, admitted := 0,
           prefixLimit := if p.id = 0 then none else some 0, ruleLimit := if p.id = 0 then none else some 0 }

/-- The draft store keeps customer entries, their versions and the signing keys (R87, R111). -/
def Drafts.afterReset (d : Drafts) : Drafts :=
  { d with dir := d.dir.filter (fun e => decide (e.opcode ≥ 0x200)), oldLines := [], staging := [], holder := none }

def KeyStore.afterReset (k : KeyStore) : KeyStore :=
  { KeyStore.reset with reservation := k.reservation, cfgStone := k.cfgStone, incs := k.incs }

/-- The link: the configuration region's values stay, the strap unless P or S, and the level of ACT_IN_N. -/
def Link.afterReset (l : Link) (cold : Bool) : Link :=
  { Link.reset with cfgBeatUs := l.cfgBeatUs, cfgPolicy := l.cfgPolicy, cfgLoss := l.cfgLoss, cfgSolo := l.cfgSolo,
                    recorded := l.recorded, complete := l.complete, actIn := l.actIn,
                    strap := if cold then false else l.strap }

/-- The time counter and the time state lie in AON: only P clears them; PT's registers go with every reset. -/
def TimeKeep.afterReset (t : TimeKeep) (p : Bool) : TimeKeep :=
  if p then { TimeKeep.reset with cfgStored := t.cfgStored }
  else { TimeKeep.reset with sec := t.sec, acc := t.acc, addend := t.addend, state := t.state, integ := t.integ,
                             history := t.history, holdSec := t.holdSec, limitH := t.limitH, capSec := t.capSec, capNs := t.capNs,
                             cfgStored := t.cfgStored }

/-- RNG.FAILTOTAL and RNG.RESEEDS count since the last P reset; the rest of the generator starts again. -/
def Rng.afterReset (r : Rng) (p : Bool) : Rng :=
  if p then Rng.reset else { Rng.reset with failTotal := r.failTotal, reseeds := r.reseeds }

/-- The state is decoded again at step 3; the outcome of the last request stays until P (R330), the sampled strap until P or
S (R408). -/
def LifeCycle.afterReset (l : LifeCycle) (p cold : Bool) : LifeCycle :=
  { LifeCycle.reset with otp := l.otp, bootMode := !cold && l.bootMode, state := l.state, invalid := l.invalid, flashA := l.flashA, flashB := l.flashB,
                         statRefused := !p && l.statRefused, result := if p then 0 else l.result,
                         tokenFails := if p then 0 else l.tokenFails }

def Tamper.afterReset (t : Tamper) (p : Bool) : Tamper :=
  if p then { t with vbatMv := 0, batLow := false, wasOnVbat := t.onVbat } else t

def Sag.afterReset (g : Sag) (p cold : Bool) : Sag :=
  let g1 := if cold then { g with warn := 0, pfail := false, warning := false, pgood := 0 } else g
  let g2 := if p then { g1 with warnings := 0, resets := 0, holdUs := 0, short := false, rail := 0, lastWarn := 0,
                                eventDue := false } else g1
  { g2 with pfailEn := false }

/-- The recorder's MRAM and header stay; its registers and buffer go; the AON count of buffered records goes with P
(R385, R387). After P or S operating time resumes 1,000 ms above the stored value. -/
def Recorder.afterReset (v : Recorder) (p cold : Bool) : Recorder :=
  { v with buffer := [], aon := if p then [] else v.aon, waiting := if p then 0 else v.waiting, lostNow := 0,
           suppressed := 0, clearBy := none, export_ := false, exPort := 0, exIp := 0, exMac := 0, classes := [],
           codemap := [], buckets := [], lastIdx := [], frames := 0,
           optime := if cold then v.stored + 1000 else v.optime }

def Pin.afterReset (p : Pin) : Pin := { req := 0, granted := 0, preempted := false, refused := false, kept := p.kept }

/-- SYS after a reset of the combined kinds. A start-up that failed under R31 stays failed until P. -/
def Sys.afterReset (y : Sys) (p cold : Bool) : Sys :=
  let stuck := y.failed && !p
  { Sys.reset with
    pllLock := if cold then false else y.pllLock, refOk := if cold then false else y.refOk,
    pcieExt := if cold then false else y.pcieExt, pllUnlock := !p && y.pllUnlock, refLost := !p && y.refLost,
    monitored := !cold && y.monitored,
    rstcause := if p then 0 else y.rstcause, rstCount := if p then 0 else y.rstCount,
    failed := stuck, faultLow := stuck, step := if stuck then y.step else 0, pending := y.pending, cold := y.cold,
    causes := y.causes, inReset := y.inReset, rstoutLow := y.rstoutLow }

/-- Everything that a reset of kinds `k` clears. -/
def State.clearFor (s : State) (k : BitVec 4) : State :=
  let p := k.getLsbD 0
  let cold := k.getLsbD 0 || k.getLsbD 3
  let s1 : State := { s with
    sys := s.sys.afterReset p cold, mem := keepMram s.mem, queues := [], fetched := [], cmds := [],
    parts := s.parts.map Part.afterReset, sched := Sched.reset, host := HostIf.reset, dups := [],
    drafts := s.drafts.afterReset, trd := List.replicate 16 Treadle.reset, ks := s.ks.afterReset, kc := KCache.reset,
    rt := RtTables.reset RtTables.defaultLayout, bn := Bignum.reset, rng := s.rng.afterReset p, qr := Dual.reset,
    lk := s.lk.afterReset cold, pt := s.pt.afterReset p, lc := s.lc.afterReset p cold, dbg := Debug.reset,
    mpu := List.replicate 12 Mpu.reset, tmp := s.tmp.afterReset p, sag := s.sag.afterReset p cold,
    bist := { Bist.reset with cfgPace := s.bist.cfgPace }, evr := s.evr.afterReset p cold,
    iom := { Iom.reset with pins := s.iom.pins.map Pin.afterReset, inLevel := s.iom.inLevel }, tears := [], d3held := [] }
  if k.getLsbD 2 then { s1 with tmp := { s1.tmp with secret := none } } else s1

/-! ## Assertion (R27, R28) -/

/-- A reset or a start-up sequence is in progress. -/
def inSequence (s : State) : Bool := s.sys.inReset || (decide (s.sys.step < 13) && !s.sys.failed)

/-- A commit is being written at the journal. -/
def commitWriting (s : State) : Bool :=
  match s.headCommit with
  | none => false
  | some h => journalOpen s h.started

/-- A P or Z reset cuts off the write of a version after a number of bytes that is a free value: the slot may be torn, or
with P whole (R135; notes/assumptions/4.md). -/
def cutWrite (k : BitVec 4) (s : State) : State :=
  if !commitWriting s then s
  else if k.getLsbD 2 then (tornWrite s (leNat (s.draws 4) % 128)).drawn 4
  else if k.getLsbD 0 then (tornWrite s (leNat (s.draws 4) % 129)).drawn 4
  else s

/-- A reset of kind `k` with its cause bits is asserted, combined with one in progress, with a W reset that waits for a
commit word, or with the start-up sequence under way. PD26 loses its discipline (Table 13.2), the cache's clearing and the
end of a grant are recorded, outputs go to their reset levels, and the sequence will start again at step 1. -/
def assertReset (k : BitVec 4) (cause : BitVec 7) (grantCause : Nat) (s : State) : State :=
  let joined := inSequence s
  let due := s.sys.hwResetDue
  let kinds := (if joined then s.sys.pending ||| k else k) ||| (if due then kW else 0)
  let causes := if joined || due then s.sys.causes ||| cause else cause
  let p := kinds.getLsbD 0
  let cold := kinds.getLsbD 0 || kinds.getLsbD 3
  let wasCold := joined && (s.sys.pending.getLsbD 0 || s.sys.pending.getLsbD 3)
  let grant := s.dbg.active
  let s1 := (cutWrite k (loseSource s)).clearFor kinds
  let y := s1.sys
  let sys : Sys := { y with
    inReset := true, rstoutLow := true, pending := kinds, causes := causes, cold := cold,
    rstcause := (if p then 0 else y.rstcause) ||| (causes &&& ~~~1#7),
    rstCount := if k = kP then y.rstCount else min (y.rstCount + 1) 0xFFFF }
  let s2 : State := { s1 with sys := sys, board := { s1.board with railsOk := false }, evr := { s1.evr with power := if cold && !wasCold then (s1.evr.power + 1) % 2 ^ 32
                                                                       else s1.evr.power } }
  let s3 := s2.raise 0x0A10 (if k = kZ then 1 else 2) 0 0 0
  if grant then s3.raise 0x0108 grantCause 0 0 0 else s3

/-- A W reset; one that meets a commit being written waits for its commit word (R135). -/
def warmReset (cause : BitVec 7) (s : State) : State :=
  if commitWriting s then
    { s with sys := { s.sys with hwResetDue := true,
                                 causes := if s.sys.hwResetDue || inSequence s then s.sys.causes ||| cause else cause } }
  else assertReset kW cause 4 s

/-! ## Triggers (Table 01.6) -/

/-- RESET_POWER_ON. -/
def execResetPowerOn (s : State) : Outcome := .next (assertReset kP 1 4 s)

/-- RESET_SAG: the interval from the warning crossing is kept (R371); rails 0 to 2, or 3 for a power-good rail. -/
def resetSag (rail us : Nat) (s : State) : State :=
  if rail > 3 then s
  else
    let s1 := assertReset kS 2 4 s
    { s1 with sag := { s1.sag with resets := min (s1.sag.resets + 1) 0xFFFF, holdUs := min us 0xFFFF, short := decide (us < 40),
                                   rail := rail, eventDue := true } }

def execResetSag (rail intervalUs : Nat) (s : State) : Outcome := .next (resetSag rail intervalUs s)

/-- A writer on the internal map, which no host function reaches (R15). -/
def Writer.internal : Writer → Bool
  | .host _ => false
  | _ => true

/-- SYS.RSTREQ: WARM together with the key; any other write is ignored. -/
def rstreqWarm (w : Writer) (value : Nat) (s : State) : State :=
  if !Writer.internal w then s
  else if bit value 0 && value / 65536 % 65536 == 0x9216 then warmReset 0x10 s else s

def execRstreqWarm (w : Writer) (value : Nat) (s : State) : Outcome := .next (rstreqWarm w value s)

/-- SYS.WDT: TIMEOUT, clamped to 10 to 10,000 ms, and KICK. -/
def wdtWrite (w : Writer) (i value : Nat) (s : State) : State :=
  if i ≥ 4 ∨ !Writer.internal w then s
  else
    { s with sys := { s.sys with
      wdtTimeout := s.sys.wdtTimeout.set i (max 10 (min 10000 (value % 2 ^ 24))),
      wdtCount := if bit value 31 then s.sys.wdtCount.set i 0 else s.sys.wdtCount } }

def execWdtKick (w : Writer) (i : Nat) (value : Nat) (s : State) : Outcome := .next (wdtWrite w i value s)

/-- A steward's watchdog runs: its domain is on, its core out of reset (firmware runs from step 10) and not halted. -/
def wdtRuns (s : State) (i : Nat) : Bool :=
  decide (i < 4) && s.powered (27 + i) && decide (s.sys.step ≥ 10) && !s.sys.wdtPaused.contains i

/-- The count of a running watchdog has reached its timeout. -/
def wdtExpired (s : State) (i : Nat) : Bool :=
  wdtRuns s i && decide ((s.sys.wdtTimeout[i]?).getD 1000 ≤ (s.sys.wdtCount[i]?).getD 0)

/-- WATCHDOG_EXPIRY: nothing while the count is below TIMEOUT. -/
def execWatchdogExpiry (i : Nat) (s : State) : Outcome := .next (if wdtExpired s i then warmReset 8 s else s)

/-- PCIE_RESET: Hot Reset, link-down, or a Function Level Reset of the physical function, once the link has trained. -/
def execPcieReset (s : State) : Outcome :=
  .next (if s.host.linkUp || s.host.training then warmReset 0x20 s else s)

/-- PERST_IN_ASSERT: only a pin that holds the function acts, from step 11 (R403). -/
def execPerstInAssert (s : State) : Outcome :=
  .next (if s.iom.pins.any (fun p => p.granted == 4) then warmReset 0x40 s else s)

/-! ## The end of a commit -/

/-- JOURNAL_COMMIT_DONE: the commit word is written; a teardown or a promotion that waited for it goes on, and so does a W
reset. -/
def journalCommitDone (s : State) : State :=
  let s1 := (teardownAdvance (journalCommit s)).promoteEnd
  if s1.sys.hwResetDue then assertReset kW s1.sys.causes 4 { s1 with sys := { s1.sys with hwResetDue := false } } else s1

def execJournalCommitDone (s : State) : Outcome := .next (journalCommitDone s)

end Sys2Proof.Machine
end

