-- ==== Sys2Proof/Machine/Iom.lean ====
section
/-! DEFINITION. Pins and their functions (R400-R405, Tables 18.4 to 18.6): the ranks, requests decided by rank, and IOM_SET. -/

namespace Sys2Proof.Machine

open Sys2Proof

/-- The rank of a pin function (Table 18.6). -/
def fnRank (f : Nat) : Nat := ([7, 7, 1, 2, 2, 3, 4, 5, 6, 7][f]?).getD 7
/-- Functions that hold the compare unit CMP1. -/
def needsCmp (f : Nat) : Bool := f == 6 || f == 8 || f == 9
/-- Functions that one pin only may hold (R402). -/
def onePin (f : Nat) : Bool := decide (2 ≤ f ∧ f ≤ 5)

def State.pin (s : State) (n : Nat) : Pin :=
  (s.iom.pins[n]?).getD { req := 0, granted := 0, preempted := false, refused := false, kept := 0 }
def State.modPin (s : State) (n : Nat) (f : Pin → Pin) : State := { s with iom := { s.iom with pins := updAt s.iom.pins n f } }

/-- Another pin holds a function that only one may hold. -/
def heldElsewhere (s : State) (n f : Nat) : Bool :=
  onePin f && (List.range 8).any (fun k => k != n && (s.pin k).granted == f)

/-- The holder that refuses a request for function `f` on pin `n` (R401): the pin's, then CMP1's. GPIO_IN is the reset
function: it stands for a free pin, and a request for it releases the pin (notes/assumptions/28.md). -/
def pinRefuser (s : State) (n f : Nat) : Option Nat :=
  let g := (s.pin n).granted
  if f = 0 ∨ f = g then none
  else if g ≠ 0 ∧ fnRank g ≤ fnRank f then some g
  else if needsCmp f && s.iom.cmp1 != 0 && !needsCmp g && decide (fnRank s.iom.cmp1 ≤ fnRank f) then some s.iom.cmp1
  else none

/-- The holder that a granted request displaces. -/
def pinDisplaced (s : State) (n f : Nat) : Option Nat :=
  let g := (s.pin n).granted
  if f = 0 ∨ f = g then none
  else if g ≠ 0 then some g
  else if needsCmp f && s.iom.cmp1 != 0 then some s.iom.cmp1
  else none

/-- The request is granted: the function's pin, CMP1, and the marks of those displaced. -/
def pinGrant (s : State) (n f : Nat) : State :=
  let g := (s.pin n).granted
  let free := if needsCmp g then 0 else s.iom.cmp1
  let take := needsCmp f && s.iom.cmp1 != 0 && !needsCmp g
  let lose := fun (p : Pin) => if p.granted = s.iom.cmp1 then { p with granted := 0, preempted := true } else p
  let s1 : State := if take then { s with iom := { s.iom with pins := s.iom.pins.map lose } } else s
  let s2 := s1.modPin n (fun p => { p with req := f, granted := f, refused := false,
                                           preempted := p.preempted || (g != 0 && f != 0 && f != g) })
  { s2 with iom := { s2.iom with cmp1 := if needsCmp f then f else free } }

/-- A refusal is shown in the pin's flag and counted. -/
def pinRefuse (s : State) (n f : Nat) : State :=
  let s1 := s.modPin n (fun p => { p with req := f, refused := true })
  { s1 with iom := { s1.iom with refusals := min (s1.iom.refusals + 1) 0xFFFF } }

/-- A request without a command, at start-up step 11 (R403). -/
def pinRequest (s : State) (n f : Nat) : State :=
  match pinRefuser s n f with
  | some _ => pinRefuse s n f
  | none => pinGrant s n f

/-- The kept functions, in ascending pin order (R403). -/
def applyPins (s : State) : State :=
  (List.range 8).foldl (fun t n => if (t.pin n).kept = 0 then t else pinRequest t n (t.pin n).kept) s

/-- IOM_SET (R404). -/
def iomSet (s : State) (c : Cmd) : State :=
  let n := c.inl 72 1
  let f := c.inl 73 1
  if n > 7 ∨ f > 9 ∨ heldElsewhere s n f then badParam s c
  else match pinRefuser s n f with
    | some h => failDetail (pinRefuse s n f) c 0x5001 [byte (fnRank h), byte h]
    | none =>
      let s1 := (pinGrant s n f).modPin n (fun p => { p with kept := f })
      match pinDisplaced s n f with
      | none => okInline s1 c [0#8]
      | some d => okInline s1 c [1#8, byte d]

def execIomSet (i : Nat) (s : State) : Outcome := .next (stewardRow s i 0x03F iomSet)

end Sys2Proof.Machine
end

