-- ==== Sys2Proof/Machine/Standby.lean ====
section
/-! DEFINITION. What a standby does with the records of beats and snapshots (R282, R285, R286, Table 12.6). -/

namespace Sys2Proof.Machine

open Sys2Proof

/-! ## Key objects -/

/-- A version a record brings is written to this device's own journal. -/
def standbyVersion (s : State) (h kind : Nat) (body : Bytes) (keySeq : Option Nat) (logged : Bool) : Option (State × Nat) :=
  match writeVersion (ensureReservation s) h kind body ((s.obj? h).map (fun o => o.slot)) with
  | none => none
  | some (s1, slot, seq) =>
    some (s1.setObj { handle := h, slot := slot, seq := seq, keySeq := keySeq.getD seq, limitLogged := logged,
                      resBeat := none }, seq)

/-- The part of a body that a reservation does not change. -/
def bodyKey (b : Bytes) : Bytes := b.take 36 ++ b.drop 40

def applyObject (s : State) (b : Bytes) : Option State :=
  let h := fieldLe b 0 4
  let body := b.drop 4
  if b.length ≠ 100 ∨ (s.part? (fieldLe body 0 2)).isNone then none
  else
    let old := s.obj? h
    let same := match old with
      | none => false
      | some o => bodyKey (s.objBody o) == bodyKey body
    match standbyVersion s h 1 body (if same then old.map (fun o => o.keySeq) else none)
        ((old.map (fun o => o.limitLogged)).getD false) with
    | none => none
    | some (s1, _) =>
      let s2 := { s1 with ks := { s1.ks with incs := assocSet s1.ks.incs (h % 65536) (h / 65536) } }
      some (if same then s2 else s2.dropEntries h)

def applyTombstone (s : State) (b : Bytes) : Option State :=
  let h := fieldLe b 0 4
  if b.length ≠ 4 ∨ (s.obj? h).isNone then none
  else match writeVersion (ensureReservation s) h 2 (zeros 96) none with
    | none => none
    | some (s1, _, _) =>
      some ((((writtenSlots s1).filter (fun k => slotHandle s1 k == h)).foldl zeroSlot s1 |>.dropObj h).dropEntries h)

def applyDomain (s : State) (b : Bytes) : Option State :=
  if b.length ≠ 32 then none
  else (standbyVersion s domainHandle 3 (sl b 0 96) none false).map (fun r =>
    { r.1 with ks := { r.1.ks with domainKey := some b } })

/-! ## Partitions -/

/-- The partition a record describes, with what the standby already knows of it. -/
def partOf (old : Option Part) (b : Bytes) (par : Nat) : Part :=
  let p := old.getD { Part.owner with prefixLimit := some 0, ruleLimit := some 0, custN := 0 }
  { p with id := fieldLe b 2 2, parent := par, depth := byteAt b 65, oldest := byteAt b 66 == 1, gen := fieldLe b 68 4,
           accessKey := sl b 32 32, enables := BitVec.ofNat 1024 (fieldLe b 72 128), tearing := byteAt b 64 == 2 }.withAttrs
    (Attrs.of b)

/-- Both copies of the tables without a partition's entries, at given generations. -/
def dropTables (s : State) (id rg pg : Nat) : State :=
  let keepR := (s.rt.routes s.rt.rgen).filter (fun r => r.part != id)
  let keepP := (s.rt.rules s.rt.pgen).filter (fun r => r.part != id)
  let rt := (((s.rt.setRoutes rg keepR).setRoutes (rg + 1) keepR).setRules pg keepP).setRules (pg + 1) keepP
  { s with rt := { rt with rgen := rg, pgen := pg, rSettled := true, pSettled := true } }

/-- A record of a partition torn down takes its routes, its rules and its duplicate records with it, at the generations it
brings (R76, R180). -/
def dropPart (s : State) (id rg pg : Nat) : State :=
  let s1 := dropTables s id rg pg
  { s1 with parts := s1.parts.filter (fun p => p.id != id), dups := s1.dups.filter (fun d => d.part != id) }

/-- `both`: a record of the snapshot, where a partition that is gone shows the last GENERATION of its ID (R39). -/
def applyPart (both : Bool) (s : State) (b : Bytes) : Option State :=
  let id := fieldLe b 2 2
  let par := fieldLe b 0 2
  let old := s.part? id
  if byteAt b 64 = 0 then
    if b.length ≠ 208 then none
    else if both then some { s with gens := assocSet s.gens id (fieldLe b 68 4) }
    else old.map (fun _ => dropPart s id (fieldLe b 200 4) (fieldLe b 204 4))
  else if b.length ≠ 200 ∨ (id ≠ 0 ∧ (s.part? par).isNone) ∨ byteAt b 64 > 2 then none
  else
    let p := partOf old b par
    let ps := if old.isSome then updWhere (fun x => x.id == id) (fun _ => p) s.parts else s.parts ++ [p]
    let s1 : State := { s with parts := ps, gens := assocSet s.gens id p.gen }
    if byteAt b 64 = 1 then some s1
    else some { s1 with parts := updWhere (fun x => s1.inSubtree id x.id) (fun x => { x with tearing := true }) s1.parts }

def applyCust (s : State) (b : Bytes) : Option State :=
  let id := fieldLe b 8 2
  if b.length ≠ 528 ∨ b.take 8 ≠ ascii "SLKCUSTS" ∨ (s.part? id).isNone then none
  else some (s.modPart id (fun p => { p with custN := byteAt b 10, custM := byteAt b 11, custVer := fieldLe b 12 4,
                                             custKeys := recordKeys b (byteAt b 10) }))

/-! ## Tables -/

/-- A batch whose generation is not the next follows table updates of teardowns, which have no record of their own (R180):
the entries of the partitions under way in those teardowns are gone. -/
def overtaken (s : State) (k : Nat) : List Nat :=
  ((s.parts.filter (fun p => p.tearing && !((s.part? p.parent).map (fun x => x.tearing)).getD false)).filterMap (fun p =>
    (deepest s p.id).map (fun x => x.id))).take k

/-- The copy a route or policy batch of generation `g` is applied to. -/
def baseRoutes (s : State) (g : Nat) : List Route :=
  let gone := overtaken s ((g + 2 ^ 32 - 1 - s.rt.rgen) % 2 ^ 32)
  (s.rt.routes s.rt.rgen).filter (fun r => !gone.contains r.part)
def baseRules (s : State) (g : Nat) : List Rule :=
  let gone := overtaken s ((g + 2 ^ 32 - 1 - s.rt.pgen) % 2 ^ 32)
  (s.rt.rules s.rt.pgen).filter (fun r => !gone.contains r.part)

/-- A batch as the active member committed it, with the new generation. -/
def applyRoutes (s0 : State) (b : Bytes) : Option State :=
  let s := parityCopy false s0
  let own := b.take (b.length - 4)
  let g := fieldLe b (b.length - 4) 4
  match s.part? (fieldLe b 0 2) with
  | none => none
  | some p =>
    if own.length ≠ 8 + 24 * fieldLe b 2 2 then none
    else match applyAll (applyRoute s.rt (baseRoutes s g) { p with prefixLimit := none }) 0 (batchRecords own 24)
        (baseRoutes s g) with
      | .error _ => none
      | .ok l => some { s with rt := { (s.rt.setRoutes g l) with rgen := g, rSettled := false } }

def applyRules (s0 : State) (b : Bytes) : Option State :=
  let s := parityCopy true s0
  let own := b.take (b.length - 4)
  let g := fieldLe b (b.length - 4) 4
  match s.part? (fieldLe b 0 2) with
  | none => none
  | some p =>
    if own.length ≠ 8 + 32 * fieldLe b 2 2 then none
    else match applyAll (applyRule (baseRules s g) { p with ruleLimit := none }) 0 (batchRecords own 32) (baseRules s g) with
      | .error _ => none
      | .ok l => some (({ s with rt := { (s.rt.setRules g l) with pgen := g, pSettled := false } } : State).walk [p.id])

/-- A batch of the snapshot: each entry at the place it has on the active member, in both copies. -/
def snapRoutes (s : State) (b : Bytes) : Option State :=
  let n := fieldLe b 2 2
  let p := fieldLe b 0 2
  if b.length ≠ 12 + 31 * n ∨ (s.part? p).isNone then none
  else
    let new := (List.range n).map (fun i =>
      let r := sl b (8 + 24 * i) 24
      let q := sl b (8 + 24 * n + 7 * i) 7
      ({ part := p, len := byteAt r 1, digits := (nibbles (sl r 2 10)).take (byteAt r 1), payload := sl r 12 12,
         index := fieldLe q 0 2, bucket := fieldLe q 2 4, way := byteAt q 6 } : Route))
    let l := s.rt.routes s.rt.rgen ++ new
    some { s with rt := { s.rt with routes0 := l, routes1 := l } }

def snapRules (s : State) (b : Bytes) : Option State :=
  let n := fieldLe b 2 2
  let p := fieldLe b 0 2
  if b.length ≠ 12 + 36 * n ∨ (s.part? p).isNone then none
  else
    let new := (List.range n).map (fun i =>
      let r := sl b (8 + 32 * i) 32
      ({ part := p, len := byteAt r 1, pfx := fieldLe r 8 8, body := sl r 16 12,
         index := fieldLe b (8 + 32 * n + 4 * i) 4 } : Rule))
    let l := s.rt.rules s.rt.pgen ++ new
    some { s with rt := { s.rt with rules0 := l, rules1 := l } }

def limitsOf (b : Bytes) (p : Part) : Part :=
  if fieldLe b 0 2 = p.id then { p with prefixLimit := limitOf (fieldLe b 2 4), ruleLimit := limitOf (fieldLe b 6 4) } else p

def applyTableConfig (s : State) (b : Bytes) : Option State :=
  if byteAt b 0 = 1 ∧ b.length = 8 ∧ 1 ≤ byteAt b 1 ∧ byteAt b 1 ≤ 19 then
    some { s with rt := { s.rt with layout := s.rt.layout.set (byteAt b 1 - 1) (byteAt b 2, fieldLe b 4 4) } }
  else if byteAt b 0 = 2 ∧ b.length = 12 ∧ (s.part? (fieldLe b 2 2)).isSome then
    some { s with parts := s.parts.map (limitsOf (b.drop 2)) }
  else none

def applyTableState (s : State) (b : Bytes) : Option State :=
  let n := (b.length - 103) / 10
  if b.length < 103 ∨ b.length ≠ 103 + 10 * n then none
  else
    let lims := (List.range n).map (fun i => sl b (103 + 10 * i) 10)
    some { s with
      rt := { s.rt with rgen := fieldLe b 0 4, pgen := fieldLe b 4 4, rSettled := true, pSettled := true,
                        layout := (List.range 19).map (fun i => (byteAt b (8 + 5 * i), fieldLe b (9 + 5 * i) 4)) }
      parts := s.parts.map (fun p => lims.foldl (fun q l => limitsOf l q) p) }

/-! ## Queues, cache, duplicates, configuration -/

/-- A queue as its active member holds it; on a standby its positions stay zero. -/
def applyQueue (s : State) (b : Bytes) : Option State :=
  let id := fieldLe b 2 2
  let rest := s.queues.filter (fun q => q.id != id)
  if b.length ≠ 28 ∨ byteAt b 0 > 2 then none
  else if byteAt b 0 = 0 then some { s with queues := rest }
  else
    let q : Queue := { id := id, fn := byteAt b 1, localIdx := fieldLe b 10 2, log2 := byteAt b 6, vec := fieldLe b 8 2,
                       intEn := byteAt b 7 == 1, sq := fieldLe b 12 8, cq := fieldLe b 20 8, bound := byteAt b 0 == 2,
                       part := fieldLe b 4 2, sqHead := 0, sqTail := 0, cqHead := 0, cqTail := 0, phase := true,
                       reading := 0, stopped := false, errDue := false, deleting := false }
    some { s with queues := rest ++ [q] }

/-- An entry of 64 bytes at a place, with the attributes that `tail` carries beside them and its whole material. -/
def wayOfBytes (e tail mat : Bytes) (part bank bucket way : Nat) : Way :=
  let fl := byteAt e 26
  let alg := byteAt e 27
  let usage := byteAt tail 19
  let point := (alg == 9 || alg == 10) && usage == 8
  { bank := bank, bucket := bucket, way := way, tag := sl e 0 16, inc := fieldLe e 16 4, valid := bit fl 0, hit := bit fl 1,
    seen := bit fl 2, handled := bit fl 5, cont := bit fl 6, invalidated := bit fl 7, filling := false, part := part,
    source := byteAt tail 18, age := byteAt e 28, uses := fieldLe e 30 2, pins := 0, handle := fieldLe tail 0 4, ecc := false,
    key := { usage := usage, alg := alg, mat := if point then byte (2 + b2n (bit (byteAt e 29) 6)) :: mat else mat,
             name := fieldLe tail 4 8, version := fieldLe tail 12 4, notAfter := fieldLe e 20 6, exportable := bit fl 3,
             limited := bit fl 4, level := byteAt tail 16, rsaPriv := bit (byteAt tail 17) 0,
             transport := bit (byteAt tail 17) 1 } }

/-- The material bytes of an entry. -/
def entryMat (e : Bytes) : Bytes := sl e 32 (byteAt e 29 % 64)

/-- An entry set in the place it has on the active member (R161). -/
def applyCacheFill (s : State) (part : Nat) (b : Bytes) : Option State :=
  let n := b.length
  if n ≠ 64 + 25 ∧ n ≠ 128 + 25 then none
  else
    let pos := b.drop (n - 25)
    let head := b.take 64
    let next := sl b 64 64
    let two := n == 128 + 25
    let mat := if two then entryMat head ++ entryMat next else entryMat head
    let place := fun (e : Bytes) (w : Nat) => wayOfBytes e (pos.drop 5) mat part (byteAt pos 0) (fieldLe pos 1 2) w
    let new := place head (byteAt pos 3) :: (if two then [place next (byteAt pos 4)] else [])
    let free := s.kc.ways.filter (fun w => !new.any (fun k => Way.here k.bank k.bucket k.way w))
    some { s with kc := { s.kc with
      ways := free ++ new
      incs := new.foldl (fun (l : List (Nat × Nat)) (k : Way) => assocSet l (wayNo k.bank k.bucket k.way) k.inc) s.kc.incs } }

def applyCacheRemove (s : State) (b : Bytes) : Option State :=
  if b.length ≠ 8 then none
  else
    let hit := s.kc.ways.filter (fun w => Way.at_ (byteAt b 0) (fieldLe b 1 2) (byteAt b 3) (fieldLe b 4 4) w)
    some (hit.foldl (fun t w => t.dropKey w) s)

def applyDup (s : State) (b : Bytes) : Option State :=
  if b.length ≠ 36 then none
  else
    let d : Dup := { part := fieldLe b 0 2, tag := fieldLe b 2 8, opcode := fieldLe b 10 2, stamp := fieldLe b 12 8,
                     inline := sl b 20 16, time := s.evr.optime }
    some { s with dups := (if s.dups.length < 131072 then s.dups else s.dups.drop 1) ++ [d] }

def applyConfig (s : State) (b : Bytes) : Option State :=
  if byteAt b 0 = 1 ∧ b.length = 34 ∧ byteAt b 1 < 4 then some (setSigner s (byteAt b 1) (sl b 2 32))
  else if byteAt b 0 = 2 ∧ b.length = 8 then
    let op := fieldLe b 2 2
    some { s with sched := { s.sched with
      cost := (op, fieldLe b 4 2, fieldLe b 6 2) :: s.sched.cost.filter (fun c => c.1 != op) } }
  else if byteAt b 0 = 3 ∧ b.length = 8 then
    some (s.modLk (fun l => { l with
      cfgPolicy := byteAt b 1 == 1, cfgLoss := byteAt b 2 == 1, cfgBeatUs := fieldLe b 4 2, cfgSolo := fieldLe b 6 2,
      policy := byteAt b 1 == 1, lossAction := byteAt b 2 == 1, beatUs := fieldLe b 4 2, soloMs := fieldLe b 6 2 }))
  else none

/-! ## One record -/

/-- A record applied; none when it is malformed or names an item that does not exist. -/
def applyRec (both : Bool) (s : State) (r : BeatRec) : Option State :=
  let b := r.body
  if r.typ = 0x01 then applyObject s b
  else if r.typ = 0x02 then applyTombstone s b
  else if r.typ = 0x03 then applyDomain s b
  else if r.typ = 0x04 then applyPart both s b
  else if r.typ = 0x05 then applyCust s b
  else if r.typ = 0x06 then (if both then snapRoutes s b else applyRoutes s b)
  else if r.typ = 0x07 then (if both then snapRules s b else applyRules s b)
  else if r.typ = 0x08 then (if b.length = 10 ∨ b.length ≥ 84 then some (applyDraft s b) else none)
  else if r.typ = 0x09 then applyConfig s b
  else if r.typ = 0x0A then applyDup s b
  else if r.typ = 0x11 then applyQueue s b
  else if r.typ = 0x12 then applyCacheFill s r.part b
  else if r.typ = 0x13 then applyCacheRemove s b
  else if r.typ = 0x14 then applyTableConfig s b
  else if r.typ = 0x20 ∧ both ∧ b.length = 48 then
    some { s with kc := { s.kc with salt := some (sl b 0 32) }, rt := { s.rt with salt := some (sl b 32 16) } }
  else if r.typ = 0x21 ∧ both then applyTableState s b
  else none

/-- The opcode a DRAFT record is about: of the image it brings, or of the unload. -/
def draftKey (b : Bytes) : Nat := fieldLe b (if b.length = 10 then 4 else 14) 2

/-- Place of a record's item in the order of R282, and its key there. -/
def itemOf (r : BeatRec) : Nat × Nat :=
  let t := r.typ
  let b := r.body
  if t = 0x09 then
    (if byteAt b 0 = 1 then (5, byteAt b 1) else if byteAt b 0 = 2 then (1, 1 + fieldLe b 2 2) else (1, 0))
  else if t = 0x20 then (2, 0)
  else if t = 0x04 then (3, fieldLe b 2 2)
  else if t = 0x05 then (4, fieldLe b 8 2)
  else if t = 0x08 then (5, 4 + draftKey b)
  else if t = 0x03 then (6, 0)
  else if t = 0x01 ∨ t = 0x02 then (7, fieldLe b 0 2)
  else if t = 0x21 ∨ t = 0x14 then (8, 0)
  else if t = 0x06 ∨ t = 0x07 then (9, 2 * fieldLe b 0 2 + b2n (t == 0x07))
  else if t = 0x0A then (10, fieldLe b 0 10)
  else if t = 0x11 then (11, fieldLe b 2 2)
  else
    let q := if t = 0x12 then b.drop (b.length - 25) else b
    (12, wayNo (byteAt q 0) (fieldLe q 1 2) (byteAt q 3))

/-- The snapshot has passed the record's item: it is at a later place of R282, or at this one and has brought the item,
or, where items come in ascending order, a later one. -/
def passed (s : State) (r : BeatRec) : Bool :=
  let i := itemOf r
  s.lk.pstate == 3 || decide (s.lk.snapPos.1 > i.1) ||
    (s.lk.snapPos.1 == i.1 && (if i.1 = 7 ∨ i.1 = 9 then decide (i.2 ≤ s.lk.snapPos.2) else s.lk.snapSeen.contains i.2))

/-- A snapshot record has been applied. -/
def Link.seen (l : Link) (i : Nat × Nat) : Link :=
  { l with snapPos := i, snapSeen := if l.snapPos.1 = i.1 then i.2 :: l.snapSeen else [i.2] }

def recTypes : List Nat := [1, 2, 3, 4, 5, 6, 7, 8, 9, 10, 0x11, 0x12, 0x13, 0x14]

/-- Whole records at the front of a stream, and the rest; none when a header is malformed (R285). -/
def takeRecs (types : List Nat) : Nat → Bytes → Option (List BeatRec × Bytes)
  | 0, b => some ([], b)
  | k + 1, b =>
    if b.length < 16 then some ([], b)
    else if !types.contains (byteAt b 8) ∨ byteAt b 9 ≠ 0 ∨ fieldLe b 14 2 ≠ 0 then none
    else
      let n := fieldLe b 10 2
      if b.length < 16 + n then some ([], b)
      else
        let r : BeatRec := { stamp := fieldLe b 0 8, typ := byteAt b 8, part := fieldLe b 12 2, body := sl b 16 n }
        (takeRecs types k (b.drop (16 + n))).map (fun x => (r :: x.1, x.2))

/-! ## The start of a snapshot (R282) -/

/-- A command that waits for a commit or a teardown of the state that goes ends with ABORTED. -/
def waitsForOld (c : Cmd) : Bool :=
  match c.phase with
  | .waitCommit => true
  | .waitTeardown _ => true
  | .waitTable => true
  | _ => false

/-- The key store without its keys: no secret, no object, no request. -/
def emptyStore (s : State) : State :=
  { s with tmp := { s.tmp with secret := none },
           ks := { s.ks with objs := [], domainKey := none, used := [], queue := [], cfgStone := s.ks.stone } }

/-- The standby's own state goes: key store, partitions, custodian sets, customer drafts, queues, tables, cache. -/
def dropState (s0 : State) : State :=
  let s := (s0.cmds.filter waitsForOld).foldl (fun t c => t.retire c 0x7002) s0
  let s1 := emptyStore s
  let own := (s.part? 0).getD Part.owner
  { s1 with
    parts := [{ own with custN := 0, custM := 0, custVer := 0, custKeys := [] }], gens := [], queues := [], fetched := [], dups := [],
    drafts := { s1.drafts with dir := s1.drafts.dir.filter (fun d => decide (d.opcode < 0x200)), highest := [], signers := [] },
    rt := { s1.rt with routes0 := [], routes1 := [], rules0 := [], rules1 := [], rSettled := true, pSettled := true },
    kc := { s1.kc with ways := [], fills := [], walks := [] }, qr := { s1.qr with nonces := [] }, tears := [] }

/-- A snapshot begins: a new battery secret, the pair record again, and event 0x0709. Without a secret from D16 it cannot
begin, and the link is established again. -/
def beginSnapshot (s : State) : State :=
  let partner := (s.lk.hello.map (fun h => h.lastBeat)).getD 0
  let s1 := (dropState s).raise 0x0709 s.lastBeat partner 0 0
  let s2 := drawOnce s1 32 (fun t b => { t with tmp := { t.tmp with secret := some b } })
  let s3 := match s.lk.pairRec with
    | none => s2
    | some r => commitPairRec s2 r
  let begun := fun (l : Link) => { l.clear with
    up := l.up, hello := l.hello, eph := l.eph, ownNonce := l.ownNonce, sessTx := l.sessTx, sessRx := l.sessRx,
    txSeq := l.txSeq, rxSeq := l.rxSeq, complete := false, done := 0, snapRx := some 0, rxWait := [] }
  let s4 := (s3.setPair 2 3).modLk begun
  (if s2.tmp.secret.isNone then relink 2 s4 else s4).raise 0x0A10 3 0 0 0

/-! ## Snapshot frames -/

/-- The records of a snapshot applied as they come. -/
def applySnap (rs : List BeatRec) (s : State) : Option State :=
  rs.foldl (fun (o : Option State) r => o.bind (fun t =>
    (applyRec true t r).map (fun u => u.modLk (fun l => l.seen (itemOf r))))) (some s)

/-- The first record of a snapshot: LK.CFG and LK.SOLO. -/
def snapFirst (b : Bytes) : Bool := byteAt b 8 == 9 && byteAt b 16 == 3

/-- SNAP_DATA. After event 0x0716 frames are passed over until a snapshot starts from its beginning. -/
def snapData (f : Frame) (s0 : State) : State :=
  let s := if s0.lk.role = 3 ∧ s0.lk.pstate = 2 then s0 else rejoin s0
  let s1 := if s.lk.snapRx.isSome ∨ !snapFirst f.payload then s else beginSnapshot s
  if s1.lk.snapRx.isNone then s1
  else
    let b := s1.lk.snapBuf ++ f.payload
    match takeRecs ([0x20, 0x21] ++ recTypes) (b.length + 1) b with
    | none => badSnapshot s1
    | some (rs, rest) => match applySnap rs s1 with
      | none => badSnapshot s1
      | some s2 => s2.modLk (fun l => { l with snapBuf := rest, snapRx := l.snapRx.map (fun n => n + rs.length) })

def execLuakaSnapData (w : Wire) (s : State) : Outcome := .next (luakaFrame 0x05 w s snapData)

/-- SNAP_END: the copy is complete (R272), IN_SYNC is sent, and event 0x0702 is written; its duration is a free value
(notes/assumptions/4.md). -/
def snapEnd (f : Frame) (s : State) : State :=
  let n := s.lk.snapRx.getD 0
  if f.payload.length ≠ 4 ∨ s.lk.snapBuf ≠ [] ∨ fieldLe f.payload 0 4 ≠ n then badSnapshot s
  else
    let s1 := (s.modLk (fun l => { l with complete := true, snapRx := none, snapPos := (0, 0), snapSeen := [] })).frame 0x07 false
      s.lk.beat []
    let s2 := s1.setPair 3 3
    (s2.drawn 4).raise 0x0702 n (leNat (s2.draws 4)) (s2.lk.beat % 2 ^ 32) 0

def execLuakaSnapEnd (w : Wire) (s : State) : Outcome := .next (luakaFrame 0x06 w s snapEnd)

/-- IN_SYNC on the active member. -/
def inSync (s : State) : State :=
  let n := s.lk.snapTx.getD 0
  let s1 := (s.modLk (fun l => { l with snapTx := none })).setPair 3 2
  (s1.drawn 4).raise 0x0702 n (leNat (s1.draws 4)) (s1.lk.beat % 2 ^ 32) 0

def execLuakaInSync (w : Wire) (s : State) : Outcome := .next (luakaFrame 0x07 w s (fun _ => inSync))

/-! ## Beat frames (R286) -/

/-- The number that follows a beat's. -/
def beatAfter (b : Nat) : Nat := if (b + 1) % 2 ^ 48 = 0 then 1 else (b + 1) % 2 ^ 48

/-- The last beat received whole. -/
def lastWhole (s : State) : Nat := (s.lk.rxWait.getLast?.map (fun x => x.1)).getD s.lk.done

/-- The frame's beat is the one under way, or the next. After a fresh start any number begins. -/
def beatExpected (s : State) (b : Nat) : Bool :=
  if s.lk.partial_ ≠ [] ∨ s.lk.rxBuf ≠ [] then b == s.lk.beat
  else lastWhole s == 0 || (s.lk.pstate == 2 && s.lk.snapRx.isNone) || b == beatAfter (lastWhole s)

/-- BEAT_DATA: its records join the beat being received. -/
def beatData (f : Frame) (s0 : State) : State :=
  let s := if s0.lk.role = 3 ∧ s0.lk.pstate ≥ 2 then s0 else rejoin s0
  if !beatExpected s f.beat then badBeat s
  else
    let b := s.lk.rxBuf ++ f.payload
    match takeRecs recTypes (b.length + 1) b with
    | none => badBeat s
    | some (rs, rest) =>
      s.modLk (fun l => { l with beat := f.beat, rxBuf := rest, partial_ := l.partial_ ++ rs.map (fun r => (r, passed s r)) })

def execLuakaBeatData (w : Wire) (s : State) : Outcome := .next (luakaFrame 0x02 w s beatData)

/-- Stamps of a beat's own commits rise and carry its number; a DUPLICATE record carries its commit's stamp. -/
def stampsOk (beat : Nat) (rs : List BeatRec) : Bool :=
  let st := (rs.filter (fun r => r.stamp != 0 && r.typ != 0x0A)).map (fun r => r.stamp)
  st.all (fun x => x / 2 ^ 20 == beat % 2 ^ 44) && decide (st.Pairwise (fun x y => x < y))

/-- Every record of a beat that the snapshot has passed, in stream order; none when one cannot be applied. -/
def applyBeat (rs : List (BeatRec × Bool)) (s : State) : Option State :=
  rs.foldl (fun (o : Option State) r => o.bind (fun t => if r.2 then applyRec false t r.1 else some t)) (some s)

/-- A whole beat is applied and acknowledged; its number goes to the configuration region where bits [19:0] are 0. -/
def finishBeat (num : Nat) (rs : List (BeatRec × Bool)) (s : State) : State :=
  match applyBeat rs s with
  | none => badBeat s
  | some s1 =>
    (s1.modLk (fun l => { l with done := num, recorded := if num % 2 ^ 20 = 0 then some num else l.recorded })).frame 0x04 false
      num []

/-- BEAT_END: checked against its records; applied at once, or held by a supply warning (Table 16.4). -/
def beatEnd (f : Frame) (s0 : State) : State :=
  let s := if s0.lk.role = 3 ∧ s0.lk.pstate ≥ 2 then s0 else rejoin s0
  let rs := s.lk.partial_
  let raw := rs.map (fun r => r.1)
  let last := ((raw.filter (fun r => r.stamp != 0)).getLast?.map (fun r => r.stamp)).getD 0
  if !beatExpected s f.beat ∨ s.lk.rxBuf ≠ [] ∨ f.payload.length ≠ 16 ∨ fieldLe f.payload 0 4 ≠ raw.length ∨
     fieldLe f.payload 4 4 ≠ (raw.map (fun r => r.bytes.length)).sum ∨ fieldLe f.payload 8 8 ≠ last ∨ !stampsOk f.beat raw then
    badBeat s
  else
    let s1 := s.modLk (fun l => { l with partial_ := [], beat := f.beat })
    if s.sag.warning then s1.modLk (fun l => { l with rxWait := l.rxWait ++ [(f.beat, rs)] }) else finishBeat f.beat rs s1

def execLuakaBeatEnd (w : Wire) (s : State) : Outcome := .next (luakaFrame 0x03 w s beatEnd)

/-- Beats held by a supply warning are applied in order once it clears. -/
def applyWaiting : Nat → State → State
  | 0, s => s
  | k + 1, s =>
    match s.lk.rxWait with
    | [] => s
    | (num, rs) :: rest => applyWaiting k (finishBeat num rs (s.modLk (fun l => { l with rxWait := rest })))

end Sys2Proof.Machine
end

