-- ==== Sys2Proof/Machine/Pair.lean ====
section
/-! DEFINITION. Active and standby (chapter 12): beats and their acknowledgement, heartbeat loss, the interlock and the claim
(R270-R274), promotion (R290), switchover and dissolution (R292, R294), the time frames, and the pairing opcodes (R297). -/

namespace Sys2Proof.Machine

open Sys2Proof

/-- Paired: the device holds a pair record. -/
def State.isPaired (s : State) : Bool := s.lk.pairRec.isSome

/-! ## Switchover on the active member (R292) -/

/-- The PAIR_SWITCHOVER that waits; its `idx` is the beat it closed, 0 before. -/
def switching (s : State) : Option Cmd := s.cmds.find? (fun c => c.phase == .waitSwitch)

/-- Steps 3 and 4: DONE, HANDOVER with the last beat closed, and the role STANDBY without a snapshot. -/
def handOver (s : State) (c : Cmd) : State :=
  let b := s.lk.done
  let s1 := okInline s c []
  let s2 := (s1.raise 0x070C (b % 2 ^ 32) (b / 2 ^ 32) 0 0).frame 0x09 false b []
  let s3 := (s2.setPair 3 3).modLk (fun l => { l with actOut := false, beats := [], late := [], beat := b, handover := none })
  ({ s3 with sys := { s3.sys with drainStop := false } }).raise 0x0705 1 0 0 0

/-- Every closed beat is acknowledged and the open one is empty. -/
def allAcked (s : State) : Bool := s.lk.beats.all (fun b => !b.closed && b.recs.isEmpty)

def switchAdvance (s : State) : State :=
  match switching s with
  | none => s
  | some c => if c.idx ≠ 0 ∧ s.lk.done ≥ c.idx ∧ allAcked s then handOver s c else s

/-! ## Beats (R283, R286, R287) -/

/-- BEAT_CLOSE: the open beat closes, on a standby only the count of bad frames starts again. A switchover whose commands
have finished takes the beat that closes. -/
def beatClose (s0 : State) : State :=
  let s := s0.modLk (fun l => { l with viol := 0 })
  if s.sys.step < 11 ∨ s.lk.role = 3 then s
  else match switching s with
    | some c =>
      if c.idx = 0 ∧ s.cmds.all (fun x => x.place == c.place) ∧ s.beatOpen then
        (s.closeBeat).setCmd { c with idx := s.lk.beat }
      else if s.beatOpen then s.closeBeat else s
    | none => if s.beatOpen then s.closeBeat else s

def execBeatClose (s : State) : Outcome := .next (beatClose s)

/-- BEAT_ACK: the buffer is free, the completions that waited for the beat are written, and a beat that could not open
opens with the records that waited for it. A teardown whose commit waited for it goes on. -/
def beatAck (f : Frame) (s : State) : State :=
  let mine := s.lk.held.filter (fun h => h.beat == f.beat % 2 ^ 44)
  let s1 := s.modLk (fun l => { l with done := f.beat, beats := l.beats.drop 1,
                                       held := l.held.filter (fun h => h.beat != f.beat % 2 ^ 44) })
  let s2 := s1.deliverAll mine
  let lack := !s2.lk.beats.any (fun b => b.num == s2.lk.beat)
  let s3 := if lack then
      (s2.modLk (fun l => { l with late := [], beats := l.beats ++ [{ num := l.beat, closed := false, recs := [], bytes := 0 }] }))
    else s2
  switchAdvance (teardownAdvance (if lack then s2.lk.late.foldl (fun t r => t.record r) s3 else s3))

def execLuakaBeatAck (w : Wire) (s : State) : Outcome := .next (luakaFrame 0x04 w s beatAck)

/-! ## Time frames (R310) -/

/-- LUAKA_TIME: the active member answers a request; an answer ends this device's exchange. -/
def luakaTime (rxNs : Int) (f : Frame) (s : State) : State :=
  if byteAt f.payload 0 = 1 then (if s.lk.role = 2 then timeAnswer s rxNs else s)
  else if byteAt f.payload 0 = 2 then partnerMeasure s f.payload rxNs
  else s

def execLuakaTime (w : Wire) (rxNs : Int) (s : State) : Outcome := .next (luakaFrame 0x08 w s (luakaTime rxNs))

/-! ## Heartbeat loss (R286, R288) -/

/-- A completion that still awaits its acknowledgement, as R288 writes it. -/
def Held.lost (h : Held) : Held :=
  { h with status := 0x8002, flags := 8 * b2n (bit h.flags 3), inline := zeros 16, reply := [] }

/-- The active member goes on alone. -/
def enterLone (s : State) : State :=
  let hs := s.lk.held
  let s1 := (s.setPair 4 2).modLk (fun l => { l with held := [], beats := [], late := [] })
  let s2 := s1.raise 0x070B hs.length (b2n s.lk.lossAction) 0 0
  let s3 := teardownAdvance (s2.deliverAll (hs.map Held.lost))
  match switching s3 with
  | none => s3
  | some c => ({ s3 with sys := { s3.sys with drainStop := false } }).retire c 0x8002

/-- A member awaits the partner's frames: its link is up, it mirrors, or it is an IN_SYNC standby that has not declared
the loss yet. -/
def State.listens (s : State) : Bool :=
  s.isPaired && (s.lk.up || s.mirroring || (s.lk.role == 3 && s.lk.pstate == 3 && !s.lk.heartbeat))

/-- HEARTBEAT_LOSS: no valid frame for 4 x BEAT_US. -/
def heartbeatLoss (s : State) : State :=
  if !s.listens then s
  else
    let s1 := s.raise 0x0703 s.lk.role (s.lk.done % 2 ^ 32) (s.lk.done / 2 ^ 32) 0
    let s2 := (if s.lk.up then relink 3 s1 else s1).modLk (fun l => { l with heartbeat := l.role == 3 && l.pstate == 3 })
    if s.mirroring then enterLone s2 else s2

def execHeartbeatLoss (s : State) : Outcome := .next (heartbeatLoss s)

/-- SOLO_WAIT_EXPIRY: the link of a paired device has been down for LK.SOLO.WAIT_MS. -/
def execSoloWaitExpiry (s : State) : Outcome :=
  .next (if s.isPaired && !s.lk.up then s.modLk (fun l => { l with solo := true }) else s)

/-! ## Promotion (R290) -/

/-- A partition's entries leave the tables, when it has some, as one update of each (R180). -/
def clearTables (s : State) (p : Nat) : State :=
  let w := Place.ctx 0
  let s1 := if (s.rt.routes s.rt.rgen).any (fun r => r.part == p) then teardownTables false (parityCopy false s) p w else s
  if (s1.rt.rules s1.rt.pgen).any (fun r => r.part == p) then teardownTables true (parityCopy true s1) p w else s1

/-- A teardown that the partition table shows begun goes on (R50), its partitions deepest first; no command of theirs is in
flight. -/
def resumeTear (root : Nat) : Nat → State → State
  | 0, s => s
  | k + 1, s =>
    match deepest s root with
    | none => s
    | some p =>
      let s1 := clearTables (tearPart s root p.id none) p.id
      match s1.tears.find? (fun t => t.root == root) with
      | none => s1
      | some t =>
        let s2 := teardownAdvance (teardownObjects s1 t)
        if (s2.part? p.id).isNone then resumeTear root k s2 else s2

def resumeTears (s : State) : State :=
  let roots := s.parts.filter (fun p => p.tearing && !((s.part? p.parent).map (fun x => x.tearing)).getD false)
  roots.foldl (fun t p => resumeTear p.id (t.parts.length) t) s

/-- Every mirrored BOUND queue stands as after Q_BIND. -/
def Queue.fresh (q : Queue) : Queue :=
  if q.bound then { q with sqHead := 0, sqTail := 0, cqHead := 0, cqTail := 0, phase := true, reading := 0, stopped := false,
                           errDue := false }
  else q

/-- Why a claim succeeded: 1 heartbeat loss, 2 HANDOVER, 3 start-up. -/
def claimCause (s : State) : Nat := if s.lk.handover.isSome then 2 else if s.lk.heartbeat then 1 else 3

/-- The boundary b. -/
def boundary (s : State) : Nat :=
  match s.lk.handover with
  | some b => b
  | none => s.lastBeat

/-- The beat that opens next. -/
def nextBeat (s : State) : Nat :=
  if s.lk.handover.isSome then boundary s + 1 else max s.lk.beat (boundary s + 3)

/-- The entries of a promoted device: HIT is set, and the uses a mirrored LIMITED entry shows count as used (R132). -/
def Way.promoted (w : Way) : Way := { w with hit := true, uses := if w.key.limited then 0 else w.uses }

/-- The claim has succeeded: the device becomes ACTIVE and is promoted. Step 7 follows the commits of step 3 (R290). -/
def becomeActive (s : State) : State :=
  let b := boundary s
  let cause := claimCause s
  let n := nextBeat s
  let pst := if cause = 2 then 3 else if cause = 3 ∧ s.lk.up then 2 else 4
  let s1 := s.modLk (fun l => { l with
    pstate := pst, role := 2, complete := true, claim := .idle, heartbeat := false, handover := none, solo := false, prom := b,
    partial_ := [], rxBuf := [], rxWait := [], beats := [], late := [], snapRx := none, snapBuf := [], promo := cause })
  let s2 := s1.openBeat n
  let lims := s2.liveObjs.filter (fun o => bit (byteAt (s2.objBody o) 4) 1)
  let s3 := lims.foldl (fun t o => t.enqueue (.raise o.handle) none) s2
  let s4 : State := { s3 with
    kc := { s3.kc with ways := s3.kc.ways.map Way.promoted, sweeping := s3.kc.salt.isSome, bucket := 0 }
    queues := s3.queues.map Queue.fresh, fetched := [] }
  let s5 := (resumeTears (timePromote s4)).promoteEnd
  if pst = 2 then sendSnapshot s5 else s5

/-! ## The claim (R272-R274) -/

/-- A condition of R272 holds; in the ceremony no member claims (R281). -/
def claimCond (s : State) : Bool :=
  let h := s.lk.hello
  s.isPaired && s.lk.complete && !s.lk.ceremony && s.lk.role != 1 && s.lk.role != 2 &&
    ((s.lk.role == 3 && s.lk.pstate == 3 && (s.lk.heartbeat || s.lk.handover.isSome)) ||
     (s.lk.up && (match h with
       | none => false
       | some x => !bit x.flags 1 && !bit x.flags 2 &&
           (!bit x.flags 3 || decide (x.lastBeat < s.lastBeat) || (x.lastBeat == s.lastBeat && !s.lk.strap)))) ||
     s.lk.solo)

/-- ACT_OUT_N is driven low and the role becomes CLAIMING. -/
def drive (s : State) : State := (s.setPair s.lk.pstate 1).modLk (fun l => { l with actOut := true, claim := .drive })

/-- ACT_OUT_N is released, back to step 1 of R273. -/
def release1 (s : State) : State :=
  (s.setPair s.lk.pstate (if s.lk.pstate = 2 ∨ s.lk.pstate = 3 then 3 else 0)).modLk (fun l => { l with actOut := false, claim := .idle })

/-- ACT_IN_CHANGE: the filtered level. CLAIM_GUARD_EXPIRY tells that the guard has run without a low; the re-read of a
SECONDARY reads the level at its end. High after a ceremony ends the source's exemption (R281). -/
def actInChange (low : Bool) (s : State) : State :=
  s.modLk (fun l => { l with actIn := low, source := l.source && (low || l.ceremony) })

def execActInChange (low : Bool) (s : State) : Outcome := .next (actInChange low s)

/-- CLAIM_GUARD_EXPIRY: ACT_IN_N has read high for 100 us while a condition of R272 holds. -/
def guardExpiry (s : State) : State :=
  if s.lk.actIn ∨ !claimCond s then s
  else if s.lk.strap then s.modLk (fun l => { l with claim := .reread }) else drive s

def execClaimGuardExpiry (s : State) : Outcome := .next (guardExpiry s)

/-- CLAIM_REREAD, on a SECONDARY device 20 us later. -/
def claimReread (s : State) : State :=
  if s.lk.claim ≠ .reread then s
  else if s.lk.actIn ∨ !claimCond s then s.modLk (fun l => { l with claim := .idle }) else drive s

def execClaimReread (s : State) : Outcome := .next (claimReread s)

/-- CLAIM_CHECK, 2 us after the drive: ACTIVE, or contention. The time ACT_IN_N has been low is a free value
(notes/assumptions/4.md). -/
def claimCheck (s : State) : State :=
  if s.lk.claim ≠ .drive then s
  else if !s.lk.actIn then becomeActive s
  else
    let s1 := (s.drawn 4).raise 0x0706 (b2n s.lk.strap) s.lk.role (leNat (s.draws 4)) 0
    if s.lk.strap then release1 s1 else s1.modLk (fun l => { l with claim := .contention })

def execClaimCheck (s : State) : Outcome := .next (claimCheck s)

/-- CONTENTION_HIGH_10US: the PRIMARY that kept driving becomes ACTIVE, or a suspended one admits again. -/
def contentionHigh (s : State) : State :=
  if s.lk.actIn then s
  else if s.lk.claim = .contention then becomeActive s
  else if s.lk.claim = .suspended then s.modLk (fun l => { l with claim := .idle })
  else s

def execContentionHigh10us (s : State) : Outcome := .next (contentionHigh s)

/-- An ACTIVE member gives up its role: ACT_OUT_N is released, and commands past their commit word complete (R274). -/
def standDown (s : State) : State :=
  let hs := s.lk.held
  (s.modLk (fun l => { l with actOut := false, claim := .idle, beats := [], late := [], held := [] })).deliverAll hs

/-- CONTENTION_TIMEOUT: after 1 ms still low, the PRIMARY releases and starts again at step 1. An ACTIVE device that gives up
so links again. -/
def contentionTimeout (s : State) : State :=
  if !s.lk.actIn then s
  else if s.lk.claim = .contention then release1 s
  else if s.lk.claim = .suspended then standDown (s.setPair 1 0)
  else s

def execContentionTimeout (s : State) : Outcome := .next (contentionTimeout s)

/-- ACTIVE_INTERLOCK_LOW: ACT_IN_N low for 1 us while ACTIVE, the source of a ceremony apart. -/
def interlockLow (s : State) : State :=
  if !s.isPaired ∨ s.lk.role ≠ 2 ∨ !s.lk.actIn ∨ s.lk.source then s
  else
    let s1 := s.raise 0x0706 (b2n s.lk.strap) 2 1 0
    if !s.lk.strap then s1.modLk (fun l => { l with claim := .suspended })
    else
      relink 2 (((standDown (s1.setPair 1 3)).abortWhere (fun _ => true)).raise 0x0705 2 0 0 0)

def execActiveInterlockLow (s : State) : Outcome := .next (interlockLow s)

/-! ## HANDOVER and LEAVE -/

/-- LUAKA_HANDOVER: the partner hands over with its last beat closed. -/
def execLuakaHandover (w : Wire) (s : State) : Outcome :=
  .next (luakaFrame 0x09 w s (fun f t => t.modLk (fun l => { l with handover := some f.beat })))

/-- The device stands alone as R271 has it. -/
def becomeUnpaired (s : State) : State :=
  let s1 := (s.setPair 0 2).modLk (fun l => { l.clear with
    pairRec := none, actOut := true, claim := .idle, lanes := 0, ceremony := false, source := false, named := none,
    heartbeat := false, handover := none, solo := false, beats := [], late := [], held := [], rxWait := [] })
  s1.deliverAll s.lk.held

/-- A member that is not active gives up its state: a new battery secret, every partition but 0, whose custodian set stays
(R294). -/
def leavePair (s : State) : State :=
  let s1 := (s.cmds.filter waitsForOld).foldl (fun t c => t.retire c 0x7002) (s.raise 0x070A s.lk.role 0 0 0)
  let s2 := emptyStore s1
  let s3 : State := { s2 with
    parts := s2.parts.filter (fun p => p.id == 0), queues := s2.queues.filter (fun q => !q.bound || q.part == 0), fetched := [],
    rt := { s2.rt with routes0 := s2.rt.routes0.filter (fun r => r.part == 0), routes1 := s2.rt.routes1.filter (fun r => r.part == 0),
                       rules0 := s2.rt.rules0.filter (fun r => r.part == 0), rules1 := s2.rt.rules1.filter (fun r => r.part == 0) },
    kc := { s2.kc with ways := s2.kc.ways.filter (fun w => w.part == 0 && w.source != 1) }, tears := [] }
  drawSalts (becomeUnpaired s3)

/-- LUAKA_LEAVE. -/
def execLuakaLeave (w : Wire) (s : State) : Outcome := .next (luakaFrame 0x0A w s (fun _ => leavePair))

/-- The pair record's versions leave the journal. -/
def dropPairRec (s : State) : State :=
  match writeVersion (ensureReservation s) pairHandle 2 (zeros 96) none with
  | none => s
  | some (s1, _, _) => (((writtenSlots s1).filter (fun k => slotHandle s1 k == pairHandle)).foldl zeroSlot s1).dropObj pairHandle

/-- The active or LONE member keeps its state. -/
def dissolveActive (s : State) : State :=
  let s1 := s.raise 0x070A s.lk.role 0 0 0
  let s2 := if s.lk.up then s1.frame 0x0A false s.lk.beat [] else s1
  becomeUnpaired (dropPairRec s2)

/-! ## Opcodes (Table 12.10) -/

def detail7 (s : State) (c : Cmd) : State := failDetail s c 0x1003 [7#8]

/-- Acceptance of PAIR_BEGIN (step 2 of R281). -/
def beginPair (s : State) (c : Cmd) : State :=
  let src := bit (c.inl 72 1) 0
  if s.lk.pstate ≠ 0 ∨ s.lk.pairRec.isSome ∨ s.lk.ceremony then failDetail s c 0x1003 [1#8]
  else if !src ∧ s.queues ≠ [] then failDetail s c 0x1003 [2#8]
  else
    let s1 := (s.setCmd { c with phase := .waitPair }).modLk (fun l => { l with
      ceremony := true, source := src, named := some (c.inlB 80 32, c.inl 112 8), beginBy := some c.place, hello := none, eph := [],
      ownNonce := [], helloDue := false })
    trainLanes { s1 with sys := { s1.sys with pdctl := s1.sys.pdctl ||| (1#36 <<< 24) } }

/-- PAIR_BEGIN. -/
def pairBegin (s : State) (c : Cmd) : State :=
  withQuorum s c (if c.inl 72 1 > 1 ∨ !allZero (c.inlB 73 7) ∨ !allZero (c.inlB 120 8) then detail7 s c else beginPair s c)

def execPairBegin (i : Nat) (s : State) : Outcome := .next (stewardRow s i 0x028 pairBegin)

/-- PAIR_BEGIN_TIMEOUT: 60 s without a valid partner HELLO. -/
def execPairBeginTimeout (s : State) : Outcome :=
  .next (if s.lk.ceremony && s.lk.pairRec.isNone then ceremonyFails s 0x8002 3 else s)

/-- CEREMONY_INTERLOCK_TIMEOUT: 1 ms after PAIR_BEGIN completed on the source; R274 applies from then on (R281). -/
def ceremonyInterlock (s : State) : State :=
  if !s.lk.source ∨ s.lk.ceremony then s
  else
    let s1 := s.modLk (fun l => { l with source := false })
    if s.lk.actIn then s1.raise 0x0706 (b2n s.lk.strap) s.lk.role 1000 0 else s1

def execCeremonyInterlockTimeout (s : State) : Outcome := .next (ceremonyInterlock s)

/-- PAIR_SET_POLICY: kept in the configuration region, in force from the next beat opened (R283, R287). -/
def pairSetPolicy (s : State) (c : Cmd) : State :=
  let b := c.inl 74 2
  let w := c.inl 76 2
  if c.inl 72 1 > 1 ∨ c.inl 73 1 > 1 ∨ b < 10 ∨ b > 1000 ∨ w < 1 ∨ w > 60000 ∨ !allZero (c.inlB 78 50) then detail7 s c
  else
    let p := c.inl 72 1 == 1
    let l := c.inl 73 1 == 1
    commitDone s (s.modLk (fun k => { k with cfgPolicy := p, cfgLoss := l, cfgBeatUs := b, cfgSolo := w })) c 0x09 0
      (linkCfgBody p l b w) [] []

def execPairSetPolicy (i : Nat) (s : State) : Outcome := .next (stewardRow s i 0x029 pairSetPolicy)

/-- PAIR_QUERY. -/
def pairQuery (s : State) (c : Cmd) : State :=
  if !allZero (c.inlB 72 56) then detail7 s c
  else
    let r := match s.lk.pairRec with
      | none => zeros 72
      | some x => s.pairPublic ++ sl x.partnerKey 0 32 ++ toLe 8 x.partnerSerial
    okReply s c ([byte s.lk.pstate, byte s.lk.role, byte (b2n s.lk.policy + 2 * b2n s.lk.lossAction), byte s.lk.lanes] ++
      toLe 6 s.lk.done ++ toLe 6 s.lk.prom) r

def execPairQuery (i : Nat) (s : State) : Outcome := .next (stewardRow s i 0x02A pairQuery)

/-- PAIR_SWITCHOVER: admission stops, and the command waits for the beat that holds every commit. -/
def pairSwitchover (s : State) (c : Cmd) : State :=
  if !allZero (c.inlB 72 56) then detail7 s c
  else if s.lk.pstate ≠ 3 ∨ s.lk.role ≠ 2 ∨ (switching s).isSome then s.retire c 0x8002
  else
    let s1 := s.setCmd { c with phase := .waitSwitch, idx := 0 }
    { s1 with sys := { s1.sys with drainStop := true } }

def execPairSwitchover (i : Nat) (s : State) : Outcome := .next (stewardRow s i 0x02B pairSwitchover)

/-- PAIR_DISSOLVE. On an unpaired device there is nothing to dissolve. -/
def pairDissolve (s : State) (c : Cmd) : State :=
  if !allZero (c.inlB 72 56) then detail7 s c
  else if !s.isPaired then okInline s c []
  else if s.lk.role = 2 then
    (if !journalOpen (ensureReservation s) false then s else okInline (dissolveActive s) c [])
  else
    let s1 := leavePair s
    match s1.cmd? c.place with
    | none => s1
    | some x => okInline s1 x []

def execPairDissolve (i : Nat) (s : State) : Outcome := .next (stewardRow s i 0x02C pairDissolve)

end Sys2Proof.Machine
end

