-- ==== Sys2Proof/Machine/Recorder.lean ====
section
/-! DEFINITION. The event recorder (R384-R392): rate limits, the log, its clear and its export, the black box, the
operating time's store, and the recorder opcodes (R393). -/

namespace Sys2Proof.Machine

open Sys2Proof

/-! ## Records (Tables 17.3 to 17.5) -/

/-- CLASS and SEVERITY of a code (EVR.CODEMAP): as written since, else as firmware loads them at step 11, zero before. -/
def codeMap (s : State) (code : Nat) : Nat × Nat :=
  match s.evr.codemap.find? (fun x => x.1 == code % 4096) with
  | some x => x.2
  | none => if s.sys.step < 11 then (0, 0) else ((Config.codeClass (code % 4096)).1 % 256, (Config.codeClass (code % 4096)).2 % 4)

/-- RATE and BURST of a class. -/
def classOf (s : State) (n : Nat) : Nat × Nat :=
  match s.evr.classes.find? (fun x => x.1 == n) with
  | some x => x.2
  | none => if s.sys.step < 11 then (0, 0) else ((Config.classRate n).1 % 65536, (Config.classRate n).2 % 256)

/-- Freeze triggers. -/
def Ev.trigger (e : Ev) : Bool :=
  [0x0201, 0x0304, 0x0403, 0x0507, 0x0E06].contains e.code || (e.code == 0x0503 && decide (e.p1 ≥ 160)) ||
    (e.code == 0x0C02 && e.p2 == 2)

/-- The codes of Table 17.5, whatever their parameters, and 0x0Dxx: never limited. -/
def unlimited (code : Nat) : Bool :=
  [0x0201, 0x0304, 0x0403, 0x0503, 0x0507, 0x0C02, 0x0E06].contains code || code / 256 == 0x0D

/-- Flags of a new record. The manual gives no SOURCE per event: it is a free value of the code
(notes/assumptions/3.md). -/
def evFlags (s : State) (e : Ev) (suppressed : Bool) : Nat :=
  (codeMap s e.code).2 % 4 + 4 * (Config.eventSource e.code % 7) + 32 * b2n e.deferred + 64 * b2n suppressed

def Rec.bytes (r : Rec) : Bytes :=
  toLe 2 r.ev.code ++ [byte r.flags, byte r.reps] ++ toLe 6 r.ev.time ++ toLe 4 r.power ++ toLe 2 r.seq ++ toLe 4 r.ev.p1 ++
    toLe 4 r.ev.p2 ++ toLe 4 r.ev.p3 ++ toLe 4 r.ev.p4

/-! ## Rate limits (R386) -/

/-- The bucket of a code, in thousandths of a token, refilled to now; one not yet used is full
(notes/assumptions/26.md). -/
def bucketNow (s : State) (code rate burst : Nat) : Nat :=
  match s.evr.buckets.find? (fun b => b.1 == code) with
  | none => burst * 1000
  | some b => min (burst * 1000) (b.2.1 + rate * (s.evr.optime - b.2.2))

/-- Takes a token: the state, and whether one was there. -/
def takeToken (s : State) (code : Nat) : State × Bool :=
  let k := classOf s (codeMap s code).1
  if unlimited code ∨ k = (0, 0) then (s, true)
  else
    let t := bucketNow s code k.1 k.2
    let put := fun (n : Nat) => { s with evr := { s.evr with
      buckets := (code, n, s.evr.optime) :: s.evr.buckets.filter (fun b => b.1 != code) } }
    if t ≥ 1000 then (put (t - 1000), true) else (put t, false)

/-! ## The black box (R391) -/

/-- The ring takes a record; the trigger's record starts the count of 63, at the end of which the ring freezes. -/
def ringTake (s : State) (e : Ev) (suppressed : Bool) : State :=
  let v := s.evr
  if v.frozen then s
  else
    let n := ((v.ring.head?).map (fun r => (r.seq + 1) % 65536)).getD 0
    let r : Rec := { ev := e, flags := evFlags s e suppressed, reps := 0, power := v.power, seq := n }
    let v1 := { v with ring := (r :: v.ring).take 8192, head := (v.head + 1) % 8192 }
    if v.triggered then
      if v.post ≤ 1 then
        (({ s with evr := { v1 with post := 0, frozen := true } }).cause 6).raise 0x0D04 v.trigCode v.trigIdx 0 0
      else { s with evr := { v1 with post := v.post - 1 } }
    else if e.trigger then { s with evr := { v1 with triggered := true, post := 63, trigCode := e.code, trigIdx := v.head } }
    else { s with evr := v1 }

/-- The record at a ring index. -/
def ringAt (s : State) (i : Nat) : Option Rec := s.evr.ring[(s.evr.head + 8192 - 1 - i) % 8192]?

/-! ## The log (R384, R386, R388, R390) -/

/-- A record is exported when it is written (R390); beyond 64 queued it is dropped (Table 18.5). -/
def exportRec (s : State) (r : Rec) : State :=
  if !s.evr.export_ || s.pt.mapping != 1 || !s.powered 26 then s
  else if s.evr.frames ≥ 64 then { s with iom := { s.iom with drops := min (s.iom.drops + 1) 0xFFFF } }
  else
    let head := toLe 6 s.evr.exMac ++ Config.portMac ++ toLe 4 s.evr.exIp ++ toLe 4 s.pt.ipv4 ++ toLe 2 s.evr.exPort
    ({ s with evr := { s.evr with frames := s.evr.frames + 1 } }).send
      (.mgmt 2 (head ++ ascii "SLKEVNT1" ++ s.lc.otpBytes 48 2 ++ r.bytes))

/-- A record is appended to the log. -/
def appendLog (s : State) (e : Ev) : State :=
  let n := s.evr.log.length
  let r : Rec := { ev := e, flags := evFlags s e false, reps := 0, power := s.evr.power, seq := n }
  exportRec { s with evr := { s.evr with log := s.evr.log ++ [r], lastIdx := assocSet s.evr.lastIdx e.code n } } r

/-- One more occurrence of a suppressed code: the repeat count of its last record since reset. -/
def bumpRepeat (s : State) (code : Nat) : State :=
  let s1 := { s with evr := { s.evr with suppressed := (s.evr.suppressed + 1) % 2 ^ 32 } }
  match s.evr.lastIdx.find? (fun x => x.1 == code) with
  | none => s1
  | some x =>
    let up := fun (r : Rec) => { r with reps := min 255 (r.reps + 1),
                                        flags := if r.reps ≥ 254 then r.flags ||| 128 else r.flags }
    { s1 with evr := { s1.evr with log := updAt s1.evr.log x.2 up } }

def bumpLost (s : State) (n : Nat) : State := { s with evr := { s.evr with lost := (s.evr.lost + n) % 2 ^ 32 } }

/-- The last index takes 0x0D02 in place of any other record, and the log is full. -/
def logFull (s : State) : State :=
  let e : Ev := { code := 0x0D02, p1 := s.evr.power, p2 := 0, p3 := 0, p4 := 0, time := s.evr.optime, deferred := false }
  ringTake (({ (appendLog s e) with evr := { (appendLog s e).evr with full := true } }).cause 6) e false

/-- One event into the log and the black box. -/
def writeEvent (s0 : State) (e : Ev) : State :=
  if s0.evr.full then ringTake (bumpLost s0 1) e false
  else
    let (s, ok) := takeToken s0 e.code
    if !ok then ringTake (bumpRepeat s e.code) e true
    else if s.evr.log.length ≥ 65535 then ringTake (bumpLost (logFull s) 1) e false
    else ringTake (appendLog s e) e false

/-- The recorder can write MRAM: PD34 and PD35 on, no supply warning, no clear. -/
def recorderOn (s : State) : Bool := s.powered 35 && s.powered 34 && decide (s.sys.step ≥ 7) && !s.recHeld

/-- EVENT_RECORD: the oldest buffered event is written; records lost meanwhile are told by 0x0D03 (R387). -/
def eventRecord (s : State) : State :=
  match s.evr.buffer with
  | [] => s
  | e :: r =>
    if !recorderOn s then s
    else
      let s1 := writeEvent { s with evr := { s.evr with buffer := r, waiting := s.evr.waiting - 1 } } e
      if s1.evr.lostNow = 0 then s1
      else ({ s1 with evr := { s1.evr with lostNow := 0 } }).raise 0x0D03 s1.evr.lostNow 0 0 0

def execEventRecord (s : State) : Outcome := .next (eventRecord s)

/-- OPTIME_STORE: every 1,000 ms of operating time (R385). -/
def optimeStore (s0 : State) : State :=
  let s := s0.timeAtLeast (s0.evr.stored + 1000)
  if s.powered 35 && s.powered 34 && !s.sag.warning then { s with evr := { s.evr with stored := s.evr.optime } } else s

def execOptimeStore (s : State) : Outcome := .next (if s.sys.inReset then s else optimeStore s)

/-! ## The clear (R389) -/

/-- The clear: every record zeroed, the counters, and 0x0D01 at index 0. -/
def clearLog (s : State) : State :=
  let v := s.evr
  let e : Ev := { code := 0x0D01, p1 := v.log.length, p2 := v.lost, p3 := (v.clears + 1) % 2 ^ 32,
                  p4 := ((s.part? 0).map (fun p => p.custVer)).getD 0, time := v.optime, deferred := false }
  let s1 := { s with evr := { v with log := [], full := false, lost := 0, clears := (v.clears + 1) % 2 ^ 32, lastIdx := [],
                                     clearing := false, clearBy := none } }
  ringTake (appendLog s1 e) e false

/-- The clear begins: new records are held. A second one meets BUSY_RETRY (Table 18.2). -/
def clearBegin (s : State) (c : Cmd) : State :=
  if s.evr.clearing then s.retire c 0x5001
  else
    let s1 := s.setCmd { c with phase := .waitClear }
    { s1 with evr := { s1.evr with clearing := true, clearBy := some c.place,
                                   buffer := s1.evr.buffer.map (fun e => { e with deferred := true }) } }

/-- EVR_CLEAR. A row sent while a clear begun by this context is under way ends it, once no supply warning holds MRAM
writes. -/
def evrClear (s : State) (c : Cmd) : State :=
  withQuorum s c (if c.ownLen true ≠ 0 then failDetail s c 0x1002 [8#8] else clearBegin s c)

def clearEnd (s : State) (p : Place) : State :=
  if s.sag.warning then s
  else match (s.cmd? p).filter (fun c => c.phase == .waitClear) with
    | none => clearLog s
    | some c => okInline (clearLog s) c []

def execEvrClear (i : Nat) (s : State) : Outcome :=
  .next (if s.evr.clearing && s.evr.clearBy == some (Place.ctx i) then clearEnd s (.ctx i) else stewardRow s i 0x1AD evrClear)

/-! ## The other opcodes (R390, R392, R393) -/

/-- EVR_SET_EXPORT. -/
def evrSetExport (s : State) (c : Cmd) : State :=
  if c.inl 72 1 > 1 ∨ c.inl 73 1 ≠ 0 ∨ !allZero (c.inlB 86 42) ∨ s.pt.mapping ≠ 1 then badParam s c
  else okInline { s with evr := { s.evr with export_ := c.inl 72 1 == 1, exPort := c.inl 74 2, exIp := c.inl 76 4,
                                             exMac := c.inl 80 6 } } c []

def execEvrSetExport (i : Nat) (s : State) : Outcome := .next (stewardRow s i 0x1A7 evrSetExport)

/-- EVR_READ. -/
def evrRead (s : State) (c : Cmd) : State :=
  let a := c.inl 72 2
  let n := c.inl 74 1
  if n < 1 ∨ n > 96 ∨ a + n > 65536 ∨ !allZero (c.inlB 75 53) then badParam s c
  else okReply s c (toLe 4 s.evr.log.length ++ toLe 4 s.evr.lost)
    ((List.range n).flatMap (fun k => ((s.evr.log[a + k]?).map Rec.bytes).getD (zeros 32)))

def execEvrRead (i : Nat) (s : State) : Outcome := .next (stewardRow s i 0x1AC evrRead)

/-- BB_READ: the ring's indices go round (notes/assumptions/26.md). -/
def bbRead (s : State) (c : Cmd) : State :=
  let a := c.inl 72 2
  let n := c.inl 74 1
  if n < 1 ∨ n > 96 ∨ a > 8191 ∨ !allZero (c.inlB 75 53) then badParam s c
  else okReply s c (toLe 2 s.evr.head ++ [byte (b2n s.evr.frozen), 0#8] ++ toLe 2 s.evr.trigIdx)
    ((List.range n).flatMap (fun k => ((ringAt s ((a + k) % 8192)).map Rec.bytes).getD (zeros 32)))

def execBbRead (i : Nat) (s : State) : Outcome := .next (stewardRow s i 0x1AE bbRead)

/-- BB_RELEASE. -/
def bbRelease (s : State) (c : Cmd) : State :=
  if !s.evr.frozen ∨ !allZero (c.inlB 72 56) then badParam s c
  else okInline (({ s with evr := { s.evr with frozen := false, triggered := false, post := 0 } }).raise 0x0D05 s.evr.head 0 0 0) c []

def execBbRelease (i : Nat) (s : State) : Outcome := .next (stewardRow s i 0x1AF bbRelease)

/-! ## Start-up (R387, R389) -/

/-- Step 7: the recorder finds its place. Events held in AON are buffered; records lost by a W, Z or S reset are told;
an interrupted clear is done again. -/
def recorderStart (s : State) : State :=
  let s0 := { s with evr := { s.evr with buffer := [], waiting := 0, lastIdx := [] } }
  let s1 := if s0.evr.clearing then clearLog s0 else s0
  let n := s.evr.waiting
  let s2 := if n = 0 then s1 else (bumpLost s1 n).raise 0x0D03 n 0 0 0
  let held := s2.evr.aon
  { s2 with evr := { s2.evr with buffer := s2.evr.buffer ++ held, waiting := s2.evr.waiting + held.length, aon := [] } }

end Sys2Proof.Machine
end

