-- ==== Sys2Proof/Machine/Supply.lean ====
section
/-! DEFINITION. Tamper sensing, zeroisation and the battery domain (R357-R366), supply monitors (R367-R371), their
coincidences (R372), and the tamper opcodes (R373). -/

namespace Sys2Proof.Machine

open Sys2Proof

/-! ## Zeroisation (R361) -/

/-- BAT's own time in units of 1/32 s (TMP.LTIME). -/
def batTime (s : State) : Nat := s.tmp.batTicks / 2000 % 2 ^ 32

/-- Inputs are latched, with the time of the first. -/
def latchInputs (s : State) (mask : BitVec 15) : State :=
  { s with tmp := { s.tmp with latch := s.tmp.latch ||| mask,
                               ltime := if s.tmp.latch = 0 then batTime s else s.tmp.ltime } }

/-- Zeroisation for the inputs of a mask. On VBAT alone only the battery secret goes and the inputs are latched; with the
main supplies present a Z reset follows, which clears every volatile secret (Table 16.2). -/
def zeroise (mask : BitVec 15) (s : State) : State :=
  let s1 := if s.tmp.onVbat then { s with tmp := { s.tmp with secret := none } }
    else assertReset kZ 4 6 (abandonPicks 2 s)
  latchInputs { s1 with tmp := { s1.tmp with due := true } } mask

/-! ## Sampling (R358) -/

/-- Consecutive wrong bits, or bad measurements, of loop `n` after a sample. -/
def loopCount (old : Nat) (bad : Bool) : Nat := if bad then min 2 (old + 1) else 0

/-- The figures a sample updates: counts, measurements and BAT time. -/
def sampleCounts (t : Tamper) (r : TamperReading) : Tamper :=
  let get := fun (l : List Nat) (n : Nat) => (l[n]?).getD 0
  let meas := match r.measured with
    | none => []
    | some (a, b, c, d) => [a, b, c, d]
  let win := if meas = [] then t.win else t.win.mapIdx (fun n w => (w.1, w.2.1, get meas n))
  let bad := fun (n : Nat) => match t.win[n]? with
    | none => false
    | some w => decide (get meas n < w.1 ∨ get meas n > w.2.1)
  let at_ := fun (n : Nat) => r.switches.getLsbD n == t.activeHigh.getLsbD n
  { t with
    batTicks := t.batTicks + (if t.onVbat then 500 else 32), samples := t.samples + 1, win := win,
    badBits := (List.range 4).map (fun n => loopCount (get t.badBits n) (r.loopBitWrong.getLsbD n)),
    badMeas := if meas = [] then t.badMeas else (List.range 4).map (fun n => loopCount (get t.badMeas n) (bad n)),
    swCount := (List.range 4).map (fun n => if at_ n then min 17 (get t.swCount n + 1) else 0),
    coldCount := if r.tempLow then min 2 (t.coldCount + 1) else 0 }

/-- The conditions of inputs 0-7 and 9 after a sample; those of the comparators stay. -/
def sampleLive (t : Tamper) : BitVec 15 :=
  let get := fun (l : List Nat) (n : Nat) => (l[n]?).getD 0
  let on := fun (i : Nat) =>
    if i < 4 then decide (get t.badBits i ≥ 2 ∨ get t.badMeas i ≥ 2)
    else if i < 8 then decide (get t.swCount (i - 4) ≥ t.debounce + 1)
    else if i = 9 then decide (t.coldCount ≥ 2) else t.live.getLsbD i
  BitVec.ofNat 15 (((List.range 15).map (fun i => if on i then 2 ^ i else 0)).sum)

/-- The inputs of a mask that respond in a given way: LOG when `zero` is false. -/
def respond (s : State) (mask : BitVec 15) (zero : Bool) : List Nat :=
  (List.range 15).filter (fun i => mask.getLsbD i &&
    (if zero then zeroiseInput s i else decide (i < 8) && tamperCode s i == 1))

def maskOf (l : List Nat) : BitVec 15 := BitVec.ofNat 15 ((l.map (fun i => 2 ^ i)).sum)

/-- The onset of a LOG input: latched, with event 0x0202 while the main supplies carry the recorder. -/
def logInput (s : State) (i : Nat) : State :=
  let s1 := latchInputs s (maskOf [i])
  if s.tmp.onVbat then s1
  else s1.raise 0x0202 i (if i < 4 then ((s1.tmp.win[i]?).map (fun w => w.2.2)).getD 0 else 0) 0 0

/-- Each onset acts by the response of its input; two or more ZEROISE conditions at once are one zeroisation. While a
ZEROISE condition stays present, the battery secret is cleared again at each sample (R362). -/
def tamperSample (r : TamperReading) (s : State) : State :=
  let t1 := sampleCounts s.tmp r
  let live := sampleLive t1
  let onset := live &&& ~~~s.tmp.live
  let s1 : State := { s with tmp := { t1 with live := live } }
  let s2 := (respond s1 onset false).foldl logInput s1
  let z := respond s2 onset true
  let s3 := if z = [] then s2 else zeroise (maskOf z) s2
  if zeroiseLive s3 then { s3 with tmp := { s3.tmp with secret := none } } else s3

def execTamperSample (r : TamperReading) (s : State) : Outcome := .next (tamperSample r s)

/-- Where an input is checked (Table 16.1): AON inputs while powered, CLOCK from the first PLL lock, VBAT_ERASE on
VBAT. -/
def comparatorOn (s : State) (i : Nat) : Bool :=
  if i = 8 then true
  else if i = 11 then !s.tmp.onVbat && s.sys.monitored
  else if i = 14 then s.tmp.onVbat
  else (i == 10 || i == 12 || i == 13) && !s.tmp.onVbat

/-- A stopped REFCLK, or a lost lock, before the response to it (R19, R30). The time state becomes FREE_RUN. -/
def clockFault (s : State) (refLost : Bool) : State :=
  let y := s.sys
  timeUnlock { s with sys := { y with pllLock := false, pllUnlock := y.pllUnlock || y.pllLock,
                                      refLost := y.refLost || refLost, refOk := y.refOk && !refLost } }

/-- TAMPER_COMPARATOR_TRIP: the inputs that act without sampling, on their onset. REFCLK that stops while the lock is lost
already is recorded, and the clock input, which stands, stays raised. -/
def comparatorTrip (i : Nat) (refLost : Bool) (s : State) : State :=
  if !comparatorOn s i then s
  else
    let s1 := if i = 11 then clockFault s refLost else s
    if s.tmp.live.getLsbD i then s1
    else zeroise (maskOf [i]) { s1 with tmp := { s1.tmp with live := s1.tmp.live ||| maskOf [i] } }

def execTamperComparatorTrip (input : Nat) (refLost : Bool) (s : State) : Outcome := .next (comparatorTrip input refLost s)

/-! ## The battery domain (R359, R364-R366) -/

/-- BAT_POWER_ON: BAT takes its power-on configuration and holds no battery secret. -/
def batPowerOn (s : State) : State :=
  { s with tmp := { Tamper.reset with onVbat := s.tmp.onVbat, wasOnVbat := s.tmp.wasOnVbat, vbatMv := s.tmp.vbatMv,
                                      batLow := s.tmp.batLow } }

def execBatPowerOn (s : State) : Outcome := .next (batPowerOn s)

/-- BAT_SUPPLY_SWITCH: without losing state; VBAT_ERASE is checked on VBAT only. -/
def supplySwitch (on : Bool) (s : State) : State :=
  { s with tmp := { s.tmp with onVbat := on, wasOnVbat := s.tmp.wasOnVbat || on,
                               live := if on then s.tmp.live else s.tmp.live &&& ~~~(1#15 <<< 14) } }

def execBatSupplySwitch (onVbat : Bool) (s : State) : Outcome := .next (supplySwitch onVbat s)

/-- VBAT_MEASURE: the alert sets below 1.8 V and clears above 1.85 V. -/
def vbatMeasure (mv : Nat) (s : State) : State :=
  if s.tmp.onVbat then s
  else
    let s1 : State := { s with tmp := { s.tmp with vbatMv := min mv 4095 } }
    if mv < 1800 then
      if s.tmp.batLow then s1 else (({ s1 with tmp := { s1.tmp with batLow := true } }).cause 7).raise 0x0206 mv 0 0 0
    else if mv > 1850 then { s1 with tmp := { s1.tmp with batLow := false } } else s1

def execVbatMeasure (mv : Nat) (s : State) : Outcome := .next (vbatMeasure mv s)

/-! ## Supply warnings (R368-R370) -/

/-- What every warning does at its onset: picks are abandoned, the one record of 0x0301 is written and later ones are
held, the commit being written ends, and an active member's open beat is closed. -/
def warningOnset (mask : Nat) (s0 : State) : State :=
  let s := abandonPicks 1 s0
  let go := decide (s.lk.role = 2 ∧ (s.lk.beats.any (fun b => b.num == s.lk.beat && !b.closed && b.recs != [])))
  let q := match s.headCommit with
    | none => s.ks.queue
    | some h => updWhere (fun x => x == h) (fun x => { x with started := x.started || journalOpen s x.started }) s.ks.queue
  let s1 : State := { s with ks := { s.ks with queue := q } }
  let s2 := if go then s1.closeBeat else s1
  let s3 : State := { s2 with
    sag := { s2.sag with warning := true, warnings := min (s2.sag.warnings + 1) 0xFFFF },
    evr := { s2.evr with stored := s2.evr.optime, buffer := s2.evr.buffer.map (fun e => { e with deferred := true }) } }
  let s4 := s3.cause 5
  if s4.powered 35 && s4.powered 34 && decide (s4.sys.step ≥ 7) && !s4.evr.clearing then
    writeEvent s4 { code := 0x0301, p1 := mask, p2 := 0, p3 := 0, p4 := 0, time := s4.evr.optime, deferred := false }
  else s4.raise 0x0301 mask 0 0 0

/-- SAG_WARNING: the rails below their warning thresholds. -/
def sagWarning (rails : BitVec 3) (s : State) : State :=
  if rails = 0 then s
  else
    let s1 : State := { s with sag := { s.sag with warn := s.sag.warn ||| rails } }
    if s.sag.warning then s1 else warningOnset rails.toNat s1

def execSagWarning (rails : BitVec 3) (s : State) : Outcome := .next (sagWarning rails s)

/-- PFAIL_ASSERT: a pin holds PFAIL_IN_N and SAG.CFG.PFAIL_EN is set (R369). -/
def pfailAssert (s : State) : State :=
  if !s.sag.pfailEn ∨ !s.iom.pins.any (fun p => p.granted == 3) then s
  else
    let s1 : State := { s with sag := { s.sag with pfail := true } }
    if s.sag.warning then s1 else warningOnset 8 s1

def execPfailAssert (s : State) : Outcome := .next (pfailAssert s)

/-! ## Opcodes (R373) -/

/-- Switches or loops that are LOG or ZEROISE. -/
def armed (s : State) (i : Nat) : Bool := decide (tamperCode s i ≥ 1)

/-- A change that OPERATIONAL refuses: a lower response code, another window or active level of an armed input, a higher
DEBOUNCE while a switch is armed (R360). A code of 3 acts as 2. -/
def tmpWeaker (s : State) (codes lv deb : Nat) (win : List (Nat × Nat)) : Bool :=
  let new := fun (i : Nat) => min 2 (codes / 4 ^ i % 4)
  (List.range 8).any (fun i => decide (new i < min 2 (tamperCode s i))) ||
  (List.range 4).any (fun i => armed s i && (match s.tmp.win[i]?, win[i]? with
    | some a, some b => !(a.1 == b.1 && a.2.1 == b.2)
    | _, _ => false)) ||
  (List.range 4).any (fun i => armed s (4 + i) && (s.tmp.activeHigh.getLsbD i != bit lv i)) ||
  (decide (deb > s.tmp.debounce) && (List.range 4).any (fun i => armed s (4 + i)))

/-- Inputs that a change would arm to ZEROISE while their condition is present. -/
def armsLive (s : State) (codes : Nat) : List Nat :=
  (List.range 8).filter (fun i => decide (codes / 4 ^ i % 4 ≥ 2) && !zeroiseInput s i && s.tmp.live.getLsbD i)

/-- TMP_CONFIG. -/
def tmpConfig (s : State) (c : Cmd) : State :=
  let codes := c.inl 72 2
  let lv := c.inl 74 1
  let deb := c.inl 75 1
  let win := (List.range 4).map (fun n => (c.inl (76 + 2 * n) 1, c.inl (77 + 2 * n) 1))
  if lv > 15 ∨ deb > 15 ∨ !allZero (c.inlB 84 44) then failDetail s c 0x1003 [7#8]
  else if s.lc.state = 0x40 ∧ tmpWeaker s codes lv deb win then s.retire c 0x2001
  else if armsLive s codes ≠ [] then failDetail s c 0x1003 ([7#8, 0#8] ++ toLe 2 (maskOf (armsLive s codes)).toNat)
  else
    let t := s.tmp
    let s1 : State := { s with tmp := { t with
      cfg := BitVec.ofNat 16 codes, activeHigh := BitVec.ofNat 4 lv, debounce := deb,
      win := win.mapIdx (fun n w => (w.1, w.2, ((t.win[n]?).map (fun x => x.2.2)).getD 0)) } }
    okInline (s1.raise 0x0204 t.cfg.toNat codes deb 0) c []

def execTmpConfig (i : Nat) (s : State) : Outcome := .next (stewardRow s i 0x03C tmpConfig)

/-- TMP_QUERY. -/
def tmpQuery (s : State) (c : Cmd) : State :=
  okInline s c (toLe 2 s.tmp.live.toNat ++ toLe 2 s.tmp.latch.toNat ++ toLe 2 s.tmp.vbatMv ++ toLe 4 s.tmp.ltime ++
    s.tmp.win.map (fun w => byte w.2.2))

def execTmpQuery (i : Nat) (s : State) : Outcome := .next (stewardRow s i 0x03D tmpQuery)

/-- TMP_ACK (R363): bits whose condition is present stay. -/
def tmpAck (s : State) (c : Cmd) : State :=
  let m := BitVec.ofNat 15 (c.inl 72 2)
  if c.inl 72 2 ≥ 2 ^ 15 ∨ !allZero (c.inlB 74 54) then failDetail s c 0x1003 [7#8]
  else
    let clear := m &&& ~~~s.tmp.live
    let s1 : State := { s with tmp := { s.tmp with latch := s.tmp.latch &&& ~~~clear } }
    okInline (s1.raise 0x0203 (clear &&& s.tmp.latch).toNat (m &&& s.tmp.live).toNat 0 0) c (toLe 2 s1.tmp.latch.toNat)

def execTmpAck (i : Nat) (s : State) : Outcome := .next (stewardRow s i 0x03E tmpAck)

end Sys2Proof.Machine
end

