-- ==== Sys2Proof/Machine/Startup.lean ====
section
/-! DEFINITION. Power domains (R20-R24), the start-up sequence of Table 01.8 with its holds and failures (R29-R33,
R362, R368), secure boot (R333, R334), and the end of a supply warning (R370). -/

namespace Sys2Proof.Machine

open Sys2Proof

/-! ## Secure boot: the checks of Table 14.8 -/

/-- The image a slot read gave: the 256-byte header, and as much body as its length field asks for. -/
def SlotRead.image (r : SlotRead) : Image :=
  let h := sl r.header 0 256
  { header := h, body := if fieldLe h 20 4 ≤ 1572608 then sl r.body 0 (fieldLe h 20 4) else [] }

/-- Check 2: magic, format and reserved bytes. -/
def Image.framed (i : Image) : Bool :=
  sl i.header 0 8 == ascii "SLKFWIMG" && fieldLe i.header 8 2 == 1 && decide (byteAt i.header 25 < 16) &&
    allZero (sl i.header 27 5) && allZero (sl i.header 64 128)

/-- The permitted-states bit of a life-cycle state (Table 14.7, byte 26). -/
def permitBit (st : Nat) : Nat := if st = 0x30 then 1 else if st = 0x40 then 2 else if st = 0x50 then 3 else 0

/-- The first of checks 2 to 6 that an image fails. -/
def imageFault (s : State) (i : Image) : Option Nat :=
  let h := i.header
  if !i.framed then some 2
  else if fieldLe h 20 4 < 1 ∨ fieldLe h 20 4 > 1572608 then some 3
  else if s.lc.state = 0x60 ∨ !bit (byteAt h 26) (permitBit s.lc.state) then some 4
  else if byteAt h 24 > 3 ∨ sha32 (sl h 32 32) ≠ Config.bootKeyDigest (byteAt h 24) ∨ bit s.lc.revoked (byteAt h 24) then some 5
  else if fieldLe h 16 4 < s.lc.rollback then some 6
  else none

/-- Check 7: the signature over header bytes 0-191 and the body. -/
def Image.signed (i : Image) : Bool := edOk (sl i.header 32 32) (sl i.header 192 64) (sl i.header 0 192 ++ i.body)

def Image.version (i : Image) : Nat := fieldLe i.header 12 4

/-- Checks 1 to 6 of a slot, 0 when all pass. -/
def slotCheck (s : State) (r : SlotRead) : Nat := if !r.ok then 1 else (imageFault s (SlotRead.image r)).getD 0

/-- The slots that are tried, in their order. -/
def slotOrder (s : State) (a b : SlotRead) : List Nat :=
  let ok := [(0, a), (1, b)].filter (fun x => slotCheck s x.2 == 0)
  if ok.length = 2 ∧ (SlotRead.image b).version > (SlotRead.image a).version then [1, 0] else ok.map (fun x => x.1)

def slotRead (a b : SlotRead) (i : Nat) : SlotRead := if i = 0 then a else b

/-- The check that refused a slot, 0 for none. -/
def slotRefused (s : State) (a b : SlotRead) (i : Nat) : Nat :=
  let c := slotCheck s (slotRead a b i)
  if c ≠ 0 then c
  else if ((slotOrder s a b).takeWhile (fun j => !(SlotRead.image (slotRead a b j)).signed)).contains i then 7 else 0

/-- Events of a refused slot: 0x0E05 for a flash that failed, and 0x0E02. -/
def slotEvents (s : State) (r : SlotRead) (i check : Nat) : State :=
  let s1 := if r.ok then s else s.raise 0x0E05 i r.cause 0 0
  if check = 0 then s1 else s1.raise 0x0E02 i check 0 0

/-! ## Power domains -/

def pdBit (d : Nat) : BitVec 36 := 1#36 <<< (d - 1)

/-- The target in force of a domain. -/
def State.wanted (s : State) (d : Nat) : Bool := s.sys.pdctl.getLsbD (d - 1)

/-- PD25 is switched: the link's session goes, and its lanes train from four, or fall idle (R275). -/
def powerLink (s : State) : State :=
  trainLanes ((if s.lk.up then relink 1 s else s.modLk Link.clear).modLk (fun l => { l with lanes := 0 }))

/-- A loom's logic and memory in their reset state. Cores keep what retires them until a reset (R239). -/
def freshLoom (n : Nat) (s : State) : State :=
  let s1 := s.modTreadle n (fun _ => Treadle.reset)
  let s2 := [2 * n, 2 * n + 1].foldl (fun t k => t.modCore k (fun c =>
    { c with ok := false, held := [], scrub := [], running := false })) s1
  s2.modDrbg n (fun _ => Drbg.reset)

/-- An address of the volatile memory of a domain: a loom's, the steward SRAM, the Luaka buffers. -/
def volatileOf (d a : Nat) : Bool :=
  if d ≤ 16 then decide (0x20000000 + 0x100000 * (d - 1) ≤ a ∧ a < 0x20040000 + 0x100000 * (d - 1))
  else if d = 25 then decide (0x03000000 ≤ a ∧ a < 0x03200000)
  else d == 31 && decide (0x01000000 ≤ a ∧ a < 0x01800000)

/-- PT's registers that lie in PD26, in their reset state (R22). -/
def TimeKeep.portReset (t : TimeKeep) : TimeKeep :=
  let r := TimeKeep.reset
  { t with ppsIn := r.ppsIn, ppsOut := r.ppsOut, ppsWidth := r.ppsWidth, ppsLeft := r.ppsLeft, ppsLock := r.ppsLock,
           mapping := r.mapping, domain := r.domain, outlierUs := r.outlierUs, kp := r.kp, ki := r.ki, asym := r.asym,
           ipv4 := r.ipv4, utcOff := r.utcOff, drops := r.drops, masters := [], gmid := 0, syncSeq := none, t1 := none,
           req := none, resp := none, reqSeq := 0, lastReq := none, minReq := 0 }

/-- A domain has been switched on (R22): its memory is zero and its logic in its reset state; MRAM keeps its contents
(R26). -/
def switchOn (d : Nat) (s : State) : State :=
  let s1 : State := { s with
    mem := s.mem.filter (fun x => !volatileOf d x.1)
    sys := { s.sys with pdstat := s.sys.pdstat ||| pdBit d,
                        wdtCount := if 27 ≤ d ∧ d ≤ 30 then s.sys.wdtCount.set (d - 27) 0 else s.sys.wdtCount } }
  if d ≤ 16 then freshLoom (d - 1) s1
  else if d = 25 then powerLink (s1.modLk (fun l => { l with tx := 0, rx := 0, drops := 0, relinks := 0 }))
  else if d = 26 then { s1 with pt := s1.pt.portReset }
  else if d = 33 then feed s1
  else s1

/-- A domain has been switched off. With PD26 the port loses its master (Table 13.2). -/
def switchOff (d : Nat) (s : State) : State :=
  let s1 : State := { s with sys := { s.sys with pdstat := s.sys.pdstat &&& ~~~pdBit d } }
  if d = 25 then powerLink s1
  else if d = 26 then
    let s2 := loseSource s1
    { s2 with pt := { s2.pt.noExchange with masters := [], gmid := 0 } }
  else s1

/-- Looms whose request bit is clear begin to drain (R23). -/
def startDrains (s : State) : State :=
  if s.sys.seqQueue ≠ [] then s
  else (List.range 16).foldl (fun t n =>
    if t.powered (n + 1) && !t.wanted (n + 1) then t.modTreadle n (fun x => { x with draining := true }) else t) s

/-- The power sequencer begins one of its orders: the domains of `ds` that are off, in that order. -/
def fillSeq (ds : List Nat) (s : State) : State :=
  let off := ds.filter (fun d => !s.powered d)
  { s with sys := { s.sys with seqQueue := off.map (fun d => (d, true)),
                               pdctl := off.foldl (fun m d => m ||| pdBit d) s.sys.pdctl } }

/-! ## The steps of Table 01.8 -/

def State.atStep (s : State) (n : Nat) : State := { s with sys := { s.sys with step := n } }

/-- Step 4 (R323) and the state decoded after it (R321). -/
def stepResume (s : State) : State :=
  let r := s.lc.runResume
  let d := r.1.decode
  let s1 : State := { s with lc := { r.1 with state := d.1, invalid := d.2 }, sys := { s.sys with resumed := r.2.1 } }
  let s2 := match r.2.2 with
    | none => s1
    | some (code, a, b, c) => s1.raise code a b c 0
  let s3 := if s2.lc.vec.isNone then s2.raise 0x0105 (s2.lc.num 129) s2.lc.badWord 0 0 else s2
  s3.atStep 4

/-- Default costs, and those of the customer images (R51). -/
def loadedCosts (s : State) : List (Nat × Nat × Nat) :=
  vendorCosts ++ (s.drafts.dir.filter (fun d => decide (d.opcode ≥ 0x200))).map (fun d => (d.opcode, d.cost, 0))

/-- The records of the configuration region do not authenticate: none is there, and every value they would give is the one of
a device that has written none (R120, R135; notes/assumptions/67.md). The recorder's header has a check of its own (R385). -/
def dropRecords (s : State) : State :=
  { s with
    parts := [Part.owner], gens := [(0, 1)], tears := []
    drafts := { s.drafts with dir := [], highest := [], signers := [], oldLines := [] }
    bist := { s.bist with cfgPace := none }
    pt := { s.pt with cfgStored := none }
    sag := { s.sag with cfgPfailEn := false }
    iom := { s.iom with pins := s.iom.pins.map (fun p => { p with kept := 0 }) }
    lk := { s.lk with cfgBeatUs := 50, cfgPolicy := true, cfgLoss := false, cfgSolo := 1000, complete := false, recorded := none }
    ks := { s.ks with reservation := 0 } }

/-- Every record is authenticated with the configuration MAC key: those written under the key of another stone fail. -/
def authRecords (s : State) : State :=
  if s.ks.cfgStone = s.ks.stone then s
  else { dropRecords s with ks := { (dropRecords s).ks with cfgStone := s.ks.stone } }

/-- The configuration region's values (R88, R120, R280, R297, R313, R395, R403). -/
def loadConfig (s0 : State) : State :=
  let s := authRecords s0
  let b := match s.bist.cfgPace with
    | none => s.bist
    | some (on, p, iso) => { s.bist with enable := on, period := p, isolate := iso }
  applyPins { s with
    bist := b
    pt := match s.pt.cfgStored with
      | none => s.pt
      | some k => s.pt.load k
    sag := { s.sag with pfailEn := s.sag.cfgPfailEn }
    sched := { s.sched with cost := loadedCosts s }
    drafts := { s.drafts with dir := vendorDir ++ s.drafts.dir.filter (fun d => decide (d.opcode ≥ 0x200)) } }

/-- The pair record of the store, and the role a member starts with (R270, R280). -/
def loadPair (s : State) : State :=
  match s.obj? pairHandle with
  | none => s.modLk (fun l => { l with pairRec := none, pstate := 0, role := 2, actOut := true })
  | some o => trainLanes (s.modLk (fun l => { l with pairRec := some (PairRec.of (s.objBody o)), pstate := 1, role := 0 }))

/-- Events that firmware writes after a restart (Table 16.2 step 8, R371). -/
def restartEvents (s : State) : State :=
  let s1 := if s.tmp.due then
      let t := s.raise 0x0201 s.tmp.latch.toNat s.tmp.ltime s.evr.power s.lc.state
      { t with tmp := { t.tmp with due := false } }
    else s
  if s1.sag.eventDue then
    let t := s1.raise 0x0303 s1.sag.rail s1.sag.holdUs 0 0
    let t1 := if t.sag.short then t.raise 0x0304 t.sag.rail t.sag.holdUs 0 0 else t
    { t1 with sag := { t1.sag with eventDue := false } }
  else s1

/-- Step 11. -/
def stepFirmware (s : State) : State :=
  let s0 := loadConfig s
  let s1 := (loadPair (afterRecovery (recover s0))).openBeat (s0.lk.recorded.getD 0 + 2 ^ 21)
  (restartEvents (drawSalts (resumeTears s1))).atStep 11

/-- The next step begins, or is done at once; `none` while the sequence waits for an event or is held (R33, R362). -/
def startupStep (s : State) : Option State :=
  if s.sys.failed || s.sys.inReset || s.sys.seqQueue != [] || s.sag.warning then none
  else match s.sys.step with
    | 0 => if zeroiseLive s then none else some (s.atStep 1)
    | 1 => if s.board.railsOk then some (s.atStep 2) else none
    | 2 =>
      let d := s.lc.decode
      some (({ s with lc := { s.lc with state := d.1, invalid := d.2 } }).atStep 3)
    | 3 => some (stepResume s)
    | 4 => if s.sys.pllLock then some (s.atStep 5) else none
    | 5 => some (({ s with ks := { s.ks with stone := stoneKind s.lc.state } }).atStep 6)
    | 6 => some (fillSeq [34, 31, 27, 33, 32, 23, 24, 35] s)
    | 7 => some (({ s with host := { s.host with training := true } }).atStep 8)
    | 8 =>
      if s.sys.warm then (if s.sys.reading then none else some { s with sys := { s.sys with reading := true } })
      else if s.powered 22 then none else some (fillSeq [17, 18, 19, 20, 21, 22] s)
    | 9 => if s.sys.reading then none else some { s with sys := { s.sys with reading := true } }
    | 10 =>
      if [17, 18, 19, 20, 21, 22, 28, 29, 30].all s.powered then some (stepFirmware s)
      else some (fillSeq [17, 18, 19, 20, 21, 22, 28, 29, 30] s)
    | 11 => some (fillSeq ((List.range 16).map (fun n => n + 1)) s)
    | _ => none

/-- The sequence goes on as far as it can. -/
def startupAdvance : Nat → State → State
  | 0, s => s
  | k + 1, s => match startupStep s with
    | none => s
    | some t => startupAdvance k t

def State.advance (s : State) : State := startupAdvance 16 s

/-- RESET_RELEASE: the sequence begins at step 1, where a ZEROISE condition holds it (R362); after P or S the straps are
sampled, and every release shows the sampled BOOT_MODE (R408). A P reset completes with its bit of SYS.RSTCAUSE. A start-up
that failed stays failed until P (R31). -/
def resetRelease (s : State) : State :=
  if !s.sys.inReset then s
  else
    let y := s.sys
    let s1 : State := { s with sys := { y with
      inReset := false, warm := !y.cold, step := if y.failed then y.step else 0,
      rstcause := y.rstcause ||| (if y.pending.getLsbD 0 then 1 else 0) } }
    let s2 : State := if y.cold then
        { s1 with lk := { s1.lk with strap := s.board.roleStrap }, lc := { s1.lc with bootMode := s.board.bootStrap }
                  board := { s1.board with smbAddr := s.board.smbStrap } }
      else s1
    ({ s2 with lc := { s2.lc with octal := s2.lc.bootMode } } : State).advance

def execResetRelease (s : State) : Outcome := .next (resetRelease s)

/-- STARTUP_RAILS_OK. -/
def railsConfirmed (s : State) : State :=
  if s.sys.inReset ∨ s.sys.step > 1 then s else ({ s with board := { s.board with railsOk := true } }).advance

def execStartupRailsOk (s : State) : Outcome := .next (railsConfirmed s)

/-- ROOT_PLL_LOCK: `external` says that PCIE_REFCLK was found within its bounds (R18). -/
def pllLocked (external : Bool) (s : State) : State :=
  if s.sys.inReset ∨ s.sys.failed ∨ s.sys.step ≠ 4 ∨ s.sys.pllLock then s
  else
    let s1 : State := { s with
      sys := { s.sys with pllLock := true, monitored := true, refOk := true, pcieExt := external, step := 5 }
      tmp := { s.tmp with live := s.tmp.live &&& ~~~(1#15 <<< 11) } }
    s1.advance

def execRootPllLock (external : Bool) (s : State) : Outcome := .next (pllLocked external s)

/-- The sequence stops at a step (R31). -/
def stopStartup (last : Nat) (s : State) : State :=
  let s1 : State := { s with sys := { s.sys with step := last, failed := true, faultLow := true, rstoutLow := true }
                             host := { s.host with training := false, linkUp := false } }
  s1.cause 3

/-- LBIST_COMPLETE: a failing unit stops the sequence. -/
def lbistComplete (failing : Option Nat) (s : State) : State :=
  if s.sys.inReset ∨ s.sys.failed ∨ s.sys.step ≠ 8 ∨ s.sys.warm ∨ !s.powered 22 then s
  else match failing with
    | some u => stopStartup 8 (s.raise 0x0507 u 0 0 0)
    | none => (s.atStep 9).advance

def execLbistComplete (failing : Option Nat) (s : State) : Outcome := .next (lbistComplete failing s)

/-- The image of slot `i` runs (R334): LC.BOOT, HID.FWVER and the image kept for reports. -/
def runImage (i : Nat) (fallback : Bool) (img : Image) (s : State) : State :=
  let s1 : State := { s with
    lc := { s.lc with slot := i, fallback := fallback, running := img }
    host := { s.host with fwver := img.version }
    sys := { s.sys with step := 10, rstoutLow := false } }
  (s1.raise 0x0E01 i img.version (fieldLe img.header 16 4) (b2n fallback)).advance

/-- BOOT_IMAGE_VERIFIED: what the reads of both slots gave, once step 10 has begun. -/
def bootVerified (a b : SlotRead) (s : State) : State :=
  if s.sys.inReset ∨ s.sys.failed ∨ !s.sys.reading ∨ !(s.sys.step == 9 || (s.sys.step == 8 && s.sys.warm)) then s
  else
    let ca := slotRefused s a b 0
    let cb := slotRefused s a b 1
    let order := slotOrder s a b
    let s1 := slotEvents (slotEvents s a 0 ca) b 1 cb
    let s2 : State := { s1 with lc := { s1.lc with aCheck := ca, bCheck := cb } }
    match order.find? (fun i => (SlotRead.image (slotRead a b i)).signed) with
    | some i => runImage i (order.head? != some i) (SlotRead.image (slotRead a b i)) s2
    | none => stopStartup 9 (s2.raise 0x0E06 ca cb 0 0)

def execBootImageVerified (a b : SlotRead) (s : State) : Outcome := .next (bootVerified a b s)

/-! ## Looms enter service (R24) -/

/-- LOOM_ENTER_SERVICE: `failing` names the known-answer test that failed. When they pass the loom's DRBG may be seeded, and
the loom enters service once it is; until then the command is sent again. -/
def loomEnter (n : Nat) (failing : Option Nat) (s : State) : State :=
  let t := s.treadle n
  if n ≥ 16 ∨ !s.powered (n + 1) ∨ t.inService ∨ t.draining ∨ t.katFailed ∨ (s.bunit (160 + n)).st ≠ 0 then s
  else match failing with
    | some k => (s.modTreadle n (fun x => { x with katFailed := true })).raise 0x0508 n k 0 0
    | none =>
      let s1 := feed (s.modTreadle n (fun x => { x with katPassed := true }))
      if s1.rngOff ∨ !(s1.drbg n).seeded then s1
      else
        let s2 := s1.modTreadle n (fun x => { x with inService := true })
        [2 * n, 2 * n + 1].foldl (fun u k => u.modCore k (fun c => { c with ok := true })) s2

def execLoomEnterService (n : Nat) (failing : Option Nat) (s : State) : Outcome := .next (loomEnter n failing s)

/-! ## Requests of firmware (R20-R22) -/

/-- Firmware may request this state of a domain (Table 01.5). -/
def switchable (s : State) (d : Nat) (on : Bool) : Bool :=
  if d ≤ 16 then true
  else if d = 25 then on || s.lk.pairRec.isNone
  else if d = 26 ∨ (28 ≤ d ∧ d ≤ 30) then true
  else if d = 36 then !on || s.dbg.active || (isTest s.lc.state && decide (s.lc.state < 0x20))
  else false

/-- One domain of a write: accepted, or refused with its state kept. -/
def pdRequest (s : State) (d : Nat) (on : Bool) : State :=
  if s.wanted d = on then s
  else if switchable s d on then { s with sys := { s.sys with pdctl := s.sys.pdctl ^^^ pdBit d } }
  else { s with sys := { s.sys with refused := true, pderrDomain := d } }

/-- The domains of a PDCTL register. -/
def pdDomains (reg : Nat) : List Nat := (List.range (if reg = 0 then 32 else 4)).map (fun i => 32 * reg + i + 1)

/-- PDCTL_WRITE. Firmware writes from step 10 on. -/
def pdctlWrite (w : Writer) (reg value : Nat) (s : State) : State :=
  if reg > 1 then s
  else if !Writer.priv w then s.denyWrite w (0x10000020 + 4 * reg) 4
  else if s.sys.inReset ∨ s.sys.step < 10 then s
  else startDrains ((pdDomains reg).foldl (fun t d => pdRequest t d (bit value ((d - 1) % 32))) s)

def execPdctlWrite (w : Writer) (reg : Nat) (value : Nat) (s : State) : Outcome := .next (pdctlWrite w reg value s)

/-- The lowest domain whose state is not its request; a loom to be switched off is drained first. A loom that is still
draining does not hold back the requests above it, and goes off as its own drain ends: R22 serves requests in ascending
order and R23 does not say what a drain holds back (DESIGN CHOICE, notes/assumptions/65.md). -/
def nextRequest (s : State) : Option Nat :=
  ((List.range 36).map (fun i => i + 1)).find? (fun d => s.wanted d != s.powered d && !(decide (d ≤ 16) && s.powered d))

/-- What completes with the last domain of an order: step 7 (the entropy tests begin and the recorder starts), or step 12. -/
def orderDone (s : State) : State :=
  if s.sys.step = 6 then recorderStart { (s.atStep 7) with rng := { s.rng with testing := true } }
  else if s.sys.step = 11 then s.atStep 12
  else s

/-- POWER_DOMAIN_SWITCHED: one domain of the sequencer's order, or else of the pending requests. -/
def domainSwitched (s : State) : State :=
  if s.sys.inReset ∨ s.sys.failed then s
  else match s.sys.seqQueue with
    | (d, on) :: rest =>
      let s1 : State := { s with sys := { s.sys with seqQueue := rest } }
      let s2 := if on then switchOn d s1 else switchOff d s1
      if rest = [] then startDrains (orderDone s2).advance else s2
    | [] =>
      match nextRequest s with
      | none => s
      | some d => if s.wanted d then switchOn d s else switchOff d s

def execPowerDomainSwitched (s : State) : Outcome := .next (domainSwitched s)

/-! ## Drains (R23) -/

/-- No shed is busy, no job runs on the loom's cores and no pick is in progress on it. -/
def loomIdle (s : State) (n : Nat) : Bool :=
  busySheds s n == 0 && !s.bn.jobs.any (fun j => j.cores.any (fun x => x.1 / 2 == n)) &&
    s.bist.slots.all (fun x => x.phase == 0 || unitLoom x.unit != n)

/-- Loom memory and its DRBG are zeroised and its power is removed. -/
def loomOff (n : Nat) (s : State) : State :=
  let was := (s.treadle n).inService
  let s1 := switchOff (n + 1) (freshLoom n s)
  if was then loomLeft s1 else s1

/-- LOOM_DRAIN_DONE. -/
def drainDone (n : Nat) (s : State) : State :=
  if n ≥ 16 ∨ !s.powered (n + 1) ∨ !(s.treadle n).draining ∨ !loomIdle s n then s else loomOff n s

def execLoomDrainDone (n : Nat) (s : State) : Outcome := .next (drainDone n s)

/-- A command of the loom, or one whose bignum job has a context on its cores. -/
def onLoom (s : State) (n : Nat) (c : Cmd) : Bool :=
  (match c.place with
    | .shed m _ => m == n
    | .ctx _ => false) ||
  s.bn.jobs.any (fun j => j.who == c.place && j.cores.any (fun x => x.1 / 2 == n))

/-- LOOM_DRAIN_TIMEOUT: what is still in flight completes with ABORTED. A job stops at its next yield point or its end
(R226, R228); a commit being written ends first, at JOURNAL_COMMIT_DONE (R105), and a pick at its own end. -/
def drainOver (n : Nat) (s : State) : State :=
  if n ≥ 16 ∨ !s.powered (n + 1) ∨ !(s.treadle n).draining ∨ loomIdle s n then s
  else
    let writing := fun (c : Cmd) => commitWriting s && (s.headCommit.bind (fun x => x.who)) == some c.place
    let late := fun (c : Cmd) => writing c || (match c.phase with
      | .waitBn _ => true
      | _ => false)
    let cs := s.cmds.filter (fun c => onLoom s n c)
    let s1 := (cs.filter late).foldl (fun t c => t.abort c) s
    let s2 := (cs.filter (fun c => !late c)).foldl (fun t c => t.retire c 0x7002) s1
    let s3 : State := { s2 with sys := { s2.sys with drainTimeout := true } }
    if loomIdle s3 n then loomOff n s3 else s3

def execLoomDrainTimeout (n : Nat) (s : State) : Outcome := .next (drainOver n s)

/-! ## Holds that end -/

/-- A ZEROISE condition that sampling shows is present. -/
def sampledLive (s : State) : Bool :=
  [0, 1, 2, 3, 4, 5, 6, 7, 9].any (fun i => s.tmp.live.getLsbD i && zeroiseInput s i)

/-- ZEROISE_HOLD_RELEASE: the comparators' conditions have ceased, REFCLK runs, and start-up continues (R362). The
clock-fault condition of a lock that is lost stays until step 5. -/
def holdRelease (s : State) : State :=
  if sampledLive s then s
  else
    let t := s.tmp
    let s1 : State := { s with
      tmp := { t with live := t.live &&& ~~~0x7500#15 }
      sys := { s.sys with refOk := s.sys.refOk || t.live.getLsbD 11 } }
    s1.advance

def execZeroiseHoldRelease (s : State) : Outcome := .next (holdRelease s)

/-- SAG_WARNING_CLEAR: commits, records, beats and start-up go on (R370). -/
def warningClear (us : Nat) (s : State) : State :=
  if !s.sag.warning then s
  else
    let g := s.sag
    let mask := g.warn.toNat + 8 * b2n g.pfail
    let s1 : State := { s with sag := { g with warn := 0, pfail := false, warning := false, lastWarn := min us 0xFFFFFFFF } }
    let s2 := s1.raise 0x0302 (min us 0xFFFFFFFF) mask 0 0
    (teardownAdvance (applyWaiting s2.lk.rxWait.length s2)).advance

def execSagWarningClear (durationUs : Nat) (s : State) : Outcome := .next (warningClear durationUs s)

end Sys2Proof.Machine
end

