-- ==== Sys2Proof/Machine/LifeCycle.lean ====
section
/-! DEFINITION. Life-cycle transitions and the other OTP sessions (R317, R322-R330, R335), image staging (R336), and the
life-cycle opcodes (R343). -/

namespace Sys2Proof.Machine

open Sys2Proof

/-! ## Paths (Table 14.2) -/

def isUnlocked (st : Nat) : Bool := decide (0x10 ≤ st ∧ st ≤ 0x16)
def isLocked (st : Nat) : Bool := decide (0x20 ≤ st ∧ st ≤ 0x26)

/-- Paths either writer may take. -/
def sharedPath (src dst : Nat) : Bool :=
  (src == 0 && dst == 0x10) || (isUnlocked src && dst == src + 0x10) || (isLocked src && src != 0x26 && dst + 0xF == src) ||
  (isTest src && dst == 0x30) || ((src == 0 || isTest src || src == 0x50) && dst == 0x60)

/-- Paths of stewards alone. -/
def stewardPath (src dst : Nat) : Bool :=
  (src == 0x30 && dst == 0x40) || ((src == 0x30 || src == 0x40) && (dst == 0x50 || dst == 0x60))

/-- A path and its writer: 0 the debug master, 1 a steward. -/
def pathPermitted (src dst path : Nat) : Bool := sharedPath src dst || (path == 1 && stewardPath src dst)

/-! ## Tokens (R326) -/

def tokenDigest (s : State) (n : Nat) (tok : Bytes) : Bytes :=
  sl (Config.sha512 (ascii "SLKLCTOK" ++ s.serial ++ [byte n] ++ sl tok 0 16)) 0 16

/-- A token transition's refusal: lockout, a consumed token, a mismatch. -/
def tokenFault (s : State) (dst : Nat) (tok : Bytes) : Option Nat :=
  if !isUnlocked dst then none
  else
    let n := dst - 0x10
    if s.lc.tokenFails ≥ 8 then some 4
    else if s.lc.consumed n ∨ tokenDigest s n tok ≠ s.lc.otpBytes (52 + 4 * n) 4 then some 3
    else none

/-- A refusal that counts as a mismatch: the token is neither locked out nor consumed. -/
def tokenMismatch (s : State) (dst : Nat) (tok : Bytes) : Bool :=
  tokenFault s dst tok == some 3 && !s.lc.consumed (dst - 0x10)

/-! ## Secrets (R328 step 3) -/

/-- First word of the secret that a transition programs. -/
def secretBase (src dst : Nat) : Option Nat :=
  if dst = 0x30 then some 80 else if src = 0x30 ∧ dst = 0x40 then some 98 else none

/-- The first blank slot, by blank check. -/
def LifeCycle.blankSlot (l : LifeCycle) (base : Nat) : Option Nat :=
  ([0, 1].find? (fun i => allZero (l.otpBytes (base + 9 * i) 9))).map (fun i => base + 9 * i)

/-- The words of a slot: the secret and its check word. -/
def secretWords (w : Nat) (sec : Bytes) : List OtpStep :=
  (List.range 8).map (fun i => OtpStep.word (w + i) (BitVec.ofNat 32 (fieldLe sec (4 * i) 4))) ++
    [OtpStep.word (w + 8) (BitVec.ofNat 32 (fieldLe (Config.sha512 sec) 0 4))]

/-- Mark, code words and completion mark (R322); without a free entry, the code words alone. -/
def markWords (l : LifeCycle) (dst : Nat) : List OtpStep :=
  let code := (l.codeWords dst 0).map (fun x => OtpStep.word x.1 x.2)
  match l.freeMark with
  | none => code
  | some e => [OtpStep.word (24 + e) (BitVec.ofNat 32 (pattern dst))] ++ code ++
      [OtpStep.word (24 + e) (BitVec.ofNat 32 (pattern dst * 65536))]

/-! ## GO (R328) -/

/-- The first refusal of a request, as Table 14.4 numbers it. -/
def goFault (s : State) (dst path : Nat) : Option Nat :=
  if s.lc.session.isSome then some 5
  else if !pathPermitted s.lc.state dst path then some 2
  else if s.lk.pairRec.isSome ∨ s.lk.ceremony then some 8
  else match tokenFault s dst s.lc.token with
    | some f => some f
    | none =>
      if s.sag.warning then some 6
      else if (secretBase s.lc.state dst).isSome ∧ (s.rngOff ∨ !(s.drbg 16).seeded) then some 7
      else if s.lc.freeMark.isNone ∧ dst ≠ 0x60 then some 10
      else none

/-- Status of a refused LC_TRANSITION. -/
def resultStatus (r : Nat) : Nat :=
  if r = 2 ∨ r = 8 then 0xA001 else if r = 3 ∨ r = 4 then 0x2001 else if r = 5 ∨ r = 6 then 0x5001
  else if r = 7 then 0x9001 else 0x7001

/-- LC_TRANSITION, if one runs the request, completes with a refusal. -/
def refuseCmd (s : State) (who : Option Place) (r : Nat) : State :=
  match who.bind s.cmd? with
  | none => s
  | some c => s.retire c (resultStatus r)

def goRefused (s : State) (dst r : Nat) (who : Option Place) : State :=
  let s1 : State := { s with lc := { s.lc with statRefused := true, result := r } }
  refuseCmd (s1.raise 0x0106 dst r 0 0) who r

/-- The token registers are zeroed at every GO, and a mismatch is counted. -/
def afterToken (s : State) (dst : Nat) : State :=
  { s with lc := { s.lc with
      token := zeros 16
      tokenFails := if goFault s dst 1 = some 3 && tokenMismatch s dst s.lc.token then s.lc.tokenFails + 1
                    else s.lc.tokenFails } }

/-- The request is accepted: admission stops, a grant ends, and the words follow once the device is drained. A secret
that finds no blank slot refuses it. -/
def goAccepted (s : State) (dst path : Nat) (who : Option Place) : State :=
  let s1 := endGrant 5 (s.raise 0x0101 s.lc.state dst path 0)
  if ((secretBase s.lc.state dst).map s.lc.blankSlot) == some none then goRefused s1 dst 9 who
  else
    let x : Session := { left := [], target := dst, origin := s.lc.state, path := path, who := who, words := 0 }
    let s2 : State := { s1 with
      lc := { s1.lc with go := true, statRefused := false, session := some x }
      sys := { s1.sys with drainStop := true } }
    match who.bind s2.cmd? with
    | none => s2
    | some c => s2.setCmd { c with phase := .waitOtp }

def goTransition (s : State) (dst path : Nat) (who : Option Place) : State :=
  let s1 : State := { s with lc := { s.lc with target := dst } }
  match goFault s1 dst path with
  | some r => goRefused (if pathPermitted s.lc.state dst path then afterToken s1 dst
      else { s1 with lc := { s1.lc with token := zeros 16 } }) dst r who
  | none => goAccepted { s1 with lc := { s1.lc with token := zeros 16 } } dst path who

/-- The LC_TRANSITION that a steward executes, before its transition runs. -/
def transitionCmd (s : State) : Option Cmd :=
  s.cmds.find? (fun c => c.opcode == 0x1B8 && (match c.place with
    | .ctx _ => true
    | .shed _ _ => false))

/-- LC.CTRL and LC.TOKEN accept a writer (R345). -/
def lcWriter (s : State) (w : Writer) : Bool :=
  match w with
  | .debug => s.lc.state == 0 || isTest s.lc.state || s.lc.state == 0x50
  | .steward _ p => p && (transitionCmd s).isSome
  | _ => false

/-- LC_GO: a write of LC.CTRL. Without GO it only sets TARGET. -/
def lcGo (w : Writer) (value : Nat) (s : State) : State :=
  if !lcWriter s w then s.denyWrite w 0x10010004 4
  else if !bit value 8 then { s with lc := { s.lc with target := value % 256 } }
  else goTransition s (value % 256) (if w == Writer.debug then 0 else 1)
    (if w == Writer.debug then none else (transitionCmd s).map (fun c => c.place))

def execLcGo (w : Writer) (value : Nat) (s : State) : Outcome := .next (lcGo w value s)

/-! ## LC.PROG (R327) -/

/-- First word and number of words of a one-time field. -/
def progField (f : Nat) : Option (Nat × Nat) :=
  if f = 0 then some (48, 2) else if f ≤ 7 then some (52 + 4 * (f - 1), 4) else if f = 8 then some (129, 1) else none

/-- LC_PROG. -/
def lcProg (w : Writer) (value : Nat) (s : State) : State :=
  if !(w == Writer.debug && s.lc.state == 0) then s.denyWrite w 0x10010020 4
  else if !bit value 4 then s
  else match progField (value % 16) with
    | none => s
    | some (a, n) =>
      let tok := s.lc.token
      let s1 : State := { s with lc := { s.lc with token := zeros 16 } }
      let no := fun (r : Nat) => ({ s1 with lc := { s1.lc with statRefused := true, result := r } } : State)
      if s.lc.session.isSome then no 5
      else if s.sag.warning then no 6
      else if !allZero (s.lc.otpBytes a n) then no 11
      else
        let ws := (List.range n).map (fun i => OtpStep.word (a + i) (BitVec.ofNat 32 (fieldLe tok (4 * i) 4)))
        let x : Session := { left := ws, target := 0x100, origin := s.lc.state, path := 0, who := none, words := 0 }
        { s1 with lc := { s1.lc with statRefused := false, session := some x } }

def execLcProg (w : Writer) (value : Nat) (s : State) : Outcome := .next (lcProg w value s)

/-! ## The session (R324, R325) -/

/-- No other command than that of the session is in flight. -/
def drained (s : State) (x : Session) : Bool := s.cmds.all (fun c => some c.place == x.who)

/-- Steps 3 and 4 of R328 when the device is drained: the secret is drawn and the words are fixed. A secret that cannot be
drawn any more refuses the request; an instance that has to reseed first is waited for. -/
def beginWords (s : State) (x : Session) : Except State (State × Session) :=
  match secretBase x.origin x.target with
  | none => .ok (s, { x with left := markWords s.lc x.target })
  | some base =>
    match s.random 16 32, s.lc.blankSlot base with
    | .bytes s1 b, some w => .ok (s1, { x with left := secretWords w b ++ markWords s1.lc x.target })
    | .waits t, _ => .error t
    | _, _ =>
      .error (goRefused { s with lc := { s.lc with session := none, go := false }, sys := { s.sys with drainStop := false } } x.target 7 x.who)

/-- Steps 5 and 6 of R328. -/
def transitionDone (s : State) (x : Session) : State :=
  let d := s.lc.decode
  let keep := stoneKind d.1 == stoneKind x.origin
  let s1 : State := { s with
    lc := { s.lc with state := d.1, invalid := d.2, result := 1, go := false, session := none }
    tmp := { s.tmp with secret := if keep then s.tmp.secret else none } }
  let s2 := s1.raise 0x0102 x.origin d.1 (800 * x.words + 800) 0
  if x.path = 0 then assertReset kW 0 4 s2
  else
    let s3 : State := { s2 with sys := { s2.sys with lcResetDue := true } }
    match x.who.bind s3.cmd? with
    | none => s3
    | some c => okReply s3 c [] (if x.target = 0x40 then endorsement s3 (c.inlB 72 8) else [])

/-- LC_ROLLBACK_ADVANCE has programmed its words. -/
def rollbackDone (s : State) (c : Cmd) (old : Nat) : State :=
  okInline (s.raise 0x0E03 old s.lc.rollback s.lc.revoked 0) c []

/-- All words are programmed. -/
def sessionDone (s : State) (x : Session) : State :=
  if x.target < 0x100 then transitionDone s x
  else
    let s1 : State := { s with lc := { s.lc with session := none } }
    match x.who.bind s1.cmd? with
    | none => s1
    | some c => rollbackDone s1 c x.origin

/-- One word of a session. -/
def programNext (s : State) (x : Session) : State :=
  match x.left with
  | [] => sessionDone s x
  | .word w v :: rest =>
    let y : Session := { x with left := rest, words := x.words + 1 }
    let s1 : State := { s with lc := { s.lc.program w v with session := some y } }
    if rest = [] then sessionDone s1 y else s1

/-- OTP_WORD_PROGRAMMED: no word is programmed during a supply warning, nor before the device is drained. -/
def otpWord (s : State) : State :=
  match s.lc.session with
  | none => s
  | some x =>
    if s.sag.warning ∨ s.sys.inReset then s
    else if x.words = 0 ∧ x.left = [] then
      if !drained s x then s
      else match beginWords s x with
        | .error t => t
        | .ok (s1, y) => programNext s1 y
    else programNext s x

def execOtpWordProgrammed (s : State) : Outcome := .next (otpWord s)

/-- LC_TRANSITION_RESET_TIMER: 1 ms after the completion write. -/
def transitionReset (s : State) : State :=
  if !s.sys.lcResetDue then s else warmReset 0 { s with sys := { s.sys with lcResetDue := false } }

def execLcTransitionResetTimer (s : State) : Outcome := .next (transitionReset s)

/-! ## Opcodes (R343) -/

/-- The target of LC_TRANSITION: OPERATIONAL in byte 96, any other in byte 72. -/
def transitionTarget (c : Cmd) : Nat := if c.inl 96 1 = 0x40 then 0x40 else c.inl 72 1

/-- LC_TRANSITION. -/
def lcTransition (s : State) (c : Cmd) : State :=
  let dst := transitionTarget c
  let go := if dst ≠ 0x40 ∧ !allZero (c.inlB 76 4) then badParam s c
    else goTransition { s with lc := { s.lc with token := if dst = 0x40 then zeros 16 else c.inlB 80 16 } } dst 1 (some c.place)
  if s.lc.state = 0x30 ∨ s.lc.state = 0x40 then withQuorum s c go else go

def execLcTransition (i : Nat) (s : State) : Outcome := .next (stewardRow s i 0x1B8 lcTransition)

/-- LC_QUERY. -/
def lcQuery (s : State) (c : Cmd) : State :=
  okInline s c ([byte s.lc.state, byte (b2n s.lc.invalid + 2 * b2n s.lc.variantM), byte s.lc.tokensUsed, byte s.lc.marks] ++
    toLe 2 s.lc.rollback ++ [byte s.lc.slot, byte s.lc.revoked])

def execLcQuery (i : Nat) (s : State) : Outcome := .next (stewardRow s i 0x1B9 lcQuery)

/-- LC_ENDORSE: the report of R329 once more. -/
def lcEndorse (s : State) (c : Cmd) : State := okReply s c [] (endorsement s (c.inlB 72 8))

def execLcEndorse (i : Nat) (s : State) : Outcome := .next (stewardRow s i 0x1BC lcEndorse)

/-- The image a command has staged. -/
def stagedImage (s : State) : Image := { header := sl s.drafts.staging 0 256, body := s.drafts.staging.drop 256 }

/-- The first of checks 2 to 7 that a staged image of a stated length fails. -/
def stageFault (s : State) (len : Nat) : Option Nat :=
  let i := stagedImage s
  match imageFault s i with
  | some 2 => some 2
  | f =>
    if fieldLe i.header 20 4 + 256 ≠ len then some 3
    else f.or (if i.signed then none else some 7)

/-- FW_STAGE, once its image is read. The slot that did not boot takes it. -/
def stageImage (s : State) (c : Cmd) : State :=
  match stageFault s (c.inl 80 4) with
  | some n => failDetail s c 0x1003 [byte n]
  | none =>
    let i := stagedImage s
    let s1 : State := { s with lc := if s.lc.slot = 0 then { s.lc with flashB := i } else { s.lc with flashA := i } }
    okInline (s1.raise 0x0E04 (1 - s.lc.slot) i.version 0 0) c []

def fwStage (s : State) (c : Cmd) : State := withImage s c (fun t => stageImage t c)

def execFwStage (i : Nat) (s : State) : Outcome := .next (stewardRow s i 0x1BD fwStage)

/-- The words of an advance to `n`: the thermometer's bits below `n`, and the revocation mask without the image's own key. -/
def advanceWords (s : State) (n : Nat) : List OtpStep :=
  let own := 2 ^ byteAt s.lc.running.header 24
  let mask := BitVec.ofNat 32 (byteAt s.lc.running.header 25 % 16) &&& ~~~BitVec.ofNat 32 own
  let th : List (Nat × BitVec 32) := (List.range 8).map (fun i => (120 + i, BitVec.ofNat 32 (2 ^ (min 32 (n - 32 * i)) - 1)))
  ((th ++ [(128, mask)]).filter (fun (x : Nat × BitVec 32) => s.lc.word x.1 ||| x.2 != s.lc.word x.1)).map (fun (x : Nat × BitVec 32) => OtpStep.word x.1 x.2)

/-- LC_ROLLBACK_ADVANCE. It waits while a supply warning holds sessions. -/
def rollbackAdvance (s : State) (c : Cmd) : State :=
  let n := c.inl 72 4
  if n < s.lc.rollback ∨ n > fieldLe s.lc.running.header 16 4 then badParam s c
  else if s.lc.session.isSome then s.retire c 0x5001
  else if s.sag.warning then s
  else if advanceWords s n = [] then rollbackDone s c s.lc.rollback
  else
    let x : Session := { left := advanceWords s n, target := 0x101, origin := s.lc.rollback, path := 1, who := some c.place, words := 0 }
    let s1 : State := { s with lc := { s.lc with session := some x } }
    s1.setCmd { c with phase := .waitOtp }

def execLcRollbackAdvance (i : Nat) (s : State) : Outcome := .next (stewardRow s i 0x1BE rollbackAdvance)

end Sys2Proof.Machine
end

