-- ==== Sys2Proof/Machine/Debug.lean ====
section
/-! DEFINITION. Debug authorisation (R337-R342): tokens, grants and their end, run control, boundary scan and the TAP
(R420), and the debug opcodes. -/

namespace Sys2Proof.Machine

open Sys2Proof

/-- The grant in force: standing in TEST_UNLOCKED, otherwise that of a token (R337). -/
def State.grantBits (s : State) : Nat := if isUnlocked s.lc.state then 0x1F else if s.dbg.active then s.dbg.grant.toNat else 0

/-! ## Tokens (R338, R339, Tables 14.10 and 14.11) -/

/-- The path is permitted in the state: the TAP in MANUFACTURED and RMA, the admin path in OPERATIONAL. -/
def dbgPathOk (st path : Nat) : Bool := if path = 0 then st == 0x30 || st == 0x50 else st == 0x40

/-- The first reason to refuse a token; path 0 the TAP, 1 the admin path. -/
def dbgFault (s : State) (path : Nat) (t : Bytes) : Option Nat :=
  if sl t 0 8 ≠ ascii "SLKDBGAU" ∨ fieldLe t 8 2 ≠ 1 ∨ !allZero (sl t 33 31) ∨
     (path = 1 ∧ !(allZero (sl t 24 9) && allZero (sl t 64 64))) then some 1
  else if byteAt t 10 ≠ s.lc.state ∨ !dbgPathOk s.lc.state path then some 2
  else if sl t 16 8 ≠ s.serial then some 3
  else if path = 0 ∧ (fieldLe t 24 8 = 0 ∨ fieldLe t 24 8 ≠ s.dbg.challenge) then some 4
  else if path = 0 ∧ byteAt t 32 > 1 then some 5
  else if path = 0 ∧ !edOk (Config.debugKey (byteAt t 32)) (sl t 64 64) (sl t 0 64) then some 6
  else if byteAt t 11 ≥ 0x20 ∨ fieldLe t 12 4 < 1 ∨ fieldLe t 12 4 > 86400 then some 7
  else none

/-- A refused token (R339). -/
def dbgRefuse (s : State) (r : Nat) : State :=
  ({ s with dbg := { s.dbg with refused := true, reason := r } }).raise 0x0109 r 0 0 0

/-- An accepted token (R340). -/
def dbgGrant (s : State) (path : Nat) (t : Bytes) : State :=
  let s1 : State := { s with
    dbg := { s.dbg with grant := BitVec.ofNat 8 (byteAt t 11), active := true, ends := s.evr.optime + 1000 * fieldLe t 12 4 }
    sys := { s.sys with pdctl := s.sys.pdctl ||| pdBit 36 } }
  s1.raise 0x0107 (byteAt t 11) path (fieldLe t 12 4) 0

/-- DBG.CTRL and DBG.TOKEN are the debug master's alone (R345). -/
def dbgOnly (w : Writer) (addr : Nat) (s : State) (k : State) : State := if w = Writer.debug then k else s.denyWrite w addr 4

/-- DBG_SUBMIT: the token register is zeroed and the challenge consumed, whatever the outcome. -/
def dbgSubmit (w : Writer) (value : Nat) (s : State) : State :=
  dbgOnly w 0x10120010 s
    (if !bit value 0 then s
     else
       let t := s.dbg.token
       let s1 : State := { s with dbg := { s.dbg with token := zeros 128, challenge := 0 } }
       match dbgFault s 0 t with
       | some r => dbgRefuse s1 r
       | none => dbgGrant s1 0 t)

def execDbgSubmit (w : Writer) (value : Nat) (s : State) : Outcome := .next (dbgSubmit w value s)

/-- DBG_CHALLENGE_READ: a new challenge from D16, zero while it gives none. -/
def challengeRead (s : State) : State :=
  let r : State × Nat := match s.random 16 8 with
    | .bytes t b => (t, leNat b)
    | .off => (s, 0)
    | .waits t => (t, 0)
  ({ r.1 with dbg := { r.1.dbg with challenge := r.2 } }).send (.regRead 0x10120004 (r.2 % 2 ^ 32) true)

def execDbgChallengeRead (s : State) : Outcome := .next (challengeRead s)

/-! ## The end of a grant (R342) -/

/-- DBG_CTRL_END. -/
def dbgCtrlEnd (w : Writer) (value : Nat) (s : State) : State :=
  dbgOnly w 0x10120010 s (if bit value 1 then endGrant 3 s else s)

def execDbgCtrlEnd (w : Writer) (value : Nat) (s : State) : Outcome := .next (dbgCtrlEnd w value s)

/-- DBG_GRANT_EXPIRY: DURATION_S of operating time have passed. -/
def grantExpiry (s : State) : State := if s.dbg.active then endGrant 1 (s.timeAtLeast s.dbg.ends) else s

def execDbgGrantExpiry (s : State) : Outcome := .next (grantExpiry s)

/-! ## Run control (R337, Table 18.5) -/

/-- A halt of steward 0 is refused while the device is paired or its time is disciplined. -/
def haltRefused (s : State) (i : Nat) : Bool := i == 0 && (s.lk.pairRec.isSome || s.pt.state != 0)

/-- STEWARD_HALT. A single step needs a halted core and leaves it halted. -/
def runControl (i : Nat) (op : RunOp) (s : State) : State :=
  if i ≥ 4 ∨ !bit s.grantBits 0 ∨ !s.powered (27 + i) ∨ s.sys.inReset then s
  else match op with
    | .halt =>
      if haltRefused s i then { s with iom := { s.iom with haltRefused := true } }
      else
        { s with dbg := { s.dbg with halted := i :: s.dbg.halted.filter (fun x => x != i) }
                 sys := { s.sys with wdtPaused := i :: s.sys.wdtPaused.filter (fun x => x != i) } }
    | .single => s
    | .resume =>
      { s with dbg := { s.dbg with halted := s.dbg.halted.filter (fun x => x != i) }
               sys := { s.sys with wdtPaused := s.sys.wdtPaused.filter (fun x => x != i) } }

def execStewardHalt (i : Nat) (op : RunOp) (s : State) : Outcome := .next (runControl i op s)

/-! ## Boundary scan (R341, R420, Table 18.5) -/

/-- Instructions that drive the balls. -/
def tapDrives : TapInstr → Bool
  | .extest | .clamp | .highz => true
  | _ => false

/-- Boundary scan is open in the state, or under a grant holding BSCAN. -/
def scanOpen (s : State) : Bool :=
  let st := s.lc.state
  (st == 0 || isUnlocked st || st == 0x50 || st == 0x60 || bit s.grantBits 4) && !zeroiseLive s && s.lk.pairRec.isNone

/-- The instruction register takes an instruction; leaving one that drives the balls is a W reset. -/
def loadInstr (i : TapInstr) (s : State) : State :=
  let s1 := if tapDrives s.dbg.tap && s.dbg.tap != i then warmReset 0 s else s
  { s1 with dbg := { s1.dbg with tap := i }
            lk := { s1.lk with actOut := s1.lk.actOut && i != .extest } }

/-- BSCAN_INSTRUCTION: an instruction not open acts as BYPASS. -/
def scanInstruction (i : TapInstr) (s : State) : State :=
  if tapDrives i && !scanOpen s then loadInstr .bypass { s with iom := { s.iom with extestRefused := true } } else loadInstr i s

def execBscanInstruction (i : TapInstr) (s : State) : Outcome := .next (scanInstruction i s)

/-- TAP_RESET: IDCODE becomes the instruction. -/
def execTapReset (s : State) : Outcome := .next (loadInstr .idcode s)

/-! ## Opcodes -/

/-- DBG_AUTHORISE: the token lies ahead of the quorum block. -/
def dbgAuthorise (s : State) (c : Cmd) : State :=
  let t := sl (c.own true) 0 128
  withQuorum s c (match dbgFault s 1 t with
    | some r => failDetail (dbgRefuse s r) c 0x1003 [byte r]
    | none => okInline (dbgGrant s 1 t) c [])

def execDbgAuthorise (i : Nat) (s : State) : Outcome := .next (stewardRow s i 0x1BA dbgAuthorise)

/-- DBG_END. -/
def dbgEnd (s : State) (c : Cmd) : State := okInline (endGrant 2 s) c []

def execDbgEnd (i : Nat) (s : State) : Outcome := .next (stewardRow s i 0x1BB dbgEnd)

end Sys2Proof.Machine
end

