-- ==== Sys2Proof/Machine/Mpu.lean ====
section
/-! DEFINITION. The master-side protection units (chapter 15): regions, default maps, the check of R350, and the unit's
own registers. -/

namespace Sys2Proof.Machine

open Sys2Proof

def State.unit (s : State) (i : Nat) : Mpu := (s.mpu[i]?).getD Mpu.reset
def State.modUnitReg (s : State) (i : Nat) (f : Mpu → Mpu) : State := { s with mpu := updAt s.mpu i f }

/-! ## Regions (R349) -/

def Region.zero (set idx : Nat) : Region :=
  { set := set, idx := idx, start := 0, stop := 0, en := false, r := false, w := false, x := false, user := false }

def Mpu.region (m : Mpu) (set idx : Nat) : Region :=
  (m.regions.find? (fun r => r.set == set && r.idx == idx)).getD (Region.zero set idx)

def Region.enabled (r : Region) : Bool := r.en && decide (r.start ≤ r.stop)
def Region.holds (r : Region) (a : Nat) : Bool := r.enabled && decide (r.start ≤ a ∧ a ≤ r.stop + 31)

/-- A region register: 0 RSTART_LO, 1 RSTART_HI, 2 REND_LO, 3 RATTR. -/
def Region.set_ (r : Region) (field v : Nat) : Region :=
  match field with
  | 0 => { r with start := r.start / 2 ^ 32 * 2 ^ 32 + v % 2 ^ 32 / 32 * 32 }
  | 1 => { r with start := v % 256 * 2 ^ 32 + r.start % 2 ^ 32 }
  | 2 => { r with stop := r.stop / 2 ^ 32 * 2 ^ 32 + v % 2 ^ 32 / 32 * 32 }
  | _ => { r with stop := v % 256 * 2 ^ 32 + r.stop % 2 ^ 32, en := bit v 16, r := bit v 17, w := bit v 18, x := bit v 19,
                  user := bit v 20 }

def Region.get (r : Region) (field : Nat) : Nat :=
  match field with
  | 0 => r.start % 2 ^ 32
  | 1 => r.start / 2 ^ 32
  | 2 => r.stop % 2 ^ 32
  | _ => r.stop / 2 ^ 32 + 2 ^ 16 * b2n r.en + 2 ^ 17 * b2n r.r + 2 ^ 18 * b2n r.w + 2 ^ 19 * b2n r.x + 2 ^ 20 * b2n r.user

/-! ## The address map (Table 01.2) -/

/-- The regions of Table 01.2 but loom memory: first and last address. -/
def mapRows : List (Nat × Nat) :=
  [(0, 0x3FFFF), (0x01000000, 0x017FFFFF), (0x02000000, 0x027FFFFF), (0x02800000, 0x029FFFFF), (0x02A00000, 0x02A3FFFF),
   (0x02A40000, 0x02BBFFFF), (0x02BC0000, 0x02BFFFFF), (0x03000000, 0x031FFFFF), (0x10000000, 0x1014FFFF)]

def within (a lo hi : Nat) : Bool := decide (lo ≤ a ∧ a ≤ hi)

/-- The loom and offset of a loom-memory address. -/
def loomAddr (a : Nat) : Option (Nat × Nat) :=
  if within a 0x20000000 0x20FFFFFF && decide (a % 0x100000 < 0x40000) then some (a / 0x100000 % 16, a % 0x100000) else none

def mapped (a : Nat) : Bool := mapRows.any (fun r => within a r.1 r.2) || (loomAddr a).isSome

/-- The key store slots (R14, R133). -/
def inKeyStore (a : Nat) : Bool := within a 0x02000000 0x027FFFFF || within a 0x02BF0000 0x02BFFFFF
/-- The event log and the black box (R395). -/
def inRecords (a : Nat) : Bool := within a 0x02800000 0x02A3FFFF
def inStepCache (a : Nat) : Bool := ((loomAddr a).map (fun x => decide (x.2 ≥ 0x20000))).getD false
def inSheds (a : Nat) : Bool := ((loomAddr a).map (fun x => decide (x.2 < 0x20000))).getD false
def inMram (a : Nat) : Bool := within a 0x02000000 0x02BFFFFF

/-- Some address of an access satisfies `p`; accesses are at most 4,096 bytes (MPU.VINFO.SIZE). -/
def touches (p : Nat → Bool) (addr size : Nat) : Bool := (List.range (min size 4096)).any (fun i => p (addr + i))

/-! ## Default maps (Tables 15.1, 15.2, 14.6) -/

/-- Permissions: read, write, fetch. -/
structure Perms where
  r : Bool
  w : Bool
  x : Bool
deriving DecidableEq, Repr

def rwx : Perms := { r := true, w := true, x := true }
def rw : Perms := { r := true, w := true, x := false }
def ro : Perms := { r := true, w := false, x := false }
def rx : Perms := { r := true, w := false, x := true }

/-- An entry of a default map: its bounds and permissions. -/
abbrev MapEnt := Nat × Nat × Perms

def sramEnt : MapEnt := (0x01000000, 0x017FFFFF, rw)
def blockEnt (n : Nat) (p : Perms) : MapEnt := (0x10000000 + 0x10000 * n, 0x1000FFFF + 0x10000 * n, p)
def shedEnts (p : Perms) : List MapEnt := (List.range 16).map (fun n => (0x20000000 + 0x100000 * n, 0x2001FFFF + 0x100000 * n, p))
def cacheEnts (p : Perms) : List MapEnt := (List.range 16).map (fun n => (0x20020000 + 0x100000 * n, 0x2003FFFF + 0x100000 * n, p))

/-- Table 15.2. -/
def stewardMap : List MapEnt :=
  [(0, 0x3FFFF, rx), (0x01000000, 0x017FFFFF, rwx), (0x02000000, 0x027FFFFF, ro), (0x02800000, 0x029FFFFF, ro),
   (0x02A00000, 0x02A3FFFF, ro), (0x02A40000, 0x02BBFFFF, rw), (0x02BC0000, 0x02BFFFFF, rw), (0x03000000, 0x031FFFFF, rw),
   (0x10000000, 0x1014FFFF, rw)] ++ shedEnts rw ++ cacheEnts ro

/-- The view of Table 14.6 in a state under a grant. In OPERATIONAL no grant opens the KS registers (R148). -/
def debugMap (st grant : Nat) : List MapEnt :=
  let tu := isUnlocked st
  let open_ := tu || st == 0x30 || st == 0x40 || st == 0x50
  let has := fun (b : Nat) => tu || (open_ && bit grant b)
  let p : Perms := { r := true, w := st != 0x40, x := false }
  let blocks := (List.range 21).filter (fun n => n != 1 && n != 18 && !(n == 8 && st == 0x40))
  [blockEnt 1 p, blockEnt 18 rw] ++
  (if has 2 then blocks.map (fun n => blockEnt n p) else []) ++
  (if has 1 then [(0, 0x3FFFF, p), (0x01000000, 0x017FFFFF, p), (0x02A40000, 0x02BBFFFF, p), (0x02BC0000, 0x02BFFFFF, p)] ++
      cacheEnts ro else []) ++
  (if tu then shedEnts rw ++ [(0x03000000, 0x031FFFFF, rw)] else []) ++
  (if tu || ((st == 0x30 || st == 0x50) && bit grant 1) then [(0x02000000, 0x027FFFFF, ro)] else []) ++
  (if has 3 then [(0x02800000, 0x029FFFFF, ro), (0x02A00000, 0x02A3FFFF, ro)] else [])

/-- The default map of a unit (Table 15.1); empty in SCRAPPED but for the debug master's. -/
def defaultMap (s : State) (unit : Nat) : List MapEnt :=
  if unit = 10 then debugMap s.lc.state s.grantBits
  else if s.lc.state = 0x60 then []
  else if unit ≤ 3 then stewardMap
  else if unit ≤ 7 then sramEnt :: shedEnts rw
  else if unit = 8 then [(0x03000000, 0x031FFFFF, rw), sramEnt]
  else if unit = 9 then [sramEnt]
  else if unit = 11 then [blockEnt 0 rw, blockEnt 10 rw, blockEnt 11 rw, blockEnt 16 rw, (0, 0x3FFFF, ro)]
  else []

def entryAt (m : List MapEnt) (a : Nat) : Option MapEnt := m.find? (fun e => within a e.1 e.2.1)

def Perms.allows (p : Perms) : AccKind → Bool
  | .read => p.r
  | .write => p.w
  | .fetch => p.x

/-! ## The check (R350, R348) -/

/-- The verdict on an access: `none` passes; otherwise the cause of Table 15.4 and the region that decided. Writes to the
key store, the records and the step caches fault whatever a region grants, and no MRAM address is executable. -/
def mpuCheck (s : State) (unit : Nat) (kind : AccKind) (user : Bool) (addr size : Nat) : Option (Nat × Nat) :=
  let m := s.unit unit
  let last := addr + size - 1
  let wr := kind == .write
  let regs := (List.range 16).map (fun i => m.region m.active i)
  let dmap := defaultMap s unit
  if !touches mapped addr size then some (1, 31)
  else if wr && touches inKeyStore addr size then some (6, 31)
  else if wr && touches (fun a => inRecords a || inStepCache a) addr size then some (5, 31)
  else if kind == .fetch && touches inMram addr size then some (5, 31)
  else match regs.find? (fun r => r.holds addr) with
    | some r =>
      if !r.holds last then some (3, r.idx)
      else if user && decide (unit ≤ 3) && !r.user then some (4, r.idx)
      else
        let q : Perms := { r := r.r, w := r.w, x := r.x }
        let d := ((entryAt dmap addr).map (fun e => e.2.2)).getD { r := false, w := false, x := false }
        let p : Perms := if unit ≤ 3 then q else { r := q.r && d.r, w := q.w && d.w, x := false }
        if p.allows kind then none else some (5, r.idx)
    | none =>
      if regs.any (fun r => touches r.holds addr size) then some (3, 31)
      else if user && decide (unit ≤ 3) then some (2, 31)
      else match entryAt dmap addr with
        | none => some (2, 31)
        | some e =>
          if !within last e.1 e.2.1 then some (2, 31)
          else if e.2.2.allows kind then none else some (5, 31)

/-! ## Registers of the units (R352, R353, R356) -/

/-- Address of an instance's register. -/
def mpuAddr (i off : Nat) : Nat := 0x10110800 + 0x1000 * i + off

/-- A region write or a SWAP is refused (R353). -/
def mpuRefuse (s : State) (i addr : Nat) : State :=
  ((s.modUnitReg i (fun m => { m with refused := true })).raise 0x0602 0 0 0 0).send (.error addr)

/-- Only privileged steward code writes MPU registers. -/
def mpuWriter (w : Writer) (i addr : Nat) (s : State) (f : State → State) : State :=
  if !Writer.priv w then s.denyWrite w addr 4 else if i > 11 then s else f s

/-- MPU_SWAP. -/
def mpuSwap (w : Writer) (i : Nat) (s : State) : State :=
  mpuWriter w i (mpuAddr i 0) s (fun t =>
    if (t.unit i).lock then mpuRefuse t i (mpuAddr i 0) else t.modUnitReg i (fun m => { m with active := 1 - m.active }))

def execMpuSwap (w : Writer) (i : Nat) (s : State) : Outcome := .next (mpuSwap w i s)

/-- MPU_LOCK. -/
def mpuLock (w : Writer) (i : Nat) (s : State) : State :=
  mpuWriter w i (mpuAddr i 0) s (fun t => t.modUnitReg i (fun m => { m with lock := true }))

def execMpuLock (w : Writer) (i : Nat) (s : State) : Outcome := .next (mpuLock w i s)

/-- The unit, set, region and field of a region register's address. -/
def regionOf (addr : Nat) : Option (Nat × Nat × Nat × Nat) :=
  let o := addr % 0x10000
  let i := o / 0x1000
  let f := o % 0x1000
  if within addr 0x10110000 0x1011FFFF && decide (i ≤ 11) && decide (0x900 ≤ f ∧ f < 0xB00) && decide (f % 4 = 0) then
    some (i, (f - 0x900) / 0x100, (f - 0x900) % 0x100 / 16, f % 16 / 4)
  else none

/-- MPU_REGION_WRITE: the inactive set takes it, while the unit is not locked. -/
def regionWrite (w : Writer) (addr value : Nat) (s : State) : State :=
  match regionOf addr with
  | none => s
  | some (i, set, r, field) =>
    mpuWriter w i addr s (fun t =>
      if (t.unit i).lock ∨ set = (t.unit i).active then mpuRefuse t i addr
      else t.modUnitReg i (fun m => { m with
        regions := (m.region set r).set_ field value :: m.regions.filter (fun x => !(x.set == set && x.idx == r)) }))

def execMpuRegionWrite (w : Writer) (addr : Nat) (value : Nat) (s : State) : Outcome := .next (regionWrite w addr value s)

end Sys2Proof.Machine
end

