-- ==== Sys2Proof/Machine/Smbus.lean ====
section
/-! DEFINITION. The SMBus target (R418, R419) and the thermal warning. -/

namespace Sys2Proof.Machine

open Sys2Proof

/-- The target acknowledges: from step 1, not while PORST_N is low or VIO_AON is below its warning threshold. -/
def smbUp (s : State) : Bool :=
  !s.sag.warn.getLsbD 2 && !(s.sys.inReset && s.sys.pending.getLsbD 0) && (!s.sys.inReset || !s.sys.cold)

/-- STATUS (Table 19.11). -/
def smbStatusByte (s : State) : Nat :=
  b2n s.host.ready + 2 * b2n s.active + 4 * b2n s.sys.faultLow + 8 * b2n s.sag.warning + 16 * b2n (s.tmp.latch != 0) +
    32 * b2n s.tmp.batLow + 64 * b2n s.board.thermWarn + 128 * b2n s.rng.latched

/-- SMB_ALERT_N is driven low. -/
def smbAlert (s : State) : Bool := decide (smbStatusByte s / 4 ≠ 0)

/-- An answer, or no acknowledge. -/
def smbAnswer (s : State) (data : Bytes) : State := if smbUp s then s.send (.smb data) else s.send .smbNack

def execSmbReceiveByte (s : State) : Outcome := .next (smbAnswer s [byte (smbStatusByte s)])
def execSmbStatus (s : State) : Outcome := .next (smbAnswer s [byte (smbStatusByte s)])

/-- TEMP: signed, units of 1/16 degree. -/
def execSmbTemp (s : State) : Outcome := .next (smbAnswer s (toLe 2 (s.board.temp % 65536).toNat))

def execSmbVbat (s : State) : Outcome := .next (smbAnswer s (toLe 2 s.tmp.vbatMv))
def execSmbLcState (s : State) : Outcome := .next (smbAnswer s [byte s.lc.state])

/-- HID.ID, the same value as SYS.ID. -/
def State.hidId (s : State) : Nat := 0xB0 + 256 * s.lc.variantByte + 65536 * 0x9216

/-- ID: a block of 8 bytes, its count first. -/
def execSmbId (s : State) : Outcome := .next (smbAnswer s ([8#8] ++ toLe 4 s.hidId ++ toLe 4 s.host.fwver))

/-- The ordering code, padded with spaces. Without a variant there is none to show. -/
def orderingCode (s : State) : Bytes :=
  if s.lc.variantF then ascii "SLK9216-F       " else if s.lc.variantM then ascii "SLK9216-M       " else ascii "                "

/-- VPD: a block of 32 bytes. -/
def execSmbVpd (s : State) : Outcome :=
  .next (smbAnswer s ([32#8] ++ orderingCode s ++ s.serial ++ [0xB0#8, byte s.lc.variantByte, 0#8, 0#8] ++ toLe 4 s.host.fwver))

/-- SMB_ALERT_RESPONSE: the target's own address while it drives SMB_ALERT_N. -/
def execSmbAlertResponse (s : State) : Outcome :=
  .next (if smbUp s && smbAlert s then s.send (.smb [byte (2 * (0x30 + s.board.smbAddr.toNat))]) else s.send .smbNack)

/-- Violations are logged once the recorder has started (R419). -/
def smbViolation (s : State) (code : Nat) : State :=
  if decide (s.sys.step ≥ 7) && s.powered 35 then s.raise code 0 0 0 0 else s

/-- SMB_SCL_TIMEOUT. -/
def execSmbSclTimeout (s : State) : Outcome := .next (smbViolation s 0x0B22)

/-- Command codes of Table 19.11. -/
def smbCommands : List Nat := [0, 1, 2, 3, 4, 0x10]

/-- SMB_CONTROLLER_VIOLATION (Table 19.12): a command code the target does not know, a write after the command byte, or a
read past the block or PEC. -/
def smbViolates (command : Nat) (act : BusAct) (s : State) : State :=
  if !smbUp s then s
  else if !smbCommands.contains command then smbViolation (s.send .smbNack) 0x0B20
  else match act with
    | .code => s
    | .write => smbViolation (s.send .smbNack) 0x0B21
    | .readPast => smbViolation (s.send (.smb [0xFF#8])) 0x0B23

def execSmbControllerViolation (command : Nat) (act : BusAct) (s : State) : Outcome :=
  .next (smbViolates command act s)

/-- THERM_WARN_CHANGE: the highest die temperature, in units of 1/16 degree; set from 110 degrees, clear below 105. -/
def thermChange (temp : Int) (s : State) : State :=
  { s with board := { s.board with
      temp := temp, thermWarn := decide (temp ≥ 1760) || (s.board.thermWarn && decide (temp ≥ 1680)) } }

def execThermWarnChange (temp : Int) (s : State) : Outcome := .next (thermChange temp s)

end Sys2Proof.Machine
end

