-- ==== Sys2Proof/Machine/Regs.lean ====
section
/-! DEFINITION. The register blocks as a whole (R8, R9, R15, R16): what a read of each register shows, which master may
write it, and what a write does; the host's view in BAR0; the command REGISTER_WRITE. -/

namespace Sys2Proof.Machine

open Sys2Proof

/-! ## Fields -/

/-- A register's value from its fields: (value, lowest bit, width). -/
def pack (l : List (Nat × Nat × Nat)) : Nat := (l.map (fun x => x.1 % 2 ^ x.2.2 * 2 ^ x.2.1)).sum

/-- A one-bit field. -/
def fl (b : Bool) (lo : Nat) : Nat × Nat × Nat := (b2n b, lo, 1)

def w32 (n : Nat) : Nat := n % 2 ^ 32

/-! ## Blocks (R15, Table 01.3) and their domains (R16, Table 01.1) -/

def blockOf (a : Nat) : Nat := a / 0x10000 % 0x1000
def blockOff (a : Nat) : Nat := a % 0x10000

/-- The instance of a block with several, and the offset in it. -/
def instanceOf (o : Nat) : Option (Nat × Nat) := if o % 0x1000 ≥ 0x800 then some (o / 0x1000, o % 0x1000 - 0x800) else none

/-- The domain a register stands in; none for those of AON (notes/assumptions/49.md). -/
def regDomain (a : Nat) : Option Nat :=
  let o := blockOff a
  match blockOf a with
  | 4 => some 32
  | 5 => some 22
  | 6 => some 22
  | 7 => some 17
  | 8 => some 34
  | 9 => some 21
  | 10 => (instanceOf o).map (fun x => x.1 + 1)
  | 11 => if 0x100 ≤ o ∧ o < 0x180 then some ((o - 0x100) / 8 + 1) else none
  | 12 => some 33
  | 13 => some 25
  | 14 => if o = 0 ∨ o = 4 ∨ o = 8 ∨ o = 0xC ∨ o = 0x10 ∨ o = 0x28 then none else some 26
  | 15 => some 35
  | 19 => some 23
  | _ => none

def State.regOn (s : State) (a : Nat) : Bool := ((regDomain a).map s.powered).getD true

/-! ## Reads -/

def sysRead (s : State) (o : Nat) : Nat :=
  let y := s.sys
  match o with
  | 0x00 => s.hidId
  | 0x10 => pack [fl y.pllLock 0, fl y.refOk 1, fl y.pcieExt 2, fl y.pllUnlock 3, fl y.refLost 4]
  | 0x20 => w32 y.pdctl.toNat
  | 0x24 => y.pdctl.toNat / 2 ^ 32
  | 0x28 => w32 y.pdstat.toNat
  | 0x2C => y.pdstat.toNat / 2 ^ 32
  | 0x30 => pack [fl y.refused 0, fl y.drainTimeout 1, (y.pderrDomain, 8, 6)]
  | 0x40 => pack [(y.rstcause.toNat, 0, 7), (y.rstCount, 16, 16)]
  | 0x48 => (y.wdtTimeout[0]?).getD 0
  | 0x4C => (y.wdtTimeout[1]?).getD 0
  | 0x50 => (y.wdtTimeout[2]?).getD 0
  | 0x54 => (y.wdtTimeout[3]?).getD 0
  | 0x58 => pack [(y.step, 0, 4), fl y.warm 4, fl y.resumed 5, fl y.failed 6]
  | _ => 0

def lcRead (s : State) (o : Nat) : Nat :=
  let l := s.lc
  match o with
  | 0x00 => pack [(l.state, 0, 8), fl l.invalid 8, fl l.variantM 9, (l.tokensUsed, 10, 7), (l.marks, 17, 5)]
  | 0x04 => pack [(l.target, 0, 8), fl l.go 8]
  | 0x08 => pack [fl l.session.isSome 0, fl l.statRefused 1, (l.result, 2, 4), (l.tokenFails, 6, 4)]
  | 0x24 => pack [(l.rollback, 0, 9), (l.revoked, 12, 4)]
  | 0x28 => pack [(l.slot, 0, 1), fl l.fallback 1, (l.aCheck, 2, 4), (l.bCheck, 6, 4), fl l.octal 10]
  | _ => 0

def sagRead (s : State) (o : Nat) : Nat :=
  let g := s.sag
  match o with
  | 0x00 => pack [(g.warn.toNat, 0, 3), fl g.pfail 3, fl g.warning 4, fl g.warning 5, (g.pgood.toNat, 8, 4)]
  | 0x04 => b2n g.pfailEn
  | 0x08 => pack [(g.warnings, 0, 16), (g.resets, 16, 16)]
  | 0x0C => pack [(g.holdUs, 0, 16), fl g.short 16, (g.rail, 17, 2)]
  | 0x10 => w32 g.lastWarn
  | _ => 0

def tmpRead (s : State) (o : Nat) : Nat :=
  let t := s.tmp
  match o with
  | 0x00 => t.live.toNat
  | 0x04 => t.latch.toNat
  | 0x08 => t.cfg.toNat
  | 0x0C => pack [(t.activeHigh.toNat, 0, 4), (t.debounce, 8, 4)]
  | 0x20 => w32 t.ltime
  | 0x24 => pack [(t.vbatMv, 0, 12), fl t.batLow 12, fl t.wasOnVbat 13]
  | _ =>
    if 0x10 ≤ o ∧ o < 0x20 then
      let w := (t.win[(o - 0x10) / 4]?).getD (0, 0, 0)
      pack [(w.1, 0, 8), (w.2.1, 8, 8), (w.2.2, 16, 8)]
    else 0

def rngRead (s : State) (o : Nat) : Nat :=
  let r := s.rng
  let h := (r.health[r.srcsel]?).getD Health.reset
  let seeded := fun (i : Nat) => ((r.drbgs[i]?).map (fun d => d.seeded)).getD false
  match o with
  | 0x00 => pack ([fl r.srcReady 0, fl (seeded 16) 1] ++ (List.range 16).map (fun n => fl (seeded n) (n + 2)) ++
      [fl r.stopped 18, fl r.latched 19, fl r.raw 20, (min 3 (recentFails s).length, 21, 2), (r.inUse.toNat, 23, 8)])
  | 0x04 => pack [(r.warnBias, 0, 16), (r.warnLag, 16, 16)]
  | 0x08 => pack [(81, 0, 8), (840, 16, 10)]
  | 0x10 => r.srcsel
  | 0x14 => pack [(toField 16 h.bias, 0, 16), (toField 16 h.lag1, 16, 16)]
  | 0x18 => pack [(toField 16 h.lag2, 0, 16), (toField 16 h.lag3, 16, 16)]
  | 0x1C => toField 16 h.lag4
  | 0x20 => min r.failTotal 0xFFFFFFFF
  | 0x24 => w32 r.reseeds
  | _ => 0

def qeRead (s : State) (o : Nat) : Nat :=
  if o = 0 then pack [(s.queues.length, 0, 15), ((s.queues.filter (fun q => q.bound)).length, 16, 15)] else 0

def schRead (s : State) (o : Nat) : Nat :=
  let p := s.part? s.sched.psel
  match o with
  | 0x00 => s.sched.quantum
  | 0x04 => 15000000 * s.looms
  | 0x10 => s.sched.psel
  | 0x14 => (p.map (fun x => w32 x.deficit)).getD 0
  | 0x18 => (p.map (fun x => w32 (x.minTok / tokUnit))).getD 0
  | 0x1C => if p.isSome then s.inflight s.sched.psel % 1024 else 0
  | 0x20 => (p.map (fun x => w32 x.admitted)).getD 0
  | _ =>
    if 0x8000 ≤ o ∧ o < 0x9000 then
      let e := ((s.sched.cost.find? (fun x => x.1 == (o - 0x8000) / 4)).map (fun x => x.2)).getD (0, 0)
      pack [(e.1, 0, 16), (e.2, 16, 16)]
    else 0

def kcRead (s : State) (o : Nat) : Nat :=
  let k := s.kc
  match o with
  | 0x00 => k.period
  | 0x04 => pack [fl k.salt.isSome 0, fl (!k.walks.isEmpty) 1, fl k.sweeping 2, fl (s.lk.role == 3) 3,
      ((k.ways.filter (fun w => w.filling)).length, 4, 15)]
  | 0x08 => k.ways.length
  | 0x10 => k.hits
  | 0x14 => k.misses
  | 0x18 => k.evicted
  | 0x1C => k.swept
  | 0x20 => k.shadowed
  | 0x24 => k.blocked
  | 0x30 => k.psel
  | 0x34 =>
    match s.part? k.psel with
    | none => 0
    | some p =>
      let n := s.occ k.psel
      pack [(n, 0, 19), fl (decide (n ≤ p.cacheMin)) 19, fl (decide (n ≥ p.cacheMax)) 20, fl p.oldest 21]
  | _ => 0

/-- Before recovery the counts and the sequence read their reset value. -/
def ksRead (s : State) (o : Nat) : Nat :=
  let k := s.ks
  let seq := if k.recovered then k.nextSeq else 0
  match o with
  | 0x00 => pack [fl k.recovered 0, fl s.ksEnc.isSome 1, fl (k.hold || s.sag.warning) 2,
      fl (decide (s.liveObjs.length ≥ 65536)) 3, fl k.domainKey.isSome 4]
  | 0x04 => s.liveObjs.length
  | 0x08 => if k.recovered then slotCount - k.used.length else 0
  | 0x0C => k.torn
  | 0x10 => w32 seq
  | 0x14 => w32 (seq / 2 ^ 32)
  | 0x18 => w32 k.commits
  | _ => 0

def rtRead (s : State) (o : Nat) : Nat :=
  let t := s.rt
  match o with
  | 0x00 => pack [fl t.salt.isSome 0, fl t.rSettled 1, fl t.pSettled 2, fl (!t.rSettled || !t.rWait.isEmpty) 3,
      fl (!t.pSettled || !t.pWait.isEmpty) 4]
  | 0x04 => t.rgen
  | 0x08 => t.pgen
  | 0x0C => (t.routes t.rgen).length
  | 0x10 => ((t.routes0 ++ t.routes1).map (fun r => r.index)).dedup.length
  | 0x14 => ((t.rules0 ++ t.rules1).map (fun r => r.index)).dedup.length
  | 0x90 => t.probes
  | 0x94 => t.plookups
  | _ =>
    if 0x20 ≤ o ∧ o < 0x40 then nodesUsed (t.rules0 ++ t.rules1) ((o - 0x20) / 4)
    else if 0x40 ≤ o ∧ o < 0x8C then
      let e := (t.layout[(o - 0x40) / 4]?).getD (0, 0)
      pack [(e.1, 0, 5), (e.2, 8, 18)]
    else 0

/-- A treadle's registers; the record at the head of its FIFO. -/
def trdRead (s : State) (n o : Nat) : Nat :=
  let t := s.treadle n
  let e := t.exc.head?
  match o with
  | 0x00 => pack [(busySheds s n, 0, 6), (t.exc.length, 8, 5), fl t.inService 16, fl t.draining 17, fl t.resumeErr 18]
  | 0x10 => (e.map (fun x => pack [(x.shed, 0, 5), (1, 8, 1), (x.kind, 12, 4), (x.code, 16, 16)])).getD 0
  | 0x14 => (e.map (fun x => pack [(x.step, 0, 9), (x.opcode, 16, 10)])).getD 0
  | 0x18 => (e.map (fun x => x.flags % 65536)).getD 0
  | 0x1C => (e.map (fun x => pack [(x.part, 0, 12), fl (((s.cmd? (.shed n x.shed)).map (fun c => c.abort)).getD false) 31])).getD 0
  | 0x24 => t.rstatus
  | 0x30 => w32 t.steps
  | 0x34 => w32 t.scMiss
  | _ => 0

def trdBlockRead (s : State) (o : Nat) : Nat :=
  match instanceOf o with
  | some (n, f) => trdRead s n f
  | none => if o = 0 then pack (s.trd.mapIdx (fun i t => fl (!t.exc.isEmpty) i)) else 0

def bnRead (s : State) (o : Nat) : Nat :=
  let b := s.bn
  match o with
  | 0x00 => pack [((cores.filter (coreIn s)).length, 0, 6), ((b.jobs.filter (fun j => j.state == 1)).length, 8, 6),
      ((b.jobs.filter (fun j => j.state == 2)).length, 16, 7), (keygens s, 24, 3)]
  | 0x04 => b.starve
  | 0x08 => w32 b.mismatch
  | 0x0C => w32 b.rejects
  | 0x10 => w32 b.yields
  | 0x14 => w32 b.aborts
  | _ =>
    if 0x100 ≤ o ∧ o < 0x180 then
      let c := (o - 0x100) / 4
      let k := s.core c
      pack [fl (coreIn s c) 0, fl k.running 1, (k.held.length, 2, 3),
        (min 2 (k.mismatches.filter (fun t => decide (s.evr.optime < t + 3600000))).length, 6, 2), fl k.retired 8, fl k.underTest 9]
    else 0

def qrRead (s : State) (o : Nat) : Nat :=
  match o with
  | 0x00 => pack [fl (!s.qr.waiting.isEmpty) 0, fl (((s.part? 0).map (fun p => !p.custKeys.isEmpty)).getD false) 1,
      (min s.qr.nonces.length 65535, 16, 16)]
  | 0x04 => w32 s.qr.accepted
  | 0x08 => w32 s.qr.refused
  | _ => 0

/-- COMPLETE shows from step 11. -/
def lkRead (s : State) (o : Nat) : Nat :=
  let l := s.lk
  match o with
  | 0x00 => pack [(l.pstate, 0, 3), (l.role, 3, 3), fl l.strap 6, fl l.up 7, (l.lanes, 8, 3), fl l.actIn 11, fl l.actOut 12,
      fl (l.complete && decide (s.sys.step ≥ 11)) 13, fl l.ceremony 14]
  | 0x04 => pack [(l.beatUs, 0, 10), fl l.policy 16, fl l.lossAction 17]
  | 0x08 => l.soloMs % 65536
  | 0x0C => w32 l.beat
  | 0x10 => l.beat / 2 ^ 32 % 65536
  | 0x14 => w32 l.done
  | 0x18 => l.done / 2 ^ 32 % 65536
  | 0x1C => w32 l.prom
  | 0x20 => l.prom / 2 ^ 32 % 65536
  | 0x24 => w32 l.tx
  | 0x28 => w32 l.rx
  | 0x2C => w32 l.drops
  | 0x30 => w32 l.relinks
  | _ => 0

def ptRead (s : State) (o : Nat) : Nat :=
  let t := s.pt
  match o with
  | 0x00 => pack [(t.state, 0, 2), fl s.trusted 2, fl t.partner 3, fl t.ppsLock 4, (t.count, 5, 5)]
  | 0x04 => t.addend
  | 0x08 => s.nowNs
  | 0x0C => w32 t.capSec
  | 0x10 => t.capSec / 2 ^ 32 % 65536
  | 0x20 => pack [fl t.ppsIn 0, fl t.ppsOut 1, (t.ppsWidth, 2, 8)]
  | 0x24 => pack [(t.mapping, 0, 2), (t.domain, 8, 7)]
  | 0x28 => pack [(t.limitH, 0, 8), (holdMinutes s, 8, 24)]
  | 0x2C => pack [(t.outlierUs, 0, 10), (t.kp, 10, 10), (t.ki, 20, 10)]
  | 0x30 => toField 32 t.asym
  | 0x34 => w32 t.ipv4
  | 0x40 => w32 t.gmid
  | 0x44 => w32 (t.gmid / 2 ^ 32)
  | 0x48 => w32 t.utcOff
  | 0x4C => w32 t.drops
  | _ => 0

def evrRead_ (s : State) (o : Nat) : Nat :=
  let v := s.evr
  match o with
  | 0x00 => pack [(v.log.length, 0, 17), fl v.full 17, fl (decide (v.log.length ≥ 61440)) 18, fl v.clearing 19, fl s.recHeld 20,
      fl v.export_ 21]
  | 0x04 => w32 v.lost
  | 0x08 => w32 v.suppressed
  | 0x0C => w32 v.power
  | 0x10 => w32 v.clears
  | 0x14 => w32 v.optime
  | 0x18 => v.optime / 2 ^ 32 % 65536
  | 0x20 => pack [(v.head, 0, 13), fl v.frozen 13, (v.post, 14, 6)]
  | 0x24 => pack [(v.trigCode, 0, 16), (v.trigIdx, 16, 13)]
  | _ =>
    if 0x400 ≤ o ∧ o < 0x800 then
      let c := classOf s ((o - 0x400) / 4)
      pack [(c.1, 0, 16), (c.2, 16, 8)]
    else if 0x4000 ≤ o ∧ o < 0x8000 then
      let c := codeMap s ((o - 0x4000) / 4)
      pack [(c.1, 0, 8), (c.2, 8, 2)]
    else 0

def bistRead (s : State) (o : Nat) : Nat :=
  let b := s.bist
  let unit := fun (i : Nat) => if (s.slot i).phase = 0 then 0xFF else (s.slot i).unit
  let pick := fun (i : Nat) => if (s.slot i).phase = 0 then 0 else (s.slot i).pick
  match o with
  | 0x00 => pack [(b.period, 0, 14), fl b.enable 15, (b.isolate, 16, 8)]
  | 0x04 => pack [(unit 0, 0, 8), (unit 1, 8, 8), (pick 0, 16, 4), (pick 1, 20, 4), fl (picksHeld s) 24]
  | 0x08 => b.usel
  | 0x0C =>
    let u := min b.usel 175
    pack [(unitState s u, 0, 3), (nextPick s u, 4, 4), ((s.bunit u).fails, 8, 8), ((s.bunit u).passes, 16, 16)]
  | 0x14 => w32 b.cycles
  | 0x18 => w32 b.picks
  | 0x1C => w32 b.fails
  | 0x20 => w32 b.skips
  | _ => 0

def mpuRead (s : State) (i o : Nat) : Nat :=
  let m := s.unit i
  match o with
  | 0x00 => pack [(m.active, 0, 1), fl m.lock 2]
  | 0x04 => pack [fl m.valid 0, fl m.refused 1]
  | 0x08 => w32 m.vaddr
  | 0x0C => m.vaddr / 2 ^ 32 % 256
  | 0x10 => pack [(m.vcause, 0, 3), (m.vkind, 3, 2), fl m.vuser 5, (m.vset, 6, 1), (m.vregion, 7, 5), (m.vsize, 12, 13)]
  | 0x14 => m.vcount
  | _ => if 0x100 ≤ o ∧ o < 0x300 then (m.region ((o - 0x100) / 0x100) (o % 0x100 / 16)).get (o % 16 / 4) else 0

def mpuBlockRead (s : State) (o : Nat) : Nat :=
  match instanceOf o with
  | some (i, f) => if i < 12 then mpuRead s i f else 0
  | none => if o = 0 then pack (s.mpu.mapIdx (fun i m => fl m.valid i)) else 0

def dbgRead (s : State) (o : Nat) : Nat :=
  match o with
  | 0x00 => pack [(s.grantBits, 0, 6), fl (s.grantBits != 0 || s.dbg.active) 6, fl s.dbg.refused 7, (s.dbg.reason, 8, 4),
      (if s.dbg.active then (s.dbg.ends - s.evr.optime) / 1000 else 0, 14, 18)]
  | 0x04 => w32 s.dbg.challenge
  | 0x08 => w32 (s.dbg.challenge / 2 ^ 32)
  | _ => 0

def iomRead (s : State) (o : Nat) : Nat :=
  match o with
  | 0x20 => pack [(s.iom.inLevel.toNat, 0, 8), (s.iom.out.toNat, 8, 8)]
  | 0x24 => pack [(s.iom.cmp1, 0, 4), (if s.iom.cmp1 = 0 then 0 else fnRank s.iom.cmp1, 4, 3), fl s.iom.haltRefused 8,
      fl s.iom.extestRefused 9]
  | 0x28 => pack [(min s.iom.refusals 0xFFFF, 0, 16), (min s.iom.drops 0xFFFF, 16, 16)]
  | _ =>
    if o < 0x20 then
      let p := s.pin (o / 4)
      pack [(p.req, 0, 4), (p.granted, 4, 4), (fnRank p.granted, 8, 3), fl p.preempted 12, fl p.refused 13]
    else 0

/-- What a read of the register at a word-aligned address shows; a reserved offset reads zero (R9). -/
def regRead (s : State) (a : Nat) : Nat :=
  let o := blockOff a
  match blockOf a with
  | 0 => sysRead s o
  | 1 => lcRead s o
  | 2 => sagRead s o
  | 3 => tmpRead s o
  | 4 => rngRead s o
  | 5 => qeRead s o
  | 6 => schRead s o
  | 7 => kcRead s o
  | 8 => ksRead s o
  | 9 => rtRead s o
  | 10 => trdBlockRead s o
  | 11 => bnRead s o
  | 12 => qrRead s o
  | 13 => lkRead s o
  | 14 => ptRead s o
  | 15 => evrRead_ s o
  | 16 => bistRead s o
  | 17 => mpuBlockRead s o
  | 18 => dbgRead s o
  | 20 => iomRead s o
  | _ => 0

/-- A read of one register with its side effect: a read of PT.TIME_NS captures the time (R301), one of
DBG.CHALLENGE_LO draws a challenge (R339). -/
def readReg (a : Nat) (s : State) : State :=
  if !s.regOn a then s.send (.error a)
  else if a = 0x100E0008 then timeCapture s
  else if a = 0x10120004 then challengeRead s
  else s.send (.regRead a (regRead s a) true)

/-! ## Writes: which master may -/

/-- A steward command with this opcode is being executed. -/
def State.running (s : State) (op : Nat) : Bool := s.cmds.any (fun c => c.opcode == op)

/-- Step 11 is under way. -/
def inStep11 (s : State) : Bool := s.sys.step == 10

/-- Offsets of a block that hold something to write, and who may (Tables 00.7, R20, R345, R352, R363, and the writer each
register's own description names). Everywhere else a write has no effect and is no error (R8, R9), but in LC and DBG, where
R345 answers it with an error. REFUSED of LC.STATUS and DBG.STATUS is W1C, and R345 names no writer of it: the writers of
the block's other registers clear it (DESIGN CHOICE, notes/assumptions/47.md). -/
def regAdmits (s : State) (w : Writer) (a : Nat) : Bool :=
  let o := blockOff a
  let p := Writer.priv w
  match blockOf a with
  | 0 => !(o == 0x20 || o == 0x24) || p
  | 1 => if o = 0x04 ∨ o = 0x08 ∨ (0x10 ≤ o ∧ o < 0x20) then lcWriter s w
         else if o = 0x20 then w == Writer.debug && s.lc.state == 0 else false
  | 2 => o != 4 || p
  | 3 => if o = 0x04 then p && s.running 0x03E
         else if o = 0x08 ∨ o = 0x0C ∨ (0x10 ≤ o ∧ o < 0x20) then p && s.running 0x03C else true
  | 4 => !(o == 0x04 || o == 0x10) || p
  | 6 => !(o == 0 || o == 0x10 || decide (0x8000 ≤ o ∧ o < 0x9000)) || p
  | 7 => !(o == 0 || o == 0x30) || p
  | 9 => !(decide (0x40 ≤ o ∧ o < 0x8C)) || (p && s.running 0x019)
  | 10 => (match instanceOf o with
    | some (_, f) => !(f == 0 || f == 0x20 || f == 0x24 || f == 0x28) || p
    | none => true)
  | 11 => o != 4 || p
  | 13 => !(o == 4 || o == 8) || (p && (s.running 0x029 || inStep11 s))
  | 14 => if o = 4 then p else if 0x20 ≤ o ∧ o < 0x38 then p && (s.running 0x1A0 || inStep11 s) else true
  | 15 => !(decide (0x400 ≤ o ∧ o < 0x800) || decide (0x4000 ≤ o ∧ o < 0x8000)) || p
  | 16 => if o = 0 then p && (s.running 0x1A6 || inStep11 s) else !(o == 8 || o == 0x10) || p
  | 17 => (match instanceOf o with
    | some (i, f) => !(decide (i < 12) && (f == 0 || f == 4 || decide (0x100 ≤ f ∧ f < 0x300))) || p
    | none => true)
  | 18 => (o == 0 || o == 0x10 || decide (0x100 ≤ o ∧ o < 0x180)) && w == Writer.debug
  | 20 => if o = 0x20 then p || (w == Writer.debug && bit s.grantBits 2) else !(decide (o < 0x20) || o == 0x24) || p
  | _ => true

/-- Bits of a register that a write of other bytes leaves as they are: its read-write fields. -/
def keepBits (a : Nat) : Nat :=
  let o := blockOff a
  match blockOf a with
  | 0 => if o = 0x20 then 0xFFFFFFFF else if o = 0x24 then 0xF else if 0x48 ≤ o ∧ o < 0x58 then 0xFFFFFF else 0
  | 1 => if o = 4 then 0xFF else 0
  | 2 => if o = 4 then 1 else 0
  | 3 => if o = 8 then 0xFFFF else if o = 0xC then 0xF0F else if 0x10 ≤ o ∧ o < 0x20 then 0xFFFF else 0
  | 4 => if o = 4 then 0xFFFFFFFF else if o = 0x10 then 7 else 0
  | 6 => if o = 0 then 0xFFFF else if o = 0x10 then 0xFFF else 0xFFFFFFFF
  | 7 => if o = 0 then 0xFFFF else 0xFFF
  | 9 => 0x3FFFF1F
  | 10 => if (instanceOf o).map (fun x => x.2) = some 0x24 then 0xFFFF else 0
  | 11 => 0xFFFF
  | 13 => if o = 4 then 0x303FF else 0xFFFF
  | 14 => 0xFFFFFFFF
  | 15 => if o < 0x4000 then 0xFFFFFF else 0x3FF
  | 16 => if o = 0 then 0xFFBFFF else if o = 8 then 0xFF else 0
  | 17 => if decide ((instanceOf o).any (fun x => decide (0x100 ≤ x.2))) then 0xFFFFFFFF else 0
  | 20 => if o = 0x20 then 0xFF00 else 0
  | _ => 0

/-- The value a write of some bytes of a register gives it: bytes not written keep the read-write fields. -/
def mergeWord (s : State) (a v mask : Nat) : Nat :=
  (v &&& mask) ||| (regRead s a &&& keepBits a &&& (0xFFFFFFFF ^^^ mask))

/-- Bytes of a string replaced where a mask of a word at `o` has them. -/
def maskBytes (b : Bytes) (o v mask : Nat) : Bytes :=
  (List.range 4).foldl (fun t i => if mask / 256 ^ i % 256 = 0 then t else t.set (o + i) (byte (v / 256 ^ i))) b

/-! ## Writes: what they do -/

def sysWrite (w : Writer) (o v : Nat) (s : State) : State :=
  match o with
  | 0x10 => { s with sys := { s.sys with pllUnlock := s.sys.pllUnlock && !bit v 3, refLost := s.sys.refLost && !bit v 4 } }
  | 0x20 => pdctlWrite w 0 v s
  | 0x24 => pdctlWrite w 1 v s
  | 0x30 => { s with sys := { s.sys with refused := s.sys.refused && !bit v 0, drainTimeout := s.sys.drainTimeout && !bit v 1 } }
  | 0x40 => { s with sys := { s.sys with rstcause := s.sys.rstcause &&& ~~~(BitVec.ofNat 7 v) } }
  | 0x44 => rstreqWarm w v s
  | 0x48 => wdtWrite w 0 v s
  | 0x4C => wdtWrite w 1 v s
  | 0x50 => wdtWrite w 2 v s
  | 0x54 => wdtWrite w 3 v s
  | _ => s

def lcWrite (w : Writer) (o v mask : Nat) (s : State) : State :=
  if o = 0x04 then lcGo w v s
  else if o = 0x20 then lcProg w v s
  else if o = 0x08 then { s with lc := { s.lc with statRefused := s.lc.statRefused && !bit v 1 } }
  else { s with lc := { s.lc with token := maskBytes s.lc.token (o - 0x10) v mask } }

/-- SAG.CFG is kept in the configuration region too, from which step 11 loads it. -/
def sagWrite (o v : Nat) (s : State) : State :=
  if o = 4 then { s with sag := { s.sag with pfailEn := bit v 0, cfgPfailEn := bit v 0 } } else s

/-- TMP.LATCH clears only bits whose condition is gone (R363). -/
def tmpWrite (o v : Nat) (s : State) : State :=
  let t := s.tmp
  match o with
  | 0x04 => { s with tmp := { t with latch := t.latch &&& ~~~(BitVec.ofNat 15 v &&& ~~~t.live) } }
  | 0x08 => { s with tmp := { t with cfg := BitVec.ofNat 16 v } }
  | 0x0C => { s with tmp := { t with activeHigh := BitVec.ofNat 4 v, debounce := bits v 11 8 } }
  | _ =>
    if 0x10 ≤ o ∧ o < 0x20 then
      { s with tmp := { t with win := updAt t.win ((o - 0x10) / 4) (fun x => (bits v 7 0, bits v 15 8, x.2.2)) } }
    else s

def rngWrite (o v : Nat) (s : State) : State :=
  match o with
  | 0x04 => { s with rng := { s.rng with warnBias := bits v 15 0, warnLag := bits v 31 16 } }
  | 0x10 => { s with rng := { s.rng with srcsel := v % 8 } }
  | _ => s

/-- SCH.COST is mirrored as a configuration value (Table 12.6). -/
def schWrite (o v : Nat) (s : State) : State :=
  match o with
  | 0x00 => { s with sched := { s.sched with quantum := v % 65536 } }
  | 0x10 => { s with sched := { s.sched with psel := v % 4096 } }
  | _ =>
    if 0x8000 ≤ o ∧ o < 0x9000 then
      let op := (o - 0x8000) / 4
      let e := (op, bits v 15 0, bits v 31 16)
      ({ s with sched := { s.sched with cost := e :: s.sched.cost.filter (fun x => x.1 != op) } }).commit 0x09 0
        (costBody op e.2.1 e.2.2)
    else s

def kcWrite (o v : Nat) (s : State) : State :=
  match o with
  | 0x00 => { s with kc := { s.kc with period := v % 65536 } }
  | 0x30 => { s with kc := { s.kc with psel := v % 4096 } }
  | _ => s

def rtWrite (o v : Nat) (s : State) : State :=
  if 0x40 ≤ o ∧ o < 0x8C then
    { s with rt := { s.rt with layout := updAt s.rt.layout ((o - 0x40) / 4) (fun _ => (bits v 4 0, bits v 25 8)) } }
  else s

def trdBlockWrite (o v : Nat) (s : State) : State :=
  match instanceOf o with
  | none => s
  | some (n, f) =>
    match f with
    | 0x00 => if bit v 18 then s.modTreadle n (fun t => { t with resumeErr := false }) else s
    | 0x20 => if bit v 0 then s.modTreadle n Treadle.pop else s
    | 0x24 => s.modTreadle n (fun t => { t with rstatus := v % 65536 })
    | 0x28 => trdResume n v s
    | _ => s

/-- A write of LK.CFG or LK.SOLO sets the value in force and the configuration region's copy. -/
def lkWrite (o v : Nat) (s : State) : State :=
  match o with
  | 0x04 => { s with lk := { s.lk with beatUs := bits v 9 0, policy := bit v 16, lossAction := bit v 17, cfgBeatUs := bits v 9 0,
                                       cfgPolicy := bit v 16, cfgLoss := bit v 17 } }
  | 0x08 => { s with lk := { s.lk with soloMs := v % 65536, cfgSolo := v % 65536 } }
  | _ => s

def ptWrite (o v : Nat) (s : State) : State :=
  let t := s.pt
  let v32 := v % 2 ^ 32
  match o with
  | 0x04 => { s with pt := { t with addend := clampAddend v32 } }
  | 0x20 => { s with pt := { t with ppsIn := bit v 0, ppsLock := t.ppsLock && bit v 0, ppsOut := bit v 1, ppsWidth := bits v 9 2 } }
  | 0x24 => { s with pt := { t with mapping := bits v 1 0, domain := bits v 14 8 } }
  | 0x28 => { s with pt := { t with limitH := bits v 7 0 } }
  | 0x2C => { s with pt := { t with outlierUs := bits v 9 0, kp := bits v 19 10, ki := bits v 29 20 } }
  | 0x30 => { s with pt := { t with asym := if v32 ≥ 2 ^ 31 then (v32 : Int) - 2 ^ 32 else v32 } }
  | 0x34 => { s with pt := { t with ipv4 := v32 } }
  | _ => s

def evrWrite (o v : Nat) (s : State) : State :=
  if 0x400 ≤ o ∧ o < 0x800 then
    let c := (o - 0x400) / 4
    { s with evr := { s.evr with classes := (c, bits v 15 0, bits v 23 16) :: s.evr.classes.filter (fun x => x.1 != c) } }
  else if 0x4000 ≤ o ∧ o < 0x8000 then
    let c := (o - 0x4000) / 4
    { s with evr := { s.evr with codemap := (c, bits v 7 0, bits v 9 8) :: s.evr.codemap.filter (fun x => x.1 != c) } }
  else s

def bistWrite (w : Writer) (o v : Nat) (s : State) : State :=
  match o with
  | 0x00 => { s with bist := { s.bist with period := bits v 13 0, enable := bit v 15, isolate := bits v 23 16 } }
  | 0x08 => { s with bist := { s.bist with usel := v % 256 } }
  | 0x10 => bistRequest w v s
  | _ => s

def mpuBlockWrite (w : Writer) (a v : Nat) (s : State) : State :=
  match instanceOf (blockOff a) with
  | none => s
  | some (i, f) =>
    if i ≥ 12 then s
    else match f with
      | 0x00 =>
        let s1 := if bit v 1 then mpuSwap w i s else s
        if bit v 2 then mpuLock w i s1 else s1
      | 0x04 => s.modUnitReg i (fun m => { m with valid := m.valid && !bit v 0, refused := m.refused && !bit v 1 })
      | _ => if 0x100 ≤ f ∧ f < 0x300 then regionWrite w a v s else s

/-- DBG.CTRL: SUBMIT, then END; DBG.STATUS.REFUSED is cleared by a one. -/
def dbgWrite (w : Writer) (o v mask : Nat) (s : State) : State :=
  if o = 0x10 then dbgCtrlEnd w v (dbgSubmit w v s)
  else if o = 0 then { s with dbg := { s.dbg with refused := s.dbg.refused && !bit v 7 } }
  else { s with dbg := { s.dbg with token := maskBytes s.dbg.token (o - 0x100) v mask } }

def iomWrite (o v : Nat) (s : State) : State :=
  match o with
  | 0x20 => { s with iom := { s.iom with out := BitVec.ofNat 8 (bits v 15 8) } }
  | 0x24 => { s with iom := { s.iom with haltRefused := s.iom.haltRefused && !bit v 8,
                                         extestRefused := s.iom.extestRefused && !bit v 9 } }
  | _ =>
    if o < 0x20 then
      s.modPin (o / 4) (fun p => { p with preempted := p.preempted && !bit v 12, refused := p.refused && !bit v 13 })
    else s

/-- A write of bytes of one register that its block admits. -/
def regWrite (w : Writer) (a v0 mask : Nat) (s : State) : State :=
  let o := blockOff a
  let v := mergeWord s a v0 mask
  match blockOf a with
  | 0 => sysWrite w o v s
  | 1 => lcWrite w o v mask s
  | 2 => sagWrite o v s
  | 3 => tmpWrite o v s
  | 4 => rngWrite o v s
  | 6 => schWrite o v s
  | 7 => kcWrite o v s
  | 9 => rtWrite o v s
  | 10 => trdBlockWrite o v s
  | 11 => if o = 4 then { s with bn := { s.bn with starve := v % 65536 } } else s
  | 13 => lkWrite o v s
  | 14 => ptWrite o v s
  | 15 => evrWrite o v s
  | 16 => bistWrite w o v s
  | 17 => mpuBlockWrite w a v s
  | 18 => dbgWrite w o v mask s
  | 20 => iomWrite o v s
  | _ => s

/-! ## Accesses of any size -/

/-- The words an access touches. -/
def wordsOf (addr size : Nat) : List Nat := (List.range ((addr + size + 3) / 4 - addr / 4)).map (fun i => 4 * (addr / 4 + i))

/-- Value and mask of an access in the word at `a`. -/
def wordPart (addr size value a : Nat) : Nat × Nat :=
  let here := fun (i : Nat) => decide (addr ≤ a + i ∧ a + i < addr + size)
  let sum := fun (f : Nat → Nat) => ((List.range 4).map (fun i => if here i then f i * 256 ^ i else 0)).sum
  (sum (fun i => value / 256 ^ (a + i - addr) % 256), sum (fun _ => 255))

/-- A write by a master of the internal interconnect, once its protection unit has passed it: a block that is off or does
not admit the writer ends it with an error response (R13, R16). -/
def writeRegs (w : Writer) (addr size value : Nat) (s : State) : State :=
  let ws := wordsOf addr size
  if !ws.all s.regOn then s.send (.error addr)
  else if !ws.all (regAdmits s w) then s.denyWrite w addr size
  else ws.foldl (fun t a => regWrite w a (wordPart addr size value a).1 (wordPart addr size value a).2 t) s

/-! ## The host's view (chapter 03) -/

/-- HST.STATUS; a virtual function sees READY, ACTIVE, FAULT and TIME_STATE alone. -/
def hstStatus (s : State) (fn : Nat) : Nat :=
  let own := pack [fl s.host.ready 0, fl s.active 1, fl s.sys.faultLow 3, (s.pt.state, 8, 2)]
  if fn ≠ 0 then own
  else own + pack [fl s.paired 2, fl s.rng.latched 4, fl s.sag.warning 5, fl s.evr.full 6, fl s.tmp.batLow 7,
    fl (s.lc.state == 0x40) 10, (s.looms, 16, 5)]

/-- First byte of a function's MSI-X table, its vectors, and of its pending bits. -/
def msixBase (fn : Nat) : Nat := if fn = 0 then 0x18000 else 0x4000
def msixCount (fn : Nat) : Nat := if fn = 0 then 2048 else 64
def pbaBase (fn : Nat) : Nat := if fn = 0 then 0x14000 else 0x5000

def State.msixEnt (s : State) (fn vec : Nat) : MsixEnt :=
  (s.host.msix.find? (fun e => e.fn == fn && e.vec == vec)).getD { fn := fn, vec := vec, addr := 0, data := 0, masked := true }

/-- A dword of an MSI-X table entry: address low and high, data, vector control. -/
def MsixEnt.word (e : MsixEnt) (k : Nat) : Nat :=
  match k with
  | 0 => w32 e.addr
  | 1 => w32 (e.addr / 2 ^ 32)
  | 2 => e.data
  | _ => b2n e.masked

/-- What a host read of a dword of a function's BAR0 shows. A doorbell half shows the
device's own position (R59); HMB.MBX_STATUS also counts the read (MBX_STATUS_READ). -/
def hostWord (s : State) (fn a : Nat) : Nat :=
  let m := s.mbx fn
  if (pairIndex fn a).isSome then
    ((pairQueue s fn a).map (fun q => if a % 8 < 4 then q.sqHead else q.cqTail)).getD 0
  else if 0x1000 ≤ a ∧ a < 0x1080 then fieldLe m.entry (a - 0x1000) 4
  else if a = 0x1080 then pack [fl (m.state == 1) 0, fl m.ie 2]
  else if a = 0x1084 then m.status
  else if 0x10A0 ≤ a ∧ a < 0x10C0 then (if m.state = 2 then fieldLe m.result (a - 0x10A0) 4 else 0)
  else if 0x1800 ≤ a ∧ a < 0x2000 then Mem.num m.data (a - 0x1800) 4
  else if a = 0 then s.hidId
  else if a = 0x2000 then hstStatus s fn
  else if msixBase fn ≤ a ∧ a < msixBase fn + 16 * msixCount fn then
    (s.msixEnt fn ((a - msixBase fn) / 16)).word ((a - msixBase fn) % 16 / 4)
  else if pbaBase fn ≤ a ∧ a < pbaBase fn + msixCount fn / 8 then
    pack ((List.range 32).map (fun i => fl (s.host.pba.contains (fn, 8 * (a - pbaBase fn) + i)) i))
  else if fn ≠ 0 then 0
  else if a = 4 then s.host.fwver
  else if a = 0x2010 then pack [(s.host.violCode, 0, 8), (s.host.violFn, 8, 8), (s.host.violQ, 16, 14), fl s.host.violValid 31]
  else if a = 0x2014 then s.host.violCnt
  else if a = 0x10000 then s.host.cause.toNat
  else if a = 0x10004 then s.host.enable.toNat
  else if a = 0x10008 then s.host.vec
  else 0

/-- HIRQ.ENABLE is written: CAUSE AND ENABLE rising from zero sends the vector (R83). -/
def setEnable (s : State) (v : BitVec 9) : State :=
  let s1 : State := { s with host := { s.host with enable := v } }
  if s.host.cause &&& s.host.enable = 0 ∧ s.host.cause &&& v ≠ 0 then s1.msix 0 s.host.vec else s1

/-- A dword of the MSI-X table is written; an unmasked vector with a pending bit sends its message. -/
def msixWrite (fn vec k v : Nat) (s : State) : State :=
  let e := s.msixEnt fn vec
  let e1 : MsixEnt := match k with
    | 0 => { e with addr := e.addr / 2 ^ 32 * 2 ^ 32 + v % 2 ^ 32 / 4 * 4 }
    | 1 => { e with addr := v % 2 ^ 32 * 2 ^ 32 + e.addr % 2 ^ 32 }
    | 2 => { e with data := v % 2 ^ 32 }
    | _ => { e with masked := bit v 0 }
  let s1 : State := { s with host := { s.host with
    msix := e1 :: s.host.msix.filter (fun x => !(x.fn == fn && x.vec == vec)) } }
  if !e1.masked && s1.host.pba.contains (fn, vec) && s1.host.msixEn.contains fn && !s1.host.msixMask.contains fn &&
     !s1.host.d3.contains fn then
    ({ s1 with host := { s1.host with pba := s1.host.pba.filter (fun p => p != (fn, vec)) } }).msix fn vec
  else s1

/-- Dwords of BAR0 that a host may write, doorbells and the mailbox buffers apart. -/
def hostWritable (fn a : Nat) : Bool :=
  a == 0x1080 || a == 0x1084 || decide (msixBase fn ≤ a ∧ a < msixBase fn + 16 * msixCount fn) ||
    (fn == 0 && (a == 0x2010 || a == 0x10000 || a == 0x10004 || a == 0x10008))

/-- Bits that a write of other bytes of the dword leaves as they are. -/
def hostKeep (fn a : Nat) : Nat :=
  if a = 0x1080 then 4
  else if a = 0x10004 then 0x1FF
  else if a = 0x10008 then 0x7FF
  else if msixBase fn ≤ a ∧ a < msixBase fn + 16 * msixCount fn then 0xFFFFFFFF
  else 0

/-- A host write of bytes of one such dword. -/
def hostRegWrite (fn a v0 mask : Nat) (s : State) : State :=
  let v := (v0 &&& mask) ||| (hostWord s fn a &&& hostKeep fn a &&& (0xFFFFFFFF ^^^ mask))
  if a = 0x1080 then mbxCtrl fn v s
  else if a = 0x1084 then (if bit v 2 then s.setMbx { s.mbx fn with refused := false } else s)
  else if a = 0x2010 then (if bit v 31 then { s with host := { s.host with violValid := false } } else s)
  else if a = 0x10000 then { s with host := { s.host with cause := s.host.cause &&& ~~~(BitVec.ofNat 9 v) } }
  else if a = 0x10004 then setEnable s (BitVec.ofNat 9 v)
  else if a = 0x10008 then { s with host := { s.host with vec := v % 2048 } }
  else msixWrite fn ((a - msixBase fn) / 16) ((a - msixBase fn) % 16 / 4) v s

/-- HMB.ENTRY or HMB.DATA take bytes, unless a command is PENDING (R81). -/
def mbxWrite (fn off size value : Nat) (s : State) : State :=
  let m := s.mbx fn
  if m.state = 1 then s.violation 0x0B09 fn none off (value % 2 ^ 32)
  else if off < 0x1800 then
    let e := (m.entry.take (off - 0x1000) ++ toLe size value ++ m.entry.drop (off - 0x1000 + size)).take 128
    s.setMbx { m with entry := e }
  else s.setMbx { m with data := Mem.writeN m.data (off - 0x1800) ((toLe size value).take (0x2000 - off)) }

/-- A host write to a function's BAR0. One that spans a dword that may be written and one that is read-only or undefined is
discarded whole as violation 0x0B0B: neither R9 nor Table 03.14 says whether its good part takes effect (DESIGN CHOICE,
notes/assumptions/59.md). -/
def hostWrite (fn off size value : Nat) (s : State) : State :=
  if !(s.hostUp && s.fnExists fn) || s.host.d3.contains fn || size == 0 || decide (size > 4096) then s
  else if (pairIndex fn off).isSome then doorbell fn off size value s
  else if (0x1000 ≤ off ∧ off < 0x1080) ∨ (0x1800 ≤ off ∧ off < 0x2000) then mbxWrite fn off size value s
  else if (wordsOf off size).all (hostWritable fn) then
    (wordsOf off size).foldl (fun t a => hostRegWrite fn a (wordPart off size value a).1 (wordPart off size value a).2 t) s
  else s.violation 0x0B0B fn none off (value % 2 ^ 32)

/-- A poisoned host write is discarded and reported through AER; one to a doorbell or mailbox register is counted under
0x0B0B (R86). -/
def poisonedWrite (fn off value : Nat) (s : State) : State :=
  if !(s.hostUp && s.fnExists fn) || s.host.d3.contains fn then s
  else
    let s1 := { s with host := { s.host with aer := s.host.aer ||| aerPoisoned } }
    if (pairIndex fn off).isSome ∨ (0x1000 ≤ off ∧ off < 0x2000) then s1.violation 0x0B0B fn none off (value % 2 ^ 32) else s1

/-- REGISTER_WRITE: for a host function the address is the offset in its BAR0. -/
def registerWrite (w : Writer) (addr size value : Nat) (s : State) : State :=
  match w with
  | .host fn => hostWrite fn addr size value s
  | .hostPoisoned fn => poisonedWrite fn addr value s
  | _ =>
    if size = 0 ∨ size > 8 ∨ !(within addr 0x10000000 0x1014FFFF && within (addr + size - 1) 0x10000000 0x1014FFFF) then s
    else writeRegs w addr size value s

def execRegisterWrite (w : Writer) (addr size : Nat) (value : Nat) (s : State) : Outcome :=
  .next (registerWrite w addr size value s)

end Sys2Proof.Machine
end

