-- ==== Sys2Proof/Machine/Access.lean ====
section
/-! DEFINITION. An access of a master of the internal interconnect: the protection unit's check, the answer to a fault,
and what an access that passes reads or writes (R13, R14, R92, R347 to R351). -/

namespace Sys2Proof.Machine

open Sys2Proof

/-! ## Faults (R351, Table 15.3) -/

/-- The command whose shed holds an address. -/
def shedCmd (s : State) (a : Nat) : Option Cmd :=
  match loomAddr a with
  | some (n, x) => if x < 0x20000 then s.cmd? (.shed n (x / 0x1000)) else none
  | none => none

/-- The master's own answer: host DMA ends the command it served, the Luaka DMA re-establishes the link, the BIST
controller abandons its picks; the others answer outside the device's registers. -/
def faultAnswer (unit addr : Nat) (s : State) : State :=
  if 4 ≤ unit ∧ unit ≤ 7 then
    match shedCmd s addr with
    | some c => s.retire c 0xF001
    | none => s
  else if unit = 8 then relink 2 s
  else if unit = 11 then abandonPicks 3 s
  else s

def kindCode : AccKind → Nat
  | .read => 0
  | .write => 1
  | .fetch => 2

def accessFault (unit : Nat) (kind : AccKind) (user : Bool) (addr size cause region : Nat) (s : State) : State :=
  faultAnswer unit addr ((s.mpuFault unit cause (kindCode kind) user region addr size).send (.error addr))

/-! ## Memory (Table 01.2) -/

/-- The domain that holds the memory at an address. -/
def memDomain (a : Nat) : Option Nat :=
  if a < 0x40000 ∨ within a 0x01000000 0x017FFFFF then some 31
  else if inMram a then some 34
  else if within a 0x03000000 0x031FFFFF then some 25
  else (loomAddr a).map (fun x => x.1 + 1)

/-- The memory answers: its domain is on, and a steward reaches a shed only while its command is parked (R92). -/
def memOpen (s : State) (unit a : Nat) : Bool :=
  ((memDomain a).map s.powered).getD true &&
    (!(inSheds a && decide (unit ≤ 3)) || ((shedCmd s a).map (fun c => match c.phase with
      | .parked _ _ => true
      | _ => false)).getD false)

/-- Bytes of which the manual gives no contents: the configuration region, the lines of vendor drafts, a Luaka buffer that
holds a beat, a step cache that holds lines. What a master wrote there reads back; every other byte is a free value. -/
def openByte (s : State) (a : Nat) : Bool :=
  within a 0x02BC0000 0x02BEFFFF || within a 0x02A40000 (0x02A3FFFF + 256 * Config.vendorLines) ||
    (inStepCache a && ((loomAddr a).map (fun x => !(s.treadle x.1).lines.isEmpty)).getD false) ||
    (within a 0x03000000 0x031FFFFF && s.lk.beats.any (fun b => b.num % 2 == a / 0x100000 % 2))

def Mem.find (m : Mem) (a : Nat) : Option Byte := (m.find? (fun x => x.1 == a)).map (fun x => x.2)

/-- Byte `i` of a read, at an address. -/
def memByte (s : State) (a i : Nat) : Byte :=
  if a < 0x40000 then Config.bootRom a
  else if within a 0x02800000 0x029FFFFF then
    (((s.evr.log[a % 0x200000 / 32]?).map Rec.bytes).getD []).getD (a % 32) 0#8
  else if within a 0x02A00000 0x02A3FFFF then
    (((ringAt s (a % 0x40000 / 32)).map Rec.bytes).getD []).getD (a % 32) 0#8
  else if openByte s a then (s.mem.find a).getD (Config.freeByte (s.draw + i))
  else match loomAddr a with
    | some (_, x) => ((shedCmd s a).map (fun c => Mem.read c.mem (x % 0x1000))).getD 0#8
    | none => Mem.read s.mem a

/-- One byte written: to a shed, or to a memory that takes writes. -/
def memPut (s : State) (a : Nat) (b : Byte) : State :=
  if a < 0x40000 then s
  else match shedCmd s a with
    | some c => s.setCmd { c with mem := Mem.write c.mem (a % 0x1000) b }
    | none => if (loomAddr a).isSome then s else { s with mem := Mem.write s.mem a b }

/-! ## Accesses -/

/-- A unit's writer, as the register blocks see it. -/
def accessWriter (unit : Nat) (user : Bool) : Writer :=
  if unit ≤ 3 then .steward unit (!user) else if unit = 10 then .debug else .master unit

/-- An access that its unit passed. An address outside every region ends it all the same (R13). -/
def accessPass (unit : Nat) (kind : AccKind) (user : Bool) (addr size : Nat) (data : Bytes) (s : State) : State :=
  let as := (List.range size).map (fun i => addr + i)
  if !as.all mapped then accessFault unit kind user addr size 1 31 s
  else if within addr 0x10000000 0x1014FFFF then
    if kind = .write then writeRegs (accessWriter unit user) addr size (leNat (sl data 0 size)) s
    else (wordsOf addr size).foldl (fun t a => readReg a t) s
  else if !as.all (memOpen s unit) then s.send (.error addr)
  else if kind = .write then
    (List.range size).foldl (fun t i => memPut t (addr + i) ((data[i]?).getD 0#8)) s
  else (s.drawn size).send (.memRead addr ((List.range size).map (fun i => memByte s (addr + i) i)))

/-- The domain of the master behind a protection unit (Tables 01.1 and 15.1); the BIST controller is never switched. -/
def unitDomain (unit : Nat) : Option Nat :=
  if unit ≤ 3 then some (27 + unit)
  else if unit ≤ 7 then some 22
  else if unit = 8 then some 25 else if unit = 9 then some 26 else if unit = 10 then some 36 else none

/-- The master is powered. -/
def unitOn (s : State) (unit : Nat) : Bool := ((unitDomain unit).map s.powered).getD true

/-- MASTER_ACCESS. A master whose domain is off issues none. -/
def masterAccess (unit : Nat) (kind : AccKind) (user : Bool) (addr size : Nat) (data : Bytes) (s : State) : State :=
  if unit > 11 ∨ size = 0 ∨ size > 4096 ∨ !unitOn s unit then s
  else
    let u := user && decide (unit ≤ 3)
    match mpuCheck s unit kind u addr size with
    | some (cause, region) => accessFault unit kind u addr size cause region s
    | none => accessPass unit kind u addr size data s

def execMasterAccess (unit : Nat) (kind : AccKind) (user : Bool) (addr size : Nat) (data : Bytes) (s : State) : Outcome :=
  .next (masterAccess unit kind user addr size data s)

end Sys2Proof.Machine
end

