-- ==== Sys2Proof/Machine/Payment.lean ====
section
/-! DEFINITION. Payment operations and key blocks (chapter 08), RNG_GENERATE and HASH (R254). Checks that need no key
come first: the count, formats and reserved bytes, then lengths and the PAN (notes/assumptions/21.md). -/

namespace Sys2Proof.Machine

open Sys2Proof

/-! ## PAN strings and PIN blocks (R187, R190, R191) -/

/-- A PAN string of `lo` to `hi` digits. -/
def panOk (b : Bytes) (lo hi : Nat) : Bool :=
  let n := byteAt b 0
  let nb := nibbles (sl b 1 10)
  decide (lo ≤ n ∧ n ≤ hi) && (nb.take n).all (fun d => decide (d ≤ 9)) && (nb.drop n).all (fun d => d == 15)

def panOf (b : Bytes) : List Nat := (nibbles (sl b 1 10)).take (byteAt b 0)

/-- Key algorithms of a PIN block format (Table 08.3). -/
def pinMask (fmt : Nat) : Nat := if fmt = 4 then aesMask else tdesMask

/-- The PIN of an enciphered block, none when its check fails. -/
def pinDecipher (k : KeyInfo) (fmt : Nat) (block : Bytes) (pan : List Nat) : Option (List Nat) :=
  if fmt = 4 then
    let b := ecbDec k.alg k.mat (sl block 0 16)
    pinOfField 4 (ecbDec k.alg k.mat (xorBytes b (panField 4 pan)))
  else
    let b := ecbDec k.alg k.mat (sl block 0 8)
    pinOfField fmt (if fmt = 1 then b else xorBytes b (panField fmt pan))

/-- An enciphered block of a PIN. -/
def pinEncipher (k : KeyInfo) (fmt : Nat) (pin : List Nat) (fill : Bytes) (pan : List Nat) : Bytes :=
  let p := pinField fmt pin fill
  if fmt = 4 then ecbEnc k.alg k.mat (xorBytes (ecbEnc k.alg k.mat p) (panField 4 pan))
  else ecbEnc k.alg k.mat (if fmt = 1 then p else xorBytes p (panField fmt pan))

/-- Random bytes an outbound format needs. -/
def fillLen (fmt : Nat) : Nat := if fmt = 0 then 0 else 8

/-- Reserved inline bytes are zero. -/
def reserved (c : Cmd) (a n : Nat) : Bool := allZero (c.inlB a n)

/-- An 8-byte block leaves bytes 80-87 zero. -/
def blockPad (c : Cmd) (fmt : Nat) : Bool := fmt == 4 || reserved c 80 8

def panLow (fmts : List Nat) : Nat := if fmts.any (fun f => f != 1) then 12 else 0

/-- The translated block of a PIN, with its fill drawn. -/
def translateTo (s : State) (c : Cmd) (outKey : KeyInfo) (fo : Nat) (pin pan : List Nat) : State :=
  rowRandom s c (fillLen fo) (fun s1 fill => doneWith s1 c (sl (pinEncipher outKey fo pin fill pan) 0 (if fo = 4 then 16 else 8)) [])

/-- PIN_TRANSLATE (R191). -/
def pinTranslate (s : State) (c : Cmd) : State :=
  let fi := c.inl 88 1
  let fo := c.inl 89 1
  let pan := c.inlB 90 11
  if !countOk c 2 then badField s c 7
  else if !pinFormats.contains fi ∨ !pinFormats.contains fo then badField s c 3
  else if !reserved c 101 27 ∨ !blockPad c fi then badField s c 7
  else if !panOk pan (panLow [fi, fo]) 19 then badField s c 1
  else withKeys s c true [(0, 2, pinMask fi), (1, 1, pinMask fo)] (fun s1 c1 =>
    useKey s1 c1 0 (fun k0 => useKey s1 c1 1 (fun k1 =>
      match pinDecipher k0.key fi (c1.inlB 72 16) (panOf pan) with
      | none => badField s1 c1 2
      | some pin => translateTo s1 c1 k1.key fo pin (panOf pan))))

def execPinTranslate (n k : Nat) (s : State) : Outcome := .next (loomRow s n k 0x080 pinTranslate)

/-! ## PIN verification (R192-R194) -/

/-- The natural PIN: validation data enciphered, the first `l` nibbles decimalised. -/
def naturalPin (k : KeyInfo) (vdata tab : Bytes) (l : Nat) : List Nat :=
  let t := nibbles (sl tab 0 8)
  ((nibbles (ecbEnc k.alg k.mat (sl vdata 0 8))).take l).map (fun x => (t[x]?).getD 0)

/-- Nibbles of an offset or code: `l` decimal digits, then 0xF. -/
def digitsPadded (b : Bytes) (l : Nat) : Bool :=
  let nb := nibbles b
  (nb.take l).all (fun d => decide (d ≤ 9)) && (nb.drop l).all (fun d => d == 15)

/-- The parameters of the offset method (Table 08.5): the failing detail. -/
def offsetParams (c : Cmd) (verify : Bool) : Option Nat :=
  let f := c.inl 88 1
  let l := c.inl 89 1
  if !countOk c 2 then some 7
  else if !pinFormats.contains f then some 3
  else if !blockPad c f ∨ !reserved c 123 5 ∨ (nibbles (c.inlB 109 8)).any (fun d => decide (d > 9)) ∨
          (!verify ∧ !reserved c 117 6) then some 7
  else if l < 4 ∨ l > 12 then some 4
  else if verify ∧ !digitsPadded (c.inlB 117 6) l then some 7
  else if !panOk (c.inlB 90 11) (panLow [f]) 19 then some 1 else none

/-- The PIN and the natural PIN, once the keys are there. -/
def offsetRow (verify : Bool) (f : State → Cmd → List Nat → List Nat → State) (s : State) (c : Cmd) : State :=
  match offsetParams c verify with
  | some d => badField s c d
  | none =>
    let fmt := c.inl 88 1
    withKeys s c true [(0, 2, pinMask fmt), (1, 9, tdesMask)] (fun s1 c1 =>
      useKey s1 c1 0 (fun k0 => useKey s1 c1 1 (fun k1 =>
        match pinDecipher k0.key fmt (c1.inlB 72 16) (panOf (c1.inlB 90 11)) with
        | none => badField s1 c1 2
        | some pin =>
          if c1.inl 89 1 > pin.length then badField s1 c1 4
          else f s1 c1 pin (naturalPin k1.key (c1.inlB 101 8) (c1.inlB 109 8) (c1.inl 89 1)))))

def pinVerifyOffset : State → Cmd → State :=
  offsetRow true (fun s c pin nat =>
    let l := c.inl 89 1
    let off := (nibbles (c.inlB 117 6)).take l
    doneVerify s c (List.zipWith (fun n o => (n + o) % 10) nat off == pin.take l))

def pinOffsetGenerate : State → Cmd → State :=
  offsetRow false (fun s c pin nat =>
    let l := c.inl 89 1
    let off := List.zipWith (fun p n => (p + 10 - n % 10) % 10) (pin.take l) nat
    doneWith s c (sl (packNibbles (off ++ List.replicate (12 - l) 15)) 0 6 ++ [byte l]) [])

def execPinVerifyOffset (n k : Nat) (s : State) : Outcome := .next (loomRow s n k 0x081 pinVerifyOffset)
def execPinOffsetGenerate (n k : Nat) (s : State) : Outcome := .next (loomRow s n k 0x083 pinOffsetGenerate)

/-- The decimal digits of a block: its nibbles 0-9 in order, then 0xA-0xF less 10 (R193). -/
def decimalDigits (b : Bytes) : List Nat :=
  let nb := nibbles b
  nb.filter (fun x => decide (x ≤ 9)) ++ (nb.filter (fun x => decide (x > 9))).map (fun x => x - 10)

/-- The PIN verification value. -/
def pvvOf (k : KeyInfo) (pan : List Nat) (pvki : Nat) (pin : List Nat) : List Nat :=
  let tsp := (pan.drop (pan.length - 12)).take 11 ++ [pvki] ++ pin.take 4
  (decimalDigits (ecbEnc k.alg k.mat (sl (packNibbles tsp) 0 8))).take 4

def pvvParams (c : Cmd) (verify : Bool) : Option Nat :=
  let f := c.inl 88 1
  if !countOk c 2 then some 7
  else if !pinFormats.contains f then some 3
  else if !blockPad c f ∨ c.inl 89 1 > 6 ∨ !reserved c 103 25 ∨
          (if verify then (nibbles (c.inlB 101 2)).any (fun d => decide (d > 9)) else !reserved c 101 2) then some 7
  else if !panOk (c.inlB 90 11) 12 19 then some 1 else none

def pvvRow (verify : Bool) (f : State → Cmd → List Nat → State) (s : State) (c : Cmd) : State :=
  match pvvParams c verify with
  | some d => badField s c d
  | none =>
    let fmt := c.inl 88 1
    let pan := panOf (c.inlB 90 11)
    withKeys s c true [(0, 2, pinMask fmt), (1, 9, 16)] (fun s1 c1 =>
      useKey s1 c1 0 (fun k0 => useKey s1 c1 1 (fun k1 =>
        match pinDecipher k0.key fmt (c1.inlB 72 16) pan with
        | none => badField s1 c1 2
        | some pin => f s1 c1 (pvvOf k1.key pan (c1.inl 89 1) pin))))

def pinVerifyPvv : State → Cmd → State := pvvRow true (fun s c v => doneVerify s c (packNibbles v == c.inlB 101 2))
def pvvGenerate : State → Cmd → State := pvvRow false (fun s c v => doneWith s c (packNibbles v) [])

def execPinVerifyPvv (n k : Nat) (s : State) : Outcome := .next (loomRow s n k 0x082 pinVerifyPvv)
def execPvvGenerate (n k : Nat) (s : State) : Outcome := .next (loomRow s n k 0x084 pvvGenerate)

/-! ## Card verification codes (R195, R196) -/

def cvcOf (k : KeyInfo) (pan expiry service : List Nat) (n : Nat) : List Nat :=
  let ds := pan ++ expiry ++ service
  let b := sl (packNibbles (ds ++ List.replicate (32 - ds.length) 0)) 0 16
  (decimalDigits (macAlg3 k.mat b)).take n

def cvcParams (c : Cmd) (verify : Bool) : Option Nat :=
  let n := c.inl 87 1
  if !countOk c 1 ∨ !reserved c 91 37 ∨ (nibbles (c.inlB 83 2)).any (fun d => decide (d > 9)) ∨
     !digitsPadded (c.inlB 85 2) 3 ∨ (!verify ∧ !reserved c 88 3) then some 7
  else if n < 3 ∨ n > 5 then some 4
  else if verify ∧ !digitsPadded (c.inlB 88 3) n then some 7
  else if !panOk (c.inlB 72 11) 1 19 then some 1 else none

def cvcRow (verify : Bool) (f : State → Cmd → List Nat → State) (s : State) (c : Cmd) : State :=
  match cvcParams c verify with
  | some d => badField s c d
  | none => withKeys s c true [(0, 9, 16)] (fun s1 c1 => useKey s1 c1 0 (fun k =>
      f s1 c1 (cvcOf k.key (panOf (c1.inlB 72 11)) (nibbles (c1.inlB 83 2)) ((nibbles (c1.inlB 85 2)).take 3) (c1.inl 87 1))))

/-- A code of N digits, packed and padded with 0xF. -/
def codeBytes (v : List Nat) : Bytes := packNibbles (v ++ List.replicate (6 - v.length) 15)

def cvcGenerate : State → Cmd → State := cvcRow false (fun s c v => doneWith s c (codeBytes v) [])
def cvcVerify : State → Cmd → State := cvcRow true (fun s c v => doneVerify s c (codeBytes v == c.inlB 88 3))

def execCvcGenerate (n k : Nat) (s : State) : Outcome := .next (loomRow s n k 0x088 cvcGenerate)
def execCvcVerify (n k : Nat) (s : State) : Outcome := .next (loomRow s n k 0x089 cvcVerify)

/-! ## EMV (R197, R198) -/

/-- The EMV context: the rightmost 16 digits of PAN and PSN, the ATC and zeros. -/
def emvContext (pan : List Nat) (psn atc : Bytes) : Bytes :=
  let ds := pan ++ nibbles psn
  let r := ds.drop (ds.length - 16)
  sl (packNibbles (List.replicate (16 - r.length) 0 ++ r)) 0 8 ++ sl atc 0 2 ++ zeros 6

def emvParams (c : Cmd) : Option Nat :=
  let m := c.inl 72 1
  let n := c.inl 99 1
  if !countOk c 1 ∨ m ≥ 8 ∨ m % 4 = 3 ∨ (nibbles (c.inlB 73 1)).any (fun d => decide (d > 9)) ∨ c.inl 90 1 > 8 ∨
     !reserved c 110 18 then some 7
  else if n > 19 then some 1
  else if n > 16 then some 6
  else if !panOk (c.inlB 99 11) 1 16 then some 1 else none

def emvArqcVerify (s : State) (c : Cmd) : State :=
  match emvParams c with
  | some d => badField s c d
  | none => withKeys s c true [(0, 5, 0x1E)] (fun s1 c1 => useKey s1 c1 0 (fun k =>
      let m := c1.inl 72 1 % 4
      let ctx := emvContext (panOf (c1.inlB 99 11)) (c1.inlB 73 1) (c1.inlB 74 2)
      let arqc := c1.inlB 76 8
      if emvFunction k.key 0 (bit (c1.inl 72 1) 2) ctx (c1.own false) ≠ arqc then doneVerify s1 c1 false
      else if m = 0 then doneVerify s1 c1 true
      else if m = 1 then
        doneWith s1 c1 (emvFunction k.key 1 false ctx (arqc ++ c1.inlB 84 2) ++ [1#8]) []
      else
        let msg := arqc ++ c1.inlB 86 4 ++ c1.inlB 91 (c1.inl 90 1)
        doneWith s1 c1 (emvFunction k.key 2 false ctx msg ++ zeros 4 ++ [2#8]) []))

def execEmvArqcVerify (n k : Nat) (s : State) : Outcome := .next (loomRow s n k 0x090 emvArqcVerify)

/-! ## DUKPT (R201-R203) -/

/-- The working key of the initial key in register 0, into register 2. -/
def withDukpt (s : State) (c : Cmd) (t ksnOff ksnLenOff : Nat) (f : State → Cmd → KeyInfo → State) : State :=
  useKey s c 0 (fun init =>
    let l := c.inl ksnLenOff 1
    let ksn := c.inlB ksnOff l
    if l ≠ ksnLen init.key.alg ∨ !reserved c (ksnOff + l) (12 - l) ∨ !ksnOk init.key.alg ksn then badField s c 5
    else match c.key 2 with
      | some w => f s c w.key
      | none => match (getDukpt s c init 2 t ksn).keys s with
        | .stop s1 => s1
        | .ready s1 c1 => useKey s1 c1 2 (fun w => f s1 c1 w.key))

def dukptPinTranslate (s : State) (c : Cmd) : State :=
  let fi := c.inl 88 1
  let fo := c.inl 89 1
  let pan := c.inlB 90 11
  if !countOk c 2 then badField s c 7
  else if !pinFormats.contains fi ∨ !pinFormats.contains fo then badField s c 3
  else if !reserved c 114 14 ∨ !blockPad c fi then badField s c 7
  else if !panOk pan (panLow [fi, fo]) 19 then badField s c 1
  else withKeys s c true [(0, 4, 0x1E), (1, 1, pinMask fo)] (fun s1 c1 =>
    useKey s1 c1 0 (fun k0 =>
      if isAes k0.key.alg ≠ (fi == 4) then badField s1 c1 3
      else withDukpt s1 c1 0 102 101 (fun s2 c2 w =>
        useKey s2 c2 1 (fun k1 =>
          match pinDecipher w fi (c2.inlB 72 16) (panOf pan) with
          | none => badField s2 c2 2
          | some pin => translateTo s2 c2 k1.key fo pin (panOf pan)))))

def dukptDecrypt (s : State) (c : Cmd) : State :=
  let m := c.inl 72 1
  if !countOk c 1 ∨ m > 2 ∨ !reserved c 86 2 ∨ !reserved c 104 24 ∨ (m ≠ 1 ∧ !reserved c 88 16) then badField s c 7
  else withKeys s c true [(0, 4, 0x1E)] (fun s1 c1 =>
    withDukpt s1 c1 2 74 73 (fun s2 c2 w =>
      let x := c2.own false
      let n := blockLen w.alg
      if x.length % n ≠ 0 then badLength s2 c2
      else if m = 1 ∧ isTdes w.alg ∧ !reserved c2 96 8 then badField s2 c2 7
      else
        let iv := if m = 1 then c2.inlB 88 n else zeros n
        doneWith s2 c2 [] (if m = 2 then ecbDec w.alg w.mat x else cbcDec w.alg w.mat iv x)))

def dukptMacVerify (s : State) (c : Cmd) : State :=
  let ml := c.inl 72 1
  if !countOk c 1 ∨ ml < 4 ∨ ml > 16 ∨ !reserved c 86 42 then badField s c 7
  else withKeys s c true [(0, 4, 0x1E)] (fun s1 c1 =>
    withDukpt s1 c1 1 74 73 (fun s2 c2 w =>
      let x := c2.own false
      if isTdes w.alg ∧ ml > 8 then badField s2 c2 7
      else if x.length ≤ ml then badLength s2 c2
      else
        let msg := x.drop ml
        let mac := if isAes w.alg then macCmac w.alg w.mat msg else macAlg3 w.mat (padMsg 1 8 msg)
        doneVerify s2 c2 (sl mac 0 ml == x.take ml)))

def execDukptPinTranslate (n k : Nat) (s : State) : Outcome := .next (loomRow s n k 0x0A0 dukptPinTranslate)
def execDukptDecrypt (n k : Nat) (s : State) : Outcome := .next (loomRow s n k 0x0A1 dukptDecrypt)
def execDukptMacVerify (n k : Nat) (s : State) : Outcome := .next (loomRow s n k 0x0A2 dukptMacVerify)

/-! ## MACs (R200) -/

def macMask (m : Nat) : Nat := if m = 0 then 0x3E else if m = 1 then 0x10 else 0x40

/-- The full MAC of a method over a message. -/
def fullMac (m pad : Nat) (k : KeyInfo) (msg : Bytes) : Bytes :=
  if m = 0 then macCmac k.alg k.mat msg else if m = 1 then macAlg3 k.mat (padMsg pad 8 msg) else macHmac k.mat msg

def macParams (c : Cmd) : Option Nat :=
  let m := c.inl 72 1
  let p := c.inl 73 1
  let ml := c.inl 74 1
  if !countOk c 1 ∨ m > 2 ∨ !reserved c 75 53 ∨ (if m = 1 then p ≠ 1 ∧ p ≠ 2 else p ≠ 0) ∨
     (if m = 2 then ml < 16 ∨ ml > 64 else ml < 4 ∨ ml > 16) then some 7 else none

def macRow (usage : Nat) (verify : Bool) (s : State) (c : Cmd) : State :=
  match macParams c with
  | some d => badField s c d
  | none =>
    let m := c.inl 72 1
    let ml := c.inl 74 1
    let x := c.own false
    let lead := if verify then ml else 0
    if x.length < lead + (if m = 1 then 1 else 0) then badLength s c
    else withKeys s c true [(0, usage, macMask m)] (fun s1 c1 => useKey s1 c1 0 (fun k =>
      let full := fullMac m (c1.inl 73 1) k.key (x.drop lead)
      if ml > full.length then badField s1 c1 7
      else if verify then doneVerify s1 c1 (full.take ml == x.take ml)
      else if ml ≤ 16 then doneWith s1 c1 (full.take ml) []
      else doneWith s1 c1 [] (full.take ml)))

def execMacGenerate (n k : Nat) (s : State) : Outcome := .next (loomRow s n k 0x0C0 (macRow 5 false))
def execMacVerify (n k : Nat) (s : State) : Outcome := .next (loomRow s n k 0x0C1 (macRow 6 true))

/-! ## Key blocks (R210-R213) -/

/-- The header of the key block that a reference carries, once it is in the device. -/
def refBlock (c : Cmd) (i : Nat) : Option Bytes :=
  let r := c.kref i
  if r.typ = 2 then some (c.rd (0x100 + r.word) r.len)
  else if r.typ = 3 then (c.ptrs.find? (fun p => p.1 == i)).map (fun p => p.2)
  else none

/-- The usage a draft demands for a key of any usage (R212): the first its block's mode permits, the object's, the
record's or the entry's own. -/
def ownUsage (s : State) (c : Cmd) (i : Nat) : Nat :=
  let r := c.kref i
  if r.typ = 1 then ((s.liveObj c.part r.word).map (fun o => byteAt (s.objBody o) 2)).getD 1
  else if r.typ = 4 then byteAt (c.rd (0x100 + r.len) 32) 1
  else if r.typ = 5 then ((handleWay s c.part r.long).map (fun w => w.key.usage)).getD 1
  else match refBlock c i with
    | none => 1
    | some b => ((usageEntry (sl b 5 2) (byte (byteAt b 7)) (byte (byteAt b 8))).bind (fun x => x.2.head?)).getD 1

def isBlockRef (c : Cmd) (i : Nat) : Bool := (c.kref i).typ == 2 || (c.kref i).typ == 3

/-- The attribute record of R130. -/
def attrRecord (flags name version notAfter limit : Nat) : Bytes :=
  [byte flags] ++ zeros 3 ++ toLe 8 name ++ toLe 4 version ++ toLe 6 notAfter ++ zeros 2 ++ toLe 4 limit ++ zeros 4

def kbImport (s : State) (c : Cmd) : State :=
  if c.krefs ≠ 2 ∨ !isBlockRef c 0 ∨ !reserved c 73 3 ∨ !reserved c 84 44 then badField s c 7
  else withKeys s c false [(0, c.inl 72 1, c.inl 76 4)] (fun s1 c1 => useKey s1 c1 0 (fun k =>
    let lim := c1.inl 80 4
    let attr := attrRecord (b2n k.key.exportable + 2 * b2n (lim != 0)) k.key.name k.key.version k.key.notAfter lim
    rowStore s1 c1 k attr (fun h => doneWith s1 c1 (toLe 4 h) [])))

def execKbImport (n k : Nat) (s : State) : Outcome := .next (loomRow s n k 0x040 kbImport)

def expChars : List Byte := [chr 'E', chr 'N', chr 'S']

def kbExport (s : State) (c : Cmd) : State :=
  let ku := c.inlB 72 2
  let e := byte (c.inl 74 1)
  if c.krefs ≠ 2 ∨ !reserved c 75 53 ∨ !expChars.contains e then badField s c 7
  else withKeys s c false [(0, ownUsage s c 0, anyAlg), (1, 3, wrapMask)] (fun s1 c1 =>
    useKey s1 c1 0 (fun k => useKey s1 c1 1 (fun w =>
      if isRsa k.key.alg then s1.retire c1 0x2001
      else if !kuPairs ku k.key.alg k.key.usage ∨ k.key.version > 99 then badField s1 c1 7
      else if !exportOk s1 c1 k then (countPolicy s1).retire c1 0x2001
      else rowRandom (countPolicy s1) c1 (exportPad w.key k.key) (fun s2 pad =>
        let b := exportBlock w.key k.key ku e pad
        doneWith s2 c1 (toLe 2 b.length) b))))

def execKbExport (n k : Nat) (s : State) : Outcome := .next (loomRow s n k 0x041 kbExport)

/-- KB_TRANSLATE: the block's header once more, for the elements the new block keeps. -/
def kbTranslate (s : State) (c : Cmd) : State :=
  if c.krefs ≠ 3 ∨ !isBlockRef c 0 ∨ !reserved c 72 56 then badField s c 7
  else withKeys s c false [(0, ownUsage s c 0, anyAlg), (1, 3, wrapMask)] (fun s1 c1 =>
    useKey s1 c1 0 (fun k => useKey s1 c1 1 (fun w =>
      match (refBlock c1 0).map kbHeader with
      | some (.ok h) =>
        if h.exp ≠ chr 'E' ∨ !policyOk s1 c1 k.key.name k.key.usage k.key.alg roleExport then
          (countPolicy s1).retire c1 0x2001
        else rowRandom (countPolicy s1) c1 (exportPad w.key k.key) (fun s2 pad =>
          let b := kbBuild w.key.alg w.key.mat h.usage h.alg h.mode h.kver h.exp
            (h.opts.filter (fun o => o.1 != ascii "PB")) k.key.alg k.key.mat pad
          if b.length > 3072 then badLength s2 c1 else doneWith s2 c1 (toLe 2 b.length) b)
      | _ => s1.retire c1 0x3002)))

def execKbTranslate (n k : Nat) (s : State) : Outcome := .next (loomRow s n k 0x043 kbTranslate)

/-- Where a draft keeps what it has formed until its commit is written: the shed's work area. -/
def stash (c : Cmd) (b : Bytes) : Cmd := (c.wr 0x200 b).setV 0 b.length
def stashed (c : Cmd) : Bytes := c.rd 0x200 (c.v 0)

/-- Parameters of KB_GENERATE; ASYM_GENERATE has other algorithms and usages (R213, R236). -/
def generateParams (c : Cmd) (algOk : Bool) : Bool :=
  let fl := c.inl 77 1
  let e := byte (c.inl 76 1)
  decide (1 ≤ fl ∧ fl ≤ 3) && algOk && reserved c 78 2 && reserved c 102 26 && expChars.contains e &&
    (c.krefs == if bit fl 1 then 1 else 0) &&
    (!bit fl 1 || (kuPairs (c.inlB 74 2) (c.inl 72 1) (c.inl 73 1) && decide (c.inl 88 4 ≤ 99)))

/-- The generated key with the attributes of the inline parameters. -/
def generateInfo (c : Cmd) (m : Bytes) : KeyInfo :=
  { generatedKey (c.inl 72 1) (c.inl 73 1) m with name := c.inl 80 8, version := c.inl 88 4, notAfter := c.inl 92 6 }

def generateAttr (c : Cmd) : Bytes :=
  attrRecord (b2n (c.inl 76 1 == (chr 'E').toNat) + 2 * b2n (c.inl 98 4 != 0)) (c.inl 80 8) (c.inl 88 4) (c.inl 92 6) (c.inl 98 4)

/-- The block of a key just generated, into the work area: EXPORT under the KBPK of register 0 (R213). -/
def generateExport (s : State) (c : Cmd) (k : KeyInfo) (lead : Bytes) (f : State → Cmd → State) : State :=
  if !bit (c.inl 77 1) 1 then f s (stash c lead)
  else useKey s c 0 (fun w =>
    if !policyOk s c k.name k.usage k.alg roleExport then (countPolicy s).retire c 0x2001
    else rowRandom (countPolicy s) c (exportPad w.key k) (fun s1 pad =>
      f s1 (stash c (lead ++ exportBlock w.key k (c.inlB 74 2) (byte (c.inl 76 1)) pad))))

/-- STORE when its flag is set, then the reply. -/
def generateStore (s : State) (c : Cmd) (reg : Nat) (f : Nat → Cmd → State) : State :=
  if !bit (c.inl 77 1) 0 then f 0 c
  else useKey s c reg (fun k => rowStore s c k (generateAttr c) (fun h => f h c))

/-- KB_GENERATE: KBPK, key into register 1, block, commit, reply. -/
def kbGenerate (s : State) (c : Cmd) : State :=
  let alg := c.inl 72 1
  let usage := c.inl 73 1
  let reply := fun (t : State) (h : Nat) (x : Cmd) =>
    let b := stashed x
    doneWith t x (toLe 4 h ++ toLe 2 b.length) b
  if !generateParams c (decide (1 ≤ alg ∧ alg ≤ 6) && (usagesOf alg).contains usage) then badField s c 7
  else match c.phase with
    | .committed h => reply s h c
    | _ => withKeys s c false (if bit (c.inl 77 1) 1 then [(0, 3, wrapMask)] else []) (fun s1 c1 =>
        rowRandom s1 c1 (matLen alg) (fun s2 m =>
          let k := generateInfo c1 m
          let r := placeNew (s2.drawn 32) c1 (generatedAsk s2 1 k) k
          generateExport r.1 r.2.1 k [] (fun s3 c3 => generateStore s3 c3 1 (fun h x => reply s3 h x))))

def execKbGenerate (n k : Nat) (s : State) : Outcome := .next (loomRow s n k 0x042 kbGenerate)

/-! ## RNG_GENERATE and HASH (R254) -/

def rngGenerate (s : State) (c : Cmd) : State :=
  let n := c.inl 72 4
  let al := c.inl 76 1
  if !reserved c 77 3 ∨ !reserved c 112 16 then badField s c 7
  else if n < 1 ∨ n > 3072 ∨ al > 32 then badLength s c
  else rowRandomWith s c n (c.inlB 80 al) (fun s1 b => doneWith s1 c [] b)

def execRngGenerate (n k : Nat) (s : State) : Outcome := .next (loomRow s n k 0x180 rngGenerate)

def hashRow (s : State) (c : Cmd) : State :=
  let h := c.inl 72 1
  if h < 1 ∨ h > 3 ∨ !reserved c 73 55 then badField s c 7
  else withKeys s c true [] (fun s1 c1 => doneWith s1 c1 [] (digestOf h (c1.own false)))

def execHash (n k : Nat) (s : State) : Outcome := .next (loomRow s n k 0x190 hashRow)

end Sys2Proof.Machine
end

