-- ==== Sys2Proof/Machine/Asym.lean ====
section
/-! DEFINITION. The asymmetric opcodes (R231-R237, Table 09.5). -/

namespace Sys2Proof.Machine

open Sys2Proof

/-- The draft has not yet handed its job over. -/
def Cmd.fresh (c : Cmd) : Bool :=
  match c.phase with
  | .bnDone _ _ _ => false
  | _ => true

/-- Keys resolved; a symmetric core is needed only to hash, before the job. -/
def asymKeys (s : State) (c : Cmd) (hash : Bool) (l : List (Nat × Nat × Nat)) (f : State → Cmd → State) : State :=
  withKeys s c (hash && c.fresh) l f

/-- The digest an opcode works on: supplied (hash 0) or computed. -/
def digestFor (h : Nat) (x : Bytes) : Bytes := if h = 0 then x else digestOf h x

/-- A supplied digest has one of the three lengths. -/
def digestLenOk (h : Nat) (x : Bytes) : Bool := h != 0 || [32, 48, 64].contains x.length

/-- Reference count of a verify opcode that may carry its public key. -/
def verifyCount (c : Cmd) : Bool := c.krefs == 0 || countOk c 1

/-! ## Ed25519 and X25519 -/

def ed25519Sign (s : State) (c : Cmd) : State :=
  if !countOk c 1 then badField s c 7
  else asymKeys s c false [(0, 7, 2 ^ 7)] (fun s1 c1 => useKey s1 c1 0 (fun k =>
    rowJob s1 c1 { op := 1, size := 0, pss := false, alg := 7, key := k.key.mat, operand := c1.own false, record := [] }
      (fun _ out => doneWith s1 c1 [] out)))

/-- The verification job and its answer. -/
def verifyJob (s : State) (c : Cmd) (r : BnReq) : State := rowJob s c r (fun f _ => doneVerify s c (!f))

def ed25519Verify (s : State) (c : Cmd) : State :=
  let own := c.own false
  let req := fun (key : Bytes) => { op := 2, size := 0, pss := false, alg := 7, key := key, operand := own, record := [] : BnReq }
  if !verifyCount c then badField s c 7
  else if own.length < 64 then badLength s c
  else if c.krefs = 0 then verifyJob s c (req (c.inlB 72 32))
  else asymKeys s c false [(0, 8, 2 ^ 7)] (fun s1 c1 => useKey s1 c1 0 (fun k => verifyJob s1 c1 (req k.key.mat)))

/-- A key formed by a job goes into register `reg`; the reply names its cache entry. -/
def giveKey (s : State) (c : Cmd) (q : Ask) (k : KeyInfo) (n : Nat) : State :=
  let r := placeNew s c q k
  match (r.2.1.key q.reg).bind (handleResult r.1) with
  | none => noHandle r.1 r.2.1
  | some (s1, b) => doneWith s1 r.2.1 (sl b 0 n) []

def x25519Agree (s : State) (c : Cmd) : State :=
  let rec_ := c.own false
  if !countOk c 1 then badField s c 7
  else if rec_.length ≠ 32 then badLength s c
  else asymKeys s c false [(0, 4, 2 ^ 8)] (fun s1 c1 => useKey s1 c1 0 (fun p =>
    let u := peerU (c1.inlB 72 32)
    match deriveKey s1 c1.part { p.key with level := 1 } rec_ with
    | none => s1.retire c1 0x1003
    | some child =>
      let s2 := if c1.fresh then countPolicy s1 else s1
      if c1.fresh ∧ !policyOk s1 c1 child.name child.usage child.alg (roleUse + roleImport) then s2.retire c1 0x2001
      else rowJob s2 c1 { op := 3, size := 0, pss := false, alg := 8, key := p.key.mat, operand := u, record := rec_ }
        (fun _ z => match agreedKey s2 c1.part p.key z rec_ with
          | none => s2.retire c1 0x1003
          | some k => giveKey s2 c1 (agreeAsk p 1 u rec_ k) k 10)))

def execEd25519Sign (n k : Nat) (s : State) : Outcome := .next (loomRow s n k 0x100 ed25519Sign)
def execEd25519Verify (n k : Nat) (s : State) : Outcome := .next (loomRow s n k 0x101 ed25519Verify)
def execX25519Agree (n k : Nat) (s : State) : Outcome := .next (loomRow s n k 0x108 x25519Agree)

/-! ## Public keys -/

def publicReq (k : KeyInfo) : BnReq :=
  { op := 8, size := if k.alg = 10 then 1 else rsaSizeOf k.alg, pss := false, alg := k.alg, key := k.mat, operand := [],
    record := [] }

def asymPublic (s : State) (c : Cmd) : State :=
  if !countOk c 1 then badField s c 7
  else asymKeys s c false [(0, ownUsage s c 0, 0x3F80)] (fun s1 c1 => useKey s1 c1 0 (fun k =>
    if !publicOk k.key then s1.retire c1 0x2002
    else rowJob s1 c1 (publicReq k.key) (fun _ out => doneWith s1 c1 (toLe 2 out.length) out)))

def execAsymPublic (n k : Nat) (s : State) : Outcome := .next (loomRow s n k 0x10F asymPublic)

/-! ## ECDSA -/

def ecdsaSign (size : Nat) (s : State) (c : Cmd) : State :=
  let h := c.inl 72 1
  let x := c.own false
  if !countOk c 1 ∨ h > 3 then badField s c 7
  else if !digestLenOk h x then badLength s c
  else asymKeys s c (h != 0) [(0, 7, 2 ^ ecAlg size)] (fun s1 c1 => useKey s1 c1 0 (fun k =>
    rowJob s1 c1 { op := 4, size := size, pss := false, alg := ecAlg size, key := k.key.mat, operand := digestFor h x,
                   record := [] } (fun _ out => doneWith s1 c1 [] out)))

/-- Signature and message are split off the extended data, and the digest put before the signature as the step takes
them. -/
def ecdsaVerify (size : Nat) (s : State) (c : Cmd) : State :=
  let h := c.inl 72 1
  let kl := if c.krefs = 0 then c.inl 73 1 else 0
  let w := if size = 1 then 96 else 64
  let own := c.own false
  let sig := sl own kl w
  let x := own.drop (kl + w)
  let req := fun (key : Bytes) =>
    { op := 5, size := size, pss := false, alg := ecAlg size, key := key, operand := digestFor h x ++ sig, record := [] : BnReq }
  if !verifyCount c ∨ h > 3 then badField s c 7
  else if own.length < kl + w ∨ !digestLenOk h x then badLength s c
  else if c.krefs = 0 then asymKeys s c (h != 0) [] (fun s1 c1 => verifyJob s1 c1 (req (own.take kl)))
  else asymKeys s c (h != 0) [(0, 8, 2 ^ ecAlg size)] (fun s1 c1 => useKey s1 c1 0 (fun k => verifyJob s1 c1 (req k.key.mat)))

def execEcdsaSignP256 (n k : Nat) (s : State) : Outcome := .next (loomRow s n k 0x110 (ecdsaSign 0))
def execEcdsaSignP384 (n k : Nat) (s : State) : Outcome := .next (loomRow s n k 0x111 (ecdsaSign 1))
def execEcdsaVerifyP256 (n k : Nat) (s : State) : Outcome := .next (loomRow s n k 0x112 (ecdsaVerify 0))
def execEcdsaVerifyP384 (n k : Nat) (s : State) : Outcome := .next (loomRow s n k 0x113 (ecdsaVerify 1))

/-! ## RSA signatures -/

def rsaSign (size : Nat) (s : State) (c : Cmd) : State :=
  let h := c.inl 72 1
  let x := c.own false
  if c.krefs ≠ 2 ∨ h > 3 ∨ c.inl 73 1 > 1 then badField s c 7
  else if !digestLenOk h x then badLength s c
  else asymKeys s c (h != 0) [(0, 7, 2 ^ (11 + size))] (fun s1 c1 => useKey s1 c1 0 (fun k =>
    rowJob s1 c1 { op := 6, size := size, pss := c.inl 73 1 == 1, alg := 11 + size, key := k.key.mat,
                   operand := digestFor h x, record := [] } (fun _ out => doneWith s1 c1 [] out)))

def rsaVerify (size : Nat) (s : State) (c : Cmd) : State :=
  let h := c.inl 72 1
  let w := sigBytes size
  let kl := if c.krefs = 0 then 4 + w else 0
  let own := c.own false
  let x := own.drop (kl + w)
  let req := fun (key : Bytes) =>
    { op := 7, size := size, pss := c.inl 73 1 == 1, alg := 11 + size, key := key,
      operand := digestFor h x ++ sl own kl w, record := [] : BnReq }
  if (c.krefs ≠ 0 ∧ c.krefs ≠ 2) ∨ h > 3 ∨ c.inl 73 1 > 1 then badField s c 7
  else if own.length < kl + w ∨ !digestLenOk h x then badLength s c
  else if c.krefs = 0 then asymKeys s c (h != 0) [] (fun s1 c1 => verifyJob s1 c1 (req (own.take kl)))
  else asymKeys s c (h != 0) [(0, 8, 2 ^ (11 + size))] (fun s1 c1 =>
    useKey s1 c1 0 (fun k => verifyJob s1 c1 (req k.key.mat)))

def execRsaSign2048 (n k : Nat) (s : State) : Outcome := .next (loomRow s n k 0x120 (rsaSign 0))
def execRsaSign3072 (n k : Nat) (s : State) : Outcome := .next (loomRow s n k 0x121 (rsaSign 1))
def execRsaSign4096 (n k : Nat) (s : State) : Outcome := .next (loomRow s n k 0x122 (rsaSign 2))
def execRsaVerify2048 (n k : Nat) (s : State) : Outcome := .next (loomRow s n k 0x124 (rsaVerify 0))
def execRsaVerify3072 (n k : Nat) (s : State) : Outcome := .next (loomRow s n k 0x125 (rsaVerify 1))
def execRsaVerify4096 (n k : Nat) (s : State) : Outcome := .next (loomRow s n k 0x126 (rsaVerify 2))

/-! ## RSA key transport (R234) -/

def rsaKeyWrap (size : Nat) (s : State) (c : Cmd) : State :=
  if c.krefs ≠ 3 then badField s c 7
  else asymKeys s c false [(0, ownUsage s c 0, 0x7E), (1, 3, 2 ^ (11 + size))] (fun s1 c1 =>
    useKey s1 c1 0 (fun k => useKey s1 c1 1 (fun w =>
      let s2 := if c1.fresh then countPolicy s1 else s1
      if w.key.rsaPriv then s1.retire c1 0x2002
      else if c1.fresh ∧ !exportOk s1 c1 k then s2.retire c1 0x2001
      else rowJob s2 c1 { op := 0x20, size := size, pss := false, alg := 11 + size, key := w.key.mat,
                          operand := k.key.mat, record := transportRecord k.key } (fun _ out => doneWith s2 c1 [] out))))

def rsaKeyUnwrap (size : Nat) (s : State) (c : Cmd) : State :=
  let b := c.own false
  let w := sigBytes size
  if c.krefs ≠ 2 then badField s c 7
  else if b.length ≠ w + 32 then badLength s c
  else asymKeys s c false [(0, 3, 2 ^ (11 + size))] (fun s1 c1 => useKey s1 c1 0 (fun p =>
    if !p.key.rsaPriv then s1.retire c1 0x2002
    else rowJob s1 c1 { op := 0x21, size := size, pss := false, alg := 11 + size, key := p.key.mat, operand := b.take w,
                        record := b.drop w } (fun _ m =>
      match transportKey s1 c1 (b.drop w) m with
      | .error st => s1.retire c1 st
      | .ok k => giveKey (countPolicy s1) c1 (transportAsk p 2 b k) k 8)))

def execRsaKeyWrap2048 (n k : Nat) (s : State) : Outcome := .next (loomRow s n k 0x128 (rsaKeyWrap 0))
def execRsaKeyWrap3072 (n k : Nat) (s : State) : Outcome := .next (loomRow s n k 0x129 (rsaKeyWrap 1))
def execRsaKeyWrap4096 (n k : Nat) (s : State) : Outcome := .next (loomRow s n k 0x12A (rsaKeyWrap 2))
def execRsaKeyUnwrap2048 (n k : Nat) (s : State) : Outcome := .next (loomRow s n k 0x12C (rsaKeyUnwrap 0))
def execRsaKeyUnwrap3072 (n k : Nat) (s : State) : Outcome := .next (loomRow s n k 0x12D (rsaKeyUnwrap 1))
def execRsaKeyUnwrap4096 (n k : Nat) (s : State) : Outcome := .next (loomRow s n k 0x12E (rsaKeyUnwrap 2))

/-! ## Generation (R236, R237) -/

/-- The public key of a private key, as the twins compute it. -/
def publicOf (k : KeyInfo) : Bytes :=
  match bnCompute (publicReq k) [] with
  | .done _ b => b
  | _ => []

/-- ASYM_GENERATE: KBPK, job, key into register 1, block, commit, reply. The public key comes first in the reply. -/
def asymGenerate (s : State) (c : Cmd) : State :=
  let alg := c.inl 72 1
  let reply := fun (t : State) (h : Nat) (x : Cmd) =>
    let b := stashed x
    doneWith t x (toLe 4 h ++ toLe 2 (publicLen alg) ++ toLe 2 (b.length - publicLen alg)) b
  if !generateParams c (decide (7 ≤ alg ∧ alg ≤ 10) && generateUsage alg (c.inl 73 1)) then badField s c 7
  else match c.phase with
    | .committed h => reply s h c
    | _ => asymKeys s c false (if bit (c.inl 77 1) 1 then [(0, 3, wrapMask)] else []) (fun s1 c1 =>
        rowJob s1 c1 { op := 9, size := 0, pss := false, alg := alg, key := [], operand := [], record := [] } (fun _ m =>
          let k := generateInfo c1 m
          let r := placeNew (s1.drawn 32) c1 (generatedAsk s1 1 k) k
          generateExport r.1 r.2.1 k (publicOf k) (fun s3 c3 => generateStore s3 c3 1 (fun h x => reply s3 h x))))

def execAsymGenerate (n k : Nat) (s : State) : Outcome := .next (loomRow s n k 0x130 asymGenerate)

def rsaGenerate (size : Nat) (s : State) (c : Cmd) : State :=
  let ku := c.inlB 72 2
  let head := c.inlB 72 3 ++ c.inlB 80 18
  if c.krefs ≠ 1 ∨ !(ku == ascii "S0" || ku == ascii "D1") ∨ !expChars.contains (byte (c.inl 74 1)) ∨ !reserved c 75 5 ∨
     !reserved c 98 30 ∨ c.inl 88 4 > 99 then badField s c 7
  else asymKeys s c false [(0, 3, wrapMask)] (fun s1 c1 => useKey s1 c1 0 (fun w =>
    rowJob s1 c1 { op := 9, size := size, pss := false, alg := 11 + size, key := [], operand := [], record := head }
      (fun _ m =>
        let pad := fieldPad (versionOf w.key.alg) (11 + size) m
        let b := rsaBlock w.key (11 + size) head m (s1.draws pad)
        doneWith (s1.drawn pad) c1 (toLe 2 b.length) b)))

def execRsaGenerate2048 (n k : Nat) (s : State) : Outcome := .next (loomRow s n k 0x134 (rsaGenerate 0))
def execRsaGenerate3072 (n k : Nat) (s : State) : Outcome := .next (loomRow s n k 0x135 (rsaGenerate 1))
def execRsaGenerate4096 (n k : Nat) (s : State) : Outcome := .next (loomRow s n k 0x136 (rsaGenerate 2))

end Sys2Proof.Machine
end

