-- ==== Sys2Proof/Machine/Dispatch.lean ====
section
/-! DEFINITION. The meaning of each command, one arm a command. -/

namespace Sys2Proof.Machine

def exec (i : Instr) (s : State) : Host.Outcome State Fault Refusal :=
  match i with
  | .doorbellSqTail fn off size value => Sys2Proof.Machine.execDoorbellSqTail fn off size value s
  | .doorbellCqHead fn off size value => Sys2Proof.Machine.execDoorbellCqHead fn off size value s
  | .sqEntryFetched q entries => Sys2Proof.Machine.execSqEntryFetched q entries s
  | .sqFetchFailed q => Sys2Proof.Machine.execSqFetchFailed q s
  | .hostReadError p addr => Sys2Proof.Machine.execHostReadError p addr s
  | .hostReadTimeout t addr => Sys2Proof.Machine.execHostReadTimeout t addr s
  | .hostWriteRefused p addr => Sys2Proof.Machine.execHostWriteRefused p addr s
  | .schedAdmit => Sys2Proof.Machine.execSchedAdmit s
  | .extDataFetched p data => Sys2Proof.Machine.execExtDataFetched p data s
  | .keyBlockPointerRead p ref data => Sys2Proof.Machine.execKeyBlockPointerRead p ref data s
  | .mbxGo fn value => Sys2Proof.Machine.execMbxGo fn value s
  | .mbxAck fn value => Sys2Proof.Machine.execMbxAck fn value s
  | .mbxStatusRead fn => Sys2Proof.Machine.execMbxStatusRead fn s
  | .functionD3hotEntry fn => Sys2Proof.Machine.execFunctionD3hotEntry fn s
  | .functionD0Return fn => Sys2Proof.Machine.execFunctionD0Return fn s
  | .vfFlr fn => Sys2Proof.Machine.execVfFlr fn s
  | .vfEnableClear => Sys2Proof.Machine.execVfEnableClear s
  | .pcieReset => Sys2Proof.Machine.execPcieReset s
  | .registerWrite w addr size value => Sys2Proof.Machine.execRegisterWrite w addr size value s
  | .moveCopy n k a => Sys2Proof.Machine.execMoveCopy n k a s
  | .moveXor n k a => Sys2Proof.Machine.execMoveXor n k a s
  | .moveAnd n k a => Sys2Proof.Machine.execMoveAnd n k a s
  | .moveFill n k a => Sys2Proof.Machine.execMoveFill n k a s
  | .moveLoadv n k a => Sys2Proof.Machine.execMoveLoadv n k a s
  | .moveGetv n k a => Sys2Proof.Machine.execMoveGetv n k a s
  | .movePutv n k a => Sys2Proof.Machine.execMovePutv n k a s
  | .moveAddv n k a => Sys2Proof.Machine.execMoveAddv n k a s
  | .moveSetf n k a => Sys2Proof.Machine.execMoveSetf n k a s
  | .cmpEqCt n k a => Sys2Proof.Machine.execCmpEqCt n k a s
  | .cmpMag n k a => Sys2Proof.Machine.execCmpMag n k a s
  | .cmpTestv n k a => Sys2Proof.Machine.execCmpTestv n k a s
  | .cmpCmpv n k a => Sys2Proof.Machine.execCmpCmpv n k a s
  | .cmpRangev n k a => Sys2Proof.Machine.execCmpRangev n k a s
  | .symEcbEnc n k a => Sys2Proof.Machine.execSymEcbEnc n k a s
  | .symEcbDec n k a => Sys2Proof.Machine.execSymEcbDec n k a s
  | .symCbcEnc n k a => Sys2Proof.Machine.execSymCbcEnc n k a s
  | .symCbcDec n k a => Sys2Proof.Machine.execSymCbcDec n k a s
  | .symCtr n k a => Sys2Proof.Machine.execSymCtr n k a s
  | .symCodeEcb n k a => Sys2Proof.Machine.execSymCodeEcb n k a s
  | .symCodeCbc n k a => Sys2Proof.Machine.execSymCodeCbc n k a s
  | .symMacGen n k a => Sys2Proof.Machine.execSymMacGen n k a s
  | .symMacVerify n k a => Sys2Proof.Machine.execSymMacVerify n k a s
  | .symHmac n k a => Sys2Proof.Machine.execSymHmac n k a s
  | .symHmacVerify n k a => Sys2Proof.Machine.execSymHmacVerify n k a s
  | .symSha256 n k a => Sys2Proof.Machine.execSymSha256 n k a s
  | .symSha512 n k a => Sys2Proof.Machine.execSymSha512 n k a s
  | .keyGet n k a => Sys2Proof.Machine.execKeyGet n k a s
  | .keyUnwrap n k a => Sys2Proof.Machine.execKeyUnwrap n k a s
  | .keyWrap n k a => Sys2Proof.Machine.execKeyWrap n k a s
  | .keyDerive n k a => Sys2Proof.Machine.execKeyDerive n k a s
  | .keyDukpt n k a => Sys2Proof.Machine.execKeyDukpt n k a s
  | .keyGenerate n k a => Sys2Proof.Machine.execKeyGenerate n k a s
  | .keyStore n k a => Sys2Proof.Machine.execKeyStore n k a s
  | .keyRelease n k a => Sys2Proof.Machine.execKeyRelease n k a s
  | .routePanLookup n k a => Sys2Proof.Machine.execRoutePanLookup n k a s
  | .routePolicyLookup n k a => Sys2Proof.Machine.execRoutePolicyLookup n k a s
  | .fmtPanField n k a => Sys2Proof.Machine.execFmtPanField n k a s
  | .fmtPinDecode n k a => Sys2Proof.Machine.execFmtPinDecode n k a s
  | .fmtPinEncode n k a => Sys2Proof.Machine.execFmtPinEncode n k a s
  | .fmtDecimalise n k a => Sys2Proof.Machine.execFmtDecimalise n k a s
  | .fmtBcdPack n k a => Sys2Proof.Machine.execFmtBcdPack n k a s
  | .fmtBcdUnpack n k a => Sys2Proof.Machine.execFmtBcdUnpack n k a s
  | .fmtPad n k a => Sys2Proof.Machine.execFmtPad n k a s
  | .fmtTlvFind n k a => Sys2Proof.Machine.execFmtTlvFind n k a s
  | .randGen n k a => Sys2Proof.Machine.execRandGen n k a s
  | .bnEdSign n k a => Sys2Proof.Machine.execBnEdSign n k a s
  | .bnEdVerify n k a => Sys2Proof.Machine.execBnEdVerify n k a s
  | .bnX25519 n k a => Sys2Proof.Machine.execBnX25519 n k a s
  | .bnEcSign n k a => Sys2Proof.Machine.execBnEcSign n k a s
  | .bnEcVerify n k a => Sys2Proof.Machine.execBnEcVerify n k a s
  | .bnRsaSign n k a => Sys2Proof.Machine.execBnRsaSign n k a s
  | .bnRsaVerify n k a => Sys2Proof.Machine.execBnRsaVerify n k a s
  | .bnPublic n k a => Sys2Proof.Machine.execBnPublic n k a s
  | .bnGenerate n k a => Sys2Proof.Machine.execBnGenerate n k a s
  | .doneRetire n k a => Sys2Proof.Machine.execDoneRetire n k a s
  | .excService n k a => Sys2Proof.Machine.execExcService n k a s
  | .stepCacheLineFilled n k ecc => Sys2Proof.Machine.execStepCacheLineFilled n k ecc s
  | .trdExcpop w n value => Sys2Proof.Machine.execTrdExcpop w n value s
  | .trdResume w n value => Sys2Proof.Machine.execTrdResume w n value s
  | .bnJobPlace => Sys2Proof.Machine.execBnJobPlace s
  | .bnYieldPoint job => Sys2Proof.Machine.execBnYieldPoint job s
  | .bnJobResume job => Sys2Proof.Machine.execBnJobResume job s
  | .bnJobEnd job differ ecc => Sys2Proof.Machine.execBnJobEnd job differ ecc s
  | .bnContextScrubbed core ctx zero => Sys2Proof.Machine.execBnContextScrubbed core ctx zero s
  | .bnStarvePromote job => Sys2Proof.Machine.execBnStarvePromote job s
  | .bnKeygenLimit job candidates => Sys2Proof.Machine.execBnKeygenLimit job candidates s
  | .kcFillDone bank bucket way => Sys2Proof.Machine.execKcFillDone bank bucket way s
  | .kcSweepPassStart => Sys2Proof.Machine.execKcSweepPassStart s
  | .kcSweepVisit => Sys2Proof.Machine.execKcSweepVisit s
  | .kcWalkDone => Sys2Proof.Machine.execKcWalkDone s
  | .journalCommitDone => Sys2Proof.Machine.execJournalCommitDone s
  | .sequenceReservationDurable => Sys2Proof.Machine.execSequenceReservationDurable s
  | .journalRelocate => Sys2Proof.Machine.execJournalRelocate s
  | .rtUpdateSettled policy => Sys2Proof.Machine.execRtUpdateSettled policy s
  | .rtParityCopy policy => Sys2Proof.Machine.execRtParityCopy policy s
  | .teardownAbortPoint part => Sys2Proof.Machine.execTeardownAbortPoint part s
  | .admissionDrainTimeout => Sys2Proof.Machine.execAdmissionDrainTimeout s
  | .nonceExpiry part value => Sys2Proof.Machine.execNonceExpiry part value s
  | .quorumVerifyDone p => Sys2Proof.Machine.execQuorumVerifyDone p s
  | .resetPowerOn => Sys2Proof.Machine.execResetPowerOn s
  | .resetSag rail intervalUs => Sys2Proof.Machine.execResetSag rail intervalUs s
  | .rstreqWarm w value => Sys2Proof.Machine.execRstreqWarm w value s
  | .wdtKick w ix value => Sys2Proof.Machine.execWdtKick w ix value s
  | .watchdogExpiry ix => Sys2Proof.Machine.execWatchdogExpiry ix s
  | .perstInAssert => Sys2Proof.Machine.execPerstInAssert s
  | .resetRelease => Sys2Proof.Machine.execResetRelease s
  | .startupRailsOk => Sys2Proof.Machine.execStartupRailsOk s
  | .rootPllLock external => Sys2Proof.Machine.execRootPllLock external s
  | .lbistComplete failing => Sys2Proof.Machine.execLbistComplete failing s
  | .bootImageVerified a b => Sys2Proof.Machine.execBootImageVerified a b s
  | .loomEnterService n failing => Sys2Proof.Machine.execLoomEnterService n failing s
  | .hstReadySet => Sys2Proof.Machine.execHstReadySet s
  | .pdctlWrite w reg value => Sys2Proof.Machine.execPdctlWrite w reg value s
  | .powerDomainSwitched => Sys2Proof.Machine.execPowerDomainSwitched s
  | .loomDrainDone n => Sys2Proof.Machine.execLoomDrainDone n s
  | .loomDrainTimeout n => Sys2Proof.Machine.execLoomDrainTimeout n s
  | .tamperSample r => Sys2Proof.Machine.execTamperSample r s
  | .tamperComparatorTrip input refLost => Sys2Proof.Machine.execTamperComparatorTrip input refLost s
  | .zeroiseHoldRelease => Sys2Proof.Machine.execZeroiseHoldRelease s
  | .batPowerOn => Sys2Proof.Machine.execBatPowerOn s
  | .batSupplySwitch onVbat => Sys2Proof.Machine.execBatSupplySwitch onVbat s
  | .vbatMeasure mv => Sys2Proof.Machine.execVbatMeasure mv s
  | .sagWarning rails => Sys2Proof.Machine.execSagWarning rails s
  | .pfailAssert => Sys2Proof.Machine.execPfailAssert s
  | .sagWarningClear durationUs => Sys2Proof.Machine.execSagWarningClear durationUs s
  | .thermWarnChange temp => Sys2Proof.Machine.execThermWarnChange temp s
  | .actInChange low => Sys2Proof.Machine.execActInChange low s
  | .claimGuardExpiry => Sys2Proof.Machine.execClaimGuardExpiry s
  | .claimReread => Sys2Proof.Machine.execClaimReread s
  | .claimCheck => Sys2Proof.Machine.execClaimCheck s
  | .contentionHigh10us => Sys2Proof.Machine.execContentionHigh10us s
  | .contentionTimeout => Sys2Proof.Machine.execContentionTimeout s
  | .activeInterlockLow => Sys2Proof.Machine.execActiveInterlockLow s
  | .soloWaitExpiry => Sys2Proof.Machine.execSoloWaitExpiry s
  | .heartbeatLoss => Sys2Proof.Machine.execHeartbeatLoss s
  | .beatClose => Sys2Proof.Machine.execBeatClose s
  | .helloTimer => Sys2Proof.Machine.execHelloTimer s
  | .luakaLaneTimeout => Sys2Proof.Machine.execLuakaLaneTimeout s
  | .luakaHello payload => Sys2Proof.Machine.execLuakaHello payload s
  | .luakaBeatData f => Sys2Proof.Machine.execLuakaBeatData f s
  | .luakaBeatEnd f => Sys2Proof.Machine.execLuakaBeatEnd f s
  | .luakaBeatAck f => Sys2Proof.Machine.execLuakaBeatAck f s
  | .luakaSnapData f => Sys2Proof.Machine.execLuakaSnapData f s
  | .luakaSnapEnd f => Sys2Proof.Machine.execLuakaSnapEnd f s
  | .luakaInSync f => Sys2Proof.Machine.execLuakaInSync f s
  | .luakaTime f rxNs => Sys2Proof.Machine.execLuakaTime f rxNs s
  | .luakaHandover f => Sys2Proof.Machine.execLuakaHandover f s
  | .luakaLeave f => Sys2Proof.Machine.execLuakaLeave f s
  | .pairBeginTimeout => Sys2Proof.Machine.execPairBeginTimeout s
  | .ceremonyInterlockTimeout => Sys2Proof.Machine.execCeremonyInterlockTimeout s
  | .timeCounterTick => Sys2Proof.Machine.execTimeCounterTick s
  | .ptTimeCapture => Sys2Proof.Machine.execPtTimeCapture s
  | .ptpAnnounce m => Sys2Proof.Machine.execPtpAnnounce m s
  | .ptpSync m => Sys2Proof.Machine.execPtpSync m s
  | .ptpFollowUp m => Sys2Proof.Machine.execPtpFollowUp m s
  | .ptpDelayResp m => Sys2Proof.Machine.execPtpDelayResp m s
  | .ptpIgnoredMessage => Sys2Proof.Machine.execPtpIgnoredMessage s
  | .ppsInEdge ns => Sys2Proof.Machine.execPpsInEdge ns s
  | .ppsInLoss => Sys2Proof.Machine.execPpsInLoss s
  | .timeSourceTimeout => Sys2Proof.Machine.execTimeSourceTimeout s
  | .holdoverLimit => Sys2Proof.Machine.execHoldoverLimit s
  | .standbyTimeExchange => Sys2Proof.Machine.execStandbyTimeExchange s
  | .rngBlockConditioned samples => Sys2Proof.Machine.execRngBlockConditioned samples s
  | .rngHealthFailure source test samples => Sys2Proof.Machine.execRngHealthFailure source test samples s
  | .rngTestPassDone samples kat us => Sys2Proof.Machine.execRngTestPassDone samples kat us s
  | .rngEstimateBlock source samples => Sys2Proof.Machine.execRngEstimateBlock source samples s
  | .rngReseedWaitTimeout ix => Sys2Proof.Machine.execRngReseedWaitTimeout ix s
  | .rngRawTimeout => Sys2Proof.Machine.execRngRawTimeout s
  | .dbgChallengeRead => Sys2Proof.Machine.execDbgChallengeRead s
  | .dbgSubmit w value => Sys2Proof.Machine.execDbgSubmit w value s
  | .dbgCtrlEnd w value => Sys2Proof.Machine.execDbgCtrlEnd w value s
  | .dbgGrantExpiry => Sys2Proof.Machine.execDbgGrantExpiry s
  | .stewardHalt ix op => Sys2Proof.Machine.execStewardHalt ix op s
  | .bscanInstruction ix => Sys2Proof.Machine.execBscanInstruction ix s
  | .tapReset => Sys2Proof.Machine.execTapReset s
  | .lcGo w value => Sys2Proof.Machine.execLcGo w value s
  | .lcProg w value => Sys2Proof.Machine.execLcProg w value s
  | .otpWordProgrammed => Sys2Proof.Machine.execOtpWordProgrammed s
  | .lcTransitionResetTimer => Sys2Proof.Machine.execLcTransitionResetTimer s
  | .masterAccess unit kind user addr size data => Sys2Proof.Machine.execMasterAccess unit kind user addr size data s
  | .mpuSwap w ix => Sys2Proof.Machine.execMpuSwap w ix s
  | .mpuLock w ix => Sys2Proof.Machine.execMpuLock w ix s
  | .mpuRegionWrite w addr value => Sys2Proof.Machine.execMpuRegionWrite w addr value s
  | .bistSlotPeriod slot => Sys2Proof.Machine.execBistSlotPeriod slot s
  | .bistReq w value => Sys2Proof.Machine.execBistReq w value s
  | .bistUnitIdle slot => Sys2Proof.Machine.execBistUnitIdle slot s
  | .bistIsolateTimeout slot => Sys2Proof.Machine.execBistIsolateTimeout slot s
  | .bistPatternsDone slot misr => Sys2Proof.Machine.execBistPatternsDone slot misr s
  | .bistUnitRestored slot kat => Sys2Proof.Machine.execBistUnitRestored slot kat s
  | .eventRecord => Sys2Proof.Machine.execEventRecord s
  | .optimeStore => Sys2Proof.Machine.execOptimeStore s
  | .smbReceiveByte => Sys2Proof.Machine.execSmbReceiveByte s
  | .smbStatus => Sys2Proof.Machine.execSmbStatus s
  | .smbTemp => Sys2Proof.Machine.execSmbTemp s
  | .smbVbat => Sys2Proof.Machine.execSmbVbat s
  | .smbLcState => Sys2Proof.Machine.execSmbLcState s
  | .smbId => Sys2Proof.Machine.execSmbId s
  | .smbVpd => Sys2Proof.Machine.execSmbVpd s
  | .smbAlertResponse => Sys2Proof.Machine.execSmbAlertResponse s
  | .smbSclTimeout => Sys2Proof.Machine.execSmbSclTimeout s
  | .partCreate ix => Sys2Proof.Machine.execPartCreate ix s
  | .partModify ix => Sys2Proof.Machine.execPartModify ix s
  | .partTeardown ix => Sys2Proof.Machine.execPartTeardown ix s
  | .partQuery ix => Sys2Proof.Machine.execPartQuery ix s
  | .partSetAccessKey ix => Sys2Proof.Machine.execPartSetAccessKey ix s
  | .partEnableOpcodes ix => Sys2Proof.Machine.execPartEnableOpcodes ix s
  | .partSetCachePolicy ix => Sys2Proof.Machine.execPartSetCachePolicy ix s
  | .rtRouteUpdate ix => Sys2Proof.Machine.execRtRouteUpdate ix s
  | .rtPolicyUpdate ix => Sys2Proof.Machine.execRtPolicyUpdate ix s
  | .rtRouteLayout ix => Sys2Proof.Machine.execRtRouteLayout ix s
  | .rtQuery ix => Sys2Proof.Machine.execRtQuery ix s
  | .rtSetLimits ix => Sys2Proof.Machine.execRtSetLimits ix s
  | .qCreate ix => Sys2Proof.Machine.execQCreate ix s
  | .qDelete ix => Sys2Proof.Machine.execQDelete ix s
  | .qBind ix => Sys2Proof.Machine.execQBind ix s
  | .qUnbind ix => Sys2Proof.Machine.execQUnbind ix s
  | .qQuery ix => Sys2Proof.Machine.execQQuery ix s
  | .cmdCancel ix => Sys2Proof.Machine.execCmdCancel ix s
  | .pairBegin ix => Sys2Proof.Machine.execPairBegin ix s
  | .pairSetPolicy ix => Sys2Proof.Machine.execPairSetPolicy ix s
  | .pairQuery ix => Sys2Proof.Machine.execPairQuery ix s
  | .pairSwitchover ix => Sys2Proof.Machine.execPairSwitchover ix s
  | .pairDissolve ix => Sys2Proof.Machine.execPairDissolve ix s
  | .draftLoad ix => Sys2Proof.Machine.execDraftLoad ix s
  | .draftUnload ix => Sys2Proof.Machine.execDraftUnload ix s
  | .draftSignerSet ix => Sys2Proof.Machine.execDraftSignerSet ix s
  | .draftQuery ix => Sys2Proof.Machine.execDraftQuery ix s
  | .kcLoad n k => Sys2Proof.Machine.execKcLoad n k s
  | .kcFlush ix => Sys2Proof.Machine.execKcFlush ix s
  | .kcQuery ix => Sys2Proof.Machine.execKcQuery ix s
  | .qrNonce ix => Sys2Proof.Machine.execQrNonce ix s
  | .custSet ix => Sys2Proof.Machine.execCustSet ix s
  | .custQuery ix => Sys2Proof.Machine.execCustQuery ix s
  | .tmpConfig ix => Sys2Proof.Machine.execTmpConfig ix s
  | .tmpQuery ix => Sys2Proof.Machine.execTmpQuery ix s
  | .tmpAck ix => Sys2Proof.Machine.execTmpAck ix s
  | .iomSet ix => Sys2Proof.Machine.execIomSet ix s
  | .kbImport n k => Sys2Proof.Machine.execKbImport n k s
  | .kbExport n k => Sys2Proof.Machine.execKbExport n k s
  | .kbGenerate n k => Sys2Proof.Machine.execKbGenerate n k s
  | .kbTranslate n k => Sys2Proof.Machine.execKbTranslate n k s
  | .objQuery n k => Sys2Proof.Machine.execObjQuery n k s
  | .objDelete n k => Sys2Proof.Machine.execObjDelete n k s
  | .pinTranslate n k => Sys2Proof.Machine.execPinTranslate n k s
  | .pinVerifyOffset n k => Sys2Proof.Machine.execPinVerifyOffset n k s
  | .pinVerifyPvv n k => Sys2Proof.Machine.execPinVerifyPvv n k s
  | .pinOffsetGenerate n k => Sys2Proof.Machine.execPinOffsetGenerate n k s
  | .pvvGenerate n k => Sys2Proof.Machine.execPvvGenerate n k s
  | .cvcGenerate n k => Sys2Proof.Machine.execCvcGenerate n k s
  | .cvcVerify n k => Sys2Proof.Machine.execCvcVerify n k s
  | .emvArqcVerify n k => Sys2Proof.Machine.execEmvArqcVerify n k s
  | .dukptPinTranslate n k => Sys2Proof.Machine.execDukptPinTranslate n k s
  | .dukptDecrypt n k => Sys2Proof.Machine.execDukptDecrypt n k s
  | .dukptMacVerify n k => Sys2Proof.Machine.execDukptMacVerify n k s
  | .macGenerate n k => Sys2Proof.Machine.execMacGenerate n k s
  | .macVerify n k => Sys2Proof.Machine.execMacVerify n k s
  | .ed25519Sign n k => Sys2Proof.Machine.execEd25519Sign n k s
  | .ed25519Verify n k => Sys2Proof.Machine.execEd25519Verify n k s
  | .x25519Agree n k => Sys2Proof.Machine.execX25519Agree n k s
  | .asymPublic n k => Sys2Proof.Machine.execAsymPublic n k s
  | .ecdsaSignP256 n k => Sys2Proof.Machine.execEcdsaSignP256 n k s
  | .ecdsaSignP384 n k => Sys2Proof.Machine.execEcdsaSignP384 n k s
  | .ecdsaVerifyP256 n k => Sys2Proof.Machine.execEcdsaVerifyP256 n k s
  | .ecdsaVerifyP384 n k => Sys2Proof.Machine.execEcdsaVerifyP384 n k s
  | .rsaSign2048 n k => Sys2Proof.Machine.execRsaSign2048 n k s
  | .rsaSign3072 n k => Sys2Proof.Machine.execRsaSign3072 n k s
  | .rsaSign4096 n k => Sys2Proof.Machine.execRsaSign4096 n k s
  | .rsaVerify2048 n k => Sys2Proof.Machine.execRsaVerify2048 n k s
  | .rsaVerify3072 n k => Sys2Proof.Machine.execRsaVerify3072 n k s
  | .rsaVerify4096 n k => Sys2Proof.Machine.execRsaVerify4096 n k s
  | .rsaKeyWrap2048 n k => Sys2Proof.Machine.execRsaKeyWrap2048 n k s
  | .rsaKeyWrap3072 n k => Sys2Proof.Machine.execRsaKeyWrap3072 n k s
  | .rsaKeyWrap4096 n k => Sys2Proof.Machine.execRsaKeyWrap4096 n k s
  | .rsaKeyUnwrap2048 n k => Sys2Proof.Machine.execRsaKeyUnwrap2048 n k s
  | .rsaKeyUnwrap3072 n k => Sys2Proof.Machine.execRsaKeyUnwrap3072 n k s
  | .rsaKeyUnwrap4096 n k => Sys2Proof.Machine.execRsaKeyUnwrap4096 n k s
  | .asymGenerate n k => Sys2Proof.Machine.execAsymGenerate n k s
  | .rsaGenerate2048 n k => Sys2Proof.Machine.execRsaGenerate2048 n k s
  | .rsaGenerate3072 n k => Sys2Proof.Machine.execRsaGenerate3072 n k s
  | .rsaGenerate4096 n k => Sys2Proof.Machine.execRsaGenerate4096 n k s
  | .rngGenerate n k => Sys2Proof.Machine.execRngGenerate n k s
  | .hash n k => Sys2Proof.Machine.execHash n k s
  | .ptSetConfig ix => Sys2Proof.Machine.execPtSetConfig ix s
  | .ptQuery ix => Sys2Proof.Machine.execPtQuery ix s
  | .bistQuery ix => Sys2Proof.Machine.execBistQuery ix s
  | .bistPick ix => Sys2Proof.Machine.execBistPick ix s
  | .bistSetPace ix => Sys2Proof.Machine.execBistSetPace ix s
  | .evrSetExport ix => Sys2Proof.Machine.execEvrSetExport ix s
  | .rngRawEnter ix => Sys2Proof.Machine.execRngRawEnter ix s
  | .rngRawRead ix => Sys2Proof.Machine.execRngRawRead ix s
  | .rngRawExit ix => Sys2Proof.Machine.execRngRawExit ix s
  | .rngHealthQuery ix => Sys2Proof.Machine.execRngHealthQuery ix s
  | .evrRead ix => Sys2Proof.Machine.execEvrRead ix s
  | .evrClear ix => Sys2Proof.Machine.execEvrClear ix s
  | .bbRead ix => Sys2Proof.Machine.execBbRead ix s
  | .bbRelease ix => Sys2Proof.Machine.execBbRelease ix s
  | .attestDevice ix => Sys2Proof.Machine.execAttestDevice ix s
  | .attestPartition ix => Sys2Proof.Machine.execAttestPartition ix s
  | .lcTransition ix => Sys2Proof.Machine.execLcTransition ix s
  | .lcQuery ix => Sys2Proof.Machine.execLcQuery ix s
  | .dbgAuthorise ix => Sys2Proof.Machine.execDbgAuthorise ix s
  | .dbgEnd ix => Sys2Proof.Machine.execDbgEnd ix s
  | .lcEndorse ix => Sys2Proof.Machine.execLcEndorse ix s
  | .fwStage ix => Sys2Proof.Machine.execFwStage ix s
  | .lcRollbackAdvance ix => Sys2Proof.Machine.execLcRollbackAdvance ix s
  | .customerDraftCommand n k => Sys2Proof.Machine.execCustomerDraftCommand n k s
  | .luakaLaneLoss lane => Sys2Proof.Machine.execLuakaLaneLoss lane s
  | .luakaPeerViolation f => Sys2Proof.Machine.execLuakaPeerViolation f s
  | .smbControllerViolation command act => Sys2Proof.Machine.execSmbControllerViolation command act s
  | .pcieConfigurationRequest r => Sys2Proof.Machine.execPcieConfigurationRequest r s
  | .pcieLinkUp => Sys2Proof.Machine.execPcieLinkUp s

end Sys2Proof.Machine
end

