-- ==== Sys2Proof/Safety.lean ====
section
/-! DEFINITION. The terms in which claims speak of a safe run: the invariant of every state, and when a command row
acts: a draft step, an opcode of a loom, an opcode of a steward context. -/

namespace Sys2Proof.Machine

open Sys2Proof

/-- The invariant that every step keeps: the RAM of the internal map is in its canonical form. -/
def State.Inv (s : State) : Prop := s.mem.wf = true

/-- A draft step can run in shed `k` of loom `n` on command `c`: the command is ready and not aborted, its line is in
the step cache without an uncorrectable error (R104), fewer than 8,192 steps have run, and no reserved field of the step is
set (R95, R106). -/
abbrev StepReady (s : State) (n k : Nat) (c : Cmd) (a : StepArgs) : Prop :=
  s.cmd? (.shed n k) = some c ∧ c.phase = .ready ∧ c.abort = false ∧ s.lineSound n c = true ∧ c.count < 8192 ∧
    a.rsv = false ∧ a.br.toNat ≤ 3

/-- The state after a step of shed `k` that returns flags `u`: one more step counted, the command with its results, its flags
saved and its next step chosen (R94, Table 04.5). -/
def State.stepTo (s : State) (n k : Nat) (c : Cmd) (a : StepArgs) (u : BitVec 4) : State :=
  (s.countStep n k).setCmd (c.advance a u)

/-- The key register a step reads holds key `k` with the usage and one of the algorithms the step demands (R98), and its
cache entry has no uncorrectable error (R160). -/
abbrev KeyReady (s : State) (c : Cmd) (reg usage : Nat) (algs : List Nat) (k : KReg) : Prop :=
  regKey c reg usage algs = some k ∧ regEcc s k = none

/-- A symmetric core of the command's loom can be granted (R99). -/
abbrev CoreReady (s : State) (c : Cmd) : Prop := symAvail s c = .granted

/-- The draft state after a step that waits: the step counted, the command parked with the step in progress (R102). -/
def State.parkTo (s : State) (n k : Nat) (c : Cmd) (a : StepArgs) (ph : Phase) : State :=
  (s.countStep n k).setCmd { c with phase := ph, pend := some a }

/-- A group of the job's kind could be formed, and a private-key job can have its random numbers (R218, R221). -/
abbrev BnReady (s : State) (r : BnReq) : Prop :=
  formable (coreIn s) (bnKind r) = true ∧ (bnKind r = 1 ∨ s.rngOff = false)

/-- The state with a job of the command appended to the bignum engine's waiting jobs (R102, R218). -/
def State.bnQueued (s : State) (c : Cmd) (r : BnReq) : State :=
  { s with bn := { s.bn with
      jobs := s.bn.jobs ++ [newJob s c r]
      nextJob := s.bn.nextJob + 1 } }

/-- What the end of a job gives its draft step: REJECTED ends the command with its status, a result lets the step end, a key
generation goes on with another candidate or ends with a failed consistency test (R237). -/
def State.jobResult (s : State) (j : Job) (c : Cmd) (a : StepArgs) : BnRes → State
  | .rejected =>
    let s1 := failJob s j 0x4001
    { s1 with bn := { s1.bn with rejects := (s1.bn.rejects + 1) % 2 ^ 32 } }
  | .again => nextCandidate s j
  | .fault => failJob s j 0x7001
  | .done flag out => bnStepDone (endJob s j) c a j.req flag out

/-- The frame that a LUAKA row brings, as sent, and the type of frame the row is for. -/
def frameRow : Instr → Option (Nat × Wire)
  | .luakaBeatData f => some (0x02, f)
  | .luakaBeatEnd f => some (0x03, f)
  | .luakaBeatAck f => some (0x04, f)
  | .luakaSnapData f => some (0x05, f)
  | .luakaSnapEnd f => some (0x06, f)
  | .luakaInSync f => some (0x07, f)
  | .luakaTime f _ => some (0x08, f)
  | .luakaHandover f => some (0x09, f)
  | .luakaLeave f => some (0x0A, f)
  | _ => none

/-- A frame of an established link that violates nothing (Tables 12.2, 12.9): received, sound, of the row's type, in
sequence, and permitted from its sender; opened, it is `f`. -/
abbrev FrameReady (s : State) (typ : Nat) (w : Wire) (f : Frame) : Prop :=
  s.opened w = f ∧ s.receiving = true ∧ frameSound s w = true ∧ f.typ = typ ∧ f.seq = s.lk.rxSeq ∧ s.lk.up = true ∧
    permitted s f = true

/-- The state once a frame has been taken: its sequence number is used and it is counted. -/
def State.frameTaken (s : State) : State :=
  s.modLk (fun l => { l with rxSeq := l.rxSeq + 1, rx := (l.rx + 1) % 2 ^ 32 })

/-- What the end of a verification does to the command in place `p` that demanded `d`: accepted, it goes on with its
quorum; refused, it ends with the reason and the token's index (R262, R264, R268). -/
def State.quorumEnds (s : State) (c : Cmd) (d : Demand) : Except (Nat × Nat) (Nat × Nat) → State
  | .ok (set, mask) =>
    (({ s with qr := { s.qr with accepted := (s.qr.accepted + 1) % 2 ^ 32 } } : State).raise 0x0901 set c.opcode
      (((s.part? set).map (fun x => x.custVer)).getD 0) mask).setCmd { c with quorum := some (set, mask), phase := .ready }
  | .error (n, i) =>
    failDetail (({ s with qr := { s.qr with refused := (s.qr.refused + 1) % 2 ^ 32 } } : State).raise 0x0902
      ((d.sets.head?).getD 0) c.opcode n i) c (quorumStatus n) [byte n, byte i]

/-- The command of steward context `i` can run its body: admitted with the opcode, a steward core runs, and no abort is
asked for (R88). -/
abbrev StewardReady (s : State) (i op : Nat) (c : Cmd) : Prop :=
  s.cmd? (.ctx i) = some c ∧ c.opcode = op ∧ s.stewardsUp = true ∧ (c.phase = .ready ∨ c.phase = .waitStaging) ∧
    c.abort = false

/-- The command waits for the verification of its quorum (R264). -/
def State.quorumWaits (s : State) (c : Cmd) : State :=
  { s.setCmd { c with phase := .waitQuorum } with
    qr := { s.qr with waiting := s.qr.waiting ++ [c.place],
                      verifying := if s.qr.waiting = [] then some c.place else s.qr.verifying } }

/-- The state after a committed change: `t` holds the change; the record and the command's duplicate record are mirrored in
one beat, and the command, stamped in `s`, is DONE (R75, R284, R286, R287). -/
def State.changed (s t : State) (c : Cmd) (typ part : Nat) (body inline : Bytes) : State :=
  (t.commitFor ((s.stamped c).setInline 0 (sl inline 0 16)) (sl inline 0 16) typ part body).retireWith
    ((s.stamped c).setInline 0 (sl inline 0 16)) 0 false false []

/-- The state with partition record `p` in the place of the one of its ID. -/
def State.putPart (s : State) (p : Part) : State :=
  { s with parts := updWhere (fun x => x.id == p.id) (fun _ => p) s.parts }

/-- The phases in which a vendor draft of KIND LOOM goes on when its row is sent: ready, a commit written, a bignum result to
hand. -/
def rowPhase : Phase → Bool
  | .ready => true
  | .committed _ => true
  | .bnDone _ _ _ => true
  | _ => false

/-- The command in shed `k` of loom `n` can go on with the draft of its opcode. -/
abbrev LoomReady (s : State) (n k op : Nat) (c : Cmd) : Prop :=
  s.cmd? (.shed n k) = some c ∧ c.opcode = op ∧ c.abort = false ∧ rowPhase c.phase = true

/-- The draft has resolved the references `l` into its registers, in state `s1` with command `c1`. -/
abbrev KeysIn (s : State) (c : Cmd) (l : List (Nat × Nat × Nat)) (s1 : State) (c1 : Cmd) : Prop := needKeys s c l = .ready s1 c1

/-- Register `reg` of the command holds key `k`, and its cache entry has no uncorrectable error (R160). -/
abbrev RegReady (s : State) (c : Cmd) (reg : Nat) (k : KReg) : Prop := c.key reg = some k ∧ regEcc s k = none

/-- The command waits for the bignum job `r` that it has handed over (R102, R218). -/
def State.jobWaits (s : State) (c : Cmd) (r : BnReq) : State :=
  (s.bnQueued c r).setCmd { c with phase := .waitBn s.bn.nextJob }

/-- The end of an RSA unwrap (R234): the transported key enters register 2, or its record is refused. -/
def State.unwrapped (s : State) (c : Cmd) (p : KReg) (b : Bytes) : Except Nat KeyInfo → State
  | .error st => s.retire c st
  | .ok k => giveKey (countPolicy s) c (transportAsk p 2 b k) k 8

/-- The loom, shed and fields of a draft-step row. -/
def stepRow : Instr → Option (Nat × Nat × StepArgs)
  | .moveCopy n k a | .moveXor n k a | .moveAnd n k a | .moveFill n k a | .moveLoadv n k a | .moveGetv n k a
  | .movePutv n k a | .moveAddv n k a | .moveSetf n k a | .cmpEqCt n k a | .cmpMag n k a | .cmpTestv n k a
  | .cmpCmpv n k a | .cmpRangev n k a | .symEcbEnc n k a | .symEcbDec n k a | .symCbcEnc n k a | .symCbcDec n k a
  | .symCtr n k a | .symCodeEcb n k a | .symCodeCbc n k a | .symMacGen n k a | .symMacVerify n k a | .symHmac n k a
  | .symHmacVerify n k a | .symSha256 n k a | .symSha512 n k a | .keyGet n k a | .keyUnwrap n k a | .keyWrap n k a
  | .keyDerive n k a | .keyDukpt n k a | .keyGenerate n k a | .keyStore n k a | .keyRelease n k a
  | .routePanLookup n k a | .routePolicyLookup n k a | .fmtPanField n k a | .fmtPinDecode n k a | .fmtPinEncode n k a
  | .fmtDecimalise n k a | .fmtBcdPack n k a | .fmtBcdUnpack n k a | .fmtPad n k a | .fmtTlvFind n k a | .randGen n k a
  | .bnEdSign n k a | .bnEdVerify n k a | .bnX25519 n k a | .bnEcSign n k a | .bnEcVerify n k a | .bnRsaSign n k a
  | .bnRsaVerify n k a | .bnPublic n k a | .bnGenerate n k a | .doneRetire n k a | .excService n k a => some (n, k, a)
  | _ => none

/-- The steward context and the opcode of a row that demands a quorum (Table 11.3). -/
def quorumRow : Instr → Option (Nat × Nat)
  | .partCreate i => some (i, 0x010)
  | .partModify i => some (i, 0x011)
  | .partTeardown i => some (i, 0x012)
  | .partSetAccessKey i => some (i, 0x014)
  | .partEnableOpcodes i => some (i, 0x015)
  | .rtPolicyUpdate i => some (i, 0x018)
  | .rtSetLimits i => some (i, 0x01B)
  | .pairBegin i => some (i, 0x028)
  | .draftLoad i => some (i, 0x030)
  | .draftUnload i => some (i, 0x031)
  | .draftSignerSet i => some (i, 0x032)
  | .custSet i => some (i, 0x038)
  | .rngRawEnter i => some (i, 0x1A8)
  | .evrClear i => some (i, 0x1AD)
  | .lcTransition i => some (i, 0x1B8)
  | .dbgAuthorise i => some (i, 0x1BA)
  | _ => none

/-- The forms that demand no quorum (R252, R258, R317), or that have not yet reached it: the first set of the owner's
partition, raw-sample mode and transitions outside MANUFACTURED and OPERATIONAL, a clear under way, an image not yet read. -/
def QuorumDemanded (s : State) (c : Cmd) : Prop :=
  (c.opcode = 0x038 → c.inl 72 2 ≠ 0 ∨ ∀ p, s.part? 0 = some p → p.custN ≠ 0) ∧
  (c.opcode = 0x1A8 ∨ c.opcode = 0x1B8 → s.lc.state = 0x30 ∨ s.lc.state = 0x40) ∧
  (c.opcode = 0x1AD → s.evr.clearing = false) ∧
  (c.opcode = 0x030 → s.drafts.holder = some c.place)

/-- What a command that demands a quorum does before its quorum has passed (R264): it waits for the verification, or it
completes with a failure status, its shed memory `m` holding any inline detail. -/
def State.heldByQuorum (s : State) (c : Cmd) (t : State) : Prop :=
  t = s.quorumWaits c ∨ ∃ st m keep, st ≠ 0 ∧ t = s.retireWith { c with mem := m } st false keep []

/-- The state after `n` steps, if every one of them answers a next state. -/
def State.runs : Nat → State → Option State
  | 0, s => some s
  | n + 1, s => match step s with
    | .next t => t.runs n
    | _ => none

end Sys2Proof.Machine
end

