-- ==== Sys2Proof/Certificates/Slice0/Obligations.lean ====
section
/-! DEFINITION. The statements about this model. Those named ...Complete say that their commands answer a next state and which,
under conditions on the state and the operands alone; the next state is written with the model's named operations, so that it says
as well what is left unchanged. -/

open Sys2Proof Sys2Proof.Machine

/-- One step takes the command at the front of the queue and has exactly its effect, with the queue's rest; on an empty queue
it is one millisecond of operating time, which is the model's choice (notes/assumptions/10.md), and no table word spells a
command. -/
def Obligations.StepRunsTheFrontCommand : Prop :=
  (∀ (s : State) (c : Instr) (r : List Instr), s.pending = c :: r → step s = exec c { s with pending := r }) ∧
  (∀ (s : State), s.pending = [] → step s = .next s.tick) ∧
  (∀ (s : State) (nbits w : Nat), decodeTableWord nbits w = none ∧ s.withFetchWord nbits w = s)

/-- The machine right after reset, as the manual gives it (R10, R20, R26, R27, R38): a reset in force with RSTOUT_N low, every
domain but AON off, no queue, command, duplicate record, job, cached key, nonce or waiting interrupt, the owner's
partition 0 with its fixed attributes, the device unpaired and the time in FREE_RUN, and each register at its table's
reset value. -/
def Obligations.ResetState : Prop :=
  (State.reset.pending = [] ∧ State.reset.queues = [] ∧ State.reset.cmds = [] ∧ State.reset.dups = [] ∧
    State.reset.bn.jobs = [] ∧ State.reset.kc.ways = [] ∧ State.reset.qr.nonces = [] ∧ State.reset.evr.buffer = []) ∧
  (State.reset.sys.pdctl = 0 ∧ State.reset.sys.pdstat = 0 ∧ State.reset.sys.step = 0 ∧ State.reset.sys.inReset = true ∧
    State.reset.sys.rstoutLow = true ∧ State.reset.sys.wdtTimeout = [1000, 1000, 1000, 1000]) ∧
  State.reset.parts.map (fun p => (p.id, p.selfWeight, p.minRate, p.ceilRate, p.cacheMin, p.cacheMax)) =
    [(0, 1, 240000000, 0, 262144, 262144)] ∧
  State.reset.parts.map (fun p => (p.inflightMax, p.queueQuota, p.objQuota)) = [(512, 16384, 65536)] ∧
  (State.reset.host.ready = false ∧ State.reset.host.cause = 0 ∧ State.reset.host.enable = 0 ∧ State.reset.host.vec = 0 ∧
    State.reset.host.violCnt = 0 ∧ State.reset.host.violValid = false) ∧
  (State.reset.sched.quantum = 0x40 ∧ (∀ n < 16, (State.reset.treadle n).rstatus = 0xF001) ∧
    State.reset.kc.period = 1000 ∧ State.reset.bn.starve = 10 ∧ State.reset.rng.warnBias = 0x400 ∧
    State.reset.rng.warnLag = 0x400) ∧
  (State.reset.lk.pstate = 0 ∧ State.reset.lk.role = 0 ∧ State.reset.lk.beatUs = 50 ∧ State.reset.lk.policy = true ∧
    State.reset.lk.lossAction = false ∧ State.reset.lk.soloMs = 1000) ∧
  (State.reset.pt.state = 0 ∧ State.reset.pt.addend = 0x42AAAAAB ∧ State.reset.pt.sec = 0 ∧ State.reset.pt.acc = 0 ∧
    State.reset.pt.limitH = 24 ∧ State.reset.pt.outlierUs = 100) ∧
  (∀ i < 12, (State.reset.unit i).active = 0 ∧ (State.reset.unit i).lock = false ∧ (State.reset.unit i).valid = false) ∧
  (State.reset.tmp.latch = 0 ∧ State.reset.tmp.live = 0 ∧ State.reset.tmp.secret = none ∧ State.reset.sag.warning = false ∧
    State.reset.bist.period = 100 ∧ State.reset.bist.enable = true ∧ State.reset.bist.isolate = 20 ∧
    State.reset.bist.skips = 0 ∧ State.reset.iom.cmp1 = 0 ∧ State.reset.iom.refusals = 0)

/-- The machine right after reset meets the invariant: the RAM of the internal map is in its canonical form. -/
def Obligations.ResetHasTheInvariant : Prop :=
   State.reset.Inv

/-- Every step, of any command in any state, keeps the RAM of the internal map in its canonical form (R13): addresses strictly
rising and no entry that reads as memory that nothing has written, so that equal memories are equal data. -/
def Obligations.StepKeepsTheInvariant : Prop :=
  ∀ (s t : State), s.Inv → step s = .next t → t.Inv

/-- Every command answers a next state, in any state, and takes, adds or reorders none of the commands that wait behind it. -/
def Obligations.ExecLeavesTheQueue : Prop :=
  ∀ (i : Instr) (s : State), ∃ t, exec i s = .next t ∧ t.pending = s.pending

/-- A queue of any commands, whatever they are and in whatever state the device is, runs to its end: each step answers a next
state and takes one command, after as many steps as commands none waits, and the invariant still holds. -/
def Obligations.EveryQueueDrains : Prop :=
  ∀ (s : State), ∃ t, State.runs s.pending.length s = some t ∧ t.pending = [] ∧ (s.Inv → t.Inv)

/-- MOVE and CMP steps (R96, Table 04.6): COPY, XOR, AND and FILL write their byte strings at the destination, LOADV, GETV,
PUTV and ADDV work on a variable, SETF sets the flag word; EQ_CT and MAG compare byte strings, TESTV, CMPV and RANGEV a
variable. Each returns the flags Z, C and G of its table row, counts one step, and changes nothing else. -/
def Obligations.MoveAndCompareStepsComplete : Prop :=
  (∀ (s : State) (n k : Nat) (c : Cmd) (a : StepArgs), StepReady s n k c a →
    (∀ l, stepLen c a = some l → rangeFault false [(a.aOff.toNat, l)] (a.dOff.toNat, l) = none →
      exec (.moveCopy n k a) s = .next (s.stepTo n k (c.wr a.dOff.toNat (c.rd a.aOff.toNat l)) a
        (uflags (allZero (c.rd a.aOff.toNat l)) false false))) ∧
    (∀ l, stepLen c a = some l → rangeFault false [(a.aOff.toNat, l), (a.bOff.toNat, l)] (a.dOff.toNat, l) = none →
      exec (.moveXor n k a) s = .next (s.stepTo n k
        (c.wr a.dOff.toNat (List.zipWith (fun x y => x ^^^ y) (c.rd a.aOff.toNat l) (c.rd a.bOff.toNat l))) a
        (uflags (allZero (List.zipWith (fun x y => x ^^^ y) (c.rd a.aOff.toNat l) (c.rd a.bOff.toNat l))) false false)) ∧
      exec (.moveAnd n k a) s = .next (s.stepTo n k
        (c.wr a.dOff.toNat (List.zipWith (fun x y => x &&& y) (c.rd a.aOff.toNat l) (c.rd a.bOff.toNat l))) a
        (uflags (allZero (List.zipWith (fun x y => x &&& y) (c.rd a.aOff.toNat l) (c.rd a.bOff.toNat l))) false false))) ∧
    (∀ l, stepLen c a = some l → rangeFault false [] (a.dOff.toNat, l) = none →
      exec (.moveFill n k a) s = .next (s.stepTo n k (c.wr a.dOff.toNat (List.replicate l (byte (a.imm.toNat % 256)))) a 0)) ∧
    exec (.moveLoadv n k a) s = .next (s.stepTo n k (c.setV (a.param.toNat % 8) a.imm.toNat) a
      (uflags (a.imm == 0) false false)) ∧
    (∀ l, stepLen c a = some l → 1 ≤ l → l ≤ 4 → srcOk a.aOff.toNat l = true →
      exec (.moveGetv n k a) s = .next (s.stepTo n k (c.setV (a.param.toNat % 8) (leNat (c.rd a.aOff.toNat l))) a
        (uflags (leNat (c.rd a.aOff.toNat l) == 0) false false))) ∧
    (∀ l, stepLen c a = some l → 1 ≤ l → l ≤ 4 → dstOk a.dOff.toNat l = true →
      exec (.movePutv n k a) s = .next (s.stepTo n k (c.wr a.dOff.toNat (toLe l (c.v (a.param.toNat % 8)))) a 0)) ∧
    exec (.moveAddv n k a) s = .next (s.stepTo n k
      (c.setV (a.param.toNat % 8) ((c.v (a.param.toNat % 8) + a.imm.toNat) % 2 ^ 32)) a
      (uflags ((c.v (a.param.toNat % 8) + a.imm.toNat) % 2 ^ 32 == 0)
        (decide (c.v (a.param.toNat % 8) + a.imm.toNat ≥ 2 ^ 32)) false)) ∧
    exec (.moveSetf n k a) s = .next (s.stepTo n k
      (c.setF (((((c.f >>> 4) &&& ~~~((a.imm.extractLsb' 16 12).setWidth 16)) ||| ((a.imm.extractLsb' 0 12).setWidth 16))
        <<< 4) ||| (c.f &&& 0xF#16))) a 0)) ∧
  (∀ (s : State) (n k : Nat) (c : Cmd) (a : StepArgs), StepReady s n k c a →
    (∀ l, stepLen c a = some l → rangeFault false [(a.aOff.toNat, l), (a.bOff.toNat, l)] (0x100, 0) = none →
      exec (.cmpEqCt n k a) s = .next (s.stepTo n k c a (uflags (c.rd a.aOff.toNat l != c.rd a.bOff.toNat l) false false)) ∧
      exec (.cmpMag n k a) s = .next (s.stepTo n k c a
        (uflags (beNat (c.rd a.aOff.toNat l) == beNat (c.rd a.bOff.toNat l))
          (decide (beNat (c.rd a.aOff.toNat l) < beNat (c.rd a.bOff.toNat l)))
          (decide (beNat (c.rd a.aOff.toNat l) > beNat (c.rd a.bOff.toNat l)))))) ∧
    exec (.cmpTestv n k a) s = .next (s.stepTo n k c a
      (uflags (BitVec.ofNat 32 (c.v (a.param.toNat % 8)) &&& a.imm != 0) false false)) ∧
    exec (.cmpCmpv n k a) s = .next (s.stepTo n k c a (uflags (c.v (a.param.toNat % 8) == a.imm.toNat)
      (decide (c.v (a.param.toNat % 8) < a.imm.toNat)) (decide (c.v (a.param.toNat % 8) > a.imm.toNat)))) ∧
    exec (.cmpRangev n k a) s = .next (s.stepTo n k c a
      (uflags (decide (c.v (a.param.toNat % 8) < a.imm.toNat % 65536 ∨ c.v (a.param.toNat % 8) > a.imm.toNat / 65536))
        false false)))

/-- SYM steps of the block modes (R98, R99, R101, Table 04.8): with a key of the demanded usage in the register, ranges in
place and aligned, whole blocks and a core to grant, each writes its output to D and goes on with U = 0. -/
def Obligations.CipherStepsComplete : Prop :=
  ∀ (s : State) (n k : Nat) (c : Cmd) (a : StepArgs) (l : Nat) (r : KReg), StepReady s n k c a → stepLen c a = some l →
    CoreReady s c →
    (KeyReady s c a.kreg.toNat 1 symAlgs r → rangeFault true [(a.aOff.toNat, l)] (a.dOff.toNat, l) = none →
      l % blockLen r.key.alg = 0 →
      exec (.symEcbEnc n k a) s = .next (s.stepTo n k (c.wr a.dOff.toNat (ecbEnc r.key.alg r.key.mat (c.rd a.aOff.toNat l))) a 0)) ∧
    (KeyReady s c a.kreg.toNat 2 symAlgs r → rangeFault true [(a.aOff.toNat, l)] (a.dOff.toNat, l) = none →
      l % blockLen r.key.alg = 0 →
      exec (.symEcbDec n k a) s = .next (s.stepTo n k (c.wr a.dOff.toNat (ecbDec r.key.alg r.key.mat (c.rd a.aOff.toNat l))) a 0)) ∧
    (KeyReady s c a.kreg.toNat 9 symAlgs r → rangeFault true [(a.aOff.toNat, l)] (a.dOff.toNat, l) = none →
      l % blockLen r.key.alg = 0 →
      exec (.symCodeEcb n k a) s = .next (s.stepTo n k (c.wr a.dOff.toNat (ecbEnc r.key.alg r.key.mat (c.rd a.aOff.toNat l))) a 0)) ∧
    (KeyReady s c a.kreg.toNat 1 symAlgs r →
      rangeFault true [(a.aOff.toNat, l), (a.bOff.toNat, blockLen r.key.alg)] (a.dOff.toNat, l) = none →
      l % blockLen r.key.alg = 0 →
      exec (.symCbcEnc n k a) s = .next (s.stepTo n k (c.wr a.dOff.toNat
        (cbcEnc r.key.alg r.key.mat (c.rd a.bOff.toNat (blockLen r.key.alg)) (c.rd a.aOff.toNat l))) a 0)) ∧
    (KeyReady s c a.kreg.toNat 2 symAlgs r →
      rangeFault true [(a.aOff.toNat, l), (a.bOff.toNat, blockLen r.key.alg)] (a.dOff.toNat, l) = none →
      l % blockLen r.key.alg = 0 →
      exec (.symCbcDec n k a) s = .next (s.stepTo n k (c.wr a.dOff.toNat
        (cbcDec r.key.alg r.key.mat (c.rd a.bOff.toNat (blockLen r.key.alg)) (c.rd a.aOff.toNat l))) a 0)) ∧
    (∀ u, u = 1 ∨ u = 2 → KeyReady s c a.kreg.toNat u symAlgs r →
      rangeFault true [(a.aOff.toNat, l), (a.bOff.toNat, blockLen r.key.alg)] (a.dOff.toNat, l) = none →
      exec (.symCtr n k a) s = .next (s.stepTo n k (c.wr a.dOff.toNat
        (ctrCrypt r.key.alg r.key.mat (c.rd a.bOff.toNat (blockLen r.key.alg)) (c.rd a.aOff.toNat l))) a 0)) ∧
    (KeyReady s c a.kreg.toNat 9 symAlgs r → bits a.param.toNat 1 0 = 0 →
      rangeFault true [(a.aOff.toNat, l), (a.bOff.toNat, blockLen r.key.alg)] (a.dOff.toNat, l) = none →
      l % blockLen r.key.alg = 0 →
      exec (.symCodeCbc n k a) s = .next (s.stepTo n k (c.wr a.dOff.toNat
        (cbcEnc r.key.alg r.key.mat (c.rd a.bOff.toNat (blockLen r.key.alg)) (c.rd a.aOff.toNat l))) a 0)) ∧
    (KeyReady s c a.kreg.toNat 9 [4] r → bits a.param.toNat 1 0 = 1 →
      rangeFault true [(a.aOff.toNat, l)] (a.dOff.toNat, 8) = none → l % blockLen 4 = 0 →
      exec (.symCodeCbc n k a) s = .next (s.stepTo n k (c.wr a.dOff.toNat (macAlg3 r.key.mat (c.rd a.aOff.toNat l))) a 0))

/-- SYM steps that authenticate or digest (R99, R101, R197, Table 04.8): a MAC or digest is written to D, a verification gives
U0 where the MAC differs. -/
def Obligations.MacAndHashStepsComplete : Prop :=
  ∀ (s : State) (n k : Nat) (c : Cmd) (a : StepArgs) (l : Nat) (r : KReg), StepReady s n k c a → stepLen c a = some l →
    CoreReady s c →
    (KeyReady s c a.kreg.toNat 5 symAlgs r → bits a.param.toNat 1 0 = 0 → 4 ≤ bits a.imm.toNat 4 0 →
      bits a.imm.toNat 4 0 ≤ blockLen r.key.alg →
      rangeFault true [(a.aOff.toNat, l)] (a.dOff.toNat, bits a.imm.toNat 4 0) = none →
      exec (.symMacGen n k a) s = .next (s.stepTo n k (c.wr a.dOff.toNat
        (sl (macCmac r.key.alg r.key.mat (c.rd a.aOff.toNat l)) 0 (bits a.imm.toNat 4 0))) a 0)) ∧
    (KeyReady s c a.kreg.toNat 5 [4] r → bits a.param.toNat 1 0 = 1 → 4 ≤ bits a.imm.toNat 4 0 →
      bits a.imm.toNat 4 0 ≤ 8 → l % blockLen 4 = 0 →
      rangeFault true [(a.aOff.toNat, l)] (a.dOff.toNat, bits a.imm.toNat 4 0) = none →
      exec (.symMacGen n k a) s = .next (s.stepTo n k (c.wr a.dOff.toNat
        (sl (macAlg3 r.key.mat (c.rd a.aOff.toNat l)) 0 (bits a.imm.toNat 4 0))) a 0)) ∧
    (KeyReady s c a.kreg.toNat 5 [1, 2, 3, 4] r → bits a.param.toNat 1 0 = 2 → bits a.param.toNat 3 2 ≠ 3 →
      emvLenOk (bits a.param.toNat 3 2) l = true →
      rangeFault true [(a.aOff.toNat, l), (a.bOff.toNat, 16)] (a.dOff.toNat, if bits a.param.toNat 3 2 = 2 then 4 else 8) = none →
      exec (.symMacGen n k a) s = .next (s.stepTo n k (c.wr a.dOff.toNat
        (emvFunction r.key (bits a.param.toNat 3 2) (bit a.param.toNat 4) (c.rd a.bOff.toNat 16) (c.rd a.aOff.toNat l))) a 0)) ∧
    (KeyReady s c a.kreg.toNat 6 symAlgs r → bits a.param.toNat 1 0 = 0 → 4 ≤ bits a.imm.toNat 4 0 →
      bits a.imm.toNat 4 0 ≤ blockLen r.key.alg →
      rangeFault true [(a.aOff.toNat, l), (a.bOff.toNat, bits a.imm.toNat 4 0)] (a.dOff.toNat, 0) = none →
      exec (.symMacVerify n k a) s = .next (s.stepTo n k c a (uflags
        (sl (macCmac r.key.alg r.key.mat (c.rd a.aOff.toNat l)) 0 (bits a.imm.toNat 4 0) !=
          c.rd a.bOff.toNat (bits a.imm.toNat 4 0)) false false))) ∧
    (KeyReady s c a.kreg.toNat 6 [4] r → bits a.param.toNat 1 0 = 1 → 4 ≤ bits a.imm.toNat 4 0 →
      bits a.imm.toNat 4 0 ≤ 8 → l % blockLen 4 = 0 →
      rangeFault true [(a.aOff.toNat, l), (a.bOff.toNat, bits a.imm.toNat 4 0)] (a.dOff.toNat, 0) = none →
      exec (.symMacVerify n k a) s = .next (s.stepTo n k c a (uflags
        (sl (macAlg3 r.key.mat (c.rd a.aOff.toNat l)) 0 (bits a.imm.toNat 4 0) !=
          c.rd a.bOff.toNat (bits a.imm.toNat 4 0)) false false))) ∧
    (KeyReady s c a.kreg.toNat 5 [6] r → rangeFault true [(a.aOff.toNat, l)] (a.dOff.toNat, 64) = none →
      exec (.symHmac n k a) s = .next (s.stepTo n k (c.wr a.dOff.toNat (macHmac r.key.mat (c.rd a.aOff.toNat l))) a 0)) ∧
    (KeyReady s c a.kreg.toNat 6 [6] r → 16 ≤ bits a.imm.toNat 6 0 → bits a.imm.toNat 6 0 ≤ 64 →
      rangeFault true [(a.aOff.toNat, l), (a.bOff.toNat, bits a.imm.toNat 6 0)] (0x100, 0) = none →
      exec (.symHmacVerify n k a) s = .next (s.stepTo n k c a (uflags
        (sl (macHmac r.key.mat (c.rd a.aOff.toNat l)) 0 (bits a.imm.toNat 6 0) !=
          c.rd a.bOff.toNat (bits a.imm.toNat 6 0)) false false))) ∧
    (rangeFault true [(a.aOff.toNat, l)] (a.dOff.toNat, 32) = none →
      exec (.symSha256 n k a) s = .next (s.stepTo n k (c.wr a.dOff.toNat (sl (Config.sha256 (c.rd a.aOff.toNat l)) 0 32)) a 0)) ∧
    (bit a.param.toNat 0 = false → rangeFault true [(a.aOff.toNat, l)] (a.dOff.toNat, 64) = none →
      exec (.symSha512 n k a) s = .next (s.stepTo n k (c.wr a.dOff.toNat (sl (Config.sha512 (c.rd a.aOff.toNat l)) 0 64)) a 0)) ∧
    (bit a.param.toNat 0 = true → rangeFault true [(a.aOff.toNat, l)] (a.dOff.toNat, 48) = none →
      exec (.symSha512 n k a) s = .next (s.stepTo n k (c.wr a.dOff.toNat (sl (Config.sha384 (c.rd a.aOff.toNat l)) 0 48)) a 0))

/-- KEY steps that resolve a key (R98, R100, R123, R201, R202, Table 04.9): when the lookup finds the key, the register holds
it and the step goes on with the flags of the lookup; a KSN that the rules of R202 do not permit gives U0. -/
def Obligations.KeyLookupStepsComplete : Prop :=
  ∀ (s : State) (n k : Nat) (c : Cmd) (a : StepArgs), StepReady s n k c a →
    (∀ s1 c1 m l, getRef s c (bits a.param.toNat 6 4) a.kreg.toNat (bits a.param.toNat 3 0) a.imm.toNat
        (bit a.param.toNat 7) = .got s1 c1 m l →
      exec (.keyGet n k a) s = .next (s1.stepTo n k c1 a (uflags m l false))) ∧
    (∀ l w s1 c1 m x, stepLen c a = some l → rangeFault false [(a.aOff.toNat, l)] (0x100, 0) = none →
      KeyReady s c (bits a.param.toNat 7 4) 3 [1, 2, 3, 4, 5, 11, 12, 13] w → isRsa w.key.alg = false →
      getBlock s c w a.kreg.toNat (c.rd a.aOff.toNat l) (bits a.param.toNat 3 0) a.imm.toNat 0xFF false false = .got s1 c1 m x →
      exec (.keyUnwrap n k a) s = .next (s1.stepTo n k c1 a (uflags (!m) false false))) ∧
    (∀ l p s1 c1 m x, stepLen c a = some l → rangeFault false [(a.aOff.toNat, l)] (0x100, 0) = none →
      KeyReady s c (bits a.param.toNat 7 4) 4 [3] p →
      getDerived s c p a.kreg.toNat (c.rd a.aOff.toNat l) (bits a.param.toNat 3 0) a.imm.toNat false false = .got s1 c1 m x →
      exec (.keyDerive n k a) s = .next (s1.stepTo n k c1 a (uflags (!m) false false))) ∧
    (∀ l i, stepLen c a = some l → rangeFault false [(a.aOff.toNat, l)] (0x100, 0) = none →
      KeyReady s c (bits a.param.toNat 7 4) 4 [1, 2, 3, 4] i → bits a.param.toNat 11 8 ≤ 2 → l = ksnLen i.key.alg →
      bits a.param.toNat 3 0 = wktUsage (bits a.param.toNat 11 8) → bit a.imm.toNat i.key.alg = true →
      (ksnOk i.key.alg (c.rd a.aOff.toNat l) = false →
        exec (.keyDukpt n k a) s = .next (s.stepTo n k c a (uflags true false false))) ∧
      (∀ s1 c1 m x, ksnOk i.key.alg (c.rd a.aOff.toNat l) = true →
        getDukpt s c i a.kreg.toNat (bits a.param.toNat 11 8) (c.rd a.aOff.toNat l) = .got s1 c1 m x →
        exec (.keyDukpt n k a) s = .next (s1.stepTo n k c1 a 0)))

/-- KEY.WRAP, GENERATE, STORE and RELEASE (R101, R102, R130, R211, Table 04.9): a block of the key goes to D, a generated key
to the register, a store to the journal with the command parked until it is committed, and a register is emptied. The
block's key usage, exportability and padding, and the generated bytes, are free values (notes/assumptions/18.md, 4.md);
the statement holds for each of them. -/
def Obligations.KeyStoreStepsComplete : Prop :=
  ∀ (s : State) (n k : Nat) (c : Cmd) (a : StepArgs), StepReady s n k c a →
    (∀ l w x s1 pad ku e, stepLen c a = some l → dstOk a.dOff.toNat l = true → RegReady s c a.kreg.toNat x →
      KeyReady s c (bits a.param.toNat 7 4) 3 [1, 2, 3, 4, 5, 11, 12, 13] w → exportOk s c x = true →
      isRsa w.key.alg = false → x.key.version ≤ 99 →
      (pairedUsages x.key)[Config.freeNat s.draw % (pairedUsages x.key).length]? = some ku →
      [chr 'E', chr 'N', chr 'S'][Config.freeNat (s.draw + 1) % 3]? = some e →
      ((countPolicy s).drawn 2).random (drbgOf c.place) (exportPad w.key x.key) = .bytes s1 pad →
      (exportBlock w.key x.key ku e pad).length ≤ l →
      exec (.keyWrap n k a) s = .next (s1.stepTo n k (c.wr a.dOff.toNat (exportBlock w.key x.key ku e pad)) a 0)) ∧
    (∀ alg s1 b, oneAlg a.imm.toNat = some alg → 1 ≤ alg → alg ≤ 6 →
      (usagesOf alg).contains (bits a.param.toNat 3 0) = true → s.random (drbgOf c.place) (matLen alg) = .bytes s1 b →
      exec (.keyGenerate n k a) s = .next
        ((placeNew (s1.drawn 32) c (generatedAsk s1 a.kreg.toNat (generatedKey alg (bits a.param.toNat 3 0) b))
            (generatedKey alg (bits a.param.toNat 3 0) b)).1.stepTo n k
          (placeNew (s1.drawn 32) c (generatedAsk s1 a.kreg.toNat (generatedKey alg (bits a.param.toNat 3 0) b))
            (generatedKey alg (bits a.param.toNat 3 0) b)).2.1 a 0)) ∧
    (∀ l x, stepLen c a = some l → c.stored = false → c.dir.map (fun d => d.commits) = some true →
      rangeFault false [(a.aOff.toNat, l)] (a.dOff.toNat, 4) = none → RegReady s c a.kreg.toNat x →
      attrOk x.key (c.rd a.aOff.toNat l) = true →
      policyOk (countPolicy s) c (fieldLe (c.rd a.aOff.toNat l) 4 8) x.key.usage x.key.alg roleStore = true →
      commitHold (countPolicy s) = none →
      exec (.keyStore n k a) s = .next
        (((countPolicy s).enqueue (.store c.part (c.rd a.aOff.toNat l) x.key (x.source == 6)) (some c.place)).parkTo n k
          { c with stored := true } a .waitCommit)) ∧
    exec (.keyRelease n k a) s = .next
      ((emptyReg s c a.kreg.toNat).1.stepTo n k (emptyReg s c a.kreg.toNat).2 a 0)

/-- ROUTE steps (R166, R172, Table 04.10): the lookup of the command's own generation, its 16 bytes of output at D, U0 for a
hit, and the counters of chapter 07. -/
def Obligations.RouteStepsComplete : Prop :=
  ∀ (s : State) (n k : Nat) (c : Cmd) (a : StepArgs), StepReady s n k c a →
    (∀ ds, rangeFault false [(a.aOff.toNat, 11)] (a.dOff.toNat, 16) = none →
      ds = (if byteAt (c.rd a.aOff.toNat 11) 0 > 19 then [] else digitString (c.rd a.aOff.toNat 11)) →
      exec (.routePanLookup n k a) s = .next
        (State.stepTo { s with rt := { s.rt with probes := (s.rt.probes + (panLookup (s.rt.routes c.rgen) c.part ds).2) % 2 ^ 32 } } n k
          (c.wr a.dOff.toNat (routeOutput (panLookup (s.rt.routes c.rgen) c.part ds).1)) a
          (uflags (panLookup (s.rt.routes c.rgen) c.part ds).1.isSome false false))) ∧
    (∀ r, rangeFault false [(a.aOff.toNat, 8)] (a.dOff.toNat, 16) = none →
      r = policyLookup (s.rt.rules c.pgen) c.part (leNat (c.rd a.aOff.toNat 8)) →
      exec (.routePolicyLookup n k a) s = .next
        (State.stepTo { s with rt := { s.rt with plookups := (s.rt.plookups + 1) % 2 ^ 32 } } n k
          (c.wr a.dOff.toNat (ruleOutput r)) a (uflags r.isSome false false)))

/-- FMT steps on PINs and PANs (R190, R191, Table 04.10): a field or a record in form is written to D; one out of form gives
U0, and the bytes of D are then free (notes/assumptions/4.md), whatever they are. The other FMT steps and RAND.GEN (R101,
R247, Table 04.10). Where a digit or a tag is missing the flag says so and the destination is free
(notes/assumptions/4.md), whatever it is. -/
def Obligations.FormatStepsComplete : Prop :=
  (∀ (s : State) (n k : Nat) (c : Cmd) (a : StepArgs) (f w : Nat), StepReady s n k c a → f = bits a.param.toNat 2 0 →
    w = (if f = 4 then 16 else 8) →
    ((f = 0 ∨ f = 3 ∨ f = 4) → rangeFault false [(a.aOff.toNat, 11)] (a.dOff.toNat, w) = none →
      (∀ ds, panDigits (c.rd a.aOff.toNat 11) = some ds →
        exec (.fmtPanField n k a) s = .next (s.stepTo n k (c.wr a.dOff.toNat (panField f ds)) a 0)) ∧
      (panDigits (c.rd a.aOff.toNat 11) = none → ∃ free, free.length = w ∧
        exec (.fmtPanField n k a) s = .next ((s.drawn w).stepTo n k (c.wr a.dOff.toNat free) a (uflags true false false)))) ∧
    (∀ x, pinFormats.contains f = true →
      rangeFault false ((a.aOff.toNat, w) :: (if f = 1 then [] else [(a.bOff.toNat, w)])) (a.dOff.toNat, 8) = none →
      x = (if f = 0 ∨ f = 3 then xorBytes (c.rd a.aOff.toNat w) (c.rd a.bOff.toNat 8) else c.rd a.aOff.toNat w) →
      (∀ pin, pinOfField f x = some pin →
        exec (.fmtPinDecode n k a) s = .next (s.stepTo n k (c.wr a.dOff.toNat (pinRecord pin)) a 0)) ∧
      (pinOfField f x = none → ∃ free, free.length = 8 ∧
        exec (.fmtPinDecode n k a) s = .next ((s.drawn 8).stepTo n k (c.wr a.dOff.toNat free) a (uflags true false false)))) ∧
    (pinFormats.contains f = true →
      rangeFault false ((a.aOff.toNat, 8) :: (if f = 0 then [] else [(a.bOff.toNat, 8)])) (a.dOff.toNat, w) = none →
      4 ≤ byteAt (c.rd a.aOff.toNat 8) 0 → byteAt (c.rd a.aOff.toNat 8) 0 ≤ 12 →
      (recordPin (c.rd a.aOff.toNat 8)).all (fun x => decide (x ≤ 9)) = true →
      exec (.fmtPinEncode n k a) s = .next
        (s.stepTo n k (c.wr a.dOff.toNat (pinField f (recordPin (c.rd a.aOff.toNat 8)) (c.rd a.bOff.toNat 8))) a 0))) ∧
  (∀ (s : State) (n k : Nat) (c : Cmd) (a : StepArgs) (l : Nat), StepReady s n k c a → stepLen c a = some l →
    (rangeFault false [(a.aOff.toNat, l), (a.bOff.toNat, 8)] (a.dOff.toNat, l) = none →
      exec (.fmtDecimalise n k a) s = .next
        (s.stepTo n k (c.wr a.dOff.toNat (decimalise (c.rd a.bOff.toNat 8) (c.rd a.aOff.toNat l))) a 0)) ∧
    (rangeFault false [(a.aOff.toNat, l)] (a.dOff.toNat, (l + 1) / 2) = none →
      (∀ b, bcdPack (c.rd a.aOff.toNat l) = some b →
        exec (.fmtBcdPack n k a) s = .next (s.stepTo n k (c.wr a.dOff.toNat b) a 0)) ∧
      (bcdPack (c.rd a.aOff.toNat l) = none → ∃ free, free.length = (l + 1) / 2 ∧
        exec (.fmtBcdPack n k a) s = .next
          ((s.drawn ((l + 1) / 2)).stepTo n k (c.wr a.dOff.toNat free) a (uflags true false false)))) ∧
    (rangeFault false [(a.aOff.toNat, l)] (a.dOff.toNat, 2 * l) = none →
      (∀ b, bcdUnpack (c.rd a.aOff.toNat l) = some b →
        exec (.fmtBcdUnpack n k a) s = .next (s.stepTo n k (c.wr a.dOff.toNat b) a 0)) ∧
      (bcdUnpack (c.rd a.aOff.toNat l) = none → ∃ free, free.length = 2 * l ∧
        exec (.fmtBcdUnpack n k a) s = .next
          ((s.drawn (2 * l)).stepTo n k (c.wr a.dOff.toNat free) a (uflags true false false)))) ∧
    (∀ m b, m = bits a.param.toNat 1 0 → m = 1 ∨ m = 2 →
      b = padMsg m (if bit a.param.toNat 4 then 8 else 16) (c.rd a.aOff.toNat l) →
      rangeFault false [(a.aOff.toNat, l)] (a.dOff.toNat, b.length) = none →
      exec (.fmtPad n k a) s = .next (s.stepTo n k (c.wr a.dOff.toNat b) a 0)) ∧
    (rangeFault false [(a.aOff.toNat, l)] (0x100, 0) = none →
      (∀ o m, tlvFind (c.rd a.aOff.toNat l) (a.imm.toNat % 65536) (l + 1) 0 = .found o m →
        exec (.fmtTlvFind n k a) s = .next (s.stepTo n k ((c.setV 0 o).setV 1 m) a 0)) ∧
      (tlvFind (c.rd a.aOff.toNat l) (a.imm.toNat % 65536) (l + 1) 0 = .absent → ∃ x y,
        exec (.fmtTlvFind n k a) s = .next ((s.drawn 8).stepTo n k ((c.setV 0 x).setV 1 y) a (uflags true false false))) ∧
      (tlvFind (c.rd a.aOff.toNat l) (a.imm.toNat % 65536) (l + 1) 0 = .malformed → ∃ x y,
        exec (.fmtTlvFind n k a) s = .next ((s.drawn 8).stepTo n k ((c.setV 0 x).setV 1 y) a (uflags false true false)))) ∧
    (∀ s1 b, 1 ≤ l → l ≤ 256 → rangeFault true [] (a.dOff.toNat, l) = none → s.random (drbgOf c.place) l = .bytes s1 b →
      exec (.randGen n k a) s = .next (s1.stepTo n k (c.wr a.dOff.toNat b) a 0)))

/-- BN steps (R102, R218, R231, Table 09.3): with operands in form and a group that could be formed, each hands its job to the
bignum engine and parks the command until the job ends. -/
def Obligations.BignumStepsComplete : Prop :=
  ∀ (s : State) (n k : Nat) (c : Cmd) (a : StepArgs), StepReady s n k c a →
    (∀ l r q, stepLen c a = some l → l ≤ 3072 → rangeFault true [(a.aOff.toNat, l)] (a.dOff.toNat, 64) = none →
      KeyReady s c a.kreg.toNat 7 [7] r →
      q = { op := 1, size := 0, pss := false, alg := 7, key := r.key.mat, operand := c.rd a.aOff.toNat l, record := [] } →
      BnReady s q → exec (.bnEdSign n k a) s = .next ((s.bnQueued c q).parkTo n k c a (.waitBn s.bn.nextJob))) ∧
    (∀ l r q, stepLen c a = some l → 64 ≤ l → l ≤ 3072 → bit a.param.toNat 8 = false →
      rangeFault true [(a.aOff.toNat, l)] (0x100, 0) = none → KeyReady s c a.kreg.toNat 8 [7] r →
      q = { op := 2, size := 0, pss := false, alg := 7, key := r.key.mat, operand := c.rd a.aOff.toNat l, record := [] } →
      BnReady s q → exec (.bnEdVerify n k a) s = .next ((s.bnQueued c q).parkTo n k c a (.waitBn s.bn.nextJob))) ∧
    (∀ l q, stepLen c a = some l → 64 ≤ l → l ≤ 3072 → bit a.param.toNat 8 = true →
      rangeFault true [(a.aOff.toNat, l), (a.bOff.toNat, 32)] (0x100, 0) = none →
      q = { op := 2, size := 0, pss := false, alg := 7, key := c.rd a.bOff.toNat 32, operand := c.rd a.aOff.toNat l,
            record := [] } →
      BnReady s q → exec (.bnEdVerify n k a) s = .next ((s.bnQueued c q).parkTo n k c a (.waitBn s.bn.nextJob))) ∧
    (∀ r x q, stepLen c a = some 32 → rangeFault true [(a.aOff.toNat, 32), (a.bOff.toNat, 32)] (0x100, 0) = none →
      KeyReady s c a.kreg.toNat 4 [8] r →
      deriveKey s c.part { r.key with level := 1 } (c.rd a.bOff.toNat 32) = some x →
      policyOk s c x.name x.usage x.alg (roleUse + roleImport) = true →
      q = { op := 3, size := 0, pss := false, alg := 8, key := r.key.mat, operand := peerU (c.rd a.aOff.toNat 32),
            record := c.rd a.bOff.toNat 32 } →
      BnReady (countPolicy s) q →
      exec (.bnX25519 n k a) s = .next (((countPolicy s).bnQueued c q).parkTo n k c a (.waitBn s.bn.nextJob))) ∧
    (∀ l z r q, stepLen c a = some l → z = bits a.param.toNat 1 0 → z ≤ 1 → (l = 32 ∨ l = 48 ∨ l = 64) →
      rangeFault true [(a.aOff.toNat, l)] (a.dOff.toNat, if z = 1 then 96 else 64) = none →
      KeyReady s c a.kreg.toNat 7 [9 + z] r →
      q = { op := 4, size := z, pss := false, alg := 9 + z, key := r.key.mat, operand := c.rd a.aOff.toNat l, record := [] } →
      BnReady s q → exec (.bnEcSign n k a) s = .next ((s.bnQueued c q).parkTo n k c a (.waitBn s.bn.nextJob))) ∧
    (∀ l z w r q, stepLen c a = some l → z = bits a.param.toNat 1 0 → z ≤ 1 → w = (if z = 1 then 96 else 64) →
      (l = 32 + w ∨ l = 48 + w ∨ l = 64 + w) → bit a.param.toNat 8 = false →
      rangeFault true [(a.aOff.toNat, l)] (0x100, 0) = none → KeyReady s c a.kreg.toNat 8 [9 + z] r →
      q = { op := 5, size := z, pss := false, alg := 9 + z, key := r.key.mat, operand := c.rd a.aOff.toNat l, record := [] } →
      BnReady s q → exec (.bnEcVerify n k a) s = .next ((s.bnQueued c q).parkTo n k c a (.waitBn s.bn.nextJob))) ∧
    (∀ l z w p q, stepLen c a = some l → z = bits a.param.toNat 1 0 → z ≤ 1 → w = (if z = 1 then 96 else 64) →
      (l = 32 + w ∨ l = 48 + w ∨ l = 64 + w) → bit a.param.toNat 8 = true →
      p = pointLen (byteAt (c.rd a.bOff.toNat 1) 0) z →
      rangeFault true [(a.aOff.toNat, l), (a.bOff.toNat, p)] (0x100, 0) = none →
      q = { op := 5, size := z, pss := false, alg := 9 + z, key := c.rd a.bOff.toNat p, operand := c.rd a.aOff.toNat l,
            record := [] } →
      BnReady s q → exec (.bnEcVerify n k a) s = .next ((s.bnQueued c q).parkTo n k c a (.waitBn s.bn.nextJob))) ∧
    (∀ l z r q, stepLen c a = some l → z = bits a.param.toNat 1 0 → z ≤ 2 → (l = 32 ∨ l = 48 ∨ l = 64) →
      rangeFault true [(a.aOff.toNat, l)] (a.dOff.toNat, sigBytes z) = none → KeyReady s c a.kreg.toNat 7 [11 + z] r →
      q = { op := 6, size := z, pss := bit a.param.toNat 4, alg := 11 + z, key := r.key.mat,
            operand := c.rd a.aOff.toNat l, record := [] } →
      BnReady s q → exec (.bnRsaSign n k a) s = .next ((s.bnQueued c q).parkTo n k c a (.waitBn s.bn.nextJob))) ∧
    (∀ l z r q, stepLen c a = some l → z = bits a.param.toNat 1 0 → z ≤ 2 →
      (l = 32 + sigBytes z ∨ l = 48 + sigBytes z ∨ l = 64 + sigBytes z) → bit a.param.toNat 8 = false →
      rangeFault true [(a.aOff.toNat, l)] (0x100, 0) = none → KeyReady s c a.kreg.toNat 8 [11 + z] r →
      q = { op := 7, size := z, pss := bit a.param.toNat 4, alg := 11 + z, key := r.key.mat,
            operand := c.rd a.aOff.toNat l, record := [] } →
      BnReady s q → exec (.bnRsaVerify n k a) s = .next ((s.bnQueued c q).parkTo n k c a (.waitBn s.bn.nextJob))) ∧
    (∀ l z q, stepLen c a = some l → z = bits a.param.toNat 1 0 → z ≤ 2 →
      (l = 32 + sigBytes z ∨ l = 48 + sigBytes z ∨ l = 64 + sigBytes z) → bit a.param.toNat 8 = true →
      rangeFault true [(a.aOff.toNat, l), (a.bOff.toNat, 4 + sigBytes z)] (0x100, 0) = none →
      q = { op := 7, size := z, pss := bit a.param.toNat 4, alg := 11 + z, key := c.rd a.bOff.toNat (4 + sigBytes z),
            operand := c.rd a.aOff.toNat l, record := [] } →
      BnReady s q → exec (.bnRsaVerify n k a) s = .next ((s.bnQueued c q).parkTo n k c a (.waitBn s.bn.nextJob))) ∧
    (∀ r q, KeyReady s c a.kreg.toNat r.key.usage [r.key.alg] r → publicOk r.key = true → r.key.usage ≠ 3 →
      rangeFault true [] (a.dOff.toNat, publicLen r.key.alg) = none →
      q = { op := 8, size := if r.key.alg = 10 then 1 else rsaSizeOf r.key.alg, pss := false, alg := r.key.alg,
            key := r.key.mat, operand := [], record := [] } →
      BnReady s q → exec (.bnPublic n k a) s = .next ((s.bnQueued c q).parkTo n k c a (.waitBn s.bn.nextJob))) ∧
    (∀ q, 7 ≤ a.imm.toNat → a.imm.toNat ≤ 10 → generateUsage a.imm.toNat (bits a.param.toNat 3 0) = true →
      q = { op := 9, size := 0, pss := false, alg := a.imm.toNat, key := [], operand := [], record := [] } →
      BnReady s q → exec (.bnGenerate n k a) s = .next ((s.bnQueued c q).parkTo n k c a (.waitBn s.bn.nextJob))) ∧
    (∀ w q, 11 ≤ a.imm.toNat → a.imm.toNat ≤ 13 → rangeFault true [(a.bOff.toNat, 21)] (0x100, 0) = none →
      KeyReady s c (bits a.param.toNat 7 4) 3 [1, 2, 3, 4, 5] w →
      q = { op := 9, size := rsaSizeOf a.imm.toNat, pss := false, alg := a.imm.toNat, key := [], operand := [],
            record := c.rd a.bOff.toNat 21 } →
      BnReady s q → exec (.bnGenerate n k a) s = .next ((s.bnQueued c q).parkTo n k c a (.waitBn s.bn.nextJob)))

/-- How a draft ends or leaves its treadle, and what brings it back (R16, R103, R104, R107, R108, Table 04.11): DONE retires
the command with its reply, EXC parks it on an exception record, a step-cache line that arrives makes the shed ready,
EXCPOP takes the head record off, RESUME continues at the step and flags it names, the EXC step then counted as executed,
or retires with RSTATUS. -/
def Obligations.DraftEndsAndTreadleComplete : Prop :=
  (∀ (s : State) (n k : Nat) (c : Cmd) (a : StepArgs) (l : Nat) (d : DirEnt), StepReady s n k c a →
    stepLen c a = some l → c.dir = some d → l ≤ d.replyMax → srcOk a.aOff.toNat l = true →
    (doneStatuses (decide (c.opcode ≥ 0x200))).contains (a.imm.toNat % 65536) = true →
    exec (.doneRetire n k a) s = .next ((s.retireWith c (a.imm.toNat % 65536)
      (((bit a.param.toNat 0 && c.f.getLsbD a.bflag.toNat) || bit a.param.toNat 1) && a.imm.toNat % 65536 == 0) true
      (c.rd a.aOff.toNat l)).countStep n k)) ∧
  (∀ (s : State) (n k : Nat) (c : Cmd) (a : StepArgs), StepReady s n k c a → c.opcode < 0x200 →
    exec (.excService n k a) s = .next (s.parkExc n k c a 8 (a.imm.toNat % 65536))) ∧
  (∀ (s : State) (n k : Nat) (c : Cmd) (a : StepArgs), StepReady s n k c a → 0x200 ≤ c.opcode →
    exec (.excService n k a) s = .next (s.parkExc n k c a 1 0)) ∧
  (∀ (s : State) (n k line : Nat) (c : Cmd), s.cmd? (.shed n k) = some c → c.phase = .waitLine line → c.abort = false →
    exec (.stepCacheLineFilled n k false) s = .next ((s.cacheLine n (storeLine s c)).setCmd { c with phase := .ready })) ∧
  (∀ (s : State) (i n value : Nat), s.powered (n + 1) = true → bit value 0 = true →
    exec (.trdExcpop (.steward i true) n value) s = .next (s.modTreadle n (fun t => { t with
      exc := t.exc.drop 1 ++ (if t.exc = [] then [] else t.excWait.take 1)
      excWait := if t.exc = [] then t.excWait else t.excWait.drop 1 }))) ∧
  (∀ (s : State) (i n value kind code : Nat) (c : Cmd) (a : StepArgs), s.powered (n + 1) = true → bit value 5 = false →
    s.cmd? (.shed n (bits value 4 0)) = some c → c.phase = .parked kind code → kind ≠ 8 → c.pend = some a →
    exec (.trdResume (.steward i true) n value) s = .next (s.setCmd { c.setF (saveFlags c.f (BitVec.ofNat 4 (bits value 18 15)) a.fsel) with
      idx := branch (saveFlags c.f (BitVec.ofNat 4 (bits value 18 15)) a.fsel) a (bits value 14 6)
      phase := .ready, pend := none })) ∧
  (∀ (s : State) (i n value code : Nat) (c c1 : Cmd) (a : StepArgs), s.powered (n + 1) = true → bit value 5 = false →
    s.cmd? (.shed n (bits value 4 0)) = some c → c.phase = .parked 8 code → c.pend = some a →
    c1 = c.setF (saveFlags c.f (BitVec.ofNat 4 (bits value 18 15)) a.fsel) →
    exec (.trdResume (.steward i true) n value) s = .next ((s.modTreadle n Treadle.count).setCmd { c1 with
      mem := Mem.writeN c1.mem 0xA2 (toLe 2 (c.count + 1))
      idx := branch (saveFlags c.f (BitVec.ofNat 4 (bits value 18 15)) a.fsel) a (bits value 14 6)
      phase := .ready, pend := none })) ∧
  (∀ (s : State) (i n value kind code : Nat) (c : Cmd), s.powered (n + 1) = true → bit value 5 = true →
    s.cmd? (.shed n (bits value 4 0)) = some c → c.phase = .parked kind code → kind ≠ 8 →
    exec (.trdResume (.steward i true) n value) s = .next ((s.raise (0x0E40 + kind) 0 0 0 0).retire c
      (if c.abort then 0x7002 else (s.treadle n).rstatus))) ∧
  (∀ (s : State) (i n value code : Nat) (c : Cmd), s.powered (n + 1) = true → bit value 5 = true →
    s.cmd? (.shed n (bits value 4 0)) = some c → c.phase = .parked 8 code →
    exec (.trdResume (.steward i true) n value) s = .next (s.retire c (if c.abort then 0x7002 else (s.treadle n).rstatus))) ∧
  (∀ (s : State) (i n value : Nat), s.powered (n + 1) = true → s.parkedCmd n (bits value 4 0) = none →
    exec (.trdResume (.steward i true) n value) s = .next (s.modTreadle n (fun t => { t with resumeErr := true })))

/-- What every draft step does before its own operation (R95, R104, R105, R106, Table 04.12): an abort request stops the
command at the step boundary with ABORTED, a line that is not in the step cache parks the shed, one held with an
uncorrectable error faults with kind 7, the 8,193rd step with kind 4 and a reserved bit or branch code with kind 1; a shed
without a ready command is left as it is. -/
def Obligations.EveryStepIsGated : Prop :=
  ∀ (i : Instr) (s : State) (n k : Nat) (a : StepArgs), stepRow i = some (n, k, a) →
    (s.readyCmd n k = none → exec i s = .next s) ∧
    (∀ c, s.readyCmd n k = some c →
      (c.abort = true → exec i s = .next (s.retire c 0x7002)) ∧
      (c.abort = false → s.lineHeld n c = false → exec i s = .next (s.lineMiss n c)) ∧
      (c.abort = false → s.lineHeld n c = true → s.lineSound n c = false → exec i s = .next (s.parkExc n k c a 7 0)) ∧
      (c.abort = false → s.lineSound n c = true → 8192 ≤ c.count → exec i s = .next (s.parkExc n k c a 4 0)) ∧
      (c.abort = false → s.lineSound n c = true → c.count < 8192 → a.rsv = true ∨ 3 < a.br.toNat →
        exec i s = .next (s.parkExc n k c a 1 0)))

/-- Doorbells and ring fetches (R59, R60, R61, R62, Table 03.14): an accepted tail or head is stored and a fetch may begin,
what waits for a slot of the completion ring having gone first, a write that breaks a rule is a violation and changes no
queue, an 8-byte write does both halves, and a fetch that arrives moves the head past its slots and hands its entries to
the scheduler. What a failed or answered host access of a command or a ring does (R67, R68, R85, Table 03.14): a failed
read of a command's data completes it with BAD_POINTER and 0x0B08, a refused write unbinds the queue, abandons its entries
and completes its commands internally with ABORTED, extended data goes on with admission, and a key block or an image goes
to the command that waits for it. -/
def Obligations.HostInterfaceComplete : Prop :=
  ((∀ (s : State) (fn off v : Nat) (q : Queue), pairQueue s fn off = some q → q.bound = true → s.active = true →
    off % 8 = 0 → v < 2 ^ 32 → v < 2 ^ q.log2 → q.ready ≤ (v + 2 ^ q.log2 - q.sqHead) % 2 ^ q.log2 → v ≠ q.sqTail →
    exec (.doorbellSqTail fn off 4 v) s =
      .next ((s.modQueue q.id (fun x => { x with sqTail := v, stopped := false })).tryFetch q.id)) ∧
  (∀ (s : State) (fn off v : Nat) (q : Queue), pairQueue s fn off = some q → q.bound = true → s.active = true →
    off % 8 = 0 → v < 2 ^ 32 → 2 ^ q.log2 ≤ v ∨ (v + 2 ^ q.log2 - q.sqHead) % 2 ^ q.log2 < q.ready →
    exec (.doorbellSqTail fn off 4 v) s = .next (s.violation 0x0B04 fn (some q.id) off v)) ∧
  (∀ (s : State) (fn off v : Nat) (q : Queue), pairQueue s fn off = some q → q.bound = true → s.active = true →
    off % 8 = 4 → v < 2 ^ 32 → v < 2 ^ q.log2 →
    (v + 2 ^ q.log2 - q.cqHead) % 2 ^ q.log2 ≤ (q.cqTail + 2 ^ q.log2 - q.cqHead) % 2 ^ q.log2 →
    exec (.doorbellCqHead fn off 4 v) s =
      .next ((s.modQueue q.id (fun x => { x with cqHead := v })).slotFree q.id)) ∧
  (∀ (s : State) (fn off v : Nat) (q : Queue), pairQueue s fn off = some q → q.bound = true → s.active = true →
    off % 8 = 4 → v < 2 ^ 32 → 2 ^ q.log2 ≤ v ∨
      (q.cqTail + 2 ^ q.log2 - q.cqHead) % 2 ^ q.log2 < (v + 2 ^ q.log2 - q.cqHead) % 2 ^ q.log2 →
    exec (.doorbellCqHead fn off 4 v) s = .next (s.violation 0x0B05 fn (some q.id) off v)) ∧
  (∀ (s : State) (fn off v : Nat) (q y : Queue), pairQueue s fn off = some q → q.bound = true → s.active = true →
    off % 8 = 0 → (writeSqTail s q fn off (v % 2 ^ 32) (v % 2 ^ 32)).queue? q.id = some y →
    exec (.doorbellSqTail fn off 8 v) s = .next (writeCqHead (writeSqTail s q fn off (v % 2 ^ 32) (v % 2 ^ 32)) y fn off
      (v / 2 ^ 32 % 2 ^ 32) (v % 2 ^ 32))) ∧
  (∀ (s : State) (fn off size v i : Nat), pairIndex fn off = some i →
    (size = 4 → off % 4 ≠ 0) → (size = 8 → off % 8 ≠ 0) →
    exec (if off % 8 < 4 then .doorbellSqTail fn off size v else .doorbellCqHead fn off size v) s =
      .next (s.violation 0x0B03 fn ((pairQueue s fn off).map (fun x => x.id)) off (v % 2 ^ 32))) ∧
  (∀ (s : State) (fn off v i : Nat), pairIndex fn off = some i → pairQueue s fn off = none → off % 4 = 0 →
    exec (if off % 8 < 4 then .doorbellSqTail fn off 4 v else .doorbellCqHead fn off 4 v) s =
      .next (s.violation 0x0B01 fn none off (v % 2 ^ 32))) ∧
  (∀ (s : State) (fn off v : Nat) (q : Queue), pairQueue s fn off = some q → q.bound = false ∨ s.active = false →
    off % 4 = 0 → exec (if off % 8 < 4 then .doorbellSqTail fn off 4 v else .doorbellCqHead fn off 4 v) s =
      .next (s.violation 0x0B02 fn (some q.id) off (v % 2 ^ 32))) ∧
  (∀ (s : State) (qid : Nat) (q : Queue), s.queue? qid = some q → q.bound = true → q.stopped = false → q.reading = 0 →
    q.ready ≠ 0 → q.sqHead < 2 ^ q.log2 → s.host.d3.contains q.fn = false → s.active = true →
    queueLoad s q + b2n q.errDue < 2 ^ q.log2 - 1 →
    s.tryFetch qid =
      (s.modQueue qid (fun x => { x with reading := min 8 (min q.ready (2 ^ q.log2 - q.sqHead)) })).send
        (.hostRead (q.sq + 128 * q.sqHead) (128 * min 8 (min q.ready (2 ^ q.log2 - q.sqHead))))) ∧
  (∀ (s : State) (qid : Nat) (es : List Bytes) (q : Queue), s.queue? qid = some q → q.reading ≠ 0 →
    q.reading ≤ es.length →
    exec (.sqEntryFetched qid es) s = .next (({ s.modQueue qid (fun x => { x with
        reading := 0, sqHead := (x.sqHead + q.reading) % 2 ^ x.log2 }) with
      fetched := s.fetched ++ (es.take q.reading).map (fun e => ({ q := qid, part := q.part, entry := sl e 0 128, cancelled := false } : Fetched)) }
      : State).tryFetch qid)) ∧
  (∀ (s : State) (qid : Nat) (q : Queue), s.queue? qid = some q → q.reading ≠ 0 →
    exec (.sqFetchFailed qid) s = .next (((s.violation 0x0B06 q.fn (some qid) ((q.sq + 128 * q.sqHead) % 2 ^ 32)
      ((q.sq + 128 * q.sqHead) / 2 ^ 32)).modQueue qid (fun x => { x with
        reading := 0, stopped := true, errDue := true })).tryErr qid))) ∧
  ((∀ (s : State) (p : Place) (addr : Nat) (c : Cmd), s.cmd? p = some c → c.phase = .waitExt → c.abort = false →
    exec (.hostReadError p addr) s = .next ((s.violation 0x0B08 c.fn (Path.queue? c.path) (addr % 2 ^ 32)
      (addr / 2 ^ 32)).retire c 0x1004)) ∧
  (∀ (s : State) (p : Place) (addr r : Nat) (c : Cmd), s.cmd? p = some c → c.phase = .waitPtr r → c.abort = false →
    exec (.hostReadError p addr) s = .next ((s.violation 0x0B08 c.fn (Path.queue? c.path) (addr % 2 ^ 32)
      (addr / 2 ^ 32)).retire c 0x1004)) ∧
  (∀ (s : State) (p : Place) (addr : Nat), exec (.hostReadTimeout (.cmd p) addr) s = exec (.hostReadError p addr) s) ∧
  (∀ (s : State) (q addr : Nat), exec (.hostReadTimeout (.ring q) addr) s = exec (.sqFetchFailed q) s) ∧
  (∀ (s : State) (fn addr : Nat), exec (.hostWriteRefused (.mailbox fn) addr) s =
    .next (s.violation 0x0B07 fn none (addr % 2 ^ 32) (addr / 2 ^ 32))) ∧
  (∀ (s s1 : State) (qid addr : Nat) (q : Queue), s.queue? qid = some q →
    s1 = (s.violation 0x0B07 q.fn (some qid) (addr % 2 ^ 32) (addr / 2 ^ 32)).unbind qid →
    exec (.hostWriteRefused (.queue qid) addr) s = .next (({ s1 with
      cmds := updWhere (fun c => c.path == Path.queue qid) (fun c => { c with discard := true }) s1.cmds
      lk := { s1.lk with held := s1.lk.held.filter (fun h => h.path != Path.queue qid) } } : State).abortWhere
        (fun c => c.path == Path.queue qid))) ∧
  (∀ (s : State) (p : Place) (ref : Nat) (data : Bytes) (c : Cmd), s.cmd? p = some c → c.phase = .waitPtr ref →
    c.abort = false → exec (.keyBlockPointerRead p ref data) s =
      .next (s.setCmd { c with phase := .ready, ptrs := (ref, sl data 0 (c.kref ref).len) :: c.ptrs })) ∧
  (∀ (s : State) (p : Place) (data : Bytes) (c c1 : Cmd) (d : DirEnt), s.cmd? p = some c → c.phase = .waitExt →
    c.abort = false → c.dir = some d → c1 = { c with
      mem := Mem.writeN c.mem 0x100 (sl data 0 (Mem.num c.mem 24 4)), extLen := Mem.num c.mem 24 4 } →
    refsStatus c1 d = none → exec (.extDataFetched p data) s = .next (idemCheck (s.setCmd c1) c1 d)) ∧
  (∀ (s : State) (p : Place) (data : Bytes) (c c1 : Cmd) (d : DirEnt) (st : Nat), s.cmd? p = some c →
    c.phase = .waitExt → c.abort = false → c.dir = some d → c1 = { c with
      mem := Mem.writeN c.mem 0x100 (sl data 0 (Mem.num c.mem 24 4)), extLen := Mem.num c.mem 24 4 } →
    refsStatus c1 d = some st → exec (.extDataFetched p data) s = .next ((s.setCmd c1).retire c1 st)) ∧
  (∀ (s : State) (p : Place) (data : Bytes) (c : Cmd), s.cmd? p = some c → c.phase = .waitImage → c.abort = false →
    exec (.extDataFetched p data) s = .next { s.setCmd { c with phase := .ready } with
      drafts := { s.drafts with staging := sl data 0 (min (c.inl 80 4) 0x200000) } }) ∧
  (∀ (s : State) (p : Place) (data : Bytes) (c : Cmd), s.cmd? p = some c → c.phase = .waitExt → c.abort = true →
    exec (.extDataFetched p data) s = .next (s.retire c 0x7002)))

/-- The mailbox and the admission slot (R52, R54, R78, R80, R81): GO in IDLE starts the command and in another state is
refused with 0x0B0A, ACK in DONE empties RESULT and DATA, a STATUS read counts itself, and an admission slot fills the
token buckets and serves the mailbox, then the guaranteed pass, then the weighted pass. -/
def Obligations.MailboxAndAdmissionComplete : Prop :=
  (∀ (s s1 : State) (fn value : Nat) (m : Mbx), s.hostUp = true → s.fnExists fn = true → bit value 0 = true →
    bit value 1 = false → m = (if fn = 0 then s.mbx fn else { s.mbx fn with ie := bit value 2 }) → m.state = 0 →
    s1 = (s.setMbx m).setMbx { m with state := 1, waiting := true, readcnt := 0 } →
    (admitOpen s1 = false ∨ waitingMbx s1 ≠ some (s1.mbx fn) → exec (.mbxGo fn value) s = .next s1) ∧
    (admitOpen s1 = true → waitingMbx s1 = some (s1.mbx fn) →
      exec (.mbxGo fn value) s = .next (admitMbx s1 (s1.mbx fn)))) ∧
  (∀ (s : State) (fn value : Nat) (m : Mbx), s.hostUp = true → s.fnExists fn = true → bit value 0 = true →
    bit value 1 = false → m = (if fn = 0 then s.mbx fn else { s.mbx fn with ie := bit value 2 }) → m.state ≠ 0 →
    exec (.mbxGo fn value) s = .next (((s.setMbx m).setMbx { m with refused := true }).violation 0x0B0A fn none 0 0)) ∧
  (∀ (s : State) (fn value : Nat) (m : Mbx), s.hostUp = true → s.fnExists fn = true → bit value 0 = false →
    bit value 1 = true → m = (if fn = 0 then s.mbx fn else { s.mbx fn with ie := bit value 2 }) → m.state = 2 →
    m.fn = fn → exec (.mbxAck fn value) s =
      .next ((s.setMbx m).setMbx { m with state := 0, result := zeros 32, data := [] })) ∧
  (∀ (s : State) (fn value : Nat) (m : Mbx), s.hostUp = true → s.fnExists fn = true → bit value 0 = false →
    bit value 1 = true → m = (if fn = 0 then s.mbx fn else { s.mbx fn with ie := bit value 2 }) → m.state ≠ 2 →
    exec (.mbxAck fn value) s = .next (s.setMbx m)) ∧
  (∀ (s : State) (fn : Nat), s.hostUp = true → s.fnExists fn = true → exec (.mbxStatusRead fn) s =
    .next ((s.setMbx { s.mbx fn with readcnt := min ((s.mbx fn).readcnt + 1) 0xFFFF }).send
      (.barRead fn 0x1084 (s.mbx fn).status))) ∧
  (∀ (s : State) (m : Mbx) (p : Place), mbxServable s m = true → noLoom s (fieldLe m.entry 4 2 % 1024) = false →
    freePlace s (fieldLe m.entry 4 2 % 1024) = some p →
    admitMbx s m = admitEntry (s.setMbx { m with waiting := false }) p (.mailbox m.fn) m.fn 0 m.entry) ∧
  (∀ (s : State) (m : Mbx) (c : Cmd), mbxServable s m = true → noLoom s (fieldLe m.entry 4 2 % 1024) = true →
    c = freshCmd s (.ctx 0) (.mailbox m.fn) m.fn 0 m.entry → entryStatus s c = none → reservedBits c = false →
    admitMbx s m = (s.setMbx { m with waiting := false }).refuseEntry (.mailbox m.fn) m.fn 0 m.entry 0x5001) ∧
  (∀ (s s1 : State), s1 = { s with parts := s.parts.map (fillTokens s.looms) } →
    (admitOpen s1 = false → exec .schedAdmit s = .next s1) ∧
    (∀ m, admitOpen s1 = true → waitingMbx s1 = some m → exec .schedAdmit s = .next (admitMbx s1 m)) ∧
    (∀ e, admitOpen s1 = true → waitingMbx s1 = none → guaranteed s1 = some e →
      exec .schedAdmit s = .next (admitFetched { s1 with
        sched := { s1.sched with lastGuar := e.part }
        parts := setPart s1.parts e.part (fun y => { y with lastQ := e.q }) } e)) ∧
    (∀ e ps, admitOpen s1 = true → waitingMbx s1 = none → guaranteed s1 = none → weighted s1 = some (e, ps) →
      exec .schedAdmit s = .next (admitFetched { s1 with parts := ps } e)) ∧
    (admitOpen s1 = true → waitingMbx s1 = none → guaranteed s1 = none → weighted s1 = none →
      exec .schedAdmit s = .next s1)) ∧
  (∀ (s : State) (e : Fetched) (q : Queue) (p : Place), s.queue? e.q = some q →
    freePlace s (fieldLe e.entry 4 2 % 1024) = some p →
    admitFetched s e = admitEntry { s with fetched := s.fetched.erase e } p (.queue e.q) q.fn e.part e.entry) ∧
  (∀ (s : State) (p : Place) (path : Path) (fn part : Nat) (entry : Bytes),
    admitEntry s p path fn part entry = admitChecks { s with
      parts := s.parts.map (charge (s.ancestors part) (s.cost entry))
      cmds := s.cmds ++ [freshCmd s p path fn part entry]
      sched := { s.sched with nextOrder := s.sched.nextOrder + 1 } } (freshCmd s p path fn part entry))

/-- Functions and the PCI Express link (R49, R84, R85, Table 01.8): D3hot holds a function's completions until its return to
D0, a function-level reset and the clearing of VF Enable reset virtual functions, a configuration request changes the
field it names, and the link comes up once. -/
def Obligations.FunctionsAndLinkComplete : Prop :=
  (∀ (s : State) (fn : Nat), s.fnExists fn = true → s.host.d3.contains fn = false →
    exec (.functionD3hotEntry fn) s = .next { s with host := { s.host with d3 := fn :: s.host.d3 } }) ∧
  (∀ (s : State) (fn : Nat), s.host.d3.contains fn = true → (∀ h ∈ s.d3held, h.fn ≠ fn) →
    (∀ q ∈ s.queues, q.fn ≠ fn) →
    exec (.functionD0Return fn) s = .next { s with host := { s.host with d3 := s.host.d3.filter (fun f => f != fn) } }) ∧
  (∀ (s s1 : State) (fn : Nat), s.host.d3.contains fn = true →
    s1 = ({ s with host := { s.host with d3 := s.host.d3.filter (fun f => f != fn) }
                   d3held := s.d3held.filter (fun h => h.fn != fn) } : State).deliverAll
      (s.d3held.filter (fun h => h.fn == fn)) →
    exec (.functionD0Return fn) s =
      .next ((s1.queues.filter (fun q => q.fn == fn)).foldl (fun (t : State) q => t.slotFree q.id) s1)) ∧
  (∀ (s : State) (fn : Nat), fn ≠ 0 → s.fnExists fn = true → exec (.vfFlr fn) s = .next (s.resetVf fn)) ∧
  (∀ (s : State) (fn : Nat), (∀ q ∈ s.queues, q.fn ≠ fn) → (∀ c ∈ s.cmds, c.fn ≠ fn) → (∀ h ∈ s.lk.held, h.fn ≠ fn) →
    (∀ h ∈ s.d3held, h.fn ≠ fn) → s.resetVf fn = { s.setMbx (Mbx.idle fn) with
      host := { (s.setMbx (Mbx.idle fn)).host with
        bme := s.host.bme.filter (fun f => f != fn), relaxed := s.host.relaxed.filter (fun f => f != fn)
        d3 := s.host.d3.filter (fun f => f != fn), msixEn := s.host.msixEn.filter (fun f => f != fn)
        msixMask := s.host.msixMask.filter (fun f => f != fn), msix := s.host.msix.filter (fun e => e.fn != fn)
        pba := s.host.pba.filter (fun p => p.1 != fn) } }) ∧
  (∀ (s s1 : State), s.host.vfEnable = true →
    s1 = ((List.range s.host.numVfs).map (fun i => i + 1)).foldl (fun (t : State) fn => t.resetVf fn) s →
    exec .vfEnableClear s = .next { s1 with host := { s1.host with vfEnable := false } }) ∧
  (∀ (s : State), s.host.training = true →
    exec .pcieLinkUp s = .next { s with host := { s.host with training := false, linkUp := true } }) ∧
  (∀ (s : State) (r : CfgReq), s.host.training = false → s.host.linkUp = false →
    exec (.pcieConfigurationRequest r) s = .next s) ∧
  (∀ (s : State) (fn : Nat) (i : CfgItem), s.host.training = true ∨ s.host.linkUp = true → s.sys.step < 11 →
    exec (.pcieConfigurationRequest (.read fn i)) s = .next (s.send (.retry 0))) ∧
  (∀ (s : State), s.host.training = true ∨ s.host.linkUp = true → 11 ≤ s.sys.step →
    (∀ n, n ≤ 255 → s.host.vfEnable = false → exec (.pcieConfigurationRequest (.writeNumVfs n)) s =
      .next { s with host := { s.host with numVfs := n } }) ∧
    (exec (.pcieConfigurationRequest (.writeVfEnable true)) s = .next { s with host := { s.host with vfEnable := true } }) ∧
    (∀ v, exec (.pcieConfigurationRequest (.writeSysPageSize v)) s =
      .next { s with host := { s.host with sysPage := if v = 0x10 then 0x10 else 1 } }) ∧
    (∀ fn, exec (.pcieConfigurationRequest (.writeBusMaster fn true)) s =
      .next { s with host := { s.host with bme := fn :: s.host.bme.filter (fun f => f != fn) } }) ∧
    (∀ fn, exec (.pcieConfigurationRequest (.writeBusMaster fn false)) s =
      .next { s with host := { s.host with bme := s.host.bme.filter (fun f => f != fn) } }) ∧
    (∀ fn, exec (.pcieConfigurationRequest (.writeRelaxed fn true)) s =
      .next { s with host := { s.host with relaxed := fn :: s.host.relaxed.filter (fun f => f != fn) } }) ∧
    (∀ fn, exec (.pcieConfigurationRequest (.writeMsixCtrl fn false true)) s =
      .next { s with host := { s.host with msixEn := s.host.msixEn.filter (fun f => f != fn)
                                           msixMask := fn :: s.host.msixMask.filter (fun f => f != fn) } }) ∧
    (∀ fn i, exec (.pcieConfigurationRequest (.read fn i)) s = .next (s.send (.cfgRead (cfgItem s.host fn i)))) ∧
    (∀ v, exec (.pcieConfigurationRequest (.clearAer v)) s =
      .next { s with host := { s.host with aer := s.host.aer &&& ~~~BitVec.ofNat 32 v } }) ∧
    (exec (.pcieConfigurationRequest .malformed) s =
      .next { s with host := { s.host with aer := s.host.aer ||| aerMalformed } }))

/-- The life of a bignum job (R218, R219, R220, R221, R223, R224, R226, R227, R229, R237, R238, R241): the highest-ranked new
job that can be placed starts once the values it draws are there, waits for the DRBG instance that owes them, or ends if
it can no longer start; it parks at a yield point when a job of higher rank can take its cores, which resumes at once if
it was parked itself; it resumes, and ends with a result, a rejection, a mismatch of its twins or an error of a member's
memory. Contexts are scrubbed before they are free again, a SLOW job that has waited too long is promoted, and a key
generation that finds no prime fails. -/
def Obligations.BignumJobsComplete : Prop :=
  (∀ (s s1 : State) (j : Job), s1 = promoteAged s →
    (sortJobs s1.bn.jobs).find? (fun x => (stopsNew s1 x).isSome || (placeable s1 x).isSome) = some j →
    (∀ st, stopsNew s1 j = some st → exec .bnJobPlace s = .next (stopJob s1 j st)) ∧
    (∀ cs t b, stopsNew s1 j = none → placeable s1 j = some cs → blind s1 j.kind (blindAsks j cs) [] = .ok (t, b) →
      exec .bnJobPlace s = .next ((occupy t cs).1.modJob j.id (fun x => { x with
        state := 1, cores := (occupy t cs).2, asks := none, rnd := b }))) ∧
    (∀ cs t i, stopsNew s1 j = none → placeable s1 j = some cs → blind s1 j.kind (blindAsks j cs) [] = .error (t, i) →
      ∃ f : Job → Nat, exec .bnJobPlace s = .next (t.modJob j.id (fun x => { x with asks := some (i, f x) })))) ∧
  (∀ (s s1 : State) (n : Nat) (j : Job), s1 = promoteAged s → s1.job? n = some j → j.state = 1 → j.level ≠ 0 →
    j.abort = false → j.noRng = false →
    (rival s1 j = none → exec (.bnYieldPoint n) s = .next s1) ∧
    (∀ x t, rival s1 j = some x → t = (s1.runCores j false).modJob j.id (fun y => { y with state := 2, since := s.evr.optime }) →
      exec (.bnYieldPoint n) s = .next (if x.state = 2 ∧ idleCores t (x.cores.map (fun a => a.1)) then
          resumeJob { t with bn := { t.bn with yields := (t.bn.yields + 1) % 2 ^ 32 } } x
        else { t with bn := { t.bn with yields := (t.bn.yields + 1) % 2 ^ 32 } }))) ∧
  (∀ (s s1 : State) (n : Nat) (j : Job), s1 = promoteAged s → s1.job? n = some j → j.state = 1 → j.level ≠ 0 →
    (j.abort = true → exec (.bnYieldPoint n) s = .next (bumpAborts (failJob s1 j 0x7002))) ∧
    (j.abort = false → j.noRng = true → exec (.bnYieldPoint n) s = .next (bumpAborts (failJob s1 j 0x9001)))) ∧
  (∀ (s s1 : State) (n : Nat) (j : Job) (cs : List Nat), s1 = promoteAged s →
    (claims s1).find? (fun x => x.1.id == n && x.1.state == 2 && idleCores s1 x.2) = some (j, cs) →
    exec (.bnJobResume n) s = .next ((s1.runCores j true).modJob j.id (fun x => { x with state := 1 }))) ∧
  (∀ (s : State) (n : Nat) (differ : Bool) (j : Job) (c : Cmd) (a : StepArgs), s.job? n = some j → j.state = 1 →
    j.abort = false → j.noRng = false → j.kind = 1 ∨ differ = false → jobCmd s j = some c → c.pend = some a →
    exec (.bnJobEnd n differ none) s = .next (s.jobResult j c a (bnCompute j.req j.rnd))) ∧
  (∀ (s : State) (n : Nat) (differ : Bool) (ecc : Option Nat) (j : Job), s.job? n = some j → j.state = 1 →
    (j.abort = true → exec (.bnJobEnd n differ ecc) s = .next (bumpAborts (failJob s j 0x7002))) ∧
    (j.abort = false → j.noRng = true → exec (.bnJobEnd n differ ecc) s = .next (bumpAborts (failJob s j 0x9001)))) ∧
  (∀ (s s1 : State) (n : Nat) (j : Job) (c : Cmd), s.job? n = some j → j.state = 1 → j.abort = false → j.noRng = false →
    j.kind ≠ 1 → jobCmd s j = some c →
    s1 = (failJob s j 0x7001).raise 0x0C01 c.opcode (((j.cores.head?.map (fun x => x.1)).getD 0) +
      256 * (((j.cores[j.cores.length / 2]?).map (fun x => x.1)).getD 0)) c.part (bnClass j.req) →
    exec (.bnJobEnd n true none) s = .next (j.cores.foldl (fun t x => mismatchCore t x.1)
      { s1 with bn := { s1.bn with mismatch := (s1.bn.mismatch + 1) % 2 ^ 32 } })) ∧
  (∀ (s : State) (n core : Nat) (differ : Bool) (j : Job) (c : Cmd) (x : Nat × Nat), s.job? n = some j → j.state = 1 →
    j.abort = false → j.noRng = false → jobCmd s j = some c → j.cores.find? (fun y => y.1 == core) = some x →
    exec (.bnJobEnd n differ (some core)) s =
      .next (removeCore ((failJob s j 0x7001).raise 0x0C04 x.1 x.2 c.opcode c.part) x.1 4)) ∧
  (∀ (s s1 : State) (core ctx order : Nat) (p : Place),
    (s.core core).scrub.find? (fun x => x.1 == ctx) = some (ctx, p, order) →
    s1 = s.modCore core (fun k => { k with scrub := k.scrub.filter (fun y => y.1 != ctx) }) →
    exec (.bnContextScrubbed core ctx true) s = .next s1 ∧
    exec (.bnContextScrubbed core ctx false) s = .next (removeCore (scrubFault (s1.raise 0x0C06 core ctx 0 0) p order) core 3)) ∧
  (∀ (s : State) (n : Nat) (j : Job), s.job? n = some j →
    (j.level = 2 → j.state ≠ 1 →
      exec (.bnStarvePromote n) s = .next (promoteAged (s.timeAtLeast (j.since + max 1 s.bn.starve + 1)))) ∧
    (j.level ≠ 2 ∨ j.state = 1 → exec (.bnStarvePromote n) s = .next s)) ∧
  (∀ (s : State) (n tried : Nat) (j : Job) (c : Cmd), s.job? n = some j → j.keygen = true → j.state = 1 →
    jobCmd s j = some c →
    exec (.bnKeygenLimit n tried) s = .next ((failJob s j 0x7001).raise 0x0C05 c.opcode c.part tried 0))

/-- The working key cache on its own (R132, R154, R158, R160, R161): a fill ends with its key or with its status, a limited
object's fill waits for a reservation, the sweep starts on the active member and visits one bucket a time, and a walk
removes the entries of its partitions and answers who waited for it. The journal and the routing tables on their own
(R135, R136, R138, R177, R178): the commit at the head is written while commits are open, the relocation that follows 64
commits is asked for, a new sequence reservation becomes durable, an update of a settled table is checked whole and
committed, and the other parity is copied once no LOOM command of another generation is in flight. -/
def Obligations.CacheJournalAndTableEventsComplete : Prop :=
  ((∀ (s : State) (b u w : Nat) (f : Fill), s.kc.fills.find? (fun x => x.bank == b && x.bucket == u && x.way == w) = some f →
    f.reserving = false → f.key = none → exec (.kcFillDone b u w) s = .next (failFill s f f.status f.note)) ∧
  (∀ (s : State) (b u w : Nat) (f : Fill) (k : KeyInfo),
    s.kc.fills.find? (fun x => x.bank == b && x.bucket == u && x.way == w) = some f → f.reserving = false →
    f.key = some k → k.limited = false ∨ f.handle = 0 → exec (.kcFillDone b u w) s = .next (finishFill s f k 0 true)) ∧
  (∀ (s : State) (b u w : Nat) (f : Fill) (k : KeyInfo),
    s.kc.fills.find? (fun x => x.bank == b && x.bucket == u && x.way == w) = some f → f.reserving = false →
    f.key = some k → k.limited = true → f.handle ≠ 0 → s.spent f.handle = false →
    exec (.kcFillDone b u w) s = .next { s.enqueue (.reserve f.handle b u w) none with
      kc := { s.kc with fills := updWhere (fun x => x == f) (fun x => { x with reserving := true }) s.kc.fills } }) ∧
  (∀ (s : State) (salt : Bytes), s.kc.sweeping = false → s.active = true → s.kc.salt = some salt →
    exec .kcSweepPassStart s = .next { s with kc := { s.kc with sweeping := true, bucket := 0 } }) ∧
  (∀ (s : State), s.active = false → exec .kcSweepPassStart s = .next s) ∧
  (∀ (s s1 : State) (gone : List Way), s.kc.sweeping = true → (∀ w ∈ s.kc.ways, w.ecc = false) →
    gone = s.kc.ways.filter (fun w => (w.bucket == s.kc.bucket && w.valid && !w.cont && !w.filling) && sweepGone s w) →
    s.active = true → s1 = (gone.foldl (fun (t : State) w => (t.dropKey w).mirrorRemovals [w]) s).modWays
      (fun w => w.bucket == s.kc.bucket && w.valid && !w.cont && !w.filling) sweepKeep →
    exec .kcSweepVisit s = .next { s1 with kc := { s1.kc.bump 0 0 0 gone.length 0 0 with
      bucket := (s.kc.bucket + 1) % 16384, sweeping := decide (s.kc.bucket + 1 < 16384) } }) ∧
  (∀ (s : State) (w : Walk) (rest : List Walk) (p : Place) (c : Cmd), s.kc.walks = w :: rest → w.teardown = none →
    w.who = some p → (∀ x ∈ s.kc.ways, x.ecc = false) →
    (({ s with kc := { s.kc with walks := rest } } : State).walk w.parts).cmd? p = some c → c.phase = .waitWalk →
    exec .kcWalkDone s = .next (okInline (({ s with kc := { s.kc with walks := rest } } : State).walk w.parts) c
      (toLe 4 (s.kc.ways.filter (fun x => w.parts.contains x.part && !x.cont && x.valid && !x.invalidated)).length))) ∧
  (∀ (s : State) (w : Walk) (rest : List Walk) (p : Nat) (t : Tear), s.kc.walks = w :: rest →
    w.teardown = some p → s.tears.find? (fun x => x.root == p) = some t → partBusy s t.cur t.who = false →
    (∀ x ∈ s.kc.ways, x.ecc = false) → exec .kcWalkDone s = .next (teardownAdvance (teardownObjects
      (({ s with kc := { s.kc with walks := rest } } : State).walk w.parts) t))) ∧
  (∀ (s : State), s.active = false → exec .kcSweepVisit s = .next s)) ∧
  ((∀ (s s1 : State), s1 = (teardownAdvance (journalCommit s)).promoteEnd → s1.sys.hwResetDue = false →
    exec .journalCommitDone s = .next s1) ∧
  (∀ (s s1 : State), s1 = (teardownAdvance (journalCommit s)).promoteEnd → s1.sys.hwResetDue = true → exec .journalCommitDone s =
    .next (assertReset kW s1.sys.causes 4 { s1 with sys := { s1.sys with hwResetDue := false } })) ∧
  (∀ (s t : State) (h : Commit), s.headCommit = some h → journalOpen s h.started = true →
    t = { s with ks := { s.ks with queue := s.ks.queue.erase h } } →
    (∀ p a k g, h.kind = .store p a k g → storeRefused s = false → journalCommit s = commitStore t h.who p a k g) ∧
    (∀ p a k g, h.kind = .store p a k g → storeRefused s = true → journalCommit s = refused t h.who 0x8002) ∧
    (∀ o b u w, h.kind = .reserve o b u w → journalCommit s = commitReserve t o b u w) ∧
    (∀ o, h.kind = .tombstone o → journalCommit s = commitTombstone t h.who o) ∧
    (∀ o, h.kind = .relocate o → journalCommit s = relocate t) ∧
    (∀ k, h.kind = .domain k → journalCommit s = commitDomain t k) ∧
    (∀ o, h.kind = .raise o → journalCommit s = commitUses t o 12288 false)) ∧
  (∀ (s : State) (h : Commit), s.headCommit = some h → journalOpen s h.started = false → journalCommit s = s) ∧
  (∀ (s : State), s.headCommit = none → journalCommit s = s) ∧
  (∀ (s : State), 64 ≤ s.ks.sinceReloc → exec .journalRelocate s = .next { s with ks := { s.ks with
    sinceReloc := s.ks.sinceReloc - 64
    queue := s.ks.queue ++ [{ kind := .relocate 0, who := none, started := false }] } }) ∧
  (∀ (s : State), s.ks.hold = false → s.sag.warning = false → s.ks.reservation ≤ s.ks.nextSeq →
    exec .sequenceReservationDurable s = .next { s with ks := { s.ks with
      reservation := s.ks.nextSeq + 0x10000, cfgStone := s.ks.stone } }) ∧
  (∀ (s : State) (c : Cmd), nextUpdate false s = some c → s.rt.rSettled = true → s.canCommit = true →
    s.rt.rWait.contains c.place = true → (∀ t ∈ s.tears, t.who ≠ some c.place) →
    exec (.rtUpdateSettled false) s = .next (runUpdate false s c.place)) ∧
  (∀ (s : State) (c : Cmd), nextUpdate true s = some c → s.rt.pSettled = true → s.canCommit = true →
    s.rt.pWait.contains c.place = true → (∀ t ∈ s.tears, t.who ≠ some c.place) →
    exec (.rtUpdateSettled true) s = .next (runUpdate true s c.place)) ∧
  (∀ (s : State) (policy : Bool) (c : Cmd) (k : Nat) (t : Tear), nextUpdate policy s = some c →
    (if policy then s.rt.pSettled else s.rt.rSettled) = true → s.canCommit = true →
    (if policy then s.rt.pWait else s.rt.rWait).contains c.place = true → c.phase = .waitTeardown k →
    s.tears.find? (fun t => t.who == some c.place) = some t →
    exec (.rtUpdateSettled policy) s = .next (teardownAdvance (teardownTables policy s t.cur c.place))) ∧
  (∀ (s s1 : State) (p : Place) (c c1 : Cmd) (part : Machine.Part) (l : List Route), s.cmd? p = some c →
    c.phase = .waitTable → headerFault s c (c.own (looksForQuorum c.opcode)) 24 = none →
    s.part? (fieldLe (c.own (looksForQuorum c.opcode)) 0 2) = some part →
    applyAll (applyRoute s.rt (s.rt.routes s.rt.rgen) part) 0 (batchRecords (c.own (looksForQuorum c.opcode)) 24)
      (s.rt.routes s.rt.rgen) = .ok l →
    s1 = { s with rt := { s.rt with rWait := s.rt.rWait.filter (fun x => x != p) } } →
    c1 = (s.stamped c).setInline 0 (zeros 4 ++ toLe 4 ((s.rt.rgen + 1) % 2 ^ 32) ++ zeros 8) →
    runUpdate false s p = ((commitRoutes s1 l).commitFor c1 (zeros 4 ++ toLe 4 ((s.rt.rgen + 1) % 2 ^ 32) ++ zeros 8) 0x06
      part.id (c.own (looksForQuorum c.opcode) ++ toLe 4 ((s.rt.rgen + 1) % 2 ^ 32))).retireWith c1 0 false true []) ∧
  (∀ (s s1 : State) (p : Place) (c c1 : Cmd) (part : Machine.Part) (l : List Rule), s.cmd? p = some c →
    c.phase = .waitTable → headerFault s c (c.own (looksForQuorum c.opcode)) 32 = none →
    s.part? (fieldLe (c.own (looksForQuorum c.opcode)) 0 2) = some part →
    applyAll (applyRule (s.rt.rules s.rt.pgen) part) 0 (batchRecords (c.own (looksForQuorum c.opcode)) 32)
      (s.rt.rules s.rt.pgen) = .ok l →
    s1 = { s with rt := { s.rt with pWait := s.rt.pWait.filter (fun x => x != p) } } →
    c1 = (s.stamped c).setInline 0 (zeros 4 ++ toLe 4 ((s.rt.pgen + 1) % 2 ^ 32) ++ zeros 8) →
    runUpdate true s p = (((commitRules s1 l [part.id]).commitFor c1 (zeros 4 ++ toLe 4 ((s.rt.pgen + 1) % 2 ^ 32) ++ zeros 8)
      0x07 part.id (c.own (looksForQuorum c.opcode) ++ toLe 4 ((s.rt.pgen + 1) % 2 ^ 32))).walk [part.id]).retireWith c1 0
        false true []) ∧
  (∀ (s : State) (p : Place) (c : Cmd) (d : Nat), s.cmd? p = some c →
    c.phase = .waitTable → headerFault s c (c.own (looksForQuorum c.opcode)) 24 = some d →
    runUpdate false s p = updateFail { s with rt := { s.rt with rWait := s.rt.rWait.filter (fun x => x != p) } } c d 0xFFFF) ∧
  (∀ (s : State), oldLoom s false = false → s.rt.rSettled = false → exec (.rtParityCopy false) s =
    .next { s with rt := { s.rt.setRoutes (s.rt.rgen + 1) (s.rt.routes s.rt.rgen) with rSettled := true } }) ∧
  (∀ (s : State), oldLoom s true = false → s.rt.pSettled = false → exec (.rtParityCopy true) s =
    .next { s with rt := { s.rt.setRules (s.rt.pgen + 1) (s.rt.rules s.rt.pgen) with pSettled := true } }))

/-- The end of waiting in dual control, teardown and drains (R50, R261, R264, R268, R292, R328): the abort point of a teardown
aborts what runs in the subtree and asks for the walk, a drain that takes too long aborts what is in flight, an expired
nonce is gone, and a verified quorum lets its command go on or ends it with the reason; then the next verification begins.
One that has begun goes on whatever is marked meanwhile, and a command whose partition has gone before ends without one. -/
def Obligations.TeardownAndQuorumEventsComplete : Prop :=
  (∀ (s s1 : State) (p : Nat) (t : Tear), s.tears.find? (fun x => x.cur == p && x.step == 3) = some t →
    s1 = s.abortWhere (fun c => some c.place != t.who && c.part == p) →
    exec (.teardownAbortPoint p) s = .next { s1 with
      kc := { s1.kc with walks := s1.kc.walks ++ [{ parts := [p], who := none, teardown := some t.root }] }
      tears := updWhere (fun x => x.root == t.root) (fun x => { x with step := 4 }) s1.tears }) ∧
  (∀ (s : State), s.sys.drainStop = true → exec .admissionDrainTimeout s =
    .next (s.abortWhere (fun c => !(c.phase == .waitOtp) && !(c.phase == .waitSwitch)))) ∧
  (∀ (s : State), s.sys.drainStop = false → exec .admissionDrainTimeout s = .next s) ∧
  (∀ (s : State) (p v : Nat) (n : Nonce), s.qr.nonces.find? (fun n => n.part == p && n.value == v) = some n →
    exec (.nonceExpiry p v) s = .next { s with
      evr := { s.evr with optime := max s.evr.optime (n.time + 1200000) }
      qr := { s.qr with nonces := s.qr.nonces.filter (fun n => !(n.part == p && n.value == v)) } }) ∧
  (∀ (s r1 : State) (p : Place) (c : Cmd) (v : Except (Nat × Nat) (Nat × Nat)), s.cmd? p = some c → quorumNext s = some p →
    s.qr.verifying = some p ∨ custSetOpen s c (demandOf s c) = false ∧ partGone s c = false → c.abort = false →
    verifyQuorum s c (demandOf s c) = (r1, v) → exec (.quorumVerifyDone p) s =
      .next (beginVerify (({ r1 with qr := { r1.qr with waiting := r1.qr.waiting.filter (fun x => x != p) } } :
        State).quorumEnds c (demandOf s c) v))) ∧
  (∀ (s : State) (p : Place) (c : Cmd), s.cmd? p = some c → quorumNext s = some p →
    s.qr.verifying ≠ some p → custSetOpen s c (demandOf s c) = false → partGone s c = true →
    exec (.quorumVerifyDone p) s = .next (beginVerify (partGoneFail { s with qr := { s.qr with
      waiting := s.qr.waiting.filter (fun x => x != p) } } c))) ∧
  (∀ (s : State) (c : Cmd) (d : Demand), d.sets.any (setMeets s d) = false →
    verifyQuorum s c d = (s, .error (1, 0xFF)))

/-- The causes of resets (R25, R26, R27, R28, R135, R371, Tables 01.6 and 01.7): each asserts its kind with its cause bit; a W
reset that meets a commit being written waits for its commit word; RSTREQ needs its key, and a watchdog acts once its
count has reached its timeout while it runs. -/
def Obligations.ResetCausesComplete : Prop :=
  (∀ (s : State), exec .resetPowerOn s = .next (assertReset kP 1 4 s)) ∧
  (∀ (s s1 : State) (rail us : Nat), rail ≤ 3 → s1 = assertReset kS 2 4 s → exec (.resetSag rail us) s =
    .next { s1 with sag := { s1.sag with resets := min (s1.sag.resets + 1) 0xFFFF, holdUs := min us 0xFFFF
                                         short := decide (us < 40), rail := rail, eventDue := true } }) ∧
  (∀ (s : State) (cause : BitVec 7), commitWriting s = false → warmReset cause s = assertReset kW cause 4 s) ∧
  (∀ (s : State) (cause : BitVec 7), commitWriting s = true → s.sys.hwResetDue = false → inSequence s = false →
    warmReset cause s = { s with sys := { s.sys with hwResetDue := true, causes := cause } }) ∧
  (∀ (s : State) (cause : BitVec 7), commitWriting s = true → s.sys.hwResetDue = true ∨ inSequence s = true →
    warmReset cause s = { s with sys := { s.sys with hwResetDue := true, causes := s.sys.causes ||| cause } }) ∧
  (∀ (s : State) (w : Writer) (v : Nat), Machine.Writer.internal w = true → bit v 0 = true → v / 65536 % 65536 = 0x9216 →
    exec (.rstreqWarm w v) s = .next (warmReset 0x10 s)) ∧
  (∀ (s : State) (w : Writer) (v : Nat), bit v 0 = false ∨ v / 65536 % 65536 ≠ 0x9216 →
    exec (.rstreqWarm w v) s = .next s) ∧
  (∀ (s : State) (w : Writer) (i v : Nat), i < 4 → Machine.Writer.internal w = true → exec (.wdtKick w i v) s = .next { s with
    sys := { s.sys with wdtTimeout := s.sys.wdtTimeout.set i (max 10 (min 10000 (v % 2 ^ 24)))
                        wdtCount := if bit v 31 then s.sys.wdtCount.set i 0 else s.sys.wdtCount } }) ∧
  (∀ (s : State) (i : Nat), wdtExpired s i = true → exec (.watchdogExpiry i) s = .next (warmReset 8 s)) ∧
  (∀ (s : State) (i : Nat), wdtExpired s i = false → exec (.watchdogExpiry i) s = .next s) ∧
  (∀ (s : State), s.host.linkUp = true ∨ s.host.training = true → exec .pcieReset s = .next (warmReset 0x20 s)) ∧
  (∀ (s : State) (p : Pin), p ∈ s.iom.pins → p.granted = 4 → exec .perstInAssert s = .next (warmReset 0x40 s))

/-- What every reset leaves, whatever it meets (R26, R27, R28, Table 01.7): no queue, entry, command, key, job, nonce, route
or grant, RSTOUT_N low, the configuration of partitions, and the MRAM as it was, but for the slot of a version whose write
the reset cuts off; every other byte reads zero. -/
def Obligations.ResetClears : Prop :=
  ∀ (s : State) (k : BitVec 4) (cause : BitVec 7) (g : Nat),
    (assertReset k cause g s).queues = [] ∧ (assertReset k cause g s).fetched = [] ∧ (assertReset k cause g s).cmds = [] ∧
    (assertReset k cause g s).dups = [] ∧ (assertReset k cause g s).kc = KCache.reset ∧
    (assertReset k cause g s).bn = Bignum.reset ∧ (assertReset k cause g s).qr = Dual.reset ∧
    (assertReset k cause g s).host = HostIf.reset ∧ (assertReset k cause g s).dbg = Debug.reset ∧
    (assertReset k cause g s).rt = RtTables.reset RtTables.defaultLayout ∧
    (assertReset k cause g s).ks.domainKey = none ∧ (assertReset k cause g s).mpu = List.replicate 12 Mpu.reset ∧
    (assertReset k cause g s).sys.inReset = true ∧ (assertReset k cause g s).sys.rstoutLow = true ∧
    (commitWriting s = false →
      (assertReset k cause g s).mem = s.mem.filter (fun x => decide (0x02000000 ≤ x.1 ∧ x.1 < 0x02C00000))) ∧
    (s.Inv → ∀ a, 0x02000000 ≤ a → a < 0x02C00000 →
      (∀ i, freeSlot s = some i → a < slotAddr i ∨ slotAddr i + 128 ≤ a) →
      Mem.read (assertReset k cause g s).mem a = Mem.read s.mem a) ∧
    (∀ a, a < 0x02000000 ∨ 0x02C00000 ≤ a → Mem.read (assertReset k cause g s).mem a = 0) ∧
    (assertReset k cause g s).parts.map (fun p => (p.id, p.parent, p.gen, p.enables)) =
      s.parts.map (fun p => (p.id, p.parent, p.gen, p.enables)) ∧
    (assertReset k cause g s).lc.otp = s.lc.otp ∧
    (k = kZ → (assertReset k cause g s).tmp.secret = none)

/-- The start-up sequence of Table 01.8 (R29, R31, R33, R333, R334): what each event of it does to a device in that step, what
stops it, and what the sequence does by itself between them; `advance` goes on until an event is awaited. Power domains
and looms (R20, R21, R22, R23, R24, Table 01.5): a loom enters service or shows which test failed, an unprivileged PDCTL
write is denied, the sequencer switches one domain at a time in its order and then those whose request differs, and a
drained loom loses its power. -/
def Obligations.StartupAndPowerComplete : Prop :=
  ((∀ (s s1 : State), s.sys.inReset = true → s.sys.cold = false → s.sys.failed = false →
    s1 = { s with sys := { s.sys with inReset := false, warm := true, step := 0
                                      rstcause := s.sys.rstcause ||| (if s.sys.pending.getLsbD 0 then 1 else 0) }
                  lc := { s.lc with octal := s.lc.bootMode } } →
    exec .resetRelease s = .next s1.advance) ∧
  (∀ (s s1 : State), s.sys.inReset = true → s.sys.cold = true → s.sys.failed = false →
    s1 = { s with sys := { s.sys with inReset := false, warm := false, step := 0
                                      rstcause := s.sys.rstcause ||| (if s.sys.pending.getLsbD 0 then 1 else 0) }
                  lk := { s.lk with strap := s.board.roleStrap }
                  lc := { s.lc with bootMode := s.board.bootStrap, octal := s.board.bootStrap }
                  board := { s.board with smbAddr := s.board.smbStrap } } →
    exec .resetRelease s = .next s1.advance) ∧
  (∀ (s s1 : State), s.sys.inReset = false → s.sys.step ≤ 1 → s1 = { s with board := { s.board with railsOk := true } } →
    exec .startupRailsOk s = .next s1.advance) ∧
  (∀ (s s1 : State) (ext : Bool), s.sys.inReset = false → s.sys.failed = false → s.sys.step = 4 → s.sys.pllLock = false →
    s1 = { s with sys := { s.sys with pllLock := true, monitored := true, refOk := true, pcieExt := ext, step := 5 }
                  tmp := { s.tmp with live := s.tmp.live &&& ~~~(1#15 <<< 11) } } →
    exec (.rootPllLock ext) s = .next s1.advance) ∧
  (∀ (s : State), s.sys.inReset = false → s.sys.failed = false → s.sys.step = 8 → s.sys.warm = false →
    s.powered 22 = true → exec (.lbistComplete none) s = .next (s.atStep 9).advance ∧
    (∀ u, exec (.lbistComplete (some u)) s = .next (stopStartup 8 (s.raise 0x0507 u 0 0 0)))) ∧
  (∀ (s s1 : State) (a b : SlotRead) (i : Nat), s.sys.inReset = false → s.sys.failed = false → s.sys.reading = true →
    s.sys.step = 9 ∨ (s.sys.step = 8 ∧ s.sys.warm = true) →
    (slotOrder s a b).find? (fun i => (SlotRead.image (slotRead a b i)).signed) = some i →
    s1 = slotEvents (slotEvents s a 0 (slotRefused s a b 0)) b 1 (slotRefused s a b 1) →
    exec (.bootImageVerified a b) s = .next (runImage i ((slotOrder s a b).head? != some i) (SlotRead.image (slotRead a b i))
      { s1 with lc := { s1.lc with aCheck := slotRefused s a b 0, bCheck := slotRefused s a b 1 } })) ∧
  (∀ (s s1 : State) (a b : SlotRead), s.sys.inReset = false → s.sys.failed = false → s.sys.reading = true →
    s.sys.step = 9 ∨ (s.sys.step = 8 ∧ s.sys.warm = true) →
    (slotOrder s a b).find? (fun i => (SlotRead.image (slotRead a b i)).signed) = none →
    s1 = slotEvents (slotEvents s a 0 (slotRefused s a b 0)) b 1 (slotRefused s a b 1) →
    exec (.bootImageVerified a b) s = .next (stopStartup 9 ((
      { s1 with lc := { s1.lc with aCheck := slotRefused s a b 0, bCheck := slotRefused s a b 1 } } : State).raise 0x0E06
        (slotRefused s a b 0) (slotRefused s a b 1) 0 0))) ∧
  (∀ (s : State), readyOk s = true →
    exec .hstReadySet s = .next { s.setReady true with sys := { (s.setReady true).sys with step := 13 } }) ∧
  (∀ (s : State), readyOk s = false → exec .hstReadySet s = .next s)) ∧
  ((∀ (s : State) (n : Nat), n < 16 → s.powered (n + 1) = true → (s.treadle n).inService = false →
    (s.treadle n).draining = false → (s.treadle n).katFailed = false → (s.bunit (160 + n)).st = 0 →
    (∀ s1 : State, s1 = feed (s.modTreadle n (fun x => { x with katPassed := true })) →
      (s1.rngOff = false → (s1.drbg n).seeded = true → exec (.loomEnterService n none) s =
        .next (((s1.modTreadle n (fun x => { x with inService := true })).modCore (2 * n) (fun c => { c with ok := true })).modCore
          (2 * n + 1) (fun c => { c with ok := true }))) ∧
      (s1.rngOff = true ∨ (s1.drbg n).seeded = false → exec (.loomEnterService n none) s = .next s1)) ∧
    (∀ k, exec (.loomEnterService n (some k)) s =
      .next ((s.modTreadle n (fun x => { x with katFailed := true })).raise 0x0508 n k 0 0))) ∧
  (∀ (s : State) (i reg v : Nat), reg ≤ 1 → s.sys.inReset = false → 10 ≤ s.sys.step →
    exec (.pdctlWrite (.steward i true) reg v) s =
      .next (startDrains ((pdDomains reg).foldl (fun t d => pdRequest t d (bit v ((d - 1) % 32))) s))) ∧
  (∀ (s : State) (d : Nat) (on : Bool), s.wanted d ≠ on → switchable s d on = true →
    pdRequest s d on = { s with sys := { s.sys with pdctl := s.sys.pdctl ^^^ (1#36 <<< (d - 1)) } }) ∧
  (∀ (s : State) (d : Nat) (on : Bool), s.wanted d ≠ on → switchable s d on = false →
    pdRequest s d on = { s with sys := { s.sys with refused := true, pderrDomain := d } }) ∧
  (∀ (s : State) (i reg v : Nat), reg ≤ 1 →
    exec (.pdctlWrite (.steward i false) reg v) s = .next (s.denyWrite (.steward i false) (0x10000020 + 4 * reg) 4)) ∧
  (∀ (s : State) (d : Nat) (x : Nat × Bool) (rest : List (Nat × Bool)), s.sys.inReset = false → s.sys.failed = false →
    s.sys.seqQueue = (d, true) :: x :: rest → exec .powerDomainSwitched s =
      .next (switchOn d { s with sys := { s.sys with seqQueue := x :: rest } })) ∧
  (∀ (s : State) (d : Nat), s.sys.inReset = false → s.sys.failed = false → s.sys.seqQueue = [(d, true)] →
    exec .powerDomainSwitched s =
      .next (startDrains (orderDone (switchOn d { s with sys := { s.sys with seqQueue := [] } })).advance)) ∧
  (∀ (s : State) (d : Nat), s.sys.inReset = false → s.sys.failed = false → s.sys.seqQueue = [] →
    nextRequest s = some d → exec .powerDomainSwitched s =
      .next (if s.wanted d then switchOn d s else switchOff d s)) ∧
  (∀ (s : State) (n : Nat), n < 16 → s.powered (n + 1) = true → (s.treadle n).draining = true → loomIdle s n = true →
    exec (.loomDrainDone n) s = .next (loomOff n s)) ∧
  (∀ (s : State) (n : Nat), loomIdle s n = false → exec (.loomDrainDone n) s = .next s) ∧
  (∀ (s s1 : State) (n : Nat) (late : Cmd → Bool), n < 16 → s.powered (n + 1) = true → (s.treadle n).draining = true →
    loomIdle s n = false →
    (∀ c, late c = ((commitWriting s && (s.headCommit.bind (fun x => x.who)) == some c.place) ||
      (match c.phase with
        | .waitBn _ => true
        | _ => false))) →
    s1 = (((s.cmds.filter (fun c => onLoom s n c)).filter (fun c => !late c)).foldl (fun t c => t.retire c 0x7002)
      (((s.cmds.filter (fun c => onLoom s n c)).filter late).foldl (fun t c => t.abort c) s)) →
    (loomIdle { s1 with sys := { s1.sys with drainTimeout := true } } n = true →
      exec (.loomDrainTimeout n) s = .next (loomOff n { s1 with sys := { s1.sys with drainTimeout := true } })) ∧
    (loomIdle { s1 with sys := { s1.sys with drainTimeout := true } } n = false →
      exec (.loomDrainTimeout n) s = .next { s1 with sys := { s1.sys with drainTimeout := true } })))

/-- Tamper inputs and supplies (R358, R359, R361, R362, R364, R365, R366, R368, R369, R370): a sample acts on the onsets of
its inputs, a comparator zeroises on its onset, the battery domain keeps its own state, a supply warning begins once and
ends once, and the battery alert has its hysteresis and the thermal warning its own. -/
def Obligations.TamperAndSupplyComplete : Prop :=
  (∀ (s s1 : State) (r : TamperReading), s1 = { s with tmp := { sampleCounts s.tmp r with live := sampleLive (sampleCounts s.tmp r) } } →
    respond s1 (s1.tmp.live &&& ~~~s.tmp.live) false = [] → respond s1 (s1.tmp.live &&& ~~~s.tmp.live) true = [] →
    (zeroiseLive s1 = false → exec (.tamperSample r) s = .next s1) ∧
    (zeroiseLive s1 = true → exec (.tamperSample r) s = .next { s1 with tmp := { s1.tmp with secret := none } })) ∧
  (∀ (s s1 s3 : State) (r : TamperReading), s1 = { s with tmp := { sampleCounts s.tmp r with live := sampleLive (sampleCounts s.tmp r) } } →
    respond s1 (s1.tmp.live &&& ~~~s.tmp.live) false = [] → respond s1 (s1.tmp.live &&& ~~~s.tmp.live) true ≠ [] →
    s3 = zeroise (maskOf (respond s1 (s1.tmp.live &&& ~~~s.tmp.live) true)) s1 →
    exec (.tamperSample r) s = .next (if zeroiseLive s3 then { s3 with tmp := { s3.tmp with secret := none } } else s3)) ∧
  (∀ (s : State) (i : Nat) (lost : Bool), comparatorOn s i = true → s.tmp.live.getLsbD i = false → i ≠ 11 →
    exec (.tamperComparatorTrip i lost) s =
      .next (zeroise (maskOf [i]) { s with tmp := { s.tmp with live := s.tmp.live ||| maskOf [i] } })) ∧
  (∀ (s s1 : State) (lost : Bool), comparatorOn s 11 = true → s.tmp.live.getLsbD 11 = false → s1 = clockFault s lost →
    exec (.tamperComparatorTrip 11 lost) s =
      .next (zeroise (maskOf [11]) { s1 with tmp := { s1.tmp with live := s1.tmp.live ||| maskOf [11] } })) ∧
  (∀ (s : State) (m : BitVec 15), s.tmp.onVbat = true → zeroise m s = { s with tmp := { s.tmp with
    secret := none, due := true, latch := s.tmp.latch ||| m
    ltime := if s.tmp.latch = 0 then batTime s else s.tmp.ltime } }) ∧
  (∀ (s : State) (m : BitVec 15), (zeroise m s).tmp.due = true) ∧
  (∀ (s : State), sampledLive s = false → exec .zeroiseHoldRelease s = .next (({ s with
    tmp := { s.tmp with live := s.tmp.live &&& ~~~0x7500#15 }
    sys := { s.sys with refOk := s.sys.refOk || s.tmp.live.getLsbD 11 } } : State).advance)) ∧
  (∀ (s : State), sampledLive s = true → exec .zeroiseHoldRelease s = .next s) ∧
  (∀ (s : State), exec .batPowerOn s = .next { s with tmp := { Tamper.reset with
    onVbat := s.tmp.onVbat, wasOnVbat := s.tmp.wasOnVbat, vbatMv := s.tmp.vbatMv, batLow := s.tmp.batLow } }) ∧
  (∀ (s : State), exec (.batSupplySwitch true) s = .next { s with tmp := { s.tmp with onVbat := true, wasOnVbat := true } } ∧
    exec (.batSupplySwitch false) s = .next { s with tmp := { s.tmp with
      onVbat := false, live := s.tmp.live &&& ~~~(1#15 <<< 14) } }) ∧
  (∀ (s : State) (mv : Nat), s.tmp.onVbat = false →
    (mv < 1800 → s.tmp.batLow = false → exec (.vbatMeasure mv) s = .next ((({ s with
      tmp := { s.tmp with vbatMv := min mv 4095, batLow := true } } : State).cause 7).raise 0x0206 mv 0 0 0)) ∧
    (1850 < mv → exec (.vbatMeasure mv) s = .next { s with tmp := { s.tmp with vbatMv := min mv 4095, batLow := false } }) ∧
    (1800 ≤ mv → mv ≤ 1850 → exec (.vbatMeasure mv) s = .next { s with tmp := { s.tmp with vbatMv := min mv 4095 } })) ∧
  (∀ (s : State) (r : BitVec 3), r ≠ 0 → s.sag.warning = true →
    exec (.sagWarning r) s = .next { s with sag := { s.sag with warn := s.sag.warn ||| r } }) ∧
  (∀ (s : State) (r : BitVec 3), r ≠ 0 → s.sag.warning = false →
    exec (.sagWarning r) s = .next (warningOnset r.toNat { s with sag := { s.sag with warn := s.sag.warn ||| r } })) ∧
  (∀ (s : State) (p : Pin), s.sag.pfailEn = true → p ∈ s.iom.pins → p.granted = 3 → s.sag.warning = false →
    exec .pfailAssert s = .next (warningOnset 8 { s with sag := { s.sag with pfail := true } })) ∧
  (∀ (s s1 : State) (us : Nat), s.sag.warning = true → s1 = (({ s with sag := { s.sag with
      warn := 0, pfail := false, warning := false, lastWarn := min us 0xFFFFFFFF } } : State).raise 0x0302
        (min us 0xFFFFFFFF) (s.sag.warn.toNat + 8 * b2n s.sag.pfail) 0 0) →
    exec (.sagWarningClear us) s = .next (teardownAdvance (applyWaiting s1.lk.rxWait.length s1)).advance) ∧
  (∀ (s : State) (us : Nat), s.sag.warning = false → exec (.sagWarningClear us) s = .next s) ∧
  (∀ (s : State) (temp : Int), exec (.thermWarnChange temp) s = .next { s with board := { s.board with
    temp := temp, thermWarn := decide (temp ≥ 1760) || (s.board.thermWarn && decide (temp ≥ 1680)) } })

/-- The claim for the active role and its interlock (R272, R273, R274, R281, R288): the guard, the SECONDARY's second look,
the drive of ACT_OUT_N, contention and its ends, and what an ACTIVE member does when it sees its partner drive. -/
def Obligations.ClaimComplete : Prop :=
  (∀ (s : State) (low : Bool), exec (.actInChange low) s = .next { s with lk := { s.lk with
    actIn := low
    source := s.lk.source && (low || s.lk.ceremony) } }) ∧
  (∀ (s : State), s.lk.actIn = false → claimCond s = true →
    (s.lk.strap = true → exec .claimGuardExpiry s = .next { s with lk := { s.lk with claim := .reread } }) ∧
    (s.lk.strap = false → exec .claimGuardExpiry s = .next (drive s))) ∧
  (∀ (s : State), s.lk.actIn = true ∨ claimCond s = false → exec .claimGuardExpiry s = .next s) ∧
  (∀ (s : State), drive s = { s.setPair s.lk.pstate 1 with
    lk := { (s.setPair s.lk.pstate 1).lk with actOut := true, claim := .drive } }) ∧
  (∀ (s : State), s.lk.claim = .reread → s.lk.actIn = false → claimCond s = true →
    exec .claimReread s = .next (drive s)) ∧
  (∀ (s : State), s.lk.claim = .reread → s.lk.actIn = true ∨ claimCond s = false →
    exec .claimReread s = .next { s with lk := { s.lk with claim := .idle } }) ∧
  (∀ (s : State), s.lk.claim = .drive → s.lk.actIn = false → exec .claimCheck s = .next (becomeActive s)) ∧
  (∀ (s s1 : State), s.lk.claim = .drive → s.lk.actIn = true →
    s1 = (s.drawn 4).raise 0x0706 (b2n s.lk.strap) s.lk.role (leNat (s.draws 4)) 0 →
    (s.lk.strap = true → exec .claimCheck s = .next (release1 s1)) ∧
    (s.lk.strap = false → exec .claimCheck s = .next { s1 with lk := { s1.lk with claim := .contention } })) ∧
  (∀ (s : State), s.lk.actIn = false → s.lk.claim = .contention → exec .contentionHigh10us s = .next (becomeActive s)) ∧
  (∀ (s : State), s.lk.actIn = false → s.lk.claim = .suspended →
    exec .contentionHigh10us s = .next { s with lk := { s.lk with claim := .idle } }) ∧
  (∀ (s : State), s.lk.actIn = true → s.lk.claim = .contention → exec .contentionTimeout s = .next (release1 s)) ∧
  (∀ (s : State), s.lk.actIn = true → s.lk.claim = .suspended → exec .contentionTimeout s = .next (({ s.setPair 1 0 with
    lk := { (s.setPair 1 0).lk with actOut := false, claim := .idle, beats := [], late := [], held := [] } } : State).deliverAll
      (s.setPair 1 0).lk.held)) ∧
  (∀ (s s1 : State), s.isPaired = true → s.lk.role = 2 → s.lk.actIn = true → s.lk.source = false →
    s1 = s.raise 0x0706 (b2n s.lk.strap) 2 1 0 →
    (s.lk.strap = false → exec .activeInterlockLow s = .next { s1 with lk := { s1.lk with claim := .suspended } }) ∧
    (s.lk.strap = true → exec .activeInterlockLow s = .next (relink 2 (((({ s1.setPair 1 3 with
      lk := { (s1.setPair 1 3).lk with actOut := false, claim := .idle, beats := [], late := [], held := [] } } : State).deliverAll
        (s1.setPair 1 3).lk.held).abortWhere (fun _ => true)).raise 0x0705 2 0 0 0)))) ∧
  (∀ (s : State), s.lk.role ≠ 2 ∨ s.lk.actIn = false ∨ s.lk.source = true → exec .activeInterlockLow s = .next s) ∧
  (∀ (s : State), s.isPaired = true → s.lk.up = false →
    exec .soloWaitExpiry s = .next { s with lk := { s.lk with solo := true } }) ∧
  (∀ (s s1 : State), s.lk.source = true → s.lk.ceremony = false → s1 = { s with lk := { s.lk with source := false } } →
    (s.lk.actIn = true → exec .ceremonyInterlockTimeout s = .next (s1.raise 0x0706 (b2n s.lk.strap) s.lk.role 1000 0)) ∧
    (s.lk.actIn = false → exec .ceremonyInterlockTimeout s = .next s1)) ∧
  (∀ (s : State) (c : Cmd), s.lk.ceremony = true → s.lk.pairRec = none → s.lk.beginBy = some c.place →
    s.cmd? c.place = some c → exec .pairBeginTimeout s = .next (failDetail s c 0x8002 [3#8])) ∧
  (∀ (s : State), s.lk.ceremony = false → exec .pairBeginTimeout s = .next s)

/-- The timers of the link (R275, R278, R283, R286, R288, R296): HELLOs while the link is to be established, fewer lanes when
training fails, the link down when a lane in use is lost, the close of a beat, and the loss of the heartbeat. -/
def Obligations.LinkTimersComplete : Prop :=
  (∀ (s : State), s.linkWanted = true → s.lk.lanes ≠ 0 → s.lk.up = false → (s.lk.hello = none ∨ s.lk.helloDue = true) →
    s.lk.eph ≠ [] →
    exec .helloTimer s = .next (({ s with lk := { s.lk with tx := (s.lk.tx + 1) % 2 ^ 32, helloDue := false } } : State).send
      (.frame { header := frameHeader 0x01 false 224 0 0
                body := helloBody s ++ sl (Config.edSign s.idSeed (helloBody s)) 0 64, tag := zeros 16 }))) ∧
  (∀ (s t u : State) (b : Bytes), s.linkWanted = true → s.lk.lanes ≠ 0 → s.lk.up = false → s.lk.hello = none →
    s.lk.eph = [] → s.random 16 64 = .bytes t b → u = { t with lk := { t.lk with ownNonce := sl b 0 32, eph := sl b 32 32 } } →
    u.lk.hello = none →
    exec .helloTimer s = .next (({ u with lk := { u.lk with tx := (u.lk.tx + 1) % 2 ^ 32, helloDue := false } } : State).send
      (.frame { header := frameHeader 0x01 false 224 0 0
                body := helloBody u ++ sl (Config.edSign u.idSeed (helloBody u)) 0 64, tag := zeros 16 }))) ∧
  (∀ (s : State), s.linkWanted = false ∨ s.lk.lanes = 0 ∨ s.lk.up = true → exec .helloTimer s = .next s) ∧
  (∀ (s : State), s.linkWanted = true → s.lk.up = false → exec .luakaLaneTimeout s = .next { s with lk := { s.lk with
    lanes := if s.lk.lanes = 4 then 2 else if s.lk.lanes = 2 then 1 else s.lk.lanes } }) ∧
  (∀ (s : State) (lane : Nat), s.linkWanted = true → lane < s.lk.lanes → exec (.luakaLaneLoss lane) s =
    .next { relink 1 s with lk := { (relink 1 s).lk with lanes := 4 } }) ∧
  (∀ (s : State) (cause : Nat), (relink cause s).lk.up = false ∧ (relink cause s).lk.sessTx = [] ∧
    (relink cause s).lk.sessRx = [] ∧ (relink cause s).lk.eph = [] ∧ (relink cause s).lk.partial_ = []) ∧
  (∀ (s s1 : State), 11 ≤ s.sys.step → s.lk.role ≠ 3 → switching s = none →
    s1 = { s with lk := { s.lk with viol := 0 } } →
    (s1.beatOpen = true → exec .beatClose s = .next s1.closeBeat) ∧
    (s1.beatOpen = false → exec .beatClose s = .next s1)) ∧
  (∀ (s : State), s.sys.step < 11 ∨ s.lk.role = 3 → exec .beatClose s = .next { s with lk := { s.lk with viol := 0 } }) ∧
  (∀ (s s0 s1 s2 : State), s.isPaired = true →
    (s.lk.up = true ∨ s.mirroring = true ∨ (s.lk.role = 3 ∧ s.lk.pstate = 3 ∧ s.lk.heartbeat = false)) →
    s0 = s.raise 0x0703 s.lk.role (s.lk.done % 2 ^ 32) (s.lk.done / 2 ^ 32) 0 →
    (s.lk.up = true → s1 = relink 3 s0) → (s.lk.up = false → s1 = s0) →
    s2 = { s1 with lk := { s1.lk with heartbeat := s1.lk.role == 3 && s1.lk.pstate == 3 } } →
    (s.mirroring = true → exec .heartbeatLoss s = .next (enterLone s2)) ∧
    (s.mirroring = false → exec .heartbeatLoss s = .next s2)) ∧
  (∀ (s : State), s.isPaired = false ∨ (s.lk.up = false ∧ s.mirroring = false ∧ s.lk.role ≠ 3) →
    exec .heartbeatLoss s = .next s)

/-- The five timed events of the link run, each under conditions on the state alone (R275, R278, R283, R286, R296): a HELLO
goes out, training goes on with half the lanes, a lost lane ends the establishment and training starts at four, the beat
closes and the next is open, and a standby whose partner is silent takes the link down and remembers the loss. -/
def Obligations.LinkTimedEventsRun : Prop :=
  (∀ (s : State), s.linkWanted = true → s.lk.lanes ≠ 0 → s.lk.up = false → s.lk.hello = none → s.lk.eph ≠ [] →
    ∃ (t : State) (w : Wire), exec .helloTimer s = .next t ∧ t.out = s.out ++ [.frame w] ∧
      w.header = frameHeader 0x01 false 224 0 0 ∧ w.body = helloBody s ++ sl (Config.edSign s.idSeed (helloBody s)) 0 64 ∧
      t.lk.tx = (s.lk.tx + 1) % 2 ^ 32 ∧ t.cmds = s.cmds ∧ t.mem = s.mem) ∧
  (∀ (s : State), s.linkWanted = true → s.lk.up = false → ∃ t : State, exec .luakaLaneTimeout s = .next t ∧
    (s.lk.lanes = 4 → t.lk.lanes = 2) ∧ (s.lk.lanes ≠ 4 → s.lk.lanes ≤ 2 → 1 ≤ s.lk.lanes → t.lk.lanes = 1) ∧
    t.lk.up = false ∧ t.out = s.out) ∧
  (∀ (s : State) (lane : Nat), s.linkWanted = true → lane < s.lk.lanes → ∃ t : State,
    exec (.luakaLaneLoss lane) s = .next t ∧ t.lk.up = false ∧ t.lk.lanes = 4 ∧ t.lk.sessTx = [] ∧ t.lk.sessRx = [] ∧
      t.lk.relinks = (s.lk.relinks + 1) % 2 ^ 32) ∧
  (∀ (s : State), 11 ≤ s.sys.step → s.lk.role ≠ 3 → switching s = none → s.mirroring = false → ∃ t : State,
    exec .beatClose s = .next t ∧ t.lk.viol = 0 ∧ t.lk.closed = s.lk.beat ∧ t.lk.slot = 0 ∧
      t.lk.beat = (if (s.lk.beat + 1) % 2 ^ 48 = 0 then 1 else (s.lk.beat + 1) % 2 ^ 48) ∧ t.beatOpen = true ∧
      t.lk.policy = s.lk.cfgPolicy ∧ t.lk.beatUs = s.lk.cfgBeatUs) ∧
  (∀ (s : State), s.isPaired = true → s.lk.role = 3 → s.lk.pstate = 3 → s.lk.up = true → ∃ t : State,
    exec .heartbeatLoss s = .next t ∧ t.lk.up = false ∧ t.lk.heartbeat = true ∧ t.lk.sessTx = [] ∧ t.lk.role = 3 ∧
      t.lk.pstate = 3 ∧ t.lk.relinks = (s.lk.relinks + 1) % 2 ^ 32)

/-- Every frame is checked before it acts (R277, R285, Table 12.9): a frame of another type is not the row's, one that is not
sound is dropped with 0x0710, one already seen is dropped with 0x0711, one beyond the next in sequence takes the link
down, and on an established link one that its sender may not send is dropped with 0x0712. -/
def Obligations.EveryFrameIsChecked : Prop :=
  ∀ (i : Instr) (s : State) (typ : Nat) (w : Wire) (f : Frame), frameRow i = some (typ, w) → s.opened w = f →
    (f.typ ≠ typ ∨ s.receiving = false → exec i s = .next s) ∧
    (f.typ = typ → s.receiving = true → frameSound s w = false → exec i s = .next (badFrame s)) ∧
    (f.typ = typ → s.receiving = true → frameSound s w = true → f.seq < s.lk.rxSeq →
      exec i s = .next ((frameDropped s).raise 0x0711 0 0 0 0)) ∧
    (f.typ = typ → s.receiving = true → frameSound s w = true → s.lk.rxSeq < f.seq →
      exec i s = .next (relink 2 (s.raise 0x0711 0 0 0 0))) ∧
    (f.typ = typ → s.receiving = true → frameSound s w = true → f.seq = s.lk.rxSeq → s.lk.up = true → permitted s f = false →
      exec i s = .next (notPermitted { s with lk := { s.lk with rxSeq := s.lk.rxSeq + 1 } }))

/-- What the frames of an established link do (R282, R285, R286, R287, R292, R294, R310): records of a beat gather and a whole
beat is applied and acknowledged, an acknowledgement frees its buffer and writes the completions that waited, a snapshot
is applied as it comes and its end makes the copy complete, and HANDOVER, LEAVE and TIME have their effect. -/
def Obligations.FramesComplete : Prop :=
  (∀ (s : State) (w : Wire) (f : Frame) (rs : List BeatRec) (rest : Bytes), FrameReady s 0x02 w f → s.lk.role = 3 → 2 ≤ s.lk.pstate →
    beatExpected s f.beat = true →
    takeRecs recTypes ((s.lk.rxBuf ++ f.payload).length + 1) (s.lk.rxBuf ++ f.payload) = some (rs, rest) →
    exec (.luakaBeatData w) s = .next { s with lk := { s.frameTaken.lk with
      beat := f.beat, rxBuf := rest, partial_ := s.lk.partial_ ++ rs.map (fun r => (r, passed s r)) } }) ∧
  (∀ (s : State) (w : Wire) (f : Frame), FrameReady s 0x03 w f → s.lk.role = 3 → 2 ≤ s.lk.pstate → beatExpected s f.beat = true →
    s.lk.rxBuf = [] → f.payload.length = 16 → fieldLe f.payload 0 4 = s.lk.partial_.length →
    fieldLe f.payload 4 4 = ((s.lk.partial_.map (fun r => r.1)).map (fun r => r.bytes.length)).sum →
    fieldLe f.payload 8 8 = ((((s.lk.partial_.map (fun r => r.1)).filter (fun r => r.stamp != 0)).getLast?.map
      (fun r => r.stamp)).getD 0) → stampsOk f.beat (s.lk.partial_.map (fun r => r.1)) = true →
    (s.sag.warning = false → exec (.luakaBeatEnd w) s = .next (finishBeat f.beat s.lk.partial_
      { s with lk := { s.frameTaken.lk with partial_ := [], beat := f.beat } })) ∧
    (s.sag.warning = true → exec (.luakaBeatEnd w) s = .next { s with lk := { s.frameTaken.lk with
      partial_ := [], beat := f.beat, rxWait := s.lk.rxWait ++ [(f.beat, s.lk.partial_)] } })) ∧
  (∀ (s t : State) (n : Nat) (rs : List (BeatRec × Bool)), applyBeat rs s = some t → finishBeat n rs s =
    ({ t with lk := { t.lk with done := n, recorded := if n % 2 ^ 20 = 0 then some n else t.lk.recorded } } : State).frame 0x04
      false n []) ∧
  (∀ (s : State) (n : Nat) (rs : List (BeatRec × Bool)), applyBeat rs s = none → finishBeat n rs s = badBeat s) ∧
  (∀ (s s1 : State) (w : Wire) (f : Frame), FrameReady s 0x04 w f →
    s1 = ({ s with lk := { s.frameTaken.lk with
        done := f.beat, beats := s.lk.beats.drop 1, held := s.lk.held.filter (fun h => h.beat != f.beat % 2 ^ 44) } } :
      State).deliverAll (s.lk.held.filter (fun h => h.beat == f.beat % 2 ^ 44)) →
    (s1.lk.beats.any (fun b => b.num == s1.lk.beat) = true →
      exec (.luakaBeatAck w) s = .next (switchAdvance (teardownAdvance s1))) ∧
    (s1.lk.beats.any (fun b => b.num == s1.lk.beat) = false →
      exec (.luakaBeatAck w) s = .next (switchAdvance (teardownAdvance (s1.lk.late.foldl (fun t r => t.record r)
        { s1 with lk := { s1.lk with late := [], beats := s1.lk.beats ++
          [{ num := s1.lk.beat, closed := false, recs := [], bytes := 0 }] } }))))) ∧
  (∀ (s t : State) (w : Wire) (f : Frame) (n : Nat) (rs : List BeatRec) (rest : Bytes), FrameReady s 0x05 w f → s.lk.role = 3 →
    s.lk.pstate = 2 → s.lk.snapRx = some n →
    takeRecs ([0x20, 0x21] ++ recTypes) ((s.lk.snapBuf ++ f.payload).length + 1) (s.lk.snapBuf ++ f.payload) = some (rs, rest) →
    applySnap rs s.frameTaken = some t →
    exec (.luakaSnapData w) s = .next { t with lk := { t.lk with
      snapBuf := rest, snapRx := t.lk.snapRx.map (fun n => n + rs.length) } }) ∧
  (∀ (s s1 : State) (w : Wire) (f : Frame) (n : Nat), FrameReady s 0x06 w f → s.lk.snapRx = some n → s.lk.snapBuf = [] →
    f.payload.length = 4 → fieldLe f.payload 0 4 = n →
    s1 = (({ s with lk := { s.frameTaken.lk with
        complete := true, snapRx := none, snapPos := (0, 0), snapSeen := [] } } : State).frame 0x07
      false s.lk.beat []).setPair 3 3 →
    exec (.luakaSnapEnd w) s = .next ((s1.drawn 4).raise 0x0702 n (leNat (s1.draws 4)) (s1.lk.beat % 2 ^ 32) 0)) ∧
  (∀ (s s1 : State) (w : Wire) (f : Frame), FrameReady s 0x07 w f →
    s1 = ({ s with lk := { s.frameTaken.lk with snapTx := none } } : State).setPair 3 2 →
    exec (.luakaInSync w) s = .next ((s1.drawn 4).raise 0x0702 (s.lk.snapTx.getD 0) (leNat (s1.draws 4))
      (s1.lk.beat % 2 ^ 32) 0)) ∧
  (∀ (s : State) (w : Wire) (f : Frame) (ns : Int), FrameReady s 0x08 w f → byteAt f.payload 0 = 1 → s.lk.role = 2 →
    exec (.luakaTime w ns) s = .next (timeAnswer s.frameTaken ns)) ∧
  (∀ (s : State) (w : Wire) (f : Frame) (ns : Int), FrameReady s 0x08 w f → byteAt f.payload 0 = 2 →
    exec (.luakaTime w ns) s = .next (partnerMeasure s.frameTaken f.payload ns)) ∧
  (∀ (s : State) (w : Wire) (f : Frame), FrameReady s 0x09 w f →
    exec (.luakaHandover w) s = .next { s with lk := { s.frameTaken.lk with handover := some f.beat } }) ∧
  (∀ (s : State) (w : Wire) (f : Frame), FrameReady s 0x0A w f → exec (.luakaLeave w) s = .next (leavePair s.frameTaken))

/-- HELLO and violations (R278, R279, Tables 12.4 and 12.9): a valid HELLO is held and the keys of the establishment follow
once this device has drawn its own half; one that does not stand is answered with its event; and a frame that violates the
protocol is answered as Table 12.9 says. -/
def Obligations.HelloAndViolationsComplete : Prop :=
  (∀ (s : State) (p : Bytes) (r : PairRec), s.linkWanted = true → s.lk.lanes ≠ 0 → s.lk.pairRec = some r →
    s.lk.ceremony = false →
    exec (.luakaHello p) s = .next ((helloFault s p r.partnerKey r.partnerSerial true true).elim (takeHello s (Hello.of p))
      (fun e => s.raise e 0 0 0 0))) ∧
  (∀ (s : State) (h : Hello), s.lk.hello = none → s.lk.up = false → s.lk.eph ≠ [] →
    takeHello s h = deriveKeys { s with lk := { s.lk with
      hello := some h, helloDue := true, rx := (s.lk.rx + 1) % 2 ^ 32 } } h) ∧
  (∀ (s : State) (h : Hello) (r : PairRec), s.lk.eph ≠ [] → s.lk.pairRec = some r → deriveKeys s h =
    if allZero (sl (Config.x25519 s.lk.eph h.ephKey) 0 32) = true
    then ({ s with lk := { s.lk with hello := none } } : State).raise 0x0713 0 0 0 0
    else withSession s h r.secret (sl (Config.x25519 s.lk.eph h.ephKey) 0 32)) ∧
  (∀ (s : State) (p : Bytes), s.linkWanted = false ∨ s.lk.lanes = 0 → exec (.luakaHello p) s = .next s) ∧
  (∀ (s : State) (w : Wire), s.receiving = true → frameSound s w = false →
    exec (.luakaPeerViolation w) s = .next (badFrame s)) ∧
  (∀ (s : State) (w : Wire) (f : Frame), s.opened w = f → s.receiving = true → frameSound s w = true → f.seq < s.lk.rxSeq →
    exec (.luakaPeerViolation w) s = .next ((frameDropped s).raise 0x0711 0 0 0 0)) ∧
  (∀ (s : State) (w : Wire) (f : Frame), s.opened w = f → s.receiving = true → frameSound s w = true → s.lk.rxSeq < f.seq →
    exec (.luakaPeerViolation w) s = .next (relink 2 (s.raise 0x0711 0 0 0 0))) ∧
  (∀ (s : State) (w : Wire) (f : Frame), s.opened w = f → s.receiving = true → frameSound s w = true → f.seq = s.lk.rxSeq → s.lk.up = true →
    permitted s f = false →
    exec (.luakaPeerViolation w) s = .next (notPermitted { s with lk := { s.lk with rxSeq := s.lk.rxSeq + 1 } })) ∧
  (∀ (s : State), badFrame s = (if s.lk.viol + 1 < 8
    then ({ s with lk := { s.lk with drops := (s.lk.drops + 1) % 2 ^ 32, viol := s.lk.viol + 1 } } : State).raise 0x0710 0 0 0 0
    else relink 2 (({ s with lk := { s.lk with drops := (s.lk.drops + 1) % 2 ^ 32, viol := s.lk.viol + 1 } } : State).raise
      0x0710 0 0 0 0)))

/-- The time counter and its sources (R300, R301, R303, R305, R306, R308, R309, R310, Tables 13.2 to 13.4): the counter ticks
while the root PLL is locked, PTP messages of the port and PPS edges give measurements or are dropped, and the losses and
limits change the time state. -/
def Obligations.TimeComplete : Prop :=
  (∀ (s : State), s.sys.pllLock = true → exec .timeCounterTick s = .next { s with pt := s.pt.tick s.trusted }) ∧
  (∀ (s : State), s.sys.pllLock = false → exec .timeCounterTick s = .next s) ∧
  (∀ (s : State), exec .ptTimeCapture s = .next (({ s with pt := { s.pt with capSec := s.nowSec, capNs := s.nowNs } } :
    State).send (.regRead 0x100E0008 s.nowNs true))) ∧
  (∀ (s s1 s2 : State) (m : PtpMsg), ptpHeard s m = true → s1 = ptpSecond s → ptpWhole m 64 = true → s1.pt.announces < 16 →
    m.clockClass ≠ 255 → m.stepsRemoved < 255 → m.ptpTimescale = true →
    s1.pt.masters.find? (fun x => x.msg.clockId == m.clockId) = none → s1.pt.gmid ≠ m.clockId →
    s2 = { s1 with pt := { s1.pt with
      announces := s1.pt.announces + 1
      masters := { msg := m, heard := [s1.evr.optime] } :: s1.pt.masters.filter (fun y => y.msg.clockId != m.clockId) } } →
    (bestMaster s2 = none → exec (.ptpAnnounce m) s = .next s2) ∧
    (∀ x, bestMaster s2 = some x → x.msg.clockId = s1.pt.gmid → exec (.ptpAnnounce m) s = .next s2) ∧
    (∀ x, bestMaster s2 = some x → x.msg.clockId ≠ s1.pt.gmid → exec (.ptpAnnounce m) s = .next (selectMaster s2 x.msg))) ∧
  (∀ (s : State) (m : PtpMsg), ptpHeard s m = true →
    (ptpWhole m 64 = false → exec (.ptpAnnounce m) s = .next (ptpBad (ptpSecond s) 0xB m)) ∧
    (ptpWhole m 44 = false → exec (.ptpSync m) s = .next (ptpBad (ptpSecond s) 0 m) ∧
      exec (.ptpFollowUp m) s = .next (ptpBad s 8 m)) ∧
    (ptpWhole m 54 = false → exec (.ptpDelayResp m) s = .next (ptpBad s 9 m))) ∧
  (∀ (s : State) (m : PtpMsg), ptpHeard s m = false →
    exec (.ptpAnnounce m) s = .next s ∧ exec (.ptpSync m) s = .next s ∧ exec (.ptpFollowUp m) s = .next s ∧
    exec (.ptpDelayResp m) s = .next s) ∧
  (∀ (s s1 s2 : State) (m : PtpMsg), ptpHeard s m = true → s1 = ptpSecond s → ptpWhole m 44 = true →
    fromMaster s1 m = true → s1.pt.syncs < 16 → s2 = { s1 with pt := { s1.pt with
      syncs := s1.pt.syncs + 1, syncSeq := some m.seqId, t2 := m.rxNs - Config.pathIn, cfSync := m.cf,
      t1 := if m.twoStep then none else some m.originNs, req := none, resp := none } } →
    (delayDue s2 = true → exec (.ptpSync m) s = .next (({ s2 with pt := { s2.pt with
      req := some (s2.pt.reqSeq, s2.timeNs + Config.pathOut), reqSeq := (s2.pt.reqSeq + 1) % 65536,
      lastReq := some s2.evr.optime } } : State).send
        (.delayReq s2.pt.mapping (ptpDst s2.pt.mapping) (ptpSrc s2.pt) s2.pt.domain s2.pt.reqSeq))) ∧
    (delayDue s2 = false → exec (.ptpSync m) s = .next s2)) ∧
  (∀ (s s1 : State) (m : PtpMsg), ptpHeard s m = true → ptpWhole m 44 = true → fromMaster s m = true →
    s.pt.syncSeq = some m.seqId → s.pt.t1 = none →
    s1 = { s with pt := { s.pt with t1 := some m.originNs, cfSync := s.pt.cfSync + m.cf } } →
    (s.pt.req = none ∨ s.pt.resp = none → exec (.ptpFollowUp m) s = .next s1) ∧
    (∀ r a, s.pt.req = some r → s.pt.resp = some a → exec (.ptpFollowUp m) s = .next (ptpMeasure
      { s1 with pt := s1.pt.noExchange } (offsetOf m.originNs s.pt.t2 r.2 a.1 (s.pt.cfSync + m.cf) a.2 s.pt.asym)))) ∧
  (∀ (s s1 : State) (m : PtpMsg) (q : Nat × Int), ptpHeard s m = true → ptpWhole m 54 = true → fromMaster s m = true →
    m.reqPortOk = true → s.pt.req = some q → q.1 = m.seqId → s.pt.resp = none →
    s1 = { s with pt := { s.pt with resp := some (m.originNs, m.cf), minReq := m.logInterval } } →
    (s.pt.t1 = none → exec (.ptpDelayResp m) s = .next s1) ∧
    (∀ t1, s.pt.t1 = some t1 → exec (.ptpDelayResp m) s = .next (ptpMeasure { s1 with pt := s1.pt.noExchange }
      (offsetOf t1 s.pt.t2 q.2 m.originNs s.pt.cfSync m.cf s.pt.asym)))) ∧
  (∀ (s : State) (m : PtpMsg), ptpHeard s m = true → s.pt.req = none → exec (.ptpDelayResp m) s = .next (ptpBad s 9 m)) ∧
  (∀ (s : State) (off : Int), isOutlier s off = false → 1000000 ≤ off.natAbs → s.pt.state ≠ 2 →
    Machine.measure s off = changeTime (stepTime { s with pt := { s.pt with outliers := 0, lastOffset := sat32 off, count := 0 } } off) 1 off) ∧
  (∀ (s : State) (off : Int), isOutlier s off = true → Machine.measure s off = outlier s off) ∧
  (∀ (s : State), exec .ptpIgnoredMessage s = .next s) ∧
  (∀ (s : State) (ns : Nat), s.pt.ppsIn = true → s.lk.role ≠ 3 → s.pt.gmid ≠ 0 →
    ((foldPhase ns + s.pt.asym).natAbs ≤ 1000000 → exec (.ppsInEdge ns) s =
      .next (Machine.measure { s with pt := { s.pt with ppsLock := true } } (foldPhase ns + s.pt.asym))) ∧
    (1000000 < (foldPhase ns + s.pt.asym).natAbs → exec (.ppsInEdge ns) s =
      .next (({ s with pt := { s.pt with drops := (s.pt.drops + 1) % 2 ^ 32 } } : State).raise 0x0806 1 0 0 0))) ∧
  (∀ (s : State) (ns : Nat), s.pt.ppsIn = false ∨ s.lk.role = 3 ∨ s.pt.gmid = 0 → exec (.ppsInEdge ns) s = .next s) ∧
  (∀ (s : State), s.pt.ppsLock = true → exec .ppsInLoss s =
    .next (({ s with pt := { s.pt with ppsLock := false } } : State).raise 0x0806 2 0 0 0)) ∧
  (∀ (s : State), (s.pt.state = 1 → exec .timeSourceTimeout s = .next (changeTime s 0 0)) ∧
    (s.pt.state = 2 → exec .timeSourceTimeout s = .next (changeTime { s with pt := { s.pt with
      addend := meanAddend s.pt, holdSec := s.pt.sec } } 3 0)) ∧
    (s.pt.state ≠ 1 → s.pt.state ≠ 2 → exec .timeSourceTimeout s = .next s)) ∧
  (∀ (s : State), (holdOver s = true → exec .holdoverLimit s = .next ((changeTime s 0 0).raise 0x0804 s.pt.limitH 0 0 0)) ∧
    (holdOver s = false → exec .holdoverLimit s = .next s)) ∧
  (∀ (s : State), s.pt.state = 3 → (holdOver s = true ↔ s.pt.limitH * 3600 ≤ (s.pt.sec + 2 ^ 48 - s.pt.holdSec) % 2 ^ 48)) ∧
  (∀ (s : State), s.lk.role = 3 → s.lk.pstate ≠ 0 → s.lk.sessTx ≠ [] → exec .standbyTimeExchange s =
    .next (({ s with pt := { s.pt with xchg := some s.timeNs } } : State).frame 0x08 false s.lk.beat [1#8])) ∧
  (∀ (s : State) (n : Nat) (off : Int), s.pt.state ≠ n → changeTime s n off = ((({ s with pt := { s.pt with
      outliers := 0, count := if n = 2 then s.pt.count else 0, state := n } } : State).cause 4).raise 0x0801 s.pt.state n
        (toField 32 off) 0))

/-- One tick of the time counter (R300, R304): ADDEND is added, a full second is carried into the seconds, which count modulo
2^48, and no ADDEND that the servo sets lies more than 25 ppm from nominal. -/
def Obligations.TimeCounterRule : Prop :=
  (∀ (t : TimeKeep) (tr : Bool), t.acc + t.addend < secUnits → (t.tick tr).acc = t.acc + t.addend ∧ (t.tick tr).sec = t.sec) ∧
  (∀ (t : TimeKeep) (tr : Bool), secUnits ≤ t.acc + t.addend →
    (t.tick tr).acc = t.acc + t.addend - secUnits ∧ (t.tick tr).sec = (t.sec + 1) % 2 ^ 48) ∧
  (∀ (t : TimeKeep) (tr : Bool), t.acc < secUnits → t.addend ≤ secUnits → (t.tick tr).acc < secUnits) ∧
  (∀ (t : TimeKeep) (tr : Bool), (t.tick tr).addend = t.addend ∧ (t.tick tr).state = t.state) ∧
  (∀ (n : Nat), 0x42AAAAAB - 27962 ≤ clampAddend n ∧ clampAddend n ≤ 0x42AAAAAB + 27962)

/-- The entropy source (R243, R245, R246, R248, R250, R251, R253): a finished block goes to the instance that waits or into
the pool of eight, a failed health test in use stops all random output and is counted, a passed test pass fills the pool,
the third failure within an hour latches the fault, estimates are kept for each source, a wait for a reseed ends after its
bound, and raw-sample mode ends 60 s after the last read. -/
def Obligations.RandomSourceComplete : Prop :=
  (∀ (s : State) (i : Nat) (l : List (List Bool)) (b : Bytes), s.rng.srcReady = true → s.rngOff = false →
    blockAt (usedSources s.rng.inUse) l 0 = some b → nextInstance (wantAll s) = some i →
    exec (.rngBlockConditioned l) s = .next (takeBlock (wantAll s) i b)) ∧
  (∀ (s s1 : State) (l : List (List Bool)) (b : Bytes), s.rng.srcReady = true → s.rngOff = false →
    blockAt (usedSources s.rng.inUse) l 0 = some b → s1 = wantAll s → nextInstance s1 = none →
    (s1.rng.pool.length < 8 → exec (.rngBlockConditioned l) s =
      .next { s1 with rng := { s1.rng with pool := s1.rng.pool ++ [b] } }) ∧
    (8 ≤ s1.rng.pool.length → exec (.rngBlockConditioned l) s = .next s1)) ∧
  (∀ (s : State) (i : Nat) (b : Bytes), i ≠ 16 → (s.drbg i).seeded = false → takeBlock s i b =
    wakeDrbg (s.modDrbg i (fun d => { ctrUpdate { d with key := zeros 32, v := zeros 16 } (drbgDf (b ++ personal i)) with
      seeded := true, requests := 0, wait := 0 })) i) ∧
  (∀ (s : State) (src test : Nat) (l : List Bool), src < 8 → (test = 1 ∨ test = 2) → showsFailure test l = true →
    (s.rng.raw = true → exec (.rngHealthFailure src test l) s =
      .next { s with rng := { s.rng with rawFails := s.rng.rawFails + 1, rawSeen := s.rng.rawSeen + 1 } }) ∧
    (s.rng.raw = false → s.rng.srcReady = true → s.rng.inUse.getLsbD src = true →
      exec (.rngHealthFailure src test l) s = .next (countFail (stopRandom s) src test))) ∧
  (∀ (s : State) (src test : Nat) (l : List Bool), showsFailure test l = false →
    exec (.rngHealthFailure src test l) s = .next s) ∧
  (∀ (s s1 : State) (l : List (List Bool)) (passed : BitVec 8) (us : Nat) (out : List Nat), s.rng.testing = true →
    passed = passMask l →
    out = (List.range 8).filter (fun i => !passed.getLsbD i) → s1 = out.foldl (fun t i => t.raise 0x0408 i 0 0 0) s →
    (out.length ≤ 4 → exec (.rngTestPassDone l true us) s =
      .next (endRawExit (servePool 17 (wantAll (({ s1 with
        rng := { s1.rng with testing := false, stopped := false, srcReady := true, inUse := passed, pool := passBlocks l } } :
          State).raise 0x0401 passed.toNat us 0 0))) 0)) ∧
    (out.length ≤ 4 → exec (.rngTestPassDone l false us) s =
      .next (endRawExit (countFail (endWaits { s1 with
        rng := { s1.rng with inUse := passed, srcReady := false } }) 0 4) 0x9001)) ∧
    (4 < out.length → ∀ kat, exec (.rngTestPassDone l kat us) s =
      .next (endRawExit (countFail (endWaits { s1 with
        rng := { s1.rng with inUse := passed, srcReady := false } }) ((out.head?).getD 0) 3) 0x9001))) ∧
  (∀ (s : State) (src test : Nat), 2 ≤ (recentFails s).length →
    (countFail s src test).rng.latched = true ∧ (countFail s src test).rng.stopped = true ∧
      (countFail s src test).rng.testing = false) ∧
  (∀ (s : State) (src test : Nat), (recentFails s).length < 2 →
    (countFail s src test).rng.latched = s.rng.latched ∧ (countFail s src test).rng.stopped = true ∧
      (countFail s src test).rng.testing = true) ∧
  (∀ (s s1 : State) (src : Nat) (l : List Bool) (b l1 l2 l3 l4 : Int) (v old : Health), src < 8 → s.powered 32 = true →
    65540 ≤ l.length → estimates l = [b, l1, l2, l3, l4] → old = (s.rng.health[src]?).getD Health.reset →
    v = { bias := sat16 b, lag1 := sat16 l1, lag2 := sat16 l2, lag3 := sat16 l3, lag4 := sat16 l4,
          warnBias := s.rng.warnBias, warnLag := s.rng.warnLag } →
    s1 = { s with rng := { s.rng with health := s.rng.health.set src v } } →
    (old.warnBias = 0 → old.warnLag = 0 → exec (.rngEstimateBlock src l) s = .next s1) ∧
    (old.warnBias ≠ 0 → old.warnBias < (sat16 b).natAbs → exec (.rngEstimateBlock src l) s =
      .next (s1.raise 0x0405 src 0 (toField 32 (sat16 b)) 0))) ∧
  (∀ (s s1 s2 : State) (i w : Nat), (s.drbg i).wait = 2 → oldestWait s i = some w →
    s1 = (s.timeAtLeast (w + 50)).raise 0x0404 i s.rng.pool.length 0 0 →
    s2 = ((waiters s1 i).filter (fun c => waitedOut s1 c.asked)).foldl
      (fun t c => t.retire c (if c.abort then 0x7002 else 0x9001)) s1 → jobWaiters s2 i = [] →
    exec (.rngReseedWaitTimeout i) s = .next s2) ∧
  (∀ (s : State) (i : Nat), (s.drbg i).wait ≠ 2 ∨ oldestWait s i = none → exec (.rngReseedWaitTimeout i) s = .next s) ∧
  (∀ (s : State), s.rng.raw = true → exec .rngRawTimeout s =
    .next (leaveRaw (s.timeAtLeast (s.rng.rawReads + 60000)) 2)) ∧
  (∀ (s : State), readyOk s = true → exec .hstReadySet s =
    .next { s.setReady true with sys := { (s.setReady true).sys with step := 13 } }) ∧
  (∀ (s : State), readyOk s = false → exec .hstReadySet s = .next s)

/-- Debug authorisation (R337, R338, R339, R340, R341, R342, R345, R420): a submitted token is accepted or refused and in both
cases consumed with its challenge; a challenge is drawn from D16; a grant ends by command and by time; run control halts
and resumes a steward; boundary-scan instructions load, act as BYPASS where they are not open, and leaving one that drives
the balls is a W reset. -/
def Obligations.DebugComplete : Prop :=
  (∀ (s s1 : State) (v : Nat), bit v 0 = true → s1 = { s with dbg := { s.dbg with token := zeros 128, challenge := 0 } } →
    exec (.dbgSubmit .debug v) s = .next ((dbgFault s 0 s.dbg.token).elim
      (({ s1 with
        dbg := { s1.dbg with grant := BitVec.ofNat 8 (byteAt s.dbg.token 11), active := true,
                             ends := s.evr.optime + 1000 * fieldLe s.dbg.token 12 4 }
        sys := { s.sys with pdctl := s.sys.pdctl ||| pdBit 36 } } : State).raise 0x0107
          (byteAt s.dbg.token 11) 0 (fieldLe s.dbg.token 12 4) 0)
      (fun r => ({ s1 with dbg := { s1.dbg with refused := true, reason := r } } : State).raise 0x0109 r 0 0 0))) ∧
  (∀ (s : State) (w : Writer) (v : Nat), w ≠ .debug →
    exec (.dbgSubmit w v) s = .next (s.denyWrite w 0x10120010 4) ∧
    exec (.dbgCtrlEnd w v) s = .next (s.denyWrite w 0x10120010 4)) ∧
  (∀ (s t : State) (b : Bytes), s.random 16 8 = .bytes t b → exec .dbgChallengeRead s =
    .next (({ t with dbg := { t.dbg with challenge := leNat b } } : State).send (.regRead 0x10120004 (leNat b % 2 ^ 32) true))) ∧
  (∀ (s : State), s.random 16 8 = .off → exec .dbgChallengeRead s =
    .next (({ s with dbg := { s.dbg with challenge := 0 } } : State).send (.regRead 0x10120004 0 true))) ∧
  (∀ (s : State) (v : Nat), bit v 1 = true → exec (.dbgCtrlEnd .debug v) s = .next (endGrant 3 s)) ∧
  (∀ (s : State), s.dbg.active = true → exec .dbgGrantExpiry s = .next (endGrant 1 (s.timeAtLeast s.dbg.ends))) ∧
  (∀ (s : State) (i : Nat), i < 4 → bit s.grantBits 0 = true → s.powered (27 + i) = true → s.sys.inReset = false →
    (haltRefused s i = false → exec (.stewardHalt i .halt) s = .next { s with
      dbg := { s.dbg with halted := i :: s.dbg.halted.filter (fun x => x != i) }
      sys := { s.sys with wdtPaused := i :: s.sys.wdtPaused.filter (fun x => x != i) } }) ∧
    (haltRefused s i = true → exec (.stewardHalt i .halt) s =
      .next { s with iom := { s.iom with haltRefused := true } }) ∧
    exec (.stewardHalt i .single) s = .next s ∧
    exec (.stewardHalt i .resume) s = .next { s with
      dbg := { s.dbg with halted := s.dbg.halted.filter (fun x => x != i) }
      sys := { s.sys with wdtPaused := s.sys.wdtPaused.filter (fun x => x != i) } }) ∧
  (∀ (s : State) (i : TapInstr), tapDrives s.dbg.tap = false → tapDrives i = false →
    exec (.bscanInstruction i) s = .next { s with dbg := { s.dbg with tap := i } }) ∧
  (∀ (s : State), tapDrives s.dbg.tap = false → scanOpen s = true → exec (.bscanInstruction .extest) s =
    .next { s with
      dbg := { s.dbg with tap := .extest }
      lk := { s.lk with actOut := false } }) ∧
  (∀ (s : State) (i : TapInstr), tapDrives s.dbg.tap = false → tapDrives i = true → scanOpen s = false →
    exec (.bscanInstruction i) s = .next { s with
      iom := { s.iom with extestRefused := true }
      dbg := { s.dbg with tap := .bypass } }) ∧
  (∀ (s : State), tapDrives s.dbg.tap = false → exec .tapReset s = .next { s with dbg := { s.dbg with tap := .idcode } }) ∧
  (∀ (s t : State), tapDrives s.dbg.tap = true → t = warmReset 0 s → exec .tapReset s =
    .next { t with dbg := { t.dbg with tap := .idcode } })

/-- Life-cycle transitions and one-time fields (R324, R325, R326, R327, R328, R345): GO is refused with its first reason or
starts a session that drains the device; words are programmed one by one, only once it is drained and while no supply
warning holds; LC.PROG programs blank fields; the reset 1 ms after a completion write. -/
def Obligations.LifeCycleSessionsComplete : Prop :=
  (∀ (s : State) (w : Writer) (v : Nat), lcWriter s w = false →
    exec (.lcGo w v) s = .next (s.denyWrite w 0x10010004 4)) ∧
  (∀ (s : State) (w : Writer) (v : Nat), lcWriter s w = true → bit v 8 = false →
    exec (.lcGo w v) s = .next { s with lc := { s.lc with target := v % 256 } }) ∧
  (∀ (s s1 : State) (v r : Nat), lcWriter s .debug = true → bit v 8 = true →
    s1 = { s with lc := { s.lc with target := v % 256 } } → goFault s1 (v % 256) 0 = some r →
    pathPermitted s.lc.state (v % 256) 0 = false → exec (.lcGo .debug v) s = .next (({ s1 with
      lc := { s1.lc with token := zeros 16, statRefused := true, result := r } } : State).raise 0x0106 (v % 256) r 0 0)) ∧
  (∀ (s s1 s2 : State) (v : Nat), lcWriter s .debug = true → bit v 8 = true →
    s1 = { s with lc := { s.lc with target := v % 256 } } → goFault s1 (v % 256) 0 = none →
    s2 = endGrant 5 (({ s1 with lc := { s1.lc with token := zeros 16 } } : State).raise 0x0101 s.lc.state (v % 256) 0 0) →
    secretBase s.lc.state (v % 256) = none → exec (.lcGo .debug v) s = .next { s2 with
      lc := { s2.lc with go := true, statRefused := false, session := some {
        left := [], target := v % 256, origin := s.lc.state, path := 0, who := none, words := 0 } }
      sys := { s2.sys with drainStop := true } }) ∧
  (∀ (s : State) (w : Writer) (v : Nat), (w ≠ .debug ∨ s.lc.state ≠ 0) →
    exec (.lcProg w v) s = .next (s.denyWrite w 0x10010020 4)) ∧
  (∀ (s : State) (v a n : Nat), s.lc.state = 0 → bit v 4 = true → progField (v % 16) = some (a, n) →
    s.lc.session = none → s.sag.warning = false → allZero (s.lc.otpBytes a n) = true →
    exec (.lcProg .debug v) s = .next { s with
      lc := { s.lc with token := zeros 16, statRefused := false, session := some {
        left := (List.range n).map (fun i => OtpStep.word (a + i) (BitVec.ofNat 32 (fieldLe s.lc.token (4 * i) 4))),
        target := 0x100, origin := 0, path := 0, who := none, words := 0 } } }) ∧
  (∀ (s : State) (x : Session), s.lc.session = some x → (s.sag.warning = true ∨ s.sys.inReset = true) →
    exec .otpWordProgrammed s = .next s) ∧
  (∀ (s : State) (x : Session) (w : Nat) (v : BitVec 32) (y : OtpStep) (rest : List OtpStep), s.lc.session = some x →
    s.sag.warning = false → s.sys.inReset = false → x.left = .word w v :: y :: rest → exec .otpWordProgrammed s =
      .next { s with lc := { s.lc.program w v with session := some { x with left := y :: rest, words := x.words + 1 } } }) ∧
  (∀ (s : State) (x y : Session) (w : Nat) (v : BitVec 32), s.lc.session = some x →
    s.sag.warning = false → s.sys.inReset = false → x.left = [.word w v] → y = { x with left := [], words := x.words + 1 } →
    exec .otpWordProgrammed s = .next (sessionDone { s with lc := { s.lc.program w v with session := some y } } y)) ∧
  (∀ (s : State) (x : Session), s.lc.session = some x → s.sag.warning = false → s.sys.inReset = false → x.words = 0 →
    x.left = [] → (∃ c ∈ s.cmds, some c.place ≠ x.who) → exec .otpWordProgrammed s = .next s) ∧
  (∀ (l : LifeCycle) (w : Nat) (v : BitVec 32), (l.program w v).word w = l.word w ||| v ∧
    ∀ u, u ≠ w → (l.program w v).word u = l.word u) ∧
  (∀ (s : State), s.sys.lcResetDue = true → exec .lcTransitionResetTimer s =
    .next (warmReset 0 { s with sys := { s.sys with lcResetDue := false } })) ∧
  (∀ (s : State), s.sys.lcResetDue = false → exec .lcTransitionResetTimer s = .next s)

/-- Accesses of the masters of the internal interconnect (R13, R92, R347, R350, R351): an access that its protection unit does
not pass ends with an error response and the fault record; one that passes reads or writes the memory at its address; a
memory that is off answers with an error, and a master whose domain is off issues no access. -/
def Obligations.MasterAccessComplete : Prop :=
  (∀ (s : State) (u : Nat) (k : AccKind) (us : Bool) (a n c r : Nat) (d : Bytes), unitOn s u = true → u ≤ 11 → 1 ≤ n → n ≤ 4096 →
    mpuCheck s u k (us && decide (u ≤ 3)) a n = some (c, r) → exec (.masterAccess u k us a n d) s =
      .next (faultAnswer u a ((s.mpuFault u c (kindCode k) (us && decide (u ≤ 3)) r a n).send (.error a)))) ∧
  (∀ (s : State) (u : Nat) (us : Bool) (a n : Nat) (d : Bytes), unitOn s u = true → u ≤ 11 → 1 ≤ n → n ≤ 4096 → 0x01000000 ≤ a →
    a + n ≤ 0x01800000 → s.powered 31 = true → mpuCheck s u .write (us && decide (u ≤ 3)) a n = none →
    exec (.masterAccess u .write us a n d) s = .next { s with
      mem := (List.range n).foldl (fun m i => Mem.write m (a + i) ((d[i]?).getD 0)) s.mem }) ∧
  (∀ (s : State) (u : Nat) (us : Bool) (a n : Nat) (d : Bytes), unitOn s u = true → u ≤ 11 → 1 ≤ n → n ≤ 4096 → 0x01000000 ≤ a →
    a + n ≤ 0x01800000 → s.powered 31 = true → mpuCheck s u .read (us && decide (u ≤ 3)) a n = none →
    exec (.masterAccess u .read us a n d) s =
      .next ((s.drawn n).send (.memRead a ((List.range n).map (fun i => Mem.read s.mem (a + i)))))) ∧
  (∀ (s : State) (u : Nat) (us : Bool) (a n : Nat) (k : AccKind) (d : Bytes), unitOn s u = true → u ≤ 11 → 1 ≤ n → n ≤ 4096 → 0x01000000 ≤ a →
    a + n ≤ 0x01800000 → s.powered 31 = false → mpuCheck s u k (us && decide (u ≤ 3)) a n = none →
    exec (.masterAccess u k us a n d) s = .next (s.send (.error a))) ∧
  (∀ (s : State) (u : Nat) (us : Bool) (a : Nat) (d : Bytes), unitOn s u = true → u ≤ 11 → 0x10000000 ≤ a → a + 4 ≤ 0x10150000 →
    mpuCheck s u .write (us && decide (u ≤ 3)) a 4 = none → exec (.masterAccess u .write us a 4 d) s =
      .next (writeRegs (accessWriter u (us && decide (u ≤ 3))) a 4 (leNat (sl d 0 4)) s)) ∧
  (∀ (s : State) (u : Nat) (k : AccKind) (us : Bool) (a n : Nat) (d : Bytes), unitOn s u = false →
    exec (.masterAccess u k us a n d) s = .next s)

/-- The check of a protection unit (R347, R348, R350): writes to the key store, the event log, the black box and the step
caches fault whatever a region grants, no MRAM address is executable, an address outside the map faults, and an access
that no enabled region touches is decided by the default map. -/
def Obligations.ProtectionUnitCheck : Prop :=
  (∀ (s : State) (u : Nat) (us : Bool) (a n : Nat), touches mapped a n = true → touches inKeyStore a n = true →
    mpuCheck s u .write us a n = some (6, 31)) ∧
  (∀ (s : State) (u : Nat) (us : Bool) (a n : Nat), touches mapped a n = true → touches inKeyStore a n = false →
    touches (fun x => inRecords x || inStepCache x) a n = true → mpuCheck s u .write us a n = some (5, 31)) ∧
  (∀ (s : State) (u : Nat) (us : Bool) (a n : Nat), touches mapped a n = true → touches inMram a n = true →
    mpuCheck s u .fetch us a n = some (5, 31)) ∧
  (∀ (s : State) (u : Nat) (k : AccKind) (us : Bool) (a n : Nat), touches mapped a n = false →
    mpuCheck s u k us a n = some (1, 31)) ∧
  (∀ (s : State) (u : Nat) (us : Bool) (a n : Nat), touches mapped a n = true →
    (∀ i < 16, ((s.unit u).region (s.unit u).active i).en = false) →
    (us = true → u ≤ 3 → mpuCheck s u .read us a n = some (2, 31)) ∧
    (us = false → entryAt (defaultMap s u) a = none → mpuCheck s u .read us a n = some (2, 31)) ∧
    (∀ e, us = false → entryAt (defaultMap s u) a = some e → within (a + n - 1) e.1 e.2.1 = true → e.2.2.r = true →
      mpuCheck s u .read us a n = none)) ∧
  (∀ (s : State) (u : Nat), u ≤ 9 → s.lc.state = 0x60 → defaultMap s u = [])

/-- The registers of the protection units (R352, R353): SWAP makes the inactive set active, LOCK stays, a region register of
the inactive set takes a write, and a locked unit and the active set refuse it with event 0x0602. -/
def Obligations.ProtectionUnitRegistersComplete : Prop :=
  (∀ (s : State) (c i : Nat), i ≤ 11 →
    ((s.unit i).lock = false → exec (.mpuSwap (.steward c true) i) s =
      .next (s.modUnitReg i (fun m => { m with active := 1 - m.active }))) ∧
    ((s.unit i).lock = true → exec (.mpuSwap (.steward c true) i) s = .next (mpuRefuse s i (mpuAddr i 0))) ∧
    exec (.mpuLock (.steward c true) i) s = .next (s.modUnitReg i (fun m => { m with lock := true }))) ∧
  (∀ (s : State) (w : Writer) (i : Nat), Writer.priv w = false →
    exec (.mpuSwap w i) s = .next (s.denyWrite w (mpuAddr i 0) 4) ∧
    exec (.mpuLock w i) s = .next (s.denyWrite w (mpuAddr i 0) 4)) ∧
  (∀ (s : State) (c a v i set r field : Nat), regionOf a = some (i, set, r, field) →
    ((s.unit i).lock = false → set ≠ (s.unit i).active → exec (.mpuRegionWrite (.steward c true) a v) s =
      .next (s.modUnitReg i (fun m => { m with
        regions := (m.region set r).set_ field v :: m.regions.filter (fun x => !(x.set == set && x.idx == r)) }))) ∧
    ((s.unit i).lock = true → exec (.mpuRegionWrite (.steward c true) a v) s = .next (mpuRefuse s i a)) ∧
    (set = (s.unit i).active → exec (.mpuRegionWrite (.steward c true) a v) s = .next (mpuRefuse s i a)))

/-- Writes of registers (R8, R13, R16, R78, R81, R83, R84): a write whose block is off ends with an error response, one whose
block does not admit the writer is denied with the fault record, and one that is admitted changes the register at its
address; a host function reaches the registers of its own BAR0. -/
def Obligations.RegisterWriteComplete : Prop :=
  (∀ (s : State) (w : Writer) (a v : Nat), (∀ fn, w ≠ .host fn ∧ w ≠ .hostPoisoned fn) → 0x10000000 ≤ a → a + 4 ≤ 0x10150000 → a % 4 = 0 →
    (s.regOn a = false → exec (.registerWrite w a 4 v) s = .next (s.send (.error a))) ∧
    (s.regOn a = true → regAdmits s w a = false → exec (.registerWrite w a 4 v) s = .next (s.denyWrite w a 4)) ∧
    (s.regOn a = true → regAdmits s w a = true → exec (.registerWrite w a 4 v) s =
      .next (regWrite w a (v % 2 ^ 32) (2 ^ 32 - 1) s))) ∧
  (∀ (s : State) (v : Nat), (s.hostUp && s.fnExists 0) = true → s.host.d3.contains 0 = false →
    exec (.registerWrite (.host 0) 0x10008 4 v) s = .next { s with host := { s.host with vec := v % 2 ^ 32 % 2048 } }) ∧
  (∀ (s : State) (fn off size v : Nat), (s.hostUp && s.fnExists fn) = true → s.host.d3.contains fn = false → 1 ≤ size →
    size ≤ 4096 → 0x1000 ≤ off → off < 0x1080 → (pairIndex fn off).isSome = false →
    ((s.mbx fn).state = 1 → exec (.registerWrite (.host fn) off size v) s =
      .next (s.violation 0x0B09 fn none off (v % 2 ^ 32))) ∧
    ((s.mbx fn).state ≠ 1 → exec (.registerWrite (.host fn) off size v) s = .next (s.setMbx { s.mbx fn with
      entry := (((s.mbx fn).entry.take (off - 0x1000) ++ toLe size v ++
        (s.mbx fn).entry.drop (off - 0x1000 + size)).take 128) }))) ∧
  (∀ (s : State) (fn off size v : Nat), (s.hostUp && s.fnExists fn) = true → s.host.d3.contains fn = false → 1 ≤ size →
    size ≤ 4096 → (pairIndex fn off).isSome = true → exec (.registerWrite (.host fn) off size v) s =
      .next (doorbell fn off size v s)) ∧
  (∀ (s : State) (fn off size v : Nat), (s.hostUp && s.fnExists fn) = false →
    exec (.registerWrite (.host fn) off size v) s = .next s) ∧
  (∀ (s s1 : State) (fn off size v : Nat), (s.hostUp && s.fnExists fn) = true → s.host.d3.contains fn = false →
    s1 = { s with host := { s.host with aer := s.host.aer ||| aerPoisoned } } →
    ((pairIndex fn off).isSome ∨ (0x1000 ≤ off ∧ off < 0x2000) → exec (.registerWrite (.hostPoisoned fn) off size v) s =
      .next (s1.violation 0x0B0B fn none off (v % 2 ^ 32))) ∧
    (¬ ((pairIndex fn off).isSome ∨ (0x1000 ≤ off ∧ off < 0x2000)) →
      exec (.registerWrite (.hostPoisoned fn) off size v) s = .next s1))

/-- Online self-test (R376, R378, R379, R380, R381, R393): a period starts the request in front or the walk's pick, BIST.REQ
queues a pick, the unit is isolated when idle or the pick is postponed, the signature decides, and the unit returns after
its known-answer tests or fails. -/
def Obligations.SelfTestComplete : Prop :=
  (∀ (s s1 : State) (i : Nat), i < 2 → 13 ≤ s.sys.step → s.sys.inReset = false → s.bist.enable = true →
    (s.slot i).phase = 0 → picksHeld s = false → s1 = dropRequests s i ((s.slot i).reqs.length) →
    (∀ u p k who rest, (s1.slot i).reqs = (u, p, k, who) :: rest → exec (.bistSlotPeriod i) s =
      .next (startPick (s1.modSlot i (fun x => { x with reqs := rest })) i u p true k who)) ∧
    (∀ p u, (s1.slot i).reqs = [] → walkFrom s1 i = some (p, u) → exec (.bistSlotPeriod i) s =
      .next (startPick (s1.modSlot i (fun x => { x with walkPick := p, walkUnit := u })) i u p false 0 none))) ∧
  (∀ (s : State) (i : Nat), picksHeld s = true → exec (.bistSlotPeriod i) s = .next s) ∧
  (∀ (s : State) (c v : Nat), bit v 12 = true → v % 256 ≤ 175 → (s.slot (slotOf (v % 256))).reqs.length < 8 →
    exec (.bistReq (.steward c true) v) s = .next (s.modSlot (slotOf (v % 256)) (fun x =>
      { x with reqs := x.reqs ++ [(v % 256, v / 256 % 16, 0, none)] }))) ∧
  (∀ (s : State) (w : Writer) (v : Nat), Writer.priv w = false →
    exec (.bistReq w v) s = .next (s.denyWrite w 0x10100010 4)) ∧
  (∀ (s : State) (i : Nat), i < 2 → (s.slot i).phase = 1 → unitIdle s (s.slot i).unit = true →
    (unitKind (s.slot i).unit ≠ 2 → exec (.bistUnitIdle i) s = .next (s.modSlot i (fun y => { y with phase := 2 }))) ∧
    (unitKind (s.slot i).unit = 2 → exec (.bistUnitIdle i) s = .next ((s.modSlot i (fun y => { y with phase := 2 })).modTreadle
      ((s.slot i).unit - 160) (fun t => { Treadle.reset with draining := t.draining })))) ∧
  (∀ (s s1 s2 : State) (i : Nat) (x : Slot), i < 2 → x = s.slot i → x.phase = 1 → unitIdle s x.unit = false →
    x.requested = false → x.repeat_ = false → s1 = (giveUnit s x.unit 0).raise 0x0506 x.unit x.pick s.bist.isolate 0 →
    s2 = s1.modSlot i (fun y => { y with phase := 0, who := none, requested := false, repeat_ := false, bnCause := false }) →
    exec (.bistIsolateTimeout i) s = .next (answerPick
      { s2 with bist := { s2.bist with skips := (s2.bist.skips + 1) % 2 ^ 32 } } x 4)) ∧
  (∀ (s : State) (i m : Nat), i < 2 → (s.slot i).phase = 2 →
    (m = Config.bistSignature (unitKind (s.slot i).unit) (s.slot i).pick → exec (.bistPatternsDone i m) s =
      .next (s.modSlot i (fun y => { y with phase := 3 }))) ∧
    (m ≠ Config.bistSignature (unitKind (s.slot i).unit) (s.slot i).pick → exec (.bistPatternsDone i m) s =
      .next (failPick s i m))) ∧
  (∀ (s : State) (i : Nat), i < 2 → (s.slot i).phase = 3 →
    exec (.bistUnitRestored i true) s = .next (passPick s i) ∧
    exec (.bistUnitRestored i false) s =
      .next (failPick s i (Config.bistSignature (unitKind (s.slot i).unit) (s.slot i).pick)))

/-- The event recorder and the management bus (R384, R385, R386, R387, R418, R419): the oldest buffered event is written to
the log and the black box, operating time is stored every 1,000 ms, each command of the management bus is answered with
its value or not acknowledged, and its violations are logged. -/
def Obligations.RecorderAndManagementBusComplete : Prop :=
  (∀ (s s1 : State) (e : Ev) (rest : List Ev), s.evr.buffer = e :: rest → recorderOn s = true →
    s1 = writeEvent { s with evr := { s.evr with buffer := rest, waiting := s.evr.waiting - 1 } } e → s1.evr.lostNow = 0 →
    exec .eventRecord s = .next s1) ∧
  (∀ (s : State), s.evr.buffer = [] → exec .eventRecord s = .next s) ∧
  (∀ (s : State) (e : Ev), s.evr.full = false → s.evr.log.length < 65535 → (takeToken s e.code).2 = true →
    writeEvent s e = ringTake (appendLog (takeToken s e.code).1 e) e false) ∧
  (∀ (s : State) (e : Ev), s.evr.full = false → (takeToken s e.code).2 = false →
    writeEvent s e = ringTake (bumpRepeat (takeToken s e.code).1 e.code) e true) ∧
  (∀ (s : State) (e : Ev), s.evr.full = true →
    writeEvent s e = ringTake { s with evr := { s.evr with lost := (s.evr.lost + 1) % 2 ^ 32 } } e false) ∧
  (∀ (s s1 : State), s.sys.inReset = false → s1 = s.timeAtLeast (s.evr.stored + 1000) → s1.powered 35 = true →
    s1.powered 34 = true → s1.sag.warning = false → exec .optimeStore s =
      .next { s1 with evr := { s1.evr with stored := s1.evr.optime } }) ∧
  (∀ (s : State), smbUp s = true →
    exec .smbReceiveByte s = .next (s.send (.smb [byte (smbStatusByte s)])) ∧
    exec .smbStatus s = .next (s.send (.smb [byte (smbStatusByte s)])) ∧
    exec .smbTemp s = .next (s.send (.smb (toLe 2 (s.board.temp % 65536).toNat))) ∧
    exec .smbVbat s = .next (s.send (.smb (toLe 2 s.tmp.vbatMv))) ∧
    exec .smbLcState s = .next (s.send (.smb [byte s.lc.state])) ∧
    exec .smbId s = .next (s.send (.smb ([8#8] ++ toLe 4 s.hidId ++ toLe 4 s.host.fwver))) ∧
    exec .smbVpd s = .next (s.send (.smb ([32#8] ++ orderingCode s ++ s.serial ++
      [0xB0#8, byte s.lc.variantByte, 0#8, 0#8] ++ toLe 4 s.host.fwver))) ∧
    (smbAlert s = true → exec .smbAlertResponse s =
      .next (s.send (.smb [byte (2 * (0x30 + s.board.smbAddr.toNat))]))) ∧
    (smbAlert s = false → exec .smbAlertResponse s = .next (s.send .smbNack))) ∧
  (∀ (s : State), smbUp s = false →
    exec .smbReceiveByte s = .next (s.send .smbNack) ∧ exec .smbStatus s = .next (s.send .smbNack) ∧
    exec .smbTemp s = .next (s.send .smbNack) ∧ exec .smbVbat s = .next (s.send .smbNack) ∧
    exec .smbLcState s = .next (s.send .smbNack) ∧ exec .smbId s = .next (s.send .smbNack) ∧
    exec .smbVpd s = .next (s.send .smbNack) ∧ exec .smbAlertResponse s = .next (s.send .smbNack)) ∧
  (∀ (s : State), 7 ≤ s.sys.step → s.powered 35 = true → exec .smbSclTimeout s = .next (s.raise 0x0B22 0 0 0 0)) ∧
  (∀ (s : State) (cmd : Nat) (b : BusAct), smbUp s = true → 7 ≤ s.sys.step → s.powered 35 = true → cmd ∉ smbCommands →
    exec (.smbControllerViolation cmd b) s = .next ((s.send .smbNack).raise 0x0B20 0 0 0 0)) ∧
  (∀ (s : State) (cmd : Nat), smbUp s = true → 7 ≤ s.sys.step → s.powered 35 = true → cmd ∈ smbCommands →
    exec (.smbControllerViolation cmd .write) s = .next ((s.send .smbNack).raise 0x0B21 0 0 0 0) ∧
    exec (.smbControllerViolation cmd .readPast) s = .next ((s.send (.smb [0xFF#8])).raise 0x0B23 0 0 0 0))

/-- The partition opcodes (R38, R40, R41, R42, R43, R50, R89, R162): with their quorum they commit and mirror the change of
the partition's record, PART_QUERY reads it, and a teardown marks the subtree and waits. -/
def Obligations.PartitionOpcodesComplete : Prop :=
  (∀ (s : State) (i id : Nat) (c : Cmd) (par p : Part) (r : Bytes), StewardReady s i 0x010 c → c.quorum.isSome = true →
    r = c.own true → s.part? (fieldLe r 0 2) = some par → par.tearing = false → par.depth < 8 → newId s (fieldLe r 2 2) = .ok id →
    (Attrs.of r).rangeOk = true → (Attrs.of r).under par (s.children par.id) = true → p = newPart s id par r →
    s.canCommit = true → exec (.partCreate i) s = .next (if edPointBad (sl r 32 32) = true
      then s.retire c 0x1003
      else s.changed { s with parts := s.parts ++ [p], gens := assocSet s.gens id p.gen } c 0x04 id (p.body 1) (toLe 2 id))) ∧
  (∀ (s : State) (i : Nat) (c : Cmd) (p : Part) (r : Bytes), StewardReady s i 0x011 c → c.quorum.isSome = true →
    r = c.own true → s.part? (fieldLe r 2 2) = some p → p.tearing = false → (Attrs.of r).rangeOk = true →
    (p.id = 0 → ownerFixed (Attrs.of r) = true) →
    (p.id ≠ 0 → fitsBelow s p (Attrs.of r) = true ∧ (Attrs.of r).under ((s.part? p.parent).getD p)
      ((s.children ((s.part? p.parent).getD p).id).filter (fun x => x.id != p.id)) = true) →
    s.canCommit = true → exec (.partModify i) s =
      .next (s.changed (s.putPart (p.withAttrs (Attrs.of r))) c 0x04 p.id ((p.withAttrs (Attrs.of r)).body 1) [])) ∧
  (∀ (s : State) (i : Nat) (c : Cmd) (p q : Part), StewardReady s i 0x014 c → c.quorum.isSome = true →
    (c.admin = true ∨ c.part = c.inl 72 2) → s.part? (c.inl 72 2) = some p →
    q = { p with accessKey := c.inlB 80 32 } → s.canCommit = true → exec (.partSetAccessKey i) s =
      .next (if edPointBad (c.inlB 80 32) = true then s.retire c 0x1003
        else s.changed (s.putPart q) c 0x04 p.id (q.body 1) [])) ∧
  (∀ (s : State) (i : Nat) (c : Cmd) (p q : Part), StewardReady s i 0x015 c → c.quorum.isSome = true →
    s.part? (c.inl 72 2) = some p → p.tearing = false →
    q = { p with enables := BitVec.ofNat 1024 (leNat (sl (c.own true) 0 128)) } → s.canCommit = true →
    exec (.partEnableOpcodes i) s = .next (s.changed (s.putPart q) c 0x04 p.id (q.body 1) [])) ∧
  (∀ (s : State) (i : Nat) (c : Cmd) (p q : Part), StewardReady s i 0x016 c →
    (c.admin = true ∨ c.part = c.inl 72 2) → s.part? (c.inl 72 2) = some p → p.tearing = false → c.inl 74 1 ≤ 1 →
    q = { p with oldest := c.inl 74 1 == 1 } → s.canCommit = true →
    exec (.partSetCachePolicy i) s = .next (s.changed (s.putPart q) c 0x04 p.id (q.body 1) [])) ∧
  (∀ (s : State) (i : Nat) (c : Cmd) (p : Part), StewardReady s i 0x013 c → inReach s c (c.inl 72 2) = true →
    s.part? (c.inl 72 2) = some p → exec (.partQuery i) s = .next (okReply s c [] (partReply s p))) ∧
  (∀ (s : State) (i : Nat) (c : Cmd), StewardReady s i 0x013 c → inReach s c (c.inl 72 2) = false →
    exec (.partQuery i) s = .next (s.retire c 0x2001)) ∧
  (∀ (s s1 s2 s3 : State) (i d : Nat) (c : Cmd) (p : Part) (ids : List Nat), StewardReady s i 0x012 c → c.quorum.isSome = true →
    (c.admin = true ∨ c.part = c.inl 72 2) → s.part? (c.inl 72 2) = some p → p.tearing = false → c.inl 72 2 ≠ 0 →
    s.canCommit = true → ids = subtree s p.id →
    s1 = { s with
      parts := updWhere (fun x => ids.contains x.id) (fun x => { x with tearing := true }) s.parts
      qr := { s.qr with nonces := s.qr.nonces.filter (fun n => !ids.contains n.part) } } →
    s2 = (s1.commit 0x04 p.id (p.body 2)).setCmd { c with phase := .waitTeardown p.id } →
    d = ((deepest s2 p.id).map (fun x => x.id)).getD p.id →
    s3 = (s2.queues.filter (fun q => q.bound && q.part == d)).foldl (fun t q => t.unbind q.id) s2 →
    exec (.partTeardown i) s = .next { s3 with
      tears := s3.tears.filter (fun t => t.root != p.id) ++ [{ root := p.id, cur := d, step := 3, who := some c.place }] }) ∧
  (∀ (s : State) (i : Nat) (c : Cmd) (p : Part), StewardReady s i 0x012 c → c.quorum.isSome = true →
    c.admin = true → s.part? 0 = some p → p.tearing = false → c.inl 72 2 = 0 →
    exec (.partTeardown i) s = .next (s.retire c 0x1003))

/-- The queue opcodes (R44, R45, R46, R47, R48, R77): Q_CREATE makes an UNBOUND queue, Q_BIND binds it under a signed
statement whose nonce is consumed, Q_UNBIND and Q_DELETE end it once its other commands have finished, Q_QUERY reads it,
and CMD_CANCEL acts on the commands of its tag. -/
def Obligations.QueueOpcodesComplete : Prop :=
  (∀ (s : State) (i id k : Nat) (c : Cmd) (q : Queue), StewardReady s i 0x020 c → queueTurn s c = true → s.host.ready = true →
    (c.inl 72 2 = 0xFFFF → firstFree (fun j => (s.queue? j).isNone) 16384 0 = some id) →
    (c.inl 72 2 ≠ 0xFFFF → c.inl 72 2 = id ∧ id ≤ 16383 ∧ s.queue? id = none) →
    firstFree (fun j => !(s.queues.filter (fun q => q.fn == c.inl 74 1)).any (fun q => q.localIdx == j)) 1024 0 = some k →
    s.fnExists (c.inl 74 1) = true → 1 ≤ c.inl 75 1 → c.inl 75 1 ≤ 16 → c.inl 76 2 < vectors (c.inl 74 1) → c.inl 78 1 ≤ 1 →
    allZero (c.inlB 79 1) = true → allZero (c.inlB 96 32) = true → c.inl 80 8 % 4096 = 0 → c.inl 88 8 % 4096 = 0 →
    c.inl 80 8 + 128 * 2 ^ c.inl 75 1 ≤ 2 ^ 64 → c.inl 88 8 + 32 * 2 ^ c.inl 75 1 ≤ 2 ^ 64 →
    q = { id := id, fn := c.inl 74 1, localIdx := k, log2 := c.inl 75 1, vec := c.inl 76 2, intEn := c.inl 78 1 == 1,
          sq := c.inl 80 8, cq := c.inl 88 8, bound := false, part := 0, sqHead := 0, sqTail := 0, cqHead := 0, cqTail := 0,
          phase := true, reading := 0, stopped := false, errDue := false, deleting := false } →
    exec (.qCreate i) s = .next (okInline (({ s with queues := s.queues ++ [q] } : State).mirrorQueue id) c (toLe 2 id))) ∧
  (∀ (s s1 : State) (i : Nat) (c c1 : Cmd) (q : Queue), StewardReady s i 0x021 c → s.queue? (c.inl 72 2) = some q →
    c.idx = 0 → queueTurn s c = true → q.deleting = false → c1 = { c with idx := 1 } →
    s1 = ((s.modQueue (c.inl 72 2) (fun y => { y with deleting := true })).unbind (c.inl 72 2)).setCmd c1 →
    (queueBusy s1 c1 (c.inl 72 2) = false → exec (.qDelete i) s =
      .next ((s1.retireWith c1 0 false false []).dropQueue (c.inl 72 2))) ∧
    (queueBusy s1 c1 (c.inl 72 2) = true → exec (.qDelete i) s = .next s1)) ∧
  (∀ (s : State) (i : Nat) (c : Cmd) (q : Queue), StewardReady s i 0x021 c → s.queue? (c.inl 72 2) = some q → c.idx ≠ 0 →
    queueBusy s c (c.inl 72 2) = false → exec (.qDelete i) s =
      .next ((s.retireWith c 0 false false []).dropQueue (c.inl 72 2))) ∧
  (∀ (s : State) (i : Nat) (c : Cmd), c.idx = 0 → queueTurn s c = false →
    (StewardReady s i 0x020 c → exec (.qCreate i) s = .next s) ∧ (StewardReady s i 0x021 c → exec (.qDelete i) s = .next s) ∧
    (StewardReady s i 0x022 c → exec (.qBind i) s = .next s) ∧ (StewardReady s i 0x023 c → exec (.qUnbind i) s = .next s)) ∧
  (∀ (s s1 : State) (i p : Nat) (c : Cmd) (q : Queue) (st : Bytes), StewardReady s i 0x022 c → st = sl (c.own false) 0 32 →
    p = fieldLe st 12 2 → s.queue? (c.inl 72 2) = some q → q.bound = false → q.deleting = false →
    queueTurn s c = true → s1 = useNonce s p (fieldLe st 16 8) → queueRoom s1 p = true → exec (.qBind i) s =
      .next ((bindReason s q st (sl (c.own false) 32 64)).elim
        (okInline ((s1.modQueue q.id (fun x => { x with
          bound := true, part := p, sqHead := 0, sqTail := 0, cqHead := 0, cqTail := 0, phase := true, reading := 0,
          stopped := false })).mirrorQueue q.id) c [])
        (fun n => failDetail s1 c (if n = 4 ∧ (s.part? p).isSome then 0x1003 else 0x2001) [byte n]))) ∧
  (∀ (s s1 : State) (i : Nat) (c c1 : Cmd) (q : Queue), StewardReady s i 0x023 c → c.admin = true →
    s.queue? (c.inl 72 2) = some q → q.bound = true → c.idx = 0 → queueTurn s c = true → c1 = { c with idx := 1 } →
    s1 = (s.unbind (c.inl 72 2)).setCmd c1 →
    (queueBusy s1 c1 (c.inl 72 2) = false → exec (.qUnbind i) s = .next (okInline s1 c1 [])) ∧
    (queueBusy s1 c1 (c.inl 72 2) = true → exec (.qUnbind i) s = .next s1)) ∧
  (∀ (s : State) (i : Nat) (c : Cmd) (q : Queue), StewardReady s i 0x023 c → c.admin = true → s.queue? (c.inl 72 2) = some q →
    c.idx ≠ 0 → queueBusy s c (c.inl 72 2) = false → exec (.qUnbind i) s = .next (okInline s c [])) ∧
  (∀ (s : State) (i : Nat) (c : Cmd) (q : Queue), StewardReady s i 0x024 c → c.admin = true → c.inl 72 2 ≤ 16383 →
    s.queue? (c.inl 72 2) = some q → exec (.qQuery i) s = .next (okInline s c ([if q.bound then 2#8 else 1#8, byte q.fn] ++
      toLe 2 q.part ++ [byte q.log2, 0#8] ++ toLe 2 q.localIdx ++ toLe 2 q.sqHead ++ toLe 2 q.sqTail ++ toLe 2 q.cqHead ++
      toLe 2 q.cqTail))) ∧
  (∀ (s : State) (i : Nat) (c : Cmd), (StewardReady s i 0x023 c → queueTurn s c = true → c.admin = false → c.path ≠ .queue (c.inl 72 2) →
      exec (.qUnbind i) s = .next (s.retire c 0x2001)) ∧
    (StewardReady s i 0x024 c → c.admin = false → c.path ≠ .queue (c.inl 72 2) →
      exec (.qQuery i) s = .next (s.retire c 0x2001)) ∧
    (StewardReady s i 0x026 c → c.admin = false → c.path ≠ .queue (c.inl 72 2) →
      exec (.cmdCancel i) s = .next (s.retire c 0x2001))) ∧
  (∀ (s s1 s2 : State) (i : Nat) (c : Cmd) (cs : List Cmd) (hit : Fetched → Bool) (late : Bool), StewardReady s i 0x026 c →
    c.admin = true ∨ c.path = .queue (c.inl 72 2) →
    (∀ e, hit e = (e.q == c.inl 72 2 && fieldLe e.entry 0 4 == c.inl 76 4 && !e.cancelled)) →
    cs = s.cmds.filter (fun x => x.place != c.place && x.path == Path.queue (c.inl 72 2) && x.tag == c.inl 76 4) →
    late = ((s.lk.held ++ s.d3held).any (fun h => h.path == Path.queue (c.inl 72 2) && fieldLe h.entry 0 4 == c.inl 76 4) ||
      cs.any (tooLate s)) →
    s1 = { s with fetched := updWhere hit (fun e => { e with cancelled := true }) s.fetched } →
    s2 = cs.foldl (fun t x => t.abort x) (s1.tryCancelled (c.inl 72 2) s.fetched.length) →
    (late = true → exec (.cmdCancel i) s = .next (okInline s2 c [3#8])) ∧
    (late = false → cs ≠ [] → exec (.cmdCancel i) s = .next (okInline s2 c [2#8])) ∧
    (late = false → cs = [] → s.fetched.any hit = true → exec (.cmdCancel i) s = .next (okInline s2 c [1#8])) ∧
    (late = false → cs = [] → s.fetched.any hit = false → exec (.cmdCancel i) s = .next (okInline s2 c [0#8])))

/-- The routing-table and key-cache opcodes (R160, R162, R175, R177, R178, R181): updates join their table's waiting list, a
layout and limits take effect at once, a query reads the table, and a flush removes entries. -/
def Obligations.TableAndCacheOpcodesComplete : Prop :=
  (∀ (s : State) (i : Nat) (c : Cmd), StewardReady s i 0x017 c → allZero (c.inlB 72 56) = true →
    exec (.rtRouteUpdate i) s = .next { s.setCmd { c with phase := .waitTable } with
      rt := { s.rt with rWait := s.rt.rWait ++ [c.place] } }) ∧
  (∀ (s : State) (i : Nat) (c : Cmd) (p : Part), StewardReady s i 0x018 c → c.quorum.isSome = true →
    s.part? (fieldLe (c.own true) 0 2) = some p → p.tearing = false → c.admin = true → allZero (c.inlB 72 56) = true →
    exec (.rtPolicyUpdate i) s = .next { s.setCmd { c with phase := .waitTable } with
      rt := { s.rt with pWait := s.rt.pWait ++ [c.place] } }) ∧
  (∀ (s s1 : State) (i len k base : Nat) (c : Cmd), StewardReady s i 0x019 c → len = c.inl 72 1 → k = c.inl 73 1 →
    base = c.inl 76 4 → 1 ≤ len → len ≤ 19 → k ≤ 17 → allZero (c.inlB 74 2) = true → allZero (c.inlB 80 48) = true →
    holds s.rt len = false → base + 2 ^ k ≤ 163840 → layoutClash s.rt len k base = false →
    s1 = { s with rt := { s.rt with layout := s.rt.layout.set (len - 1) (k, base) } } → exec (.rtRouteLayout i) s =
      .next (okInline (s1.record { stamp := 0, typ := 0x14, part := 0, body := [1#8, byte len, byte k, 0#8] ++ toLe 4 base })
        c [])) ∧
  (∀ (s : State) (i : Nat) (c : Cmd) (p : Part), StewardReady s i 0x01A c → c.inl 72 1 = 0 → allZero (c.inlB 73 1) = true →
    allZero (c.inlB 76 4) = true → allZero (c.inlB 91 37) = true → s.part? (c.inl 74 2) = some p → p.tearing = false →
    c.admin = true → byteAt (c.inlB 80 11) 0 ≤ 19 → exec (.rtQuery i) s = .next (okInline { s with
      rt := { s.rt with probes := (s.rt.probes +
        (panLookup (s.rt.routes s.rt.rgen) (c.inl 74 2) (digitString (c.inlB 80 11))).2) % 2 ^ 32 } } c
      (routeOutput (panLookup (s.rt.routes s.rt.rgen) (c.inl 74 2) (digitString (c.inlB 80 11))).1))) ∧
  (∀ (s : State) (i : Nat) (c : Cmd) (p : Part), StewardReady s i 0x01A c → c.inl 72 1 = 1 → allZero (c.inlB 73 1) = true →
    allZero (c.inlB 76 4) = true → allZero (c.inlB 88 40) = true → s.part? (c.inl 74 2) = some p → p.tearing = false →
    c.admin = true → exec (.rtQuery i) s =
      .next (okInline (countPolicy s) c (ruleOutput (policyLookup (s.rt.rules s.rt.pgen) (c.inl 74 2) (c.inl 80 8))))) ∧
  (∀ (s : State) (i n : Nat) (c : Cmd) (p : Part), StewardReady s i 0x01B c → c.quorum.isSome = true → n = c.inl 72 2 →
    s.part? n = some p → p.tearing = false → allZero (c.inlB 74 2) = true → allZero (c.inlB 84 44) = true →
    ((s.rt.routes s.rt.rgen).filter (fun r => r.part == n)).length ≤ c.inl 76 4 →
    ((s.rt.rules s.rt.pgen).filter (fun r => r.part == n)).length ≤ c.inl 80 4 → exec (.rtSetLimits i) s =
      .next (okInline ((s.modPart n (fun x => { x with
        prefixLimit := limitOf (c.inl 76 4), ruleLimit := limitOf (c.inl 80 4) })).record
          { stamp := 0, typ := 0x14, part := n, body := [2#8, 0#8] ++ toLe 2 n ++ c.inlB 76 8 }) c [])) ∧
  (∀ (s : State) (i : Nat) (c : Cmd), StewardReady s i 0x035 c → c.inl 72 8 = 0 → bit (c.inl 80 1) 0 = false →
    exec (.kcFlush i) s = .next { s.setCmd { c with phase := .waitWalk } with
      kc := { s.kc with walks := s.kc.walks ++ [{ parts := [c.part], who := some c.place, teardown := none }] } }) ∧
  (∀ (s : State) (i : Nat) (c : Cmd), StewardReady s i 0x035 c → c.inl 72 8 = 0 → bit (c.inl 80 1) 0 = true →
    exec (.kcFlush i) s = .next { s.setCmd { c with phase := .waitWalk } with
      kc := { s.kc with walks := s.kc.walks ++ [{ parts := subtree s c.part, who := some c.place, teardown := none }] } }) ∧
  (∀ (s : State) (i : Nat) (c : Cmd) (w : Way), StewardReady s i 0x035 c → c.inl 72 8 ≠ 0 →
    handleWay s c.part (c.inl 72 8) = some w → exec (.kcFlush i) s = .next (okInline (flushWay s w) c (toLe 4 1))) ∧
  (∀ (s : State) (i : Nat) (c : Cmd) (w : Way), StewardReady s i 0x036 c → handleWay s c.part (c.inl 72 8) = some w →
    exec (.kcQuery i) s = .next (okInline s c (toLe 2 w.part ++ [byte w.key.usage, byte w.key.alg, byte w.source,
      byte (wayFlags w), byte w.age] ++ toLe 2 w.pins ++ toLe 6 w.key.notAfter))) ∧
  (∀ (s : State) (i : Nat) (c : Cmd), StewardReady s i 0x036 c → handleWay s c.part (c.inl 72 8) = none →
    exec (.kcQuery i) s = .next (s.retire c 0x3001))

/-- The pairing opcodes (R281, R287, R292, R294, R297, R299): PAIR_BEGIN starts the ceremony, PAIR_SET_POLICY keeps its
values, PAIR_QUERY reads the pair, PAIR_SWITCHOVER stops admission and waits, and PAIR_DISSOLVE ends the pair. -/
def Obligations.PairingOpcodesComplete : Prop :=
  (∀ (s s1 : State) (i : Nat) (c : Cmd), StewardReady s i 0x028 c → c.quorum.isSome = true → c.inl 72 1 ≤ 1 →
    allZero (c.inlB 73 7) = true → allZero (c.inlB 120 8) = true → s.lk.pstate = 0 → s.lk.pairRec = none →
    s.lk.ceremony = false → (bit (c.inl 72 1) 0 = false → s.queues = []) →
    s1 = s.setCmd { c with phase := .waitPair } → exec (.pairBegin i) s = .next (trainLanes { s1 with
      lk := { s1.lk with ceremony := true, source := bit (c.inl 72 1) 0, named := some (c.inlB 80 32, c.inl 112 8),
                         beginBy := some c.place, hello := none, eph := [], ownNonce := [], helloDue := false }
      sys := { s1.sys with pdctl := s1.sys.pdctl ||| (1#36 <<< 24) } })) ∧
  (∀ (s : State) (i b w : Nat) (c : Cmd) (p l : Bool), StewardReady s i 0x029 c → c.inl 72 1 = b2n p → c.inl 73 1 = b2n l →
    b = c.inl 74 2 → w = c.inl 76 2 → 10 ≤ b → b ≤ 1000 → 1 ≤ w → w ≤ 60000 → allZero (c.inlB 78 50) = true →
    s.canCommit = true → exec (.pairSetPolicy i) s = .next (s.changed { s with
      lk := { s.lk with cfgPolicy := p, cfgLoss := l, cfgBeatUs := b, cfgSolo := w } } c 0x09 0 (linkCfgBody p l b w) [])) ∧
  (∀ (s : State) (i : Nat) (c : Cmd), StewardReady s i 0x02A c → allZero (c.inlB 72 56) = true →
    exec (.pairQuery i) s = .next (okReply s c ([byte s.lk.pstate, byte s.lk.role,
      byte (b2n s.lk.policy + 2 * b2n s.lk.lossAction), byte s.lk.lanes] ++ toLe 6 s.lk.done ++ toLe 6 s.lk.prom)
      (s.lk.pairRec.elim (zeros 72) (fun x => s.pairPublic ++ sl x.partnerKey 0 32 ++ toLe 8 x.partnerSerial)))) ∧
  (∀ (s s1 : State) (i : Nat) (c : Cmd), StewardReady s i 0x02B c → allZero (c.inlB 72 56) = true → s.lk.pstate = 3 →
    s.lk.role = 2 → switching s = none → s1 = s.setCmd { c with phase := .waitSwitch, idx := 0 } →
    exec (.pairSwitchover i) s = .next { s1 with sys := { s1.sys with drainStop := true } }) ∧
  (∀ (s : State) (i : Nat) (c : Cmd), StewardReady s i 0x02B c → allZero (c.inlB 72 56) = true →
    (s.lk.pstate ≠ 3 ∨ s.lk.role ≠ 2) → exec (.pairSwitchover i) s = .next (s.retire c 0x8002)) ∧
  (∀ (s : State) (i : Nat) (c : Cmd), StewardReady s i 0x02C c → allZero (c.inlB 72 56) = true →
    (s.isPaired = false → exec (.pairDissolve i) s = .next (okInline s c [])) ∧
    (s.isPaired = true → s.lk.role = 2 → journalOpen (ensureReservation s) false = true →
      exec (.pairDissolve i) s = .next (okInline (dissolveActive s) c [])) ∧
    (∀ x, s.isPaired = true → s.lk.role ≠ 2 → (leavePair s).cmd? c.place = some x →
      exec (.pairDissolve i) s = .next (okInline (leavePair s) x [])))

/-- The draft opcodes (R88, R110, R111, R112, R113): the staging area is taken and the image asked for, a checked image is
installed with a new GENERATION, unloading empties the entry, a signer's key is kept, and DRAFT_QUERY reads the entry. -/
def Obligations.DraftOpcodesComplete : Prop :=
  (∀ (s s1 : State) (i : Nat) (c : Cmd), StewardReady s i 0x030 c → s.drafts.holder = none → imageAddrOk s c = true →
    stagingQueued s c = false → c.inl 80 4 ≠ 0 → s1 = { s with drafts := { s.drafts with holder := some c.place, staging := [] } } →
    exec (.draftLoad i) s = .next ((s1.send (.hostRead (c.inl 72 8) (min (c.inl 80 4) 0x200000))).setCmd
      { c with phase := .waitImage })) ∧
  (∀ (s : State) (i gen : Nat) (c : Cmd), StewardReady s i 0x030 c → s.drafts.holder = some c.place → c.quorum.isSome = true →
    gen = nextGen s (fieldLe s.drafts.staging 10 2) → s.canCommit = true → exec (.draftLoad i) s =
      .next ((draftFailure s s.drafts.staging (c.inl 80 4)).elim
        (s.changed (installDraft s s.drafts.staging gen) c 0x08 0 (loadRecord s.drafts.staging gen) [])
        (fun n => failDetail s c (draftStatus n) [byte n]))) ∧
  (∀ (s : State) (i op : Nat) (c : Cmd) (d : DirEnt), StewardReady s i 0x031 c → c.quorum.isSome = true → op = c.inl 72 2 →
    0x200 ≤ op → op ≤ 0x3FF → s.dirEnt? op = some d → d.state ≠ 0 → s.canCommit = true → exec (.draftUnload i) s =
      .next (s.changed (unloadDraft s op (nextGen s op) (s.highestVersion op)) c 0x08 0
        (unloadRecord op (nextGen s op) (s.highestVersion op)) [])) ∧
  (∀ (s : State) (i slot : Nat) (c : Cmd), StewardReady s i 0x032 c → c.quorum.isSome = true → slot = c.inl 72 1 → slot ≤ 3 →
    s.canCommit = true → exec (.draftSignerSet i) s = .next (s.changed { s with drafts := { s.drafts with
      signers := if allZero (c.inlB 80 32) then s.drafts.signers.filter (fun x => x.1 != slot)
        else (slot, sl (c.inlB 80 32) 0 32) :: s.drafts.signers.filter (fun x => x.1 != slot) } } c 0x09 0
      (signerRecord slot (c.inlB 80 32)) [])) ∧
  (∀ (s : State) (i : Nat) (c : Cmd), StewardReady s i 0x033 c → c.inl 72 2 ≤ 0x3FF → exec (.draftQuery i) s =
    .next (okInline s c (toLe 2 (((s.dirEnt? (c.inl 72 2)).map (fun d => d.state)).getD 0) ++
      toLe 2 (((s.dirEnt? (c.inl 72 2)).map (fun d => d.steps)).getD 0) ++
      toLe 4 (((s.dirEnt? (c.inl 72 2)).map (fun d => d.version)).getD 0) ++
      toLe 4 (((s.dirEnt? (c.inl 72 2)).map (fun d => d.gen)).getD 0) ++ toLe 4 (freeLines s).length)))

/-- The custodian, tamper and pin opcodes (R257, R258, R261, R265, R266, R360, R363, R373, R401, R404): QR_NONCE draws a nonce
and keeps it, CUST_SET commits a set that may replace the old one, CUST_QUERY reads it, TMP_CONFIG, TMP_QUERY and TMP_ACK
act on the inputs, and IOM_SET grants or refuses a pin's function. -/
def Obligations.CustodianAndTamperOpcodesComplete : Prop :=
  (∀ (s t : State) (i p : Nat) (c : Cmd) (x : Part) (b : Bytes), StewardReady s i 0x037 c → p = c.inl 72 2 →
    inReach s c p = true → s.part? p = some x → x.tearing = false → s.random 16 8 = .bytes t b →
    exec (.qrNonce i) s = .next (okInline (issueNonce t p (nonceOf b)) c (toLe 8 (nonceOf b)))) ∧
  (∀ (s : State) (i p : Nat) (c : Cmd) (x : Part), StewardReady s i 0x037 c → p = c.inl 72 2 →
    inReach s c p = true → s.part? p = some x → x.tearing = false → s.random 16 8 = .off →
    exec (.qrNonce i) s = .next (s.retire c 0x9001)) ∧
  (∀ (s : State) (p v : Nat), (s.qr.nonces.filter (fun n => n.part == p)).length < 16 → (issueNonce s p v).qr.nonces =
    s.qr.nonces ++ [{ part := p, value := v, time := s.evr.optime }]) ∧
  (∀ (s s1 : State) (i n : Nat) (c : Cmd) (p : Part) (r : Bytes), StewardReady s i 0x038 c → c.quorum.isSome = true →
    n = c.inl 72 2 → n ≠ 0 → (c.admin = true ∨ c.part = n) → s.part? n = some p → p.id = n → p.tearing = false → r = c.own true →
    s.canCommit = true → s1 = s.modPart n (fun x => { x with
      custN := byteAt r 10, custM := byteAt r 11, custVer := fieldLe r 12 4, custKeys := recordKeys r (byteAt r 10) }) →
    exec (.custSet i) s = .next (if custRecordOk p r = true
      then s.changed (s1.raise 0x0903 n p.custVer (byteAt r 10 + 256 * byteAt r 11) (s.nextStamp % 2 ^ 32)) c 0x05 n r []
      else s.retire c 0x1003)) ∧
  (∀ (s : State) (i n : Nat) (c : Cmd) (p : Part), StewardReady s i 0x039 c → n = c.inl 72 2 → inReach s c n = true →
    s.part? n = some p → exec (.custQuery i) s = .next (okReply s c (sl (custDigest p) 0 16) (custRecord p))) ∧
  (∀ (s s1 : State) (i : Nat) (c : Cmd), StewardReady s i 0x03C c → c.inl 74 1 ≤ 15 → c.inl 75 1 ≤ 15 →
    allZero (c.inlB 84 44) = true → s.lc.state ≠ 0x40 → armsLive s (c.inl 72 2) = [] → s1 = { s with tmp := { s.tmp with
      cfg := BitVec.ofNat 16 (c.inl 72 2), activeHigh := BitVec.ofNat 4 (c.inl 74 1), debounce := c.inl 75 1,
      win := ((List.range 4).map (fun n => (c.inl (76 + 2 * n) 1, c.inl (77 + 2 * n) 1))).mapIdx
        (fun n w => (w.1, w.2, ((s.tmp.win[n]?).map (fun x => x.2.2)).getD 0)) } } →
    exec (.tmpConfig i) s = .next (okInline (s1.raise 0x0204 s.tmp.cfg.toNat (c.inl 72 2) (c.inl 75 1) 0) c [])) ∧
  (∀ (s : State) (i : Nat) (c : Cmd), StewardReady s i 0x03D c → exec (.tmpQuery i) s =
    .next (okInline s c (toLe 2 s.tmp.live.toNat ++ toLe 2 s.tmp.latch.toNat ++ toLe 2 s.tmp.vbatMv ++ toLe 4 s.tmp.ltime ++
      s.tmp.win.map (fun w => byte w.2.2)))) ∧
  (∀ (s s1 : State) (i : Nat) (c : Cmd) (m : BitVec 15), StewardReady s i 0x03E c → c.inl 72 2 < 2 ^ 15 →
    allZero (c.inlB 74 54) = true → m = BitVec.ofNat 15 (c.inl 72 2) →
    s1 = { s with tmp := { s.tmp with latch := s.tmp.latch &&& ~~~(m &&& ~~~s.tmp.live) } } → exec (.tmpAck i) s =
      .next (okInline (s1.raise 0x0203 (m &&& ~~~s.tmp.live &&& s.tmp.latch).toNat (m &&& s.tmp.live).toNat 0 0) c
        (toLe 2 s1.tmp.latch.toNat))) ∧
  (∀ (s : State) (i n f : Nat) (c : Cmd), StewardReady s i 0x03F c → n = c.inl 72 1 → f = c.inl 73 1 → n ≤ 7 → f ≤ 9 →
    heldElsewhere s n f = false →
    (∀ h, pinRefuser s n f = some h → exec (.iomSet i) s =
      .next (failDetail (pinRefuse s n f) c 0x5001 [byte (fnRank h), byte h])) ∧
    (pinRefuser s n f = none → exec (.iomSet i) s = .next (okInline ((pinGrant s n f).modPin n (fun p => { p with kept := f })) c
      ((pinDisplaced s n f).elim [0#8] (fun d => [1#8, byte d])))))

/-- The time, self-test and recorder opcodes (R313, R388, R389, R390, R391, R392, R393): PT_SET_CONFIG and BIST_SET_PACE take
effect at once, PT_QUERY and BIST_QUERY read, BIST_PICK queues a pick and waits for its verdict, the log and the black box
are read, EVR_CLEAR clears the log under its quorum, and BB_RELEASE lets the ring run again. -/
def Obligations.TimeAndRecorderOpcodesComplete : Prop :=
  (∀ (s s1 : State) (i : Nat) (c : Cmd), StewardReady s i 0x1A0 c → c.inl 72 1 ≤ 2 → c.inl 73 1 ≤ 127 → c.inl 74 1 < 4 →
    1 ≤ c.inl 75 1 → c.inl 75 1 ≤ 250 → 1 ≤ c.inl 76 2 → c.inl 76 2 ≤ 168 → 1 ≤ c.inl 78 2 → c.inl 78 2 ≤ 1000 →
    allZero (c.inlB 88 40) = true → s1 = { s with pt := { s.pt.load (timeCfg c s.pt) with cfgStored := some (timeCfg c s.pt) } } →
    (c.inl 72 1 = s.pt.mapping → c.inl 73 1 = s.pt.domain → exec (.ptSetConfig i) s = .next (okInline s1 c [])) ∧
    ((c.inl 72 1 ≠ s.pt.mapping ∨ c.inl 73 1 ≠ s.pt.domain) → exec (.ptSetConfig i) s =
      .next (okInline (dropMaster { s1 with pt := { s1.pt with masters := [] } } s1.pt.gmid) c []))) ∧
  (∀ (s : State) (i : Nat) (c : Cmd), StewardReady s i 0x1A1 c → exec (.ptQuery i) s = .next (okInline s c
    ([byte s.pt.state] ++ toLe 8 s.pt.gmid ++ toLe 4 (toField 32 s.pt.lastOffset) ++ toLe 2 (min 0xFFFF (holdMinutes s)) ++
      [byte s.pt.mapping]))) ∧
  (∀ (s : State) (i u : Nat) (c : Cmd), StewardReady s i 0x1A4 c → u = c.inl 72 2 → u ≤ 175 → allZero (c.inlB 74 54) = true →
    exec (.bistQuery i) s = .next (okInline s c ([byte (unitState s u), byte (nextPick s u), byte (s.bunit u).fails, 0#8] ++
      toLe 4 (s.bunit u).passes ++ toLe 4 (s.slot (slotOf u)).cycles))) ∧
  (∀ (s : State) (i u : Nat) (c : Cmd), StewardReady s i 0x1A5 c → u = c.inl 72 2 → u ≤ 175 → c.inl 74 1 ≤ 15 →
    allZero (c.inlB 75 53) = true → skipUnit s u = false →
    ((s.slot (slotOf u)).reqs.length < 8 → exec (.bistPick i) s = .next ((s.setCmd { c with phase := .waitPick (slotOf u) }).modSlot
      (slotOf u) (fun x => { x with reqs := x.reqs ++ [(u, c.inl 74 1, 0, some c.place)] }))) ∧
    (8 ≤ (s.slot (slotOf u)).reqs.length → exec (.bistPick i) s = .next (s.retire c 0x5001))) ∧
  (∀ (s : State) (i p : Nat) (c : Cmd) (on : Bool), StewardReady s i 0x1A6 c → c.inl 72 1 = b2n on → c.inl 73 1 = 0 →
    p = c.inl 74 2 → 10 ≤ p → p ≤ 10000 → 1 ≤ c.inl 76 1 → allZero (c.inlB 77 51) = true →
    (s.lc.state = 0x40 → on = true ∧ p ≤ 1000) → exec (.bistSetPace i) s = .next (okInline { s with bist := { s.bist with
      enable := on, period := p, isolate := c.inl 76 1, cfgPace := some (on, p, c.inl 76 1) } } c [])) ∧
  (∀ (s : State) (i : Nat) (c : Cmd), StewardReady s i 0x1A7 c → c.inl 72 1 ≤ 1 → c.inl 73 1 = 0 →
    allZero (c.inlB 86 42) = true → s.pt.mapping = 1 → exec (.evrSetExport i) s = .next (okInline { s with evr := { s.evr with
      export_ := c.inl 72 1 == 1, exPort := c.inl 74 2, exIp := c.inl 76 4, exMac := c.inl 80 6 } } c [])) ∧
  (∀ (s : State) (i a n : Nat) (c : Cmd), StewardReady s i 0x1AC c → a = c.inl 72 2 → n = c.inl 74 1 → 1 ≤ n → n ≤ 96 →
    a + n ≤ 65536 → allZero (c.inlB 75 53) = true → exec (.evrRead i) s = .next (okReply s c
      (toLe 4 s.evr.log.length ++ toLe 4 s.evr.lost)
      ((List.range n).flatMap (fun k => ((s.evr.log[a + k]?).map Rec.bytes).getD (zeros 32))))) ∧
  (∀ (s s1 : State) (i : Nat) (c : Cmd), StewardReady s i 0x1AD c → c.quorum.isSome = true → c.ownLen true = 0 →
    s.evr.clearing = false → s1 = s.setCmd { c with phase := .waitClear } → exec (.evrClear i) s = .next { s1 with
      evr := { s1.evr with clearing := true, clearBy := some c.place,
                           buffer := s1.evr.buffer.map (fun e => { e with deferred := true }) } }) ∧
  (∀ (s : State) (i : Nat) (c : Cmd), s.evr.clearing = true → s.evr.clearBy = some (.ctx i) → s.sag.warning = false →
    s.cmd? (.ctx i) = some c → c.phase = .waitClear → exec (.evrClear i) s = .next (okInline (clearLog s) c [])) ∧
  (∀ (s : State) (i a n : Nat) (c : Cmd), StewardReady s i 0x1AE c → a = c.inl 72 2 → n = c.inl 74 1 → 1 ≤ n → n ≤ 96 →
    a ≤ 8191 → allZero (c.inlB 75 53) = true → exec (.bbRead i) s = .next (okReply s c
      (toLe 2 s.evr.head ++ [byte (b2n s.evr.frozen), 0#8] ++ toLe 2 s.evr.trigIdx)
      ((List.range n).flatMap (fun k => ((ringAt s ((a + k) % 8192)).map Rec.bytes).getD (zeros 32))))) ∧
  (∀ (s : State) (i : Nat) (c : Cmd), StewardReady s i 0x1AF c → s.evr.frozen = true → allZero (c.inlB 72 56) = true →
    exec (.bbRelease i) s = .next (okInline (({ s with evr := { s.evr with
      frozen := false, triggered := false, post := 0 } } : State).raise 0x0D05 s.evr.head 0 0 0) c []))

/-- The opcodes of random numbers, attestation, the life cycle and debug (R145, R146, R252, R253, R254, R328, R329, R335,
R336, R340, R342, R343): raw-sample mode is entered, read and left, health is read, reports are signed, a transition is
requested, an image is staged and its version advanced, and a grant is given and ended. -/
def Obligations.RandomAndLifeCycleOpcodesComplete : Prop :=
  (∀ (s s1 : State) (i : Nat) (c : Cmd), StewardReady s i 0x1A8 c → (c.quorum.isSome = true ∨ s.lc.state ≠ 0x30 ∧ s.lc.state ≠ 0x40) →
    allZero (c.inlB 73 55) = true → s.rng.latched = false → s1 = stopRandom s → exec (.rngRawEnter i) s = .next (okInline
      (({ s1 with
        rng := { s1.rng with raw := true, testing := false, rawReads := s.evr.optime, rawFails := 0, rawSeen := 0 } } : State).raise
        0x0406 (c.inl 72 1) c.fn 0 0) c [])) ∧
  (∀ (s s1 : State) (i n : Nat) (c : Cmd), StewardReady s i 0x1A9 c → n = c.inl 76 2 → s.rng.raw = true → c.inl 72 1 ≤ 7 →
    allZero (c.inlB 73 3) = true → allZero (c.inlB 78 50) = true → 16 ≤ n → n ≤ 3072 → n % 16 = 0 →
    s1 = { s with rng := { s.rng with rawReads := s.evr.optime, rawSeen := 0 } } → exec (.rngRawRead i) s =
      .next (okReply (s1.drawn n) c (toLe 2 (min s.rng.rawSeen 0xFFFF)) (s.draws n))) ∧
  (∀ (s : State) (i : Nat) (c : Cmd), StewardReady s i 0x1AA c → s.rng.raw = true → allZero (c.inlB 72 56) = true →
    exec (.rngRawExit i) s = .next ((leaveRaw s 1).setCmd { c with phase := .waitRng, asked := (leaveRaw s 1).evr.optime })) ∧
  (∀ (s : State) (i k : Nat) (c : Cmd) (h : Health), StewardReady s i 0x1AB c → k = c.inl 72 1 → k ≤ 7 →
    allZero (c.inlB 73 55) = true → s.rng.health[k]? = some h → exec (.rngHealthQuery i) s = .next (okInline s c
      ([h.bias, h.lag1, h.lag2, h.lag3, h.lag4].flatMap (fun x => toLe 2 (toField 16 x)) ++
        [byte (b2n (s.rng.inUse.getLsbD k)), byte (recentFails s).length]))) ∧
  (∀ (s : State) (i : Nat) (c : Cmd), StewardReady s i 0x1B0 c → c.inl 82 1 = 0 → exec (.attestDevice i) s =
    .next (s.stoneKey.elim (s.retire c 0xA001) (fun st => okReply s c [] (report s 1 0 (identitySeed st) (c.inlB 72 8)
      (Config.edPublic (identitySeed st)) none)))) ∧
  (∀ (s : State) (i n : Nat) (c : Cmd) (p : Part), StewardReady s i 0x1B1 c → n = c.inl 80 2 →
    inReach s c n = true → s.part? n = some p → c.inl 82 1 = 0 → exec (.attestPartition i) s =
      .next (s.stoneKey.elim (s.retire c 0xA001) (fun st => okReply s c [] (report s 2 0 (identitySeed st) (c.inlB 72 8)
        (Config.edPublic (identitySeed st)) (some p))))) ∧
  (∀ (s : State) (i : Nat) (c : Cmd), StewardReady s i 0x1B8 c → (c.quorum.isSome = true ∨ s.lc.state ≠ 0x30 ∧ s.lc.state ≠ 0x40) →
    (c.inl 96 1 = 0x40 → exec (.lcTransition i) s =
      .next (goTransition { s with lc := { s.lc with token := zeros 16 } } 0x40 1 (some c.place))) ∧
    (c.inl 96 1 ≠ 0x40 → c.inl 72 1 ≠ 0x40 → allZero (c.inlB 76 4) = true → exec (.lcTransition i) s =
      .next (goTransition { s with lc := { s.lc with token := c.inlB 80 16 } } (c.inl 72 1) 1 (some c.place)))) ∧
  (∀ (s : State) (i : Nat) (c : Cmd), StewardReady s i 0x1B9 c → exec (.lcQuery i) s = .next (okInline s c
    ([byte s.lc.state, byte (b2n s.lc.invalid + 2 * b2n s.lc.variantM), byte s.lc.tokensUsed, byte s.lc.marks] ++
      toLe 2 s.lc.rollback ++ [byte s.lc.slot, byte s.lc.revoked]))) ∧
  (∀ (s : State) (i : Nat) (c : Cmd), StewardReady s i 0x1BC c →
    exec (.lcEndorse i) s = .next (okReply s c [] (endorsement s (c.inlB 72 8)))) ∧
  (∀ (s s1 : State) (i : Nat) (c : Cmd) (g : Image), StewardReady s i 0x1BD c → s.drafts.holder = some c.place → g = stagedImage s →
    s1 = { s with lc := (if s.lc.slot = 0 then { s.lc with flashB := g } else { s.lc with flashA := g }) } →
    exec (.fwStage i) s = .next ((stageFault s (c.inl 80 4)).elim
      (okInline (s1.raise 0x0E04 (1 - s.lc.slot) g.version 0 0) c []) (fun n => failDetail s c 0x1003 [byte n]))) ∧
  (∀ (s : State) (i n : Nat) (c : Cmd), StewardReady s i 0x1BE c → n = c.inl 72 4 → s.lc.rollback ≤ n →
    n ≤ fieldLe s.lc.running.header 16 4 → s.lc.session = none → s.sag.warning = false →
    (advanceWords s n = [] → exec (.lcRollbackAdvance i) s =
      .next (okInline (s.raise 0x0E03 s.lc.rollback s.lc.rollback s.lc.revoked 0) c [])) ∧
    (advanceWords s n ≠ [] → exec (.lcRollbackAdvance i) s = .next (({ s with lc := { s.lc with
      session := some { left := advanceWords s n, target := 0x101, origin := s.lc.rollback, path := 1, who := some c.place,
                        words := 0 } } } : State).setCmd { c with phase := .waitOtp }))) ∧
  (∀ (s : State) (i : Nat) (c : Cmd) (t : Bytes), StewardReady s i 0x1BA c → c.quorum.isSome = true →
    t = sl (c.own true) 0 128 → exec (.dbgAuthorise i) s = .next ((dbgFault s 1 t).elim (okInline (dbgGrant s 1 t) c [])
      (fun r => failDetail (dbgRefuse s r) c 0x1003 [byte r]))) ∧
  (∀ (s : State) (i : Nat) (c : Cmd), StewardReady s i 0x1BB c → exec (.dbgEnd i) s = .next (okInline (endGrant 2 s) c []))

/-- The PIN opcodes (R185, R190, R191, R192, R193, R194, R201): with their parameters good and their keys in the registers,
the block is deciphered and checked, and the PIN is translated, verified against an offset or a verification value, or one
of these is generated. -/
def Obligations.PinOpcodesComplete : Prop :=
  (∀ (s s1 : State) (n k fi fo : Nat) (c c1 : Cmd) (k0 k1 : KReg), LoomReady s n k 0x080 c → fi = c.inl 88 1 → fo = c.inl 89 1 →
    countOk c 2 = true → fi ∈ pinFormats → fo ∈ pinFormats → reserved c 101 27 = true → blockPad c fi = true →
    panOk (c.inlB 90 11) (panLow [fi, fo]) 19 = true → KeysIn s c [(0, 2, pinMask fi), (1, 1, pinMask fo)] s1 c1 →
    CoreReady s1 c → RegReady s1 c1 0 k0 → RegReady s1 c1 1 k1 → exec (.pinTranslate n k) s =
      .next ((pinDecipher k0.key fi (c1.inlB 72 16) (panOf (c.inlB 90 11))).elim (badField s1 c1 2)
        (fun pin => translateTo s1 c1 k1.key fo pin (panOf (c.inlB 90 11))))) ∧
  (∀ (s t : State) (c : Cmd) (q : KeyInfo) (fo : Nat) (pin pan : List Nat) (fill : Bytes),
    s.random (drbgOf c.place) (fillLen fo) = .bytes t fill → translateTo s c q fo pin pan =
      doneWith t c (sl (pinEncipher q fo pin fill pan) 0 (if fo = 4 then 16 else 8)) []) ∧
  (∀ (s s1 : State) (n k l fmt : Nat) (c c1 : Cmd) (k0 k1 : KReg), LoomReady s n k 0x081 c → fmt = c.inl 88 1 →
    l = c1.inl 89 1 → offsetParams c true = none → KeysIn s c [(0, 2, pinMask fmt), (1, 9, tdesMask)] s1 c1 →
    CoreReady s1 c → RegReady s1 c1 0 k0 → RegReady s1 c1 1 k1 → exec (.pinVerifyOffset n k) s =
      .next ((pinDecipher k0.key fmt (c1.inlB 72 16) (panOf (c1.inlB 90 11))).elim (badField s1 c1 2)
        (fun pin => if pin.length < l then badField s1 c1 4 else doneVerify s1 c1
          (List.zipWith (fun a o => (a + o) % 10) (naturalPin k1.key (c1.inlB 101 8) (c1.inlB 109 8) l)
            ((nibbles (c1.inlB 117 6)).take l) == pin.take l)))) ∧
  (∀ (s s1 : State) (n k l fmt : Nat) (c c1 : Cmd) (k0 k1 : KReg), LoomReady s n k 0x083 c → fmt = c.inl 88 1 →
    l = c1.inl 89 1 → offsetParams c false = none → KeysIn s c [(0, 2, pinMask fmt), (1, 9, tdesMask)] s1 c1 →
    CoreReady s1 c → RegReady s1 c1 0 k0 → RegReady s1 c1 1 k1 → exec (.pinOffsetGenerate n k) s =
      .next ((pinDecipher k0.key fmt (c1.inlB 72 16) (panOf (c1.inlB 90 11))).elim (badField s1 c1 2)
        (fun pin => if pin.length < l then badField s1 c1 4 else doneWith s1 c1
          (sl (packNibbles (List.zipWith (fun p a => (p + 10 - a % 10) % 10) (pin.take l)
            (naturalPin k1.key (c1.inlB 101 8) (c1.inlB 109 8) l) ++ List.replicate (12 - l) 15)) 0 6 ++ [byte l]) []))) ∧
  (∀ (s s1 : State) (n k fmt : Nat) (c c1 : Cmd) (k0 k1 : KReg), LoomReady s n k 0x082 c → fmt = c.inl 88 1 →
    pvvParams c true = none → KeysIn s c [(0, 2, pinMask fmt), (1, 9, 16)] s1 c1 → CoreReady s1 c →
    RegReady s1 c1 0 k0 → RegReady s1 c1 1 k1 → exec (.pinVerifyPvv n k) s =
      .next ((pinDecipher k0.key fmt (c1.inlB 72 16) (panOf (c.inlB 90 11))).elim (badField s1 c1 2) (fun pin => doneVerify s1 c1
        (packNibbles (pvvOf k1.key (panOf (c.inlB 90 11)) (c1.inl 89 1) pin) == c1.inlB 101 2)))) ∧
  (∀ (s s1 : State) (n k fmt : Nat) (c c1 : Cmd) (k0 k1 : KReg), LoomReady s n k 0x084 c → fmt = c.inl 88 1 →
    pvvParams c false = none → KeysIn s c [(0, 2, pinMask fmt), (1, 9, 16)] s1 c1 → CoreReady s1 c →
    RegReady s1 c1 0 k0 → RegReady s1 c1 1 k1 → exec (.pvvGenerate n k) s =
      .next ((pinDecipher k0.key fmt (c1.inlB 72 16) (panOf (c.inlB 90 11))).elim (badField s1 c1 2) (fun pin => doneWith s1 c1
        (packNibbles (pvvOf k1.key (panOf (c.inlB 90 11)) (c1.inl 89 1) pin)) []))) ∧
  (∀ (s s1 : State) (n k fi fo l : Nat) (c c1 : Cmd) (k0 k1 w : KReg), LoomReady s n k 0x0A0 c → fi = c.inl 88 1 →
    fo = c.inl 89 1 → countOk c 2 = true → fi ∈ pinFormats → fo ∈ pinFormats → reserved c 114 14 = true →
    blockPad c fi = true → panOk (c.inlB 90 11) (panLow [fi, fo]) 19 = true →
    KeysIn s c [(0, 4, 0x1E), (1, 1, pinMask fo)] s1 c1 → CoreReady s1 c → RegReady s1 c1 0 k0 → RegReady s1 c1 1 k1 →
    isAes k0.key.alg = (fi == 4) → l = c1.inl 101 1 → l = ksnLen k0.key.alg → reserved c1 (102 + l) (12 - l) = true →
    ksnOk k0.key.alg (c1.inlB 102 l) = true → c1.key 2 = some w → exec (.dukptPinTranslate n k) s =
      .next ((pinDecipher w.key fi (c1.inlB 72 16) (panOf (c.inlB 90 11))).elim (badField s1 c1 2)
        (fun pin => translateTo s1 c1 k1.key fo pin (panOf (c.inlB 90 11))))) ∧
  (∀ (s : State) (n k d : Nat) (c : Cmd), offsetParams c true = some d → LoomReady s n k 0x081 c →
    exec (.pinVerifyOffset n k) s = .next (badField s c d)) ∧
  (∀ (s : State) (n k d : Nat) (c : Cmd), pvvParams c true = some d → LoomReady s n k 0x082 c →
    exec (.pinVerifyPvv n k) s = .next (badField s c d))

/-- The card, EMV, DUKPT, MAC, random and hash opcodes (R195, R196, R197, R198, R200, R201, R202, R203, R254): with their
parameters good and their keys in the registers they answer the code, the cryptogram, the deciphered data, the MAC, the
random bytes or the digest, and a verify answers whether it matches. -/
def Obligations.CardAndMacOpcodesComplete : Prop :=
  (∀ (s s1 : State) (n k : Nat) (c c1 : Cmd) (k0 : KReg) (v : List Nat), KeysIn s c [(0, 9, 16)] s1 c1 → CoreReady s1 c →
    RegReady s1 c1 0 k0 → v = cvcOf k0.key (panOf (c1.inlB 72 11)) (nibbles (c1.inlB 83 2)) ((nibbles (c1.inlB 85 2)).take 3)
      (c1.inl 87 1) →
    (LoomReady s n k 0x088 c → cvcParams c false = none → exec (.cvcGenerate n k) s =
      .next (doneWith s1 c1 (packNibbles (v ++ List.replicate (6 - v.length) 15)) [])) ∧
    (LoomReady s n k 0x089 c → cvcParams c true = none → exec (.cvcVerify n k) s =
      .next (doneVerify s1 c1 (packNibbles (v ++ List.replicate (6 - v.length) 15) == c1.inlB 88 3)))) ∧
  (∀ (s s1 : State) (n k m : Nat) (c c1 : Cmd) (k0 : KReg) (ctx arqc : Bytes), LoomReady s n k 0x090 c → emvParams c = none →
    KeysIn s c [(0, 5, 0x1E)] s1 c1 → CoreReady s1 c → RegReady s1 c1 0 k0 → m = c1.inl 72 1 % 4 →
    ctx = emvContext (panOf (c1.inlB 99 11)) (c1.inlB 73 1) (c1.inlB 74 2) → arqc = c1.inlB 76 8 →
    exec (.emvArqcVerify n k) s =
      .next (if emvFunction k0.key 0 (bit (c1.inl 72 1) 2) ctx (c1.own false) ≠ arqc then doneVerify s1 c1 false
        else if m = 0 then doneVerify s1 c1 true
        else if m = 1 then doneWith s1 c1 (emvFunction k0.key 1 false ctx (arqc ++ c1.inlB 84 2) ++ [1#8]) []
        else doneWith s1 c1 (emvFunction k0.key 2 false ctx (arqc ++ c1.inlB 86 4 ++ c1.inlB 91 (c1.inl 90 1)) ++ zeros 4 ++
          [2#8]) [])) ∧
  (∀ (s s1 : State) (n k m l : Nat) (c c1 : Cmd) (k0 w : KReg) (x : Bytes), LoomReady s n k 0x0A1 c → m = c.inl 72 1 →
    countOk c 1 = true → m ≤ 2 → reserved c 86 2 = true → reserved c 104 24 = true → (m ≠ 1 → reserved c 88 16 = true) →
    KeysIn s c [(0, 4, 0x1E)] s1 c1 → CoreReady s1 c → RegReady s1 c1 0 k0 → l = c1.inl 73 1 → l = ksnLen k0.key.alg →
    reserved c1 (74 + l) (12 - l) = true → ksnOk k0.key.alg (c1.inlB 74 l) = true → c1.key 2 = some w → x = c1.own false →
    x.length % blockLen w.key.alg = 0 → (m = 1 → isTdes w.key.alg = true → reserved c1 96 8 = true) →
    exec (.dukptDecrypt n k) s = .next (doneWith s1 c1 [] (if m = 2 then ecbDec w.key.alg w.key.mat x
      else cbcDec w.key.alg w.key.mat (if m = 1 then c1.inlB 88 (blockLen w.key.alg) else zeros (blockLen w.key.alg)) x))) ∧
  (∀ (s s1 : State) (n k ml l : Nat) (c c1 : Cmd) (k0 w : KReg) (x : Bytes), LoomReady s n k 0x0A2 c → ml = c.inl 72 1 →
    countOk c 1 = true → 4 ≤ ml → ml ≤ 16 → reserved c 86 42 = true →
    KeysIn s c [(0, 4, 0x1E)] s1 c1 → CoreReady s1 c → RegReady s1 c1 0 k0 → l = c1.inl 73 1 → l = ksnLen k0.key.alg →
    reserved c1 (74 + l) (12 - l) = true → ksnOk k0.key.alg (c1.inlB 74 l) = true → c1.key 2 = some w → x = c1.own false →
    ml < x.length → (isTdes w.key.alg = true → ml ≤ 8) → exec (.dukptMacVerify n k) s = .next (doneVerify s1 c1
      (sl (if isAes w.key.alg then macCmac w.key.alg w.key.mat (x.drop ml)
        else macAlg3 w.key.mat (padMsg 1 8 (x.drop ml))) 0 ml == x.take ml))) ∧
  (∀ (s s1 : State) (n k m ml : Nat) (c c1 : Cmd) (k0 : KReg) (x full : Bytes), LoomReady s n k 0x0C0 c → macParams c = none →
    m = c.inl 72 1 → ml = c.inl 74 1 → x = c.own false → (m = 1 → 1 ≤ x.length) → KeysIn s c [(0, 5, macMask m)] s1 c1 →
    CoreReady s1 c → RegReady s1 c1 0 k0 → full = fullMac m (c1.inl 73 1) k0.key x → exec (.macGenerate n k) s =
      .next (if full.length < ml then badField s1 c1 7 else if ml ≤ 16 then doneWith s1 c1 (full.take ml) []
        else doneWith s1 c1 [] (full.take ml))) ∧
  (∀ (s s1 : State) (n k m ml : Nat) (c c1 : Cmd) (k0 : KReg) (x full : Bytes), LoomReady s n k 0x0C1 c → macParams c = none →
    m = c.inl 72 1 → ml = c.inl 74 1 → x = c.own false → ml + (if m = 1 then 1 else 0) ≤ x.length →
    KeysIn s c [(0, 6, macMask m)] s1 c1 → CoreReady s1 c → RegReady s1 c1 0 k0 →
    full = fullMac m (c1.inl 73 1) k0.key (x.drop ml) → exec (.macVerify n k) s =
      .next (if full.length < ml then badField s1 c1 7 else doneVerify s1 c1 (full.take ml == x.take ml))) ∧
  (∀ (s t : State) (n k l al : Nat) (c : Cmd) (b : Bytes), LoomReady s n k 0x180 c → l = c.inl 72 4 → al = c.inl 76 1 →
    reserved c 77 3 = true → reserved c 112 16 = true → 1 ≤ l → l ≤ 3072 → al ≤ 32 →
    s.randomWith (drbgOf c.place) l (c.inlB 80 al) = .bytes t b → exec (.rngGenerate n k) s = .next (doneWith t c [] b)) ∧
  (∀ (s : State) (n k l al : Nat) (c : Cmd), LoomReady s n k 0x180 c → l = c.inl 72 4 → al = c.inl 76 1 →
    reserved c 77 3 = true → reserved c 112 16 = true → 1 ≤ l → l ≤ 3072 → al ≤ 32 →
    s.randomWith (drbgOf c.place) l (c.inlB 80 al) = .off → exec (.rngGenerate n k) s = .next (s.retire c 0x9001)) ∧
  (∀ (s : State) (n k h : Nat) (c : Cmd), LoomReady s n k 0x190 c → h = c.inl 72 1 → 1 ≤ h → h ≤ 3 →
    reserved c 73 55 = true → CoreReady s c → exec (.hash n k) s = .next (doneWith s c [] (digestOf h (c.own false))))

/-- The opcodes on objects, cache entries and key blocks (R137, R146, R162, R210, R211, R212, R213, R263): an object is read
and deleted, a key is loaded into the cache, imported with a commit, exported, translated, and generated. -/
def Obligations.KeyBlockOpcodesComplete : Prop :=
  (∀ (s : State) (n k : Nat) (c : Cmd), s.cmd? (.shed n k) = some c → c.opcode = 0x060 → c.place = .shed n k → c.abort = false →
    (c.phase = .ready → c.idx = 0 → s.liveObj c.part (c.inl 72 4) = none → exec (.objQuery n k) s = .next (s.retire c 0x3001)) ∧
    (∀ o, c.phase = .ready → c.idx = 0 → s.liveObj c.part (c.inl 72 4) = some o → exec (.objQuery n k) s =
      .next (s.parkExc n k c noArgs 8 (Config.serviceCode 0x060 % 65536))) ∧
    (∀ o a b, c.phase = .parked a b → s.stewardsUp = true → s.liveObj c.part (c.inl 72 4) = some o → exec (.objQuery n k) s =
      .next (s.setCmd (c.wr 0x100 (sl (s.objBody o) 0 40)))) ∧
    (c.phase = .ready → c.idx ≠ 0 → exec (.objQuery n k) s = .next (doneWith s c [] (c.rd 0x100 40)))) ∧
  (∀ (s : State) (n k : Nat) (c d : Cmd), s.cmd? (.shed n k) = some c → c.opcode = 0x061 → c.place = .shed n k → c.abort = false →
    d = { c with pend := none } →
    (c.phase = .ready → c.idx = 0 → c.quorum = none → s.liveObj c.part (c.inl 72 4) = none →
      exec (.objDelete n k) s = .next (s.retire c 0x3001)) ∧
    (∀ o, c.phase = .ready → c.idx = 0 → c.quorum = none → s.liveObj c.part (c.inl 72 4) = some o → exec (.objDelete n k) s =
      .next (s.parkExc n k c noArgs 8 (Config.serviceCode 0x061 % 65536))) ∧
    (∀ o a b, c.phase = .parked a b → s.stewardsUp = true → s.liveObj c.part (c.inl 72 4) = some o →
      (deleteQuorum s d o = 0 ∨ c.quorum.isSome = true → commitHold s = none → exec (.objDelete n k) s =
        .next ((s.setCmd { d with phase := .waitCommit }).enqueue (.tombstone o.handle) (some c.place))) ∧
      (deleteQuorum s d o ≠ 0 → c.quorum = none → exec (.objDelete n k) s = .next (s.quorumWaits d))) ∧
    (∀ o, c.phase = .ready → c.idx = 0 → c.quorum.isSome = true → s.liveObj c.part (c.inl 72 4) = some o →
      commitHold s = none → exec (.objDelete n k) s =
        .next ((s.setCmd { d with phase := .waitCommit }).enqueue (.tombstone o.handle) (some c.place))) ∧
    (c.phase = .ready → c.idx ≠ 0 → exec (.objDelete n k) s = .next (doneWith s c [] []))) ∧
  (∀ (s s1 : State) (n k : Nat) (c : Cmd) (x : KReg) (b : Bytes), LoomReady s n k 0x034 c → c.key 0 = some x →
    handleResult s x = some (s1, b) → exec (.kcLoad n k) s = .next (doneWith s1 c b [])) ∧
  (∀ (s s1 s2 : State) (n k : Nat) (c c1 : Cmd) (x : KReg) (b : Bytes), LoomReady s n k 0x034 c → c.key 0 = none →
    (getRef s c 0 0 (c.inl 72 1) (c.inl 76 4) true).keys s = .ready s1 c1 → c1.key 0 = some x →
    handleResult s1 x = some (s2, b) → exec (.kcLoad n k) s = .next (doneWith s2 c1 b [])) ∧
  (∀ (s s1 : State) (n k : Nat) (c c1 : Cmd) (x : KReg) (attr : Bytes), LoomReady s n k 0x040 c → c.krefs = 2 →
    isBlockRef c 0 = true → reserved c 73 3 = true → reserved c 84 44 = true → KeysIn s c [(0, c.inl 72 1, c.inl 76 4)] s1 c1 →
    RegReady s1 c1 0 x → attr = attrRecord (b2n x.key.exportable + 2 * b2n (c1.inl 80 4 != 0)) x.key.name x.key.version
      x.key.notAfter (c1.inl 80 4) →
    (∀ h, c1.phase = .committed h → exec (.kbImport n k) s = .next (doneWith s1 c1 (toLe 4 h) [])) ∧
    (∀ s2 c2, c1.phase = .ready → storeKey s1 c1 x attr = .ok (s2, c2) →
      exec (.kbImport n k) s = .next (s2.setCmd { c2 with phase := .waitCommit }))) ∧
  (∀ (s s1 s2 : State) (n k : Nat) (c c1 : Cmd) (x w : KReg) (pad : Bytes), LoomReady s n k 0x041 c → c.krefs = 2 →
    reserved c 75 53 = true → byte (c.inl 74 1) ∈ expChars → KeysIn s c [(0, ownUsage s c 0, anyAlg), (1, 3, wrapMask)] s1 c1 →
    RegReady s1 c1 0 x → RegReady s1 c1 1 w → isRsa x.key.alg = false → kuPairs (c.inlB 72 2) x.key.alg x.key.usage = true →
    x.key.version ≤ 99 →
    (exportOk s1 c1 x = true → (countPolicy s1).random (drbgOf c1.place) (exportPad w.key x.key) = .bytes s2 pad →
      exec (.kbExport n k) s = .next (doneWith s2 c1
        (toLe 2 (exportBlock w.key x.key (c.inlB 72 2) (byte (c.inl 74 1)) pad).length)
        (exportBlock w.key x.key (c.inlB 72 2) (byte (c.inl 74 1)) pad))) ∧
    (exportOk s1 c1 x = false → exec (.kbExport n k) s = .next ((countPolicy s1).retire c1 0x2001))) ∧
  (∀ (s s1 s2 : State) (n k : Nat) (c c1 : Cmd) (x w : KReg) (h : KBlock) (pad b : Bytes), LoomReady s n k 0x043 c →
    c.krefs = 3 → isBlockRef c 0 = true → reserved c 72 56 = true →
    KeysIn s c [(0, ownUsage s c 0, anyAlg), (1, 3, wrapMask)] s1 c1 → RegReady s1 c1 0 x → RegReady s1 c1 1 w →
    (refBlock c1 0).map kbHeader = some (.ok h) → isRsa x.key.alg = false → h.exp = chr 'E' →
    policyOk s1 c1 x.key.name x.key.usage x.key.alg roleExport = true →
    (countPolicy s1).random (drbgOf c1.place) (exportPad w.key x.key) = .bytes s2 pad →
    b = kbBuild w.key.alg w.key.mat h.usage h.alg h.mode h.kver h.exp (h.opts.filter (fun o => o.1 != ascii "PB")) x.key.alg
      x.key.mat pad → exec (.kbTranslate n k) s =
      .next (if 3072 < b.length then badLength s2 c1 else doneWith s2 c1 (toLe 2 b.length) b)) ∧
  (∀ (s : State) (n k h : Nat) (c : Cmd), LoomReady s n k 0x042 c → c.phase = .committed h →
    generateParams c (decide (1 ≤ c.inl 72 1 ∧ c.inl 72 1 ≤ 6) && (usagesOf (c.inl 72 1)).contains (c.inl 73 1)) = true →
    exec (.kbGenerate n k) s = .next (doneWith s c (toLe 4 h ++ toLe 2 (stashed c).length) (stashed c))) ∧
  (∀ (s s1 s2 : State) (n k : Nat) (c c1 : Cmd) (m : Bytes) (x : KeyInfo) (s3 : State) (c3 : Cmd)
    (o : Option Way), LoomReady s n k 0x042 c →
    c.phase = .ready →
    generateParams c (decide (1 ≤ c.inl 72 1 ∧ c.inl 72 1 ≤ 6) && (usagesOf (c.inl 72 1)).contains (c.inl 73 1)) = true →
    KeysIn s c (if bit (c.inl 77 1) 1 then [(0, 3, wrapMask)] else []) s1 c1 →
    s1.random (drbgOf c1.place) (matLen (c.inl 72 1)) = .bytes s2 m → x = generateInfo c1 m →
    placeNew (s2.drawn 32) c1 (generatedAsk s2 1 x) x = (s3, c3, o) →
    exec (.kbGenerate n k) s = .next (generateExport s3 c3 x [] (fun s4 c4 => generateStore s4 c4 1 (fun h y =>
      doneWith s4 y (toLe 4 h ++ toLe 2 (stashed y).length) (stashed y))))) ∧
  (∀ (s : State) (n k : Nat) (c : Cmd), LoomReady s n k 0x042 c →
    generateParams c (decide (1 ≤ c.inl 72 1 ∧ c.inl 72 1 ≤ 6) && (usagesOf (c.inl 72 1)).contains (c.inl 73 1)) = false →
    exec (.kbGenerate n k) s = .next (badField s c 7))

/-- The signature opcodes and ASYM_PUBLIC (R231, R232, R236): with parameters and lengths good and the key in register 0 (or
in the extended data) the draft hands its job to the bignum engine and waits, and with the result to hand it answers the
signature, the public key, or whether the signature matches. -/
def Obligations.SignatureOpcodesComplete : Prop :=
  (∀ (s s1 : State) (n k : Nat) (c c1 : Cmd) (x : KReg) (r : BnReq), LoomReady s n k 0x100 c → countOk c 1 = true →
    KeysIn s c [(0, 7, 2 ^ 7)] s1 c1 → RegReady s1 c1 0 x →
    r = { op := 1, size := 0, pss := false, alg := 7, key := x.key.mat, operand := c1.own false, record := [] } →
    (c1.phase = .ready → BnReady s1 r → exec (.ed25519Sign n k) s = .next (s1.jobWaits c1 r)) ∧
    (∀ j f out, c1.phase = .bnDone j f out → exec (.ed25519Sign n k) s = .next (doneWith s1 c1 [] out))) ∧
  (∀ (s s1 : State) (n k : Nat) (c c1 : Cmd) (x : KReg) (r : BnReq), LoomReady s n k 0x101 c → verifyCount c = true → c.krefs ≠ 0 →
    64 ≤ (c.own false).length → KeysIn s c [(0, 8, 2 ^ 7)] s1 c1 → RegReady s1 c1 0 x →
    r = { op := 2, size := 0, pss := false, alg := 7, key := x.key.mat, operand := c.own false, record := [] } →
    (c1.phase = .ready → BnReady s1 r → exec (.ed25519Verify n k) s = .next (s1.jobWaits c1 r)) ∧
    (∀ j f out, c1.phase = .bnDone j f out → exec (.ed25519Verify n k) s = .next (doneVerify s1 c1 (!f)))) ∧
  (∀ (s : State) (n k : Nat) (c : Cmd) (r : BnReq), LoomReady s n k 0x101 c → c.krefs = 0 → 64 ≤ (c.own false).length →
    r = { op := 2, size := 0, pss := false, alg := 7, key := c.inlB 72 32, operand := c.own false, record := [] } →
    (c.phase = .ready → BnReady s r → exec (.ed25519Verify n k) s = .next (s.jobWaits c r)) ∧
    (∀ j f out, c.phase = .bnDone j f out → exec (.ed25519Verify n k) s = .next (doneVerify s c (!f)))) ∧
  (∀ (s s1 : State) (n k z h : Nat) (c c1 : Cmd) (x : KReg) (r : BnReq), h = c.inl 72 1 → countOk c 1 = true → h ≤ 3 →
    digestLenOk h (c.own false) = true → KeysIn s c [(0, 7, 2 ^ ecAlg z)] s1 c1 →
    ((h != 0 && c.fresh) = true → CoreReady s1 c) → RegReady s1 c1 0 x →
    r = { op := 4, size := z, pss := false, alg := ecAlg z, key := x.key.mat, operand := digestFor h (c.own false), record := [] } →
    (z = 0 → LoomReady s n k 0x110 c →
      (c1.phase = .ready → BnReady s1 r → exec (.ecdsaSignP256 n k) s = .next (s1.jobWaits c1 r)) ∧
      (∀ j f out, c1.phase = .bnDone j f out → exec (.ecdsaSignP256 n k) s = .next (doneWith s1 c1 [] out))) ∧
    (z = 1 → LoomReady s n k 0x111 c →
      (c1.phase = .ready → BnReady s1 r → exec (.ecdsaSignP384 n k) s = .next (s1.jobWaits c1 r)) ∧
      (∀ j f out, c1.phase = .bnDone j f out → exec (.ecdsaSignP384 n k) s = .next (doneWith s1 c1 [] out)))) ∧
  (∀ (s s1 : State) (n k z h w : Nat) (c c1 : Cmd) (x : KReg) (r : BnReq), h = c.inl 72 1 → w = (if z = 1 then 96 else 64) →
    verifyCount c = true → c.krefs ≠ 0 → h ≤ 3 → w ≤ (c.own false).length → digestLenOk h ((c.own false).drop w) = true →
    KeysIn s c [(0, 8, 2 ^ ecAlg z)] s1 c1 → ((h != 0 && c.fresh) = true → CoreReady s1 c) → RegReady s1 c1 0 x →
    r = { op := 5, size := z, pss := false, alg := ecAlg z, key := x.key.mat,
          operand := digestFor h ((c.own false).drop w) ++ sl (c.own false) 0 w, record := [] } →
    (z = 0 → LoomReady s n k 0x112 c →
      (c1.phase = .ready → BnReady s1 r → exec (.ecdsaVerifyP256 n k) s = .next (s1.jobWaits c1 r)) ∧
      (∀ j f out, c1.phase = .bnDone j f out → exec (.ecdsaVerifyP256 n k) s = .next (doneVerify s1 c1 (!f)))) ∧
    (z = 1 → LoomReady s n k 0x113 c →
      (c1.phase = .ready → BnReady s1 r → exec (.ecdsaVerifyP384 n k) s = .next (s1.jobWaits c1 r)) ∧
      (∀ j f out, c1.phase = .bnDone j f out → exec (.ecdsaVerifyP384 n k) s = .next (doneVerify s1 c1 (!f))))) ∧
  (∀ (s s1 : State) (n k z h : Nat) (c c1 : Cmd) (x : KReg) (r : BnReq), h = c.inl 72 1 → c.krefs = 2 → h ≤ 3 → c.inl 73 1 ≤ 1 →
    digestLenOk h (c.own false) = true → KeysIn s c [(0, 7, 2 ^ (11 + z))] s1 c1 →
    ((h != 0 && c.fresh) = true → CoreReady s1 c) → RegReady s1 c1 0 x →
    r = { op := 6, size := z, pss := c.inl 73 1 == 1, alg := 11 + z, key := x.key.mat, operand := digestFor h (c.own false),
          record := [] } →
    (z = 0 → LoomReady s n k 0x120 c →
      (c1.phase = .ready → BnReady s1 r → exec (.rsaSign2048 n k) s = .next (s1.jobWaits c1 r)) ∧
      (∀ j f out, c1.phase = .bnDone j f out → exec (.rsaSign2048 n k) s = .next (doneWith s1 c1 [] out))) ∧
    (z = 1 → LoomReady s n k 0x121 c →
      (c1.phase = .ready → BnReady s1 r → exec (.rsaSign3072 n k) s = .next (s1.jobWaits c1 r)) ∧
      (∀ j f out, c1.phase = .bnDone j f out → exec (.rsaSign3072 n k) s = .next (doneWith s1 c1 [] out))) ∧
    (z = 2 → LoomReady s n k 0x122 c →
      (c1.phase = .ready → BnReady s1 r → exec (.rsaSign4096 n k) s = .next (s1.jobWaits c1 r)) ∧
      (∀ j f out, c1.phase = .bnDone j f out → exec (.rsaSign4096 n k) s = .next (doneWith s1 c1 [] out)))) ∧
  (∀ (s s1 : State) (n k z h : Nat) (c c1 : Cmd) (x : KReg) (r : BnReq), h = c.inl 72 1 → c.krefs = 2 → h ≤ 3 → c.inl 73 1 ≤ 1 →
    sigBytes z ≤ (c.own false).length → digestLenOk h ((c.own false).drop (sigBytes z)) = true →
    KeysIn s c [(0, 8, 2 ^ (11 + z))] s1 c1 → ((h != 0 && c.fresh) = true → CoreReady s1 c) → RegReady s1 c1 0 x →
    r = { op := 7, size := z, pss := c.inl 73 1 == 1, alg := 11 + z, key := x.key.mat,
          operand := digestFor h ((c.own false).drop (sigBytes z)) ++ sl (c.own false) 0 (sigBytes z), record := [] } →
    (z = 0 → LoomReady s n k 0x124 c →
      (c1.phase = .ready → BnReady s1 r → exec (.rsaVerify2048 n k) s = .next (s1.jobWaits c1 r)) ∧
      (∀ j f out, c1.phase = .bnDone j f out → exec (.rsaVerify2048 n k) s = .next (doneVerify s1 c1 (!f)))) ∧
    (z = 1 → LoomReady s n k 0x125 c →
      (c1.phase = .ready → BnReady s1 r → exec (.rsaVerify3072 n k) s = .next (s1.jobWaits c1 r)) ∧
      (∀ j f out, c1.phase = .bnDone j f out → exec (.rsaVerify3072 n k) s = .next (doneVerify s1 c1 (!f)))) ∧
    (z = 2 → LoomReady s n k 0x126 c →
      (c1.phase = .ready → BnReady s1 r → exec (.rsaVerify4096 n k) s = .next (s1.jobWaits c1 r)) ∧
      (∀ j f out, c1.phase = .bnDone j f out → exec (.rsaVerify4096 n k) s = .next (doneVerify s1 c1 (!f))))) ∧
  (∀ (s s1 : State) (n k : Nat) (c c1 : Cmd) (x : KReg), LoomReady s n k 0x10F c → countOk c 1 = true →
    KeysIn s c [(0, ownUsage s c 0, 0x3F80)] s1 c1 → RegReady s1 c1 0 x → publicOk x.key = true →
    (c1.phase = .ready → BnReady s1 (publicReq x.key) → exec (.asymPublic n k) s = .next (s1.jobWaits c1 (publicReq x.key))) ∧
    (∀ j f out, c1.phase = .bnDone j f out → exec (.asymPublic n k) s = .next (doneWith s1 c1 (toLe 2 out.length) out)))

/-- The opcodes of key agreement, RSA key transport, key generation, and customer drafts (R113, R231, R233, R234, R236, R237):
the job is handed over and waited for; its result becomes a key of the cache, a transported key, or a new key pair's
block; a customer opcode runs its draft's steps. -/
def Obligations.KeyAgreementOpcodesComplete : Prop :=
  (∀ (s s1 s2 : State) (n k : Nat) (c c1 : Cmd) (x : KReg) (r : BnReq) (ch : KeyInfo), LoomReady s n k 0x108 c → countOk c 1 = true →
    (c.own false).length = 32 → KeysIn s c [(0, 4, 2 ^ 8)] s1 c1 → RegReady s1 c1 0 x →
    deriveKey s1 c1.part { x.key with level := 1 } (c.own false) = some ch → s2 = (if c1.fresh = true then countPolicy s1 else s1) →
    r = { op := 3, size := 0, pss := false, alg := 8, key := x.key.mat, operand := peerU (c1.inlB 72 32), record := c.own false } →
    (c1.phase = .ready → policyOk s1 c1 ch.name ch.usage ch.alg (roleUse + roleImport) = true → BnReady s2 r →
      exec (.x25519Agree n k) s = .next (s2.jobWaits c1 r)) ∧
    (c1.phase = .ready → policyOk s1 c1 ch.name ch.usage ch.alg (roleUse + roleImport) = false →
      exec (.x25519Agree n k) s = .next (s2.retire c1 0x2001)) ∧
    (∀ j f z, c1.phase = .bnDone j f z → exec (.x25519Agree n k) s =
      .next ((agreedKey s2 c1.part x.key z (c.own false)).elim (s2.retire c1 0x1003)
        (fun y => giveKey s2 c1 (agreeAsk x 1 (peerU (c1.inlB 72 32)) (c.own false) y) y 10)))) ∧
  (∀ (s s1 s2 : State) (n k z : Nat) (c c1 : Cmd) (x w : KReg) (r : BnReq), c.krefs = 3 →
    KeysIn s c [(0, ownUsage s c 0, 0x7E), (1, 3, 2 ^ (11 + z))] s1 c1 → RegReady s1 c1 0 x → RegReady s1 c1 1 w →
    w.key.rsaPriv = false → s2 = (if c1.fresh = true then countPolicy s1 else s1) →
    r = { op := 0x20, size := z, pss := false, alg := 11 + z, key := w.key.mat, operand := x.key.mat,
          record := transportRecord x.key } →
    (z = 0 → LoomReady s n k 0x128 c →
      (c1.phase = .ready → exportOk s1 c1 x = true → BnReady s2 r → exec (.rsaKeyWrap2048 n k) s = .next (s2.jobWaits c1 r)) ∧
      (∀ j f out, c1.phase = .bnDone j f out → exec (.rsaKeyWrap2048 n k) s = .next (doneWith s2 c1 [] out))) ∧
    (z = 1 → LoomReady s n k 0x129 c →
      (c1.phase = .ready → exportOk s1 c1 x = true → BnReady s2 r → exec (.rsaKeyWrap3072 n k) s = .next (s2.jobWaits c1 r)) ∧
      (∀ j f out, c1.phase = .bnDone j f out → exec (.rsaKeyWrap3072 n k) s = .next (doneWith s2 c1 [] out))) ∧
    (z = 2 → LoomReady s n k 0x12A c →
      (c1.phase = .ready → exportOk s1 c1 x = true → BnReady s2 r → exec (.rsaKeyWrap4096 n k) s = .next (s2.jobWaits c1 r)) ∧
      (∀ j f out, c1.phase = .bnDone j f out → exec (.rsaKeyWrap4096 n k) s = .next (doneWith s2 c1 [] out)))) ∧
  (∀ (s s1 : State) (n k z : Nat) (c c1 : Cmd) (p : KReg) (b : Bytes) (r : BnReq), c.krefs = 2 → b = c.own false →
    b.length = sigBytes z + 32 → KeysIn s c [(0, 3, 2 ^ (11 + z))] s1 c1 → RegReady s1 c1 0 p → p.key.rsaPriv = true →
    r = { op := 0x21, size := z, pss := false, alg := 11 + z, key := p.key.mat, operand := b.take (sigBytes z),
          record := b.drop (sigBytes z) } →
    (z = 0 → LoomReady s n k 0x12C c →
      (c1.phase = .ready → BnReady s1 r → exec (.rsaKeyUnwrap2048 n k) s = .next (s1.jobWaits c1 r)) ∧
      (∀ j f m, c1.phase = .bnDone j f m → exec (.rsaKeyUnwrap2048 n k) s =
        .next (s1.unwrapped c1 p b (transportKey s1 c1 (b.drop (sigBytes z)) m)))) ∧
    (z = 1 → LoomReady s n k 0x12D c →
      (c1.phase = .ready → BnReady s1 r → exec (.rsaKeyUnwrap3072 n k) s = .next (s1.jobWaits c1 r)) ∧
      (∀ j f m, c1.phase = .bnDone j f m → exec (.rsaKeyUnwrap3072 n k) s =
        .next (s1.unwrapped c1 p b (transportKey s1 c1 (b.drop (sigBytes z)) m)))) ∧
    (z = 2 → LoomReady s n k 0x12E c →
      (c1.phase = .ready → BnReady s1 r → exec (.rsaKeyUnwrap4096 n k) s = .next (s1.jobWaits c1 r)) ∧
      (∀ j f m, c1.phase = .bnDone j f m → exec (.rsaKeyUnwrap4096 n k) s =
        .next (s1.unwrapped c1 p b (transportKey s1 c1 (b.drop (sigBytes z)) m))))) ∧
  (∀ (s s1 : State) (n k alg : Nat) (c c1 : Cmd) (r : BnReq), LoomReady s n k 0x130 c → alg = c.inl 72 1 →
    generateParams c (decide (7 ≤ alg ∧ alg ≤ 10) && generateUsage alg (c.inl 73 1)) = true →
    KeysIn s c (if bit (c.inl 77 1) 1 then [(0, 3, wrapMask)] else []) s1 c1 →
    r = { op := 9, size := 0, pss := false, alg := alg, key := [], operand := [], record := [] } →
    (∀ h, c.phase = .committed h → exec (.asymGenerate n k) s = .next (doneWith s c (toLe 4 h ++ toLe 2 (publicLen alg) ++
      toLe 2 ((stashed c).length - publicLen alg)) (stashed c))) ∧
    (c.phase = .ready → c1.phase = .ready → BnReady s1 r → exec (.asymGenerate n k) s = .next (s1.jobWaits c1 r)) ∧
    (∀ j f m y s3 c3 o, c.phase = .bnDone j f m → c1.phase = .bnDone j f m → y = generateInfo c1 m →
      placeNew (s1.drawn 32) c1 (generatedAsk s1 1 y) y = (s3, c3, o) → exec (.asymGenerate n k) s =
        .next (generateExport s3 c3 y (publicOf y) (fun s4 c4 => generateStore s4 c4 1 (fun h e =>
          doneWith s4 e (toLe 4 h ++ toLe 2 (publicLen alg) ++ toLe 2 ((stashed e).length - publicLen alg)) (stashed e)))))) ∧
  (∀ (s s1 : State) (n k z : Nat) (c c1 : Cmd) (w : KReg) (r : BnReq) (head : Bytes), c.krefs = 1 →
    (c.inlB 72 2 = ascii "S0" ∨ c.inlB 72 2 = ascii "D1") → byte (c.inl 74 1) ∈ expChars → reserved c 75 5 = true →
    reserved c 98 30 = true → c.inl 88 4 ≤ 99 → head = c.inlB 72 3 ++ c.inlB 80 18 → KeysIn s c [(0, 3, wrapMask)] s1 c1 →
    RegReady s1 c1 0 w →
    r = { op := 9, size := z, pss := false, alg := 11 + z, key := [], operand := [], record := head } →
    (z = 0 → LoomReady s n k 0x134 c →
      (c1.phase = .ready → BnReady s1 r → exec (.rsaGenerate2048 n k) s = .next (s1.jobWaits c1 r)) ∧
      (∀ j f m pad b, c1.phase = .bnDone j f m → pad = fieldPad (versionOf w.key.alg) (11 + z) m →
        b = rsaBlock w.key (11 + z) head m (s1.draws pad) →
        exec (.rsaGenerate2048 n k) s = .next (doneWith (s1.drawn pad) c1 (toLe 2 b.length) b))) ∧
    (z = 1 → LoomReady s n k 0x135 c →
      (c1.phase = .ready → BnReady s1 r → exec (.rsaGenerate3072 n k) s = .next (s1.jobWaits c1 r)) ∧
      (∀ j f m pad b, c1.phase = .bnDone j f m → pad = fieldPad (versionOf w.key.alg) (11 + z) m →
        b = rsaBlock w.key (11 + z) head m (s1.draws pad) →
        exec (.rsaGenerate3072 n k) s = .next (doneWith (s1.drawn pad) c1 (toLe 2 b.length) b))) ∧
    (z = 2 → LoomReady s n k 0x136 c →
      (c1.phase = .ready → BnReady s1 r → exec (.rsaGenerate4096 n k) s = .next (s1.jobWaits c1 r)) ∧
      (∀ j f m pad b, c1.phase = .bnDone j f m → pad = fieldPad (versionOf w.key.alg) (11 + z) m →
        b = rsaBlock w.key (11 + z) head m (s1.draws pad) →
        exec (.rsaGenerate4096 n k) s = .next (doneWith (s1.drawn pad) c1 (toLe 2 b.length) b)))) ∧
  (∀ (s s1 : State) (n k j : Nat) (c d : Cmd), s.cmd? (.shed n k) = some c → 0x200 ≤ c.opcode →
    s.draftReady n k = some c → nextShed s n = some j → s.draftReady n j = some d → s1 = draftStep s n j d →
    (s1.draftReady n k = none → exec (.customerDraftCommand n k) s = .next s1) ∧
    (∀ c1, s1.draftReady n k = some c1 → j = k → c1.count = c.count → exec (.customerDraftCommand n k) s = .next s1) ∧
    (∀ c1, s1.draftReady n k = some c1 → (j ≠ k ∨ c1.count ≠ c.count) →
      exec (.customerDraftCommand n k) s = .next (draftRun 262175 s1 n k))) ∧
  (∀ (s : State) (n k w : Nat) (c : Cmd), stepWord s n c = some w → draftStep s n k c =
    s.step1 n k (stepArgs w) ((unitOp (stepUnit w) (stepOp w)).getD (fun _ _ _ => .fault 1 0)))

/-- Before its quorum has passed, a command of Table 11.3 has no effect (R263, R264): it waits for the verification or it
completes with a failure status and a detail. -/
def Obligations.QuorumIsDemanded : Prop :=
  ∀ (i : Instr) (s : State) (ctx op : Nat) (c : Cmd), quorumRow i = some (ctx, op) → StewardReady s ctx op c →
    QuorumDemanded s c → c.quorum = none → ∃ t, exec i s = .next t ∧ s.heldByQuorum c t

/-- Who writes the registers of a treadle that the exception FIFO rests on: TRD.EXCPOP, TRD.RSTATUS and TRD.RESUME take writes
of privileged steward code alone; the write of any other master ends with an error response under R13, the violation
recorded; and a write to any register of a treadle whose loom is off ends with an error response and changes nothing else,
the power of the domains included. -/
def Obligations.OnlyStewardsWriteTheExceptionRegisters : Prop :=
  (∀ (s : State) (w : Writer) (n o v : Nat), n < 16 → (∀ fn, w ≠ .host fn ∧ w ≠ .hostPoisoned fn) → o = 0x20 ∨ o = 0x24 ∨ o = 0x28 →
    s.powered (n + 1) = true → Writer.priv w = false →
    exec (.registerWrite w (0x100A0800 + 0x1000 * n + o) 4 v) s = .next (s.denyWrite w (0x100A0800 + 0x1000 * n + o) 4)) ∧
  (∀ (s : State) (w : Writer) (n v : Nat), s.powered (n + 1) = true → Writer.priv w = false →
    exec (.trdExcpop w n v) s = .next (s.denyWrite w (0x100A0800 + 0x1000 * n + 0x20) 4) ∧
    exec (.trdResume w n v) s = .next (s.denyWrite w (0x100A0800 + 0x1000 * n + 0x28) 4)) ∧
  (∀ (s : State) (i n v : Nat), n < 16 → s.powered (n + 1) = true → v < 2 ^ 32 →
    exec (.registerWrite (.steward i true) (0x100A0800 + 0x1000 * n + 0x20) 4 v) s =
      .next (if bit v 0 then s.modTreadle n Treadle.pop else s) ∧
    exec (.registerWrite (.steward i true) (0x100A0800 + 0x1000 * n + 0x24) 4 v) s =
      .next (s.modTreadle n (fun t => { t with rstatus := v % 65536 })) ∧
    exec (.registerWrite (.steward i true) (0x100A0800 + 0x1000 * n + 0x28) 4 v) s = .next (trdResume n v s)) ∧
  (∀ (s : State) (w : Writer) (n o v : Nat), n < 16 → (∀ fn, w ≠ .host fn ∧ w ≠ .hostPoisoned fn) → o < 0x800 → o % 4 = 0 →
    s.powered (n + 1) = false →
    exec (.registerWrite w (0x100A0800 + 0x1000 * n + o) 4 v) s = .next (s.send (.error (0x100A0800 + 0x1000 * n + o)))) ∧
  (∀ (s : State) (w : Writer) (n v : Nat), s.powered (n + 1) = false →
    exec (.trdExcpop w n v) s = .next (s.send (.error (0x100A0800 + 0x1000 * n + 0x20))) ∧
    exec (.trdResume w n v) s = .next (s.send (.error (0x100A0800 + 0x1000 * n + 0x28))))

/-- The battery voltage: a measurement below 1.8 V sets BAT_LOW, the cause HIRQ.CAUSE.BAT (bit 7) and event 0x0206, one above
1.85 V clears the alert, and between them the alert stands; nothing else changes. On VBAT alone no measurement is made;
there input 14, the comparator, clears the battery secret. -/
def Obligations.BatteryAlert : Prop :=
  (∀ (s : State) (mv : Nat), s.tmp.onVbat = false → mv < 1800 → s.tmp.batLow = false → exec (.vbatMeasure mv) s =
    .next ((({ s with tmp := { s.tmp with vbatMv := min mv 4095, batLow := true } } : State).cause 7).raise 0x0206 mv 0 0 0)) ∧
  (∀ (s : State) (mv : Nat), s.tmp.onVbat = false → 1850 < mv → exec (.vbatMeasure mv) s =
    .next { s with tmp := { s.tmp with vbatMv := min mv 4095, batLow := false } }) ∧
  (∀ (s : State) (mv : Nat), s.tmp.onVbat = false → mv ≤ 1850 → 1800 ≤ mv ∨ s.tmp.batLow = true →
    exec (.vbatMeasure mv) s = .next { s with tmp := { s.tmp with vbatMv := min mv 4095 } }) ∧
  (∀ (s : State), bit (regRead s 0x10030024) 12 = s.tmp.batLow ∧ bit (hstStatus s 0) 7 = s.tmp.batLow) ∧
  (∀ (s : State) (mv : Nat), s.tmp.onVbat = true → exec (.vbatMeasure mv) s = .next s) ∧
  (∀ (s t : State) (l : Bool), s.tmp.onVbat = true → s.tmp.live.getLsbD 14 = false →
    exec (.tamperComparatorTrip 14 l) s = .next t → t.tmp.secret = none)

/-- The RAM that a master reaches holds what was written to it (R13): after a write that its protection unit passes, each byte
of the range reads as the data, every other byte reads as before, and a later read that passes shows the data. -/
def Obligations.MemoryReadsBackWhatWasWritten : Prop :=
  ∀ (s t : State) (u a : Nat) (us : Bool) (d : Bytes), s.Inv → unitOn s u = true → u ≤ 11 → 1 ≤ d.length → d.length ≤ 4096 → 0x01000000 ≤ a →
    a + d.length ≤ 0x01800000 → s.powered 31 = true → mpuCheck s u .write (us && decide (u ≤ 3)) a d.length = none →
    exec (.masterAccess u .write us a d.length d) s = .next t →
    Mem.readN t.mem a d.length = d ∧ (∀ x, x < a ∨ a + d.length ≤ x → Mem.read t.mem x = Mem.read s.mem x) ∧
    (mpuCheck t u .read (us && decide (u ≤ 3)) a d.length = none →
      exec (.masterAccess u .read us a d.length []) t = .next ((t.drawn d.length).send (.memRead a d)))
end

