-- ==== Sys2Proof/Laws/State.lean ====
section
/-! SUPPORT. One lemma per field of State for each plain update of it: what the update writes and what it leaves. -/

namespace Sys2Proof.Machine

open Sys2Proof

variable (s : State)

/-! State.setCmd -/

@[simp] theorem State.setCmd_sys (c : Cmd) : (s.setCmd c).sys = s.sys := rfl
@[simp] theorem State.setCmd_mem (c : Cmd) : (s.setCmd c).mem = s.mem := rfl
@[simp] theorem State.setCmd_queues (c : Cmd) : (s.setCmd c).queues = s.queues := rfl
@[simp] theorem State.setCmd_fetched (c : Cmd) : (s.setCmd c).fetched = s.fetched := rfl
@[simp] theorem State.setCmd_cmds (c : Cmd) :
    (s.setCmd c).cmds = updWhere (fun x => x.place == c.place) (fun _ => c) s.cmds := rfl
@[simp] theorem State.setCmd_parts (c : Cmd) : (s.setCmd c).parts = s.parts := rfl
@[simp] theorem State.setCmd_gens (c : Cmd) : (s.setCmd c).gens = s.gens := rfl
@[simp] theorem State.setCmd_sched (c : Cmd) : (s.setCmd c).sched = s.sched := rfl
@[simp] theorem State.setCmd_host (c : Cmd) : (s.setCmd c).host = s.host := rfl
@[simp] theorem State.setCmd_dups (c : Cmd) : (s.setCmd c).dups = s.dups := rfl
@[simp] theorem State.setCmd_drafts (c : Cmd) : (s.setCmd c).drafts = s.drafts := rfl
@[simp] theorem State.setCmd_trd (c : Cmd) : (s.setCmd c).trd = s.trd := rfl
@[simp] theorem State.setCmd_ks (c : Cmd) : (s.setCmd c).ks = s.ks := rfl
@[simp] theorem State.setCmd_kc (c : Cmd) : (s.setCmd c).kc = s.kc := rfl
@[simp] theorem State.setCmd_rt (c : Cmd) : (s.setCmd c).rt = s.rt := rfl
@[simp] theorem State.setCmd_bn (c : Cmd) : (s.setCmd c).bn = s.bn := rfl
@[simp] theorem State.setCmd_rng (c : Cmd) : (s.setCmd c).rng = s.rng := rfl
@[simp] theorem State.setCmd_qr (c : Cmd) : (s.setCmd c).qr = s.qr := rfl
@[simp] theorem State.setCmd_lk (c : Cmd) : (s.setCmd c).lk = s.lk := rfl
@[simp] theorem State.setCmd_pt (c : Cmd) : (s.setCmd c).pt = s.pt := rfl
@[simp] theorem State.setCmd_lc (c : Cmd) : (s.setCmd c).lc = s.lc := rfl
@[simp] theorem State.setCmd_dbg (c : Cmd) : (s.setCmd c).dbg = s.dbg := rfl
@[simp] theorem State.setCmd_mpu (c : Cmd) : (s.setCmd c).mpu = s.mpu := rfl
@[simp] theorem State.setCmd_tmp (c : Cmd) : (s.setCmd c).tmp = s.tmp := rfl
@[simp] theorem State.setCmd_sag (c : Cmd) : (s.setCmd c).sag = s.sag := rfl
@[simp] theorem State.setCmd_bist (c : Cmd) : (s.setCmd c).bist = s.bist := rfl
@[simp] theorem State.setCmd_evr (c : Cmd) : (s.setCmd c).evr = s.evr := rfl
@[simp] theorem State.setCmd_iom (c : Cmd) : (s.setCmd c).iom = s.iom := rfl
@[simp] theorem State.setCmd_board (c : Cmd) : (s.setCmd c).board = s.board := rfl
@[simp] theorem State.setCmd_tears (c : Cmd) : (s.setCmd c).tears = s.tears := rfl
@[simp] theorem State.setCmd_d3held (c : Cmd) : (s.setCmd c).d3held = s.d3held := rfl
@[simp] theorem State.setCmd_draw (c : Cmd) : (s.setCmd c).draw = s.draw := rfl
@[simp] theorem State.setCmd_out (c : Cmd) : (s.setCmd c).out = s.out := rfl
@[simp] theorem State.setCmd_pending (c : Cmd) : (s.setCmd c).pending = s.pending := rfl

/-! State.dropCmd -/

@[simp] theorem State.dropCmd_sys (p : Place) : (s.dropCmd p).sys = s.sys := rfl
@[simp] theorem State.dropCmd_mem (p : Place) : (s.dropCmd p).mem = s.mem := rfl
@[simp] theorem State.dropCmd_queues (p : Place) : (s.dropCmd p).queues = s.queues := rfl
@[simp] theorem State.dropCmd_fetched (p : Place) : (s.dropCmd p).fetched = s.fetched := rfl
@[simp] theorem State.dropCmd_cmds (p : Place) :
    (s.dropCmd p).cmds = s.cmds.filter (fun c => c.place != p) := rfl
@[simp] theorem State.dropCmd_parts (p : Place) : (s.dropCmd p).parts = s.parts := rfl
@[simp] theorem State.dropCmd_gens (p : Place) : (s.dropCmd p).gens = s.gens := rfl
@[simp] theorem State.dropCmd_sched (p : Place) : (s.dropCmd p).sched = s.sched := rfl
@[simp] theorem State.dropCmd_host (p : Place) : (s.dropCmd p).host = s.host := rfl
@[simp] theorem State.dropCmd_dups (p : Place) : (s.dropCmd p).dups = s.dups := rfl
@[simp] theorem State.dropCmd_drafts (p : Place) : (s.dropCmd p).drafts = s.drafts := rfl
@[simp] theorem State.dropCmd_trd (p : Place) : (s.dropCmd p).trd = s.trd := rfl
@[simp] theorem State.dropCmd_ks (p : Place) : (s.dropCmd p).ks = s.ks := rfl
@[simp] theorem State.dropCmd_kc (p : Place) : (s.dropCmd p).kc = s.kc := rfl
@[simp] theorem State.dropCmd_rt (p : Place) : (s.dropCmd p).rt = s.rt := rfl
@[simp] theorem State.dropCmd_bn (p : Place) : (s.dropCmd p).bn = s.bn := rfl
@[simp] theorem State.dropCmd_rng (p : Place) : (s.dropCmd p).rng = s.rng := rfl
@[simp] theorem State.dropCmd_qr (p : Place) : (s.dropCmd p).qr = s.qr := rfl
@[simp] theorem State.dropCmd_lk (p : Place) : (s.dropCmd p).lk = s.lk := rfl
@[simp] theorem State.dropCmd_pt (p : Place) : (s.dropCmd p).pt = s.pt := rfl
@[simp] theorem State.dropCmd_lc (p : Place) : (s.dropCmd p).lc = s.lc := rfl
@[simp] theorem State.dropCmd_dbg (p : Place) : (s.dropCmd p).dbg = s.dbg := rfl
@[simp] theorem State.dropCmd_mpu (p : Place) : (s.dropCmd p).mpu = s.mpu := rfl
@[simp] theorem State.dropCmd_tmp (p : Place) : (s.dropCmd p).tmp = s.tmp := rfl
@[simp] theorem State.dropCmd_sag (p : Place) : (s.dropCmd p).sag = s.sag := rfl
@[simp] theorem State.dropCmd_bist (p : Place) : (s.dropCmd p).bist = s.bist := rfl
@[simp] theorem State.dropCmd_evr (p : Place) : (s.dropCmd p).evr = s.evr := rfl
@[simp] theorem State.dropCmd_iom (p : Place) : (s.dropCmd p).iom = s.iom := rfl
@[simp] theorem State.dropCmd_board (p : Place) : (s.dropCmd p).board = s.board := rfl
@[simp] theorem State.dropCmd_tears (p : Place) : (s.dropCmd p).tears = s.tears := rfl
@[simp] theorem State.dropCmd_d3held (p : Place) : (s.dropCmd p).d3held = s.d3held := rfl
@[simp] theorem State.dropCmd_draw (p : Place) : (s.dropCmd p).draw = s.draw := rfl
@[simp] theorem State.dropCmd_out (p : Place) : (s.dropCmd p).out = s.out := rfl
@[simp] theorem State.dropCmd_pending (p : Place) : (s.dropCmd p).pending = s.pending := rfl

/-! State.modQueue -/

@[simp] theorem State.modQueue_sys (q : Nat) (f : Queue → Queue) : (s.modQueue q f).sys = s.sys := rfl
@[simp] theorem State.modQueue_mem (q : Nat) (f : Queue → Queue) : (s.modQueue q f).mem = s.mem := rfl
@[simp] theorem State.modQueue_queues (q : Nat) (f : Queue → Queue) :
    (s.modQueue q f).queues = updWhere (fun x => x.id == q) f s.queues := rfl
@[simp] theorem State.modQueue_fetched (q : Nat) (f : Queue → Queue) : (s.modQueue q f).fetched = s.fetched := rfl
@[simp] theorem State.modQueue_cmds (q : Nat) (f : Queue → Queue) : (s.modQueue q f).cmds = s.cmds := rfl
@[simp] theorem State.modQueue_parts (q : Nat) (f : Queue → Queue) : (s.modQueue q f).parts = s.parts := rfl
@[simp] theorem State.modQueue_gens (q : Nat) (f : Queue → Queue) : (s.modQueue q f).gens = s.gens := rfl
@[simp] theorem State.modQueue_sched (q : Nat) (f : Queue → Queue) : (s.modQueue q f).sched = s.sched := rfl
@[simp] theorem State.modQueue_host (q : Nat) (f : Queue → Queue) : (s.modQueue q f).host = s.host := rfl
@[simp] theorem State.modQueue_dups (q : Nat) (f : Queue → Queue) : (s.modQueue q f).dups = s.dups := rfl
@[simp] theorem State.modQueue_drafts (q : Nat) (f : Queue → Queue) : (s.modQueue q f).drafts = s.drafts := rfl
@[simp] theorem State.modQueue_trd (q : Nat) (f : Queue → Queue) : (s.modQueue q f).trd = s.trd := rfl
@[simp] theorem State.modQueue_ks (q : Nat) (f : Queue → Queue) : (s.modQueue q f).ks = s.ks := rfl
@[simp] theorem State.modQueue_kc (q : Nat) (f : Queue → Queue) : (s.modQueue q f).kc = s.kc := rfl
@[simp] theorem State.modQueue_rt (q : Nat) (f : Queue → Queue) : (s.modQueue q f).rt = s.rt := rfl
@[simp] theorem State.modQueue_bn (q : Nat) (f : Queue → Queue) : (s.modQueue q f).bn = s.bn := rfl
@[simp] theorem State.modQueue_rng (q : Nat) (f : Queue → Queue) : (s.modQueue q f).rng = s.rng := rfl
@[simp] theorem State.modQueue_qr (q : Nat) (f : Queue → Queue) : (s.modQueue q f).qr = s.qr := rfl
@[simp] theorem State.modQueue_lk (q : Nat) (f : Queue → Queue) : (s.modQueue q f).lk = s.lk := rfl
@[simp] theorem State.modQueue_pt (q : Nat) (f : Queue → Queue) : (s.modQueue q f).pt = s.pt := rfl
@[simp] theorem State.modQueue_lc (q : Nat) (f : Queue → Queue) : (s.modQueue q f).lc = s.lc := rfl
@[simp] theorem State.modQueue_dbg (q : Nat) (f : Queue → Queue) : (s.modQueue q f).dbg = s.dbg := rfl
@[simp] theorem State.modQueue_mpu (q : Nat) (f : Queue → Queue) : (s.modQueue q f).mpu = s.mpu := rfl
@[simp] theorem State.modQueue_tmp (q : Nat) (f : Queue → Queue) : (s.modQueue q f).tmp = s.tmp := rfl
@[simp] theorem State.modQueue_sag (q : Nat) (f : Queue → Queue) : (s.modQueue q f).sag = s.sag := rfl
@[simp] theorem State.modQueue_bist (q : Nat) (f : Queue → Queue) : (s.modQueue q f).bist = s.bist := rfl
@[simp] theorem State.modQueue_evr (q : Nat) (f : Queue → Queue) : (s.modQueue q f).evr = s.evr := rfl
@[simp] theorem State.modQueue_iom (q : Nat) (f : Queue → Queue) : (s.modQueue q f).iom = s.iom := rfl
@[simp] theorem State.modQueue_board (q : Nat) (f : Queue → Queue) : (s.modQueue q f).board = s.board := rfl
@[simp] theorem State.modQueue_tears (q : Nat) (f : Queue → Queue) : (s.modQueue q f).tears = s.tears := rfl
@[simp] theorem State.modQueue_d3held (q : Nat) (f : Queue → Queue) : (s.modQueue q f).d3held = s.d3held := rfl
@[simp] theorem State.modQueue_draw (q : Nat) (f : Queue → Queue) : (s.modQueue q f).draw = s.draw := rfl
@[simp] theorem State.modQueue_out (q : Nat) (f : Queue → Queue) : (s.modQueue q f).out = s.out := rfl
@[simp] theorem State.modQueue_pending (q : Nat) (f : Queue → Queue) : (s.modQueue q f).pending = s.pending := rfl

/-! State.modPart -/

@[simp] theorem State.modPart_sys (p : Nat) (f : Part → Part) : (s.modPart p f).sys = s.sys := rfl
@[simp] theorem State.modPart_mem (p : Nat) (f : Part → Part) : (s.modPart p f).mem = s.mem := rfl
@[simp] theorem State.modPart_queues (p : Nat) (f : Part → Part) : (s.modPart p f).queues = s.queues := rfl
@[simp] theorem State.modPart_fetched (p : Nat) (f : Part → Part) : (s.modPart p f).fetched = s.fetched := rfl
@[simp] theorem State.modPart_cmds (p : Nat) (f : Part → Part) : (s.modPart p f).cmds = s.cmds := rfl
@[simp] theorem State.modPart_parts (p : Nat) (f : Part → Part) :
    (s.modPart p f).parts = updWhere (fun x => x.id == p) f s.parts := rfl
@[simp] theorem State.modPart_gens (p : Nat) (f : Part → Part) : (s.modPart p f).gens = s.gens := rfl
@[simp] theorem State.modPart_sched (p : Nat) (f : Part → Part) : (s.modPart p f).sched = s.sched := rfl
@[simp] theorem State.modPart_host (p : Nat) (f : Part → Part) : (s.modPart p f).host = s.host := rfl
@[simp] theorem State.modPart_dups (p : Nat) (f : Part → Part) : (s.modPart p f).dups = s.dups := rfl
@[simp] theorem State.modPart_drafts (p : Nat) (f : Part → Part) : (s.modPart p f).drafts = s.drafts := rfl
@[simp] theorem State.modPart_trd (p : Nat) (f : Part → Part) : (s.modPart p f).trd = s.trd := rfl
@[simp] theorem State.modPart_ks (p : Nat) (f : Part → Part) : (s.modPart p f).ks = s.ks := rfl
@[simp] theorem State.modPart_kc (p : Nat) (f : Part → Part) : (s.modPart p f).kc = s.kc := rfl
@[simp] theorem State.modPart_rt (p : Nat) (f : Part → Part) : (s.modPart p f).rt = s.rt := rfl
@[simp] theorem State.modPart_bn (p : Nat) (f : Part → Part) : (s.modPart p f).bn = s.bn := rfl
@[simp] theorem State.modPart_rng (p : Nat) (f : Part → Part) : (s.modPart p f).rng = s.rng := rfl
@[simp] theorem State.modPart_qr (p : Nat) (f : Part → Part) : (s.modPart p f).qr = s.qr := rfl
@[simp] theorem State.modPart_lk (p : Nat) (f : Part → Part) : (s.modPart p f).lk = s.lk := rfl
@[simp] theorem State.modPart_pt (p : Nat) (f : Part → Part) : (s.modPart p f).pt = s.pt := rfl
@[simp] theorem State.modPart_lc (p : Nat) (f : Part → Part) : (s.modPart p f).lc = s.lc := rfl
@[simp] theorem State.modPart_dbg (p : Nat) (f : Part → Part) : (s.modPart p f).dbg = s.dbg := rfl
@[simp] theorem State.modPart_mpu (p : Nat) (f : Part → Part) : (s.modPart p f).mpu = s.mpu := rfl
@[simp] theorem State.modPart_tmp (p : Nat) (f : Part → Part) : (s.modPart p f).tmp = s.tmp := rfl
@[simp] theorem State.modPart_sag (p : Nat) (f : Part → Part) : (s.modPart p f).sag = s.sag := rfl
@[simp] theorem State.modPart_bist (p : Nat) (f : Part → Part) : (s.modPart p f).bist = s.bist := rfl
@[simp] theorem State.modPart_evr (p : Nat) (f : Part → Part) : (s.modPart p f).evr = s.evr := rfl
@[simp] theorem State.modPart_iom (p : Nat) (f : Part → Part) : (s.modPart p f).iom = s.iom := rfl
@[simp] theorem State.modPart_board (p : Nat) (f : Part → Part) : (s.modPart p f).board = s.board := rfl
@[simp] theorem State.modPart_tears (p : Nat) (f : Part → Part) : (s.modPart p f).tears = s.tears := rfl
@[simp] theorem State.modPart_d3held (p : Nat) (f : Part → Part) : (s.modPart p f).d3held = s.d3held := rfl
@[simp] theorem State.modPart_draw (p : Nat) (f : Part → Part) : (s.modPart p f).draw = s.draw := rfl
@[simp] theorem State.modPart_out (p : Nat) (f : Part → Part) : (s.modPart p f).out = s.out := rfl
@[simp] theorem State.modPart_pending (p : Nat) (f : Part → Part) : (s.modPart p f).pending = s.pending := rfl

/-! State.modTreadle -/

@[simp] theorem State.modTreadle_sys (n : Nat) (f : Treadle → Treadle) : (s.modTreadle n f).sys = s.sys := rfl
@[simp] theorem State.modTreadle_mem (n : Nat) (f : Treadle → Treadle) : (s.modTreadle n f).mem = s.mem := rfl
@[simp] theorem State.modTreadle_queues (n : Nat) (f : Treadle → Treadle) : (s.modTreadle n f).queues = s.queues := rfl
@[simp] theorem State.modTreadle_fetched (n : Nat) (f : Treadle → Treadle) : (s.modTreadle n f).fetched = s.fetched := rfl
@[simp] theorem State.modTreadle_cmds (n : Nat) (f : Treadle → Treadle) : (s.modTreadle n f).cmds = s.cmds := rfl
@[simp] theorem State.modTreadle_parts (n : Nat) (f : Treadle → Treadle) : (s.modTreadle n f).parts = s.parts := rfl
@[simp] theorem State.modTreadle_gens (n : Nat) (f : Treadle → Treadle) : (s.modTreadle n f).gens = s.gens := rfl
@[simp] theorem State.modTreadle_sched (n : Nat) (f : Treadle → Treadle) : (s.modTreadle n f).sched = s.sched := rfl
@[simp] theorem State.modTreadle_host (n : Nat) (f : Treadle → Treadle) : (s.modTreadle n f).host = s.host := rfl
@[simp] theorem State.modTreadle_dups (n : Nat) (f : Treadle → Treadle) : (s.modTreadle n f).dups = s.dups := rfl
@[simp] theorem State.modTreadle_drafts (n : Nat) (f : Treadle → Treadle) : (s.modTreadle n f).drafts = s.drafts := rfl
@[simp] theorem State.modTreadle_trd (n : Nat) (f : Treadle → Treadle) :
    (s.modTreadle n f).trd = updAt s.trd n f := rfl
@[simp] theorem State.modTreadle_ks (n : Nat) (f : Treadle → Treadle) : (s.modTreadle n f).ks = s.ks := rfl
@[simp] theorem State.modTreadle_kc (n : Nat) (f : Treadle → Treadle) : (s.modTreadle n f).kc = s.kc := rfl
@[simp] theorem State.modTreadle_rt (n : Nat) (f : Treadle → Treadle) : (s.modTreadle n f).rt = s.rt := rfl
@[simp] theorem State.modTreadle_bn (n : Nat) (f : Treadle → Treadle) : (s.modTreadle n f).bn = s.bn := rfl
@[simp] theorem State.modTreadle_rng (n : Nat) (f : Treadle → Treadle) : (s.modTreadle n f).rng = s.rng := rfl
@[simp] theorem State.modTreadle_qr (n : Nat) (f : Treadle → Treadle) : (s.modTreadle n f).qr = s.qr := rfl
@[simp] theorem State.modTreadle_lk (n : Nat) (f : Treadle → Treadle) : (s.modTreadle n f).lk = s.lk := rfl
@[simp] theorem State.modTreadle_pt (n : Nat) (f : Treadle → Treadle) : (s.modTreadle n f).pt = s.pt := rfl
@[simp] theorem State.modTreadle_lc (n : Nat) (f : Treadle → Treadle) : (s.modTreadle n f).lc = s.lc := rfl
@[simp] theorem State.modTreadle_dbg (n : Nat) (f : Treadle → Treadle) : (s.modTreadle n f).dbg = s.dbg := rfl
@[simp] theorem State.modTreadle_mpu (n : Nat) (f : Treadle → Treadle) : (s.modTreadle n f).mpu = s.mpu := rfl
@[simp] theorem State.modTreadle_tmp (n : Nat) (f : Treadle → Treadle) : (s.modTreadle n f).tmp = s.tmp := rfl
@[simp] theorem State.modTreadle_sag (n : Nat) (f : Treadle → Treadle) : (s.modTreadle n f).sag = s.sag := rfl
@[simp] theorem State.modTreadle_bist (n : Nat) (f : Treadle → Treadle) : (s.modTreadle n f).bist = s.bist := rfl
@[simp] theorem State.modTreadle_evr (n : Nat) (f : Treadle → Treadle) : (s.modTreadle n f).evr = s.evr := rfl
@[simp] theorem State.modTreadle_iom (n : Nat) (f : Treadle → Treadle) : (s.modTreadle n f).iom = s.iom := rfl
@[simp] theorem State.modTreadle_board (n : Nat) (f : Treadle → Treadle) : (s.modTreadle n f).board = s.board := rfl
@[simp] theorem State.modTreadle_tears (n : Nat) (f : Treadle → Treadle) : (s.modTreadle n f).tears = s.tears := rfl
@[simp] theorem State.modTreadle_d3held (n : Nat) (f : Treadle → Treadle) : (s.modTreadle n f).d3held = s.d3held := rfl
@[simp] theorem State.modTreadle_draw (n : Nat) (f : Treadle → Treadle) : (s.modTreadle n f).draw = s.draw := rfl
@[simp] theorem State.modTreadle_out (n : Nat) (f : Treadle → Treadle) : (s.modTreadle n f).out = s.out := rfl
@[simp] theorem State.modTreadle_pending (n : Nat) (f : Treadle → Treadle) : (s.modTreadle n f).pending = s.pending := rfl

/-! State.setMbx -/

@[simp] theorem State.setMbx_sys (m : Mbx) : (s.setMbx m).sys = s.sys := rfl
@[simp] theorem State.setMbx_mem (m : Mbx) : (s.setMbx m).mem = s.mem := rfl
@[simp] theorem State.setMbx_queues (m : Mbx) : (s.setMbx m).queues = s.queues := rfl
@[simp] theorem State.setMbx_fetched (m : Mbx) : (s.setMbx m).fetched = s.fetched := rfl
@[simp] theorem State.setMbx_cmds (m : Mbx) : (s.setMbx m).cmds = s.cmds := rfl
@[simp] theorem State.setMbx_parts (m : Mbx) : (s.setMbx m).parts = s.parts := rfl
@[simp] theorem State.setMbx_gens (m : Mbx) : (s.setMbx m).gens = s.gens := rfl
@[simp] theorem State.setMbx_sched (m : Mbx) : (s.setMbx m).sched = s.sched := rfl
@[simp] theorem State.setMbx_host (m : Mbx) :
    (s.setMbx m).host = { s.host with mbx := m :: s.host.mbx.filter (fun x => x.fn != m.fn) } := rfl
@[simp] theorem State.setMbx_dups (m : Mbx) : (s.setMbx m).dups = s.dups := rfl
@[simp] theorem State.setMbx_drafts (m : Mbx) : (s.setMbx m).drafts = s.drafts := rfl
@[simp] theorem State.setMbx_trd (m : Mbx) : (s.setMbx m).trd = s.trd := rfl
@[simp] theorem State.setMbx_ks (m : Mbx) : (s.setMbx m).ks = s.ks := rfl
@[simp] theorem State.setMbx_kc (m : Mbx) : (s.setMbx m).kc = s.kc := rfl
@[simp] theorem State.setMbx_rt (m : Mbx) : (s.setMbx m).rt = s.rt := rfl
@[simp] theorem State.setMbx_bn (m : Mbx) : (s.setMbx m).bn = s.bn := rfl
@[simp] theorem State.setMbx_rng (m : Mbx) : (s.setMbx m).rng = s.rng := rfl
@[simp] theorem State.setMbx_qr (m : Mbx) : (s.setMbx m).qr = s.qr := rfl
@[simp] theorem State.setMbx_lk (m : Mbx) : (s.setMbx m).lk = s.lk := rfl
@[simp] theorem State.setMbx_pt (m : Mbx) : (s.setMbx m).pt = s.pt := rfl
@[simp] theorem State.setMbx_lc (m : Mbx) : (s.setMbx m).lc = s.lc := rfl
@[simp] theorem State.setMbx_dbg (m : Mbx) : (s.setMbx m).dbg = s.dbg := rfl
@[simp] theorem State.setMbx_mpu (m : Mbx) : (s.setMbx m).mpu = s.mpu := rfl
@[simp] theorem State.setMbx_tmp (m : Mbx) : (s.setMbx m).tmp = s.tmp := rfl
@[simp] theorem State.setMbx_sag (m : Mbx) : (s.setMbx m).sag = s.sag := rfl
@[simp] theorem State.setMbx_bist (m : Mbx) : (s.setMbx m).bist = s.bist := rfl
@[simp] theorem State.setMbx_evr (m : Mbx) : (s.setMbx m).evr = s.evr := rfl
@[simp] theorem State.setMbx_iom (m : Mbx) : (s.setMbx m).iom = s.iom := rfl
@[simp] theorem State.setMbx_board (m : Mbx) : (s.setMbx m).board = s.board := rfl
@[simp] theorem State.setMbx_tears (m : Mbx) : (s.setMbx m).tears = s.tears := rfl
@[simp] theorem State.setMbx_d3held (m : Mbx) : (s.setMbx m).d3held = s.d3held := rfl
@[simp] theorem State.setMbx_draw (m : Mbx) : (s.setMbx m).draw = s.draw := rfl
@[simp] theorem State.setMbx_out (m : Mbx) : (s.setMbx m).out = s.out := rfl
@[simp] theorem State.setMbx_pending (m : Mbx) : (s.setMbx m).pending = s.pending := rfl

/-! State.send -/

@[simp] theorem State.send_sys (o : Out) : (s.send o).sys = s.sys := rfl
@[simp] theorem State.send_mem (o : Out) : (s.send o).mem = s.mem := rfl
@[simp] theorem State.send_queues (o : Out) : (s.send o).queues = s.queues := rfl
@[simp] theorem State.send_fetched (o : Out) : (s.send o).fetched = s.fetched := rfl
@[simp] theorem State.send_cmds (o : Out) : (s.send o).cmds = s.cmds := rfl
@[simp] theorem State.send_parts (o : Out) : (s.send o).parts = s.parts := rfl
@[simp] theorem State.send_gens (o : Out) : (s.send o).gens = s.gens := rfl
@[simp] theorem State.send_sched (o : Out) : (s.send o).sched = s.sched := rfl
@[simp] theorem State.send_host (o : Out) : (s.send o).host = s.host := rfl
@[simp] theorem State.send_dups (o : Out) : (s.send o).dups = s.dups := rfl
@[simp] theorem State.send_drafts (o : Out) : (s.send o).drafts = s.drafts := rfl
@[simp] theorem State.send_trd (o : Out) : (s.send o).trd = s.trd := rfl
@[simp] theorem State.send_ks (o : Out) : (s.send o).ks = s.ks := rfl
@[simp] theorem State.send_kc (o : Out) : (s.send o).kc = s.kc := rfl
@[simp] theorem State.send_rt (o : Out) : (s.send o).rt = s.rt := rfl
@[simp] theorem State.send_bn (o : Out) : (s.send o).bn = s.bn := rfl
@[simp] theorem State.send_rng (o : Out) : (s.send o).rng = s.rng := rfl
@[simp] theorem State.send_qr (o : Out) : (s.send o).qr = s.qr := rfl
@[simp] theorem State.send_lk (o : Out) : (s.send o).lk = s.lk := rfl
@[simp] theorem State.send_pt (o : Out) : (s.send o).pt = s.pt := rfl
@[simp] theorem State.send_lc (o : Out) : (s.send o).lc = s.lc := rfl
@[simp] theorem State.send_dbg (o : Out) : (s.send o).dbg = s.dbg := rfl
@[simp] theorem State.send_mpu (o : Out) : (s.send o).mpu = s.mpu := rfl
@[simp] theorem State.send_tmp (o : Out) : (s.send o).tmp = s.tmp := rfl
@[simp] theorem State.send_sag (o : Out) : (s.send o).sag = s.sag := rfl
@[simp] theorem State.send_bist (o : Out) : (s.send o).bist = s.bist := rfl
@[simp] theorem State.send_evr (o : Out) : (s.send o).evr = s.evr := rfl
@[simp] theorem State.send_iom (o : Out) : (s.send o).iom = s.iom := rfl
@[simp] theorem State.send_board (o : Out) : (s.send o).board = s.board := rfl
@[simp] theorem State.send_tears (o : Out) : (s.send o).tears = s.tears := rfl
@[simp] theorem State.send_d3held (o : Out) : (s.send o).d3held = s.d3held := rfl
@[simp] theorem State.send_draw (o : Out) : (s.send o).draw = s.draw := rfl
@[simp] theorem State.send_out (o : Out) :
    (s.send o).out = s.out ++ [o] := rfl
@[simp] theorem State.send_pending (o : Out) : (s.send o).pending = s.pending := rfl

/-! State.drawn -/

@[simp] theorem State.drawn_sys (n : Nat) : (s.drawn n).sys = s.sys := rfl
@[simp] theorem State.drawn_mem (n : Nat) : (s.drawn n).mem = s.mem := rfl
@[simp] theorem State.drawn_queues (n : Nat) : (s.drawn n).queues = s.queues := rfl
@[simp] theorem State.drawn_fetched (n : Nat) : (s.drawn n).fetched = s.fetched := rfl
@[simp] theorem State.drawn_cmds (n : Nat) : (s.drawn n).cmds = s.cmds := rfl
@[simp] theorem State.drawn_parts (n : Nat) : (s.drawn n).parts = s.parts := rfl
@[simp] theorem State.drawn_gens (n : Nat) : (s.drawn n).gens = s.gens := rfl
@[simp] theorem State.drawn_sched (n : Nat) : (s.drawn n).sched = s.sched := rfl
@[simp] theorem State.drawn_host (n : Nat) : (s.drawn n).host = s.host := rfl
@[simp] theorem State.drawn_dups (n : Nat) : (s.drawn n).dups = s.dups := rfl
@[simp] theorem State.drawn_drafts (n : Nat) : (s.drawn n).drafts = s.drafts := rfl
@[simp] theorem State.drawn_trd (n : Nat) : (s.drawn n).trd = s.trd := rfl
@[simp] theorem State.drawn_ks (n : Nat) : (s.drawn n).ks = s.ks := rfl
@[simp] theorem State.drawn_kc (n : Nat) : (s.drawn n).kc = s.kc := rfl
@[simp] theorem State.drawn_rt (n : Nat) : (s.drawn n).rt = s.rt := rfl
@[simp] theorem State.drawn_bn (n : Nat) : (s.drawn n).bn = s.bn := rfl
@[simp] theorem State.drawn_rng (n : Nat) : (s.drawn n).rng = s.rng := rfl
@[simp] theorem State.drawn_qr (n : Nat) : (s.drawn n).qr = s.qr := rfl
@[simp] theorem State.drawn_lk (n : Nat) : (s.drawn n).lk = s.lk := rfl
@[simp] theorem State.drawn_pt (n : Nat) : (s.drawn n).pt = s.pt := rfl
@[simp] theorem State.drawn_lc (n : Nat) : (s.drawn n).lc = s.lc := rfl
@[simp] theorem State.drawn_dbg (n : Nat) : (s.drawn n).dbg = s.dbg := rfl
@[simp] theorem State.drawn_mpu (n : Nat) : (s.drawn n).mpu = s.mpu := rfl
@[simp] theorem State.drawn_tmp (n : Nat) : (s.drawn n).tmp = s.tmp := rfl
@[simp] theorem State.drawn_sag (n : Nat) : (s.drawn n).sag = s.sag := rfl
@[simp] theorem State.drawn_bist (n : Nat) : (s.drawn n).bist = s.bist := rfl
@[simp] theorem State.drawn_evr (n : Nat) : (s.drawn n).evr = s.evr := rfl
@[simp] theorem State.drawn_iom (n : Nat) : (s.drawn n).iom = s.iom := rfl
@[simp] theorem State.drawn_board (n : Nat) : (s.drawn n).board = s.board := rfl
@[simp] theorem State.drawn_tears (n : Nat) : (s.drawn n).tears = s.tears := rfl
@[simp] theorem State.drawn_d3held (n : Nat) : (s.drawn n).d3held = s.d3held := rfl
@[simp] theorem State.drawn_draw (n : Nat) :
    (s.drawn n).draw = s.draw + n := rfl
@[simp] theorem State.drawn_out (n : Nat) : (s.drawn n).out = s.out := rfl
@[simp] theorem State.drawn_pending (n : Nat) : (s.drawn n).pending = s.pending := rfl

/-! State.timeAtLeast -/

@[simp] theorem State.timeAtLeast_sys (t : Nat) : (s.timeAtLeast t).sys = s.sys := rfl
@[simp] theorem State.timeAtLeast_mem (t : Nat) : (s.timeAtLeast t).mem = s.mem := rfl
@[simp] theorem State.timeAtLeast_queues (t : Nat) : (s.timeAtLeast t).queues = s.queues := rfl
@[simp] theorem State.timeAtLeast_fetched (t : Nat) : (s.timeAtLeast t).fetched = s.fetched := rfl
@[simp] theorem State.timeAtLeast_cmds (t : Nat) : (s.timeAtLeast t).cmds = s.cmds := rfl
@[simp] theorem State.timeAtLeast_parts (t : Nat) : (s.timeAtLeast t).parts = s.parts := rfl
@[simp] theorem State.timeAtLeast_gens (t : Nat) : (s.timeAtLeast t).gens = s.gens := rfl
@[simp] theorem State.timeAtLeast_sched (t : Nat) : (s.timeAtLeast t).sched = s.sched := rfl
@[simp] theorem State.timeAtLeast_host (t : Nat) : (s.timeAtLeast t).host = s.host := rfl
@[simp] theorem State.timeAtLeast_dups (t : Nat) : (s.timeAtLeast t).dups = s.dups := rfl
@[simp] theorem State.timeAtLeast_drafts (t : Nat) : (s.timeAtLeast t).drafts = s.drafts := rfl
@[simp] theorem State.timeAtLeast_trd (t : Nat) : (s.timeAtLeast t).trd = s.trd := rfl
@[simp] theorem State.timeAtLeast_ks (t : Nat) : (s.timeAtLeast t).ks = s.ks := rfl
@[simp] theorem State.timeAtLeast_kc (t : Nat) : (s.timeAtLeast t).kc = s.kc := rfl
@[simp] theorem State.timeAtLeast_rt (t : Nat) : (s.timeAtLeast t).rt = s.rt := rfl
@[simp] theorem State.timeAtLeast_bn (t : Nat) : (s.timeAtLeast t).bn = s.bn := rfl
@[simp] theorem State.timeAtLeast_rng (t : Nat) : (s.timeAtLeast t).rng = s.rng := rfl
@[simp] theorem State.timeAtLeast_qr (t : Nat) : (s.timeAtLeast t).qr = s.qr := rfl
@[simp] theorem State.timeAtLeast_lk (t : Nat) : (s.timeAtLeast t).lk = s.lk := rfl
@[simp] theorem State.timeAtLeast_pt (t : Nat) : (s.timeAtLeast t).pt = s.pt := rfl
@[simp] theorem State.timeAtLeast_lc (t : Nat) : (s.timeAtLeast t).lc = s.lc := rfl
@[simp] theorem State.timeAtLeast_dbg (t : Nat) : (s.timeAtLeast t).dbg = s.dbg := rfl
@[simp] theorem State.timeAtLeast_mpu (t : Nat) : (s.timeAtLeast t).mpu = s.mpu := rfl
@[simp] theorem State.timeAtLeast_tmp (t : Nat) : (s.timeAtLeast t).tmp = s.tmp := rfl
@[simp] theorem State.timeAtLeast_sag (t : Nat) : (s.timeAtLeast t).sag = s.sag := rfl
@[simp] theorem State.timeAtLeast_bist (t : Nat) : (s.timeAtLeast t).bist = s.bist := rfl
@[simp] theorem State.timeAtLeast_evr (t : Nat) :
    (s.timeAtLeast t).evr = { s.evr with optime := max s.evr.optime t } := rfl
@[simp] theorem State.timeAtLeast_iom (t : Nat) : (s.timeAtLeast t).iom = s.iom := rfl
@[simp] theorem State.timeAtLeast_board (t : Nat) : (s.timeAtLeast t).board = s.board := rfl
@[simp] theorem State.timeAtLeast_tears (t : Nat) : (s.timeAtLeast t).tears = s.tears := rfl
@[simp] theorem State.timeAtLeast_d3held (t : Nat) : (s.timeAtLeast t).d3held = s.d3held := rfl
@[simp] theorem State.timeAtLeast_draw (t : Nat) : (s.timeAtLeast t).draw = s.draw := rfl
@[simp] theorem State.timeAtLeast_out (t : Nat) : (s.timeAtLeast t).out = s.out := rfl
@[simp] theorem State.timeAtLeast_pending (t : Nat) : (s.timeAtLeast t).pending = s.pending := rfl

/-! State.countStep -/

@[simp] theorem State.countStep_sys (n k : Nat) : (s.countStep n k).sys = s.sys := rfl
@[simp] theorem State.countStep_mem (n k : Nat) : (s.countStep n k).mem = s.mem := rfl
@[simp] theorem State.countStep_queues (n k : Nat) : (s.countStep n k).queues = s.queues := rfl
@[simp] theorem State.countStep_fetched (n k : Nat) : (s.countStep n k).fetched = s.fetched := rfl
@[simp] theorem State.countStep_cmds (n k : Nat) : (s.countStep n k).cmds = s.cmds := rfl
@[simp] theorem State.countStep_parts (n k : Nat) : (s.countStep n k).parts = s.parts := rfl
@[simp] theorem State.countStep_gens (n k : Nat) : (s.countStep n k).gens = s.gens := rfl
@[simp] theorem State.countStep_sched (n k : Nat) : (s.countStep n k).sched = s.sched := rfl
@[simp] theorem State.countStep_host (n k : Nat) : (s.countStep n k).host = s.host := rfl
@[simp] theorem State.countStep_dups (n k : Nat) : (s.countStep n k).dups = s.dups := rfl
@[simp] theorem State.countStep_drafts (n k : Nat) : (s.countStep n k).drafts = s.drafts := rfl
@[simp] theorem State.countStep_ks (n k : Nat) : (s.countStep n k).ks = s.ks := rfl
@[simp] theorem State.countStep_kc (n k : Nat) : (s.countStep n k).kc = s.kc := rfl
@[simp] theorem State.countStep_rt (n k : Nat) : (s.countStep n k).rt = s.rt := rfl
@[simp] theorem State.countStep_bn (n k : Nat) : (s.countStep n k).bn = s.bn := rfl
@[simp] theorem State.countStep_rng (n k : Nat) : (s.countStep n k).rng = s.rng := rfl
@[simp] theorem State.countStep_qr (n k : Nat) : (s.countStep n k).qr = s.qr := rfl
@[simp] theorem State.countStep_lk (n k : Nat) : (s.countStep n k).lk = s.lk := rfl
@[simp] theorem State.countStep_pt (n k : Nat) : (s.countStep n k).pt = s.pt := rfl
@[simp] theorem State.countStep_lc (n k : Nat) : (s.countStep n k).lc = s.lc := rfl
@[simp] theorem State.countStep_dbg (n k : Nat) : (s.countStep n k).dbg = s.dbg := rfl
@[simp] theorem State.countStep_mpu (n k : Nat) : (s.countStep n k).mpu = s.mpu := rfl
@[simp] theorem State.countStep_tmp (n k : Nat) : (s.countStep n k).tmp = s.tmp := rfl
@[simp] theorem State.countStep_sag (n k : Nat) : (s.countStep n k).sag = s.sag := rfl
@[simp] theorem State.countStep_bist (n k : Nat) : (s.countStep n k).bist = s.bist := rfl
@[simp] theorem State.countStep_evr (n k : Nat) : (s.countStep n k).evr = s.evr := rfl
@[simp] theorem State.countStep_iom (n k : Nat) : (s.countStep n k).iom = s.iom := rfl
@[simp] theorem State.countStep_board (n k : Nat) : (s.countStep n k).board = s.board := rfl
@[simp] theorem State.countStep_tears (n k : Nat) : (s.countStep n k).tears = s.tears := rfl
@[simp] theorem State.countStep_d3held (n k : Nat) : (s.countStep n k).d3held = s.d3held := rfl
@[simp] theorem State.countStep_draw (n k : Nat) : (s.countStep n k).draw = s.draw := rfl
@[simp] theorem State.countStep_out (n k : Nat) : (s.countStep n k).out = s.out := rfl
@[simp] theorem State.countStep_pending (n k : Nat) : (s.countStep n k).pending = s.pending := rfl

/-! State.modLk -/

@[simp] theorem State.modLk_sys (f : Link → Link) : (s.modLk f).sys = s.sys := rfl
@[simp] theorem State.modLk_mem (f : Link → Link) : (s.modLk f).mem = s.mem := rfl
@[simp] theorem State.modLk_queues (f : Link → Link) : (s.modLk f).queues = s.queues := rfl
@[simp] theorem State.modLk_fetched (f : Link → Link) : (s.modLk f).fetched = s.fetched := rfl
@[simp] theorem State.modLk_cmds (f : Link → Link) : (s.modLk f).cmds = s.cmds := rfl
@[simp] theorem State.modLk_parts (f : Link → Link) : (s.modLk f).parts = s.parts := rfl
@[simp] theorem State.modLk_gens (f : Link → Link) : (s.modLk f).gens = s.gens := rfl
@[simp] theorem State.modLk_sched (f : Link → Link) : (s.modLk f).sched = s.sched := rfl
@[simp] theorem State.modLk_host (f : Link → Link) : (s.modLk f).host = s.host := rfl
@[simp] theorem State.modLk_dups (f : Link → Link) : (s.modLk f).dups = s.dups := rfl
@[simp] theorem State.modLk_drafts (f : Link → Link) : (s.modLk f).drafts = s.drafts := rfl
@[simp] theorem State.modLk_trd (f : Link → Link) : (s.modLk f).trd = s.trd := rfl
@[simp] theorem State.modLk_ks (f : Link → Link) : (s.modLk f).ks = s.ks := rfl
@[simp] theorem State.modLk_kc (f : Link → Link) : (s.modLk f).kc = s.kc := rfl
@[simp] theorem State.modLk_rt (f : Link → Link) : (s.modLk f).rt = s.rt := rfl
@[simp] theorem State.modLk_bn (f : Link → Link) : (s.modLk f).bn = s.bn := rfl
@[simp] theorem State.modLk_rng (f : Link → Link) : (s.modLk f).rng = s.rng := rfl
@[simp] theorem State.modLk_qr (f : Link → Link) : (s.modLk f).qr = s.qr := rfl
@[simp] theorem State.modLk_lk (f : Link → Link) :
    (s.modLk f).lk = f s.lk := rfl
@[simp] theorem State.modLk_pt (f : Link → Link) : (s.modLk f).pt = s.pt := rfl
@[simp] theorem State.modLk_lc (f : Link → Link) : (s.modLk f).lc = s.lc := rfl
@[simp] theorem State.modLk_dbg (f : Link → Link) : (s.modLk f).dbg = s.dbg := rfl
@[simp] theorem State.modLk_mpu (f : Link → Link) : (s.modLk f).mpu = s.mpu := rfl
@[simp] theorem State.modLk_tmp (f : Link → Link) : (s.modLk f).tmp = s.tmp := rfl
@[simp] theorem State.modLk_sag (f : Link → Link) : (s.modLk f).sag = s.sag := rfl
@[simp] theorem State.modLk_bist (f : Link → Link) : (s.modLk f).bist = s.bist := rfl
@[simp] theorem State.modLk_evr (f : Link → Link) : (s.modLk f).evr = s.evr := rfl
@[simp] theorem State.modLk_iom (f : Link → Link) : (s.modLk f).iom = s.iom := rfl
@[simp] theorem State.modLk_board (f : Link → Link) : (s.modLk f).board = s.board := rfl
@[simp] theorem State.modLk_tears (f : Link → Link) : (s.modLk f).tears = s.tears := rfl
@[simp] theorem State.modLk_d3held (f : Link → Link) : (s.modLk f).d3held = s.d3held := rfl
@[simp] theorem State.modLk_draw (f : Link → Link) : (s.modLk f).draw = s.draw := rfl
@[simp] theorem State.modLk_out (f : Link → Link) : (s.modLk f).out = s.out := rfl
@[simp] theorem State.modLk_pending (f : Link → Link) : (s.modLk f).pending = s.pending := rfl

end Sys2Proof.Machine
end

