-- ==== Sys2Proof/Laws/KeepsOps.lean ====
section
/-! SUPPORT. What the operations of Ops, Flags, Operands and Draft leave alone: a lemma ending in `_pending` says that the
queue of waiting commands stays as it was, one ending in `_mem` that the RAM of the internal map does. -/

set_option linter.all false

namespace Sys2Proof.Machine

open Sys2Proof

/-! ## The queue -/

@[simp] theorem foldl_pending {α : Type} (f : State → α → State) (l : List α) (s : State) (h : ∀ t x, (f t x).pending = t.pending) :
    (l.foldl f s).pending = s.pending := by
  induction l generalizing s with
  | nil => rfl
  | cons x r ih => simp [List.foldl_cons, ih, h]

/-- The state a step's outcome carries, `d` where it carries none. -/
def StepOut.st (d : State) : StepOut → State
  | .flags s _ _ => s
  | .hard s _ _ => s
  | .fault _ _ => d
  | .park s _ _ => s
  | .wait s _ _ => s
  | .gone s => s
  | .notYet => d
@[simp] theorem StepOut.st_flags (d : State) (s : State) (c : Cmd) (u : BitVec 4) : StepOut.st d (.flags s c u) = s := rfl
@[simp] theorem StepOut.st_hard (d : State) (s : State) (c : Cmd) (st : Nat) : StepOut.st d (.hard s c st) = s := rfl
@[simp] theorem StepOut.st_fault (d : State) (k x : Nat) : StepOut.st d (.fault k x) = d := rfl
@[simp] theorem StepOut.st_park (d : State) (s : State) (c : Cmd) (p : Phase) : StepOut.st d (.park s c p) = s := rfl
@[simp] theorem StepOut.st_wait (d : State) (s : State) (c : Cmd) (p : Phase) : StepOut.st d (.wait s c p) = s := rfl
@[simp] theorem StepOut.st_gone (d : State) (s : State) : StepOut.st d (.gone s) = s := rfl
@[simp] theorem StepOut.st_notYet (d : State)  : StepOut.st d (.notYet) = d := rfl

@[simp] theorem State.raise_pending (s : State) (code p1 p2 p3 p4 : Nat) :
    (State.raise s code p1 p2 p3 p4).pending = s.pending := by
  simp (maxDischargeDepth := 8) [State.raise, apply_ite State.pending]

@[simp] theorem State.msix_pending (s : State) (fn vec : Nat) :
    (State.msix s fn vec).pending = s.pending := by
  simp (maxDischargeDepth := 8) [State.msix, apply_ite State.pending]

@[simp] theorem State.cause_pending (s : State) (b : Nat) :
    (State.cause s b).pending = s.pending := by
  simp (maxDischargeDepth := 8) [State.cause, apply_ite State.pending]

@[simp] theorem State.setReady_pending (s : State) (r : Bool) :
    (State.setReady s r).pending = s.pending := by
  simp (maxDischargeDepth := 8) [State.setReady, apply_ite State.pending]

@[simp] theorem State.setPair_pending (s : State) (pstate role : Nat) :
    (State.setPair s pstate role).pending = s.pending := by
  simp (maxDischargeDepth := 8) [State.setPair, apply_ite State.pending]

@[simp] theorem State.setTimeState_pending (s : State) (t : Nat) :
    (State.setTimeState s t).pending = s.pending := by
  simp (maxDischargeDepth := 8) [State.setTimeState, apply_ite State.pending]

@[simp] theorem State.violation_pending (s : State) (code fn : Nat) (q : Option Nat) (p3 p4 : Nat) :
    (State.violation s code fn q p3 p4).pending = s.pending := by
  simp (maxDischargeDepth := 8) [State.violation, apply_ite State.pending]

@[simp] theorem State.mpuFault_pending (s : State) (unit cause kind : Nat) (user : Bool) (region addr size : Nat) :
    (State.mpuFault s unit cause kind user region addr size).pending = s.pending := by
  simp [State.mpuFault]

@[simp] theorem State.denyWrite_pending (s : State) (w : Writer) (addr size : Nat) :
    (State.denyWrite s w addr size).pending = s.pending := by
  simp [State.denyWrite]

@[simp] theorem State.frame_pending (s : State) (typ : Nat) (last : Bool) (beat : Nat) (payload : Bytes) :
    (State.frame s typ last beat payload).pending = s.pending := by
  simp (maxDischargeDepth := 8) [State.frame, apply_ite State.pending]

@[simp] theorem State.openBeat_pending (s : State) (n : Nat) :
    (State.openBeat s n).pending = s.pending := by
  simp [State.openBeat]

@[simp] theorem State.closeBeat_pending (s : State) :
    (State.closeBeat s).pending = s.pending := by
  unfold State.closeBeat; (repeat' split) <;> simp [*, apply_ite State.pending]

@[simp] theorem State.enter_pending (s : State) (r : BeatRec) :
    (State.enter s r).pending = s.pending := by
  simp (maxDischargeDepth := 8) [State.enter, apply_ite State.pending]

@[simp] theorem State.closeFull_pending (s : State) :
    (State.closeFull s).pending = s.pending := by
  simp (maxDischargeDepth := 8) [State.closeFull, apply_ite State.pending]

@[simp] theorem State.record_pending (s : State) (r : BeatRec) :
    (State.record s r).pending = s.pending := by
  simp [State.record]

@[simp] theorem State.commitWith_pending (s : State) (typ part : Nat) (body : Bytes) (more : List BeatRec) :
    (State.commitWith s typ part body more).pending = s.pending := by
  simp (maxDischargeDepth := 8) [State.commitWith, apply_ite State.pending]

@[simp] theorem State.commit_pending (s : State) (typ part : Nat) (body : Bytes) :
    (State.commit s typ part body).pending = s.pending := by
  simp [State.commit]

@[simp] theorem State.promoteEnd_pending (s : State) :
    (State.promoteEnd s).pending = s.pending := by
  simp (maxDischargeDepth := 8) [State.promoteEnd, apply_ite State.pending]

@[simp] theorem State.ringWrite_pending (s : State) (q : Queue) (tag status flags stamp : Nat) (inline : Bytes) :
    (State.ringWrite s q tag status flags stamp inline).pending = s.pending := by
  simp [State.ringWrite]

@[simp] theorem State.ringComplete_pending (s : State) (more : Bool) (q : Queue) (tag status flags stamp : Nat) (inline : Bytes) :
    (State.ringComplete s more q tag status flags stamp inline).pending = s.pending := by
  simp (maxDischargeDepth := 8) [State.ringComplete, apply_ite State.pending]

@[simp] theorem State.mboxComplete_pending (s : State) (fn tag status flags stamp : Nat) (inline : Bytes) :
    (State.mboxComplete s fn tag status flags stamp inline).pending = s.pending := by
  simp (maxDischargeDepth := 8) [State.mboxComplete, apply_ite State.pending]

@[simp] theorem State.writeReply_pending (s : State) (path : Path) (entry reply : Bytes) :
    (State.writeReply s path entry reply).pending = s.pending := by
  unfold State.writeReply; split <;> simp [*, apply_ite State.pending]

@[simp] theorem State.deliverOne_pending (s : State) (more : Bool) (h : Held) :
    (State.deliverOne s more h).pending = s.pending := by
  simp (maxDischargeDepth := 8) [State.deliverOne, apply_ite State.pending] <;> (repeat' (first | rfl | (split <;> simp [*, apply_ite State.pending])))

@[simp] theorem State.deliver_pending (s : State) (h : Held) :
    (State.deliver s h).pending = s.pending := by
  simp [State.deliver]

@[simp] theorem State.deliverAll_pending (s : State) (l : List Held) : (s.deliverAll l).pending = s.pending := by
  induction l generalizing s with
  | nil => rfl
  | cons h r ih => simp [State.deliverAll, ih]

@[simp] theorem State.refuseEntry_pending (s : State) (path : Path) (fn part : Nat) (entry : Bytes) (status : Nat) :
    (State.refuseEntry s path fn part entry status).pending = s.pending := by
  simp [State.refuseEntry]

@[simp] theorem State.unpin_pending (s : State) (k : KReg) :
    (State.unpin s k).pending = s.pending := by
  unfold State.unpin; split <;> simp [*, apply_ite State.pending]

@[simp] theorem State.endCeremony_pending (s : State) (p : Place) :
    (State.endCeremony s p).pending = s.pending := by
  simp (maxDischargeDepth := 8) [State.endCeremony, apply_ite State.pending]

@[simp] theorem State.release_pending (s : State) (c : Cmd) :
    (State.release s c).pending = s.pending := by
  simp [State.release]

@[simp] theorem State.putDup_pending (s : State) (d : Dup) :
    (State.putDup s d).pending = s.pending := by
  simp [State.putDup]

@[simp] theorem State.noteDup_pending (s : State) (c : Cmd) (inline : Bytes) :
    (State.noteDup s c inline).pending = s.pending := by
  unfold State.noteDup; split <;> simp [*, apply_ite State.pending]

@[simp] theorem State.commitFor_pending (s : State) (c : Cmd) (inline : Bytes) (typ part : Nat) (body : Bytes) :
    (State.commitFor s c inline typ part body).pending = s.pending := by
  unfold State.commitFor; split <;> simp [*, apply_ite State.pending]

@[simp] theorem State.retireWith_pending (s : State) (c : Cmd) (status : Nat) (rf keep : Bool) (reply : Bytes) :
    (State.retireWith s c status rf keep reply).pending = s.pending := by
  simp (maxDischargeDepth := 8) [State.retireWith, apply_ite State.pending]

@[simp] theorem State.retire_pending (s : State) (c : Cmd) (status : Nat) :
    (State.retire s c status).pending = s.pending := by
  simp [State.retire]

@[simp] theorem State.abort_pending (s : State) (c : Cmd) :
    (State.abort s c).pending = s.pending := by
  unfold State.abort; (repeat' split) <;> simp [*, apply_ite State.pending]

@[simp] theorem State.abortWhere_pending (s : State) (p : Cmd → Bool) :
    (State.abortWhere s p).pending = s.pending := by
  simp [State.abortWhere]

@[simp] theorem State.tick_pending (s0 : State) :
    (State.tick s0).pending = s0.pending := by
  simp [State.tick]

@[simp] theorem State.parkExc_pending (s : State) (n k : Nat) (c : Cmd) (a : StepArgs) (kind code : Nat) :
    (State.parkExc s n k c a kind code).pending = s.pending := by
  simp [State.parkExc]

@[simp] theorem State.settle_pending (s : State) (n k : Nat) (a : StepArgs) (c : Cmd) (o : StepOut)
    (h : ∀ d : State, d.pending = s.pending → (o.st d).pending = s.pending) : (s.settle n k a c o).pending = s.pending := by
  have := h s rfl; cases o <;> simp_all [State.settle, StepOut.st]

@[simp] theorem State.lineMiss_pending (s : State) (n : Nat) (c : Cmd) :
    (State.lineMiss s n c).pending = s.pending := by
  simp [State.lineMiss]

@[simp] theorem State.step1_pending (s : State) (n k : Nat) (a : StepArgs) (body : State → Cmd → StepArgs → StepOut)
    (h : ∀ t c a (d : State), d.pending = t.pending → ((body t c a).st d).pending = t.pending) : (s.step1 n k a body).pending = s.pending := by
  unfold State.step1; (repeat' split) <;> simp_all

@[simp] theorem moveBytes_pending (g : Bytes → Bytes → Bytes) (useB : Bool) (s : State) (c : Cmd) (a : StepArgs) (d0 : State) (hd : d0.pending = s.pending) :
    ((moveBytes g useB s c a).st d0).pending = s.pending := by
  unfold moveBytes; (repeat' (first | split | (dsimp only; split))) <;> simp [*, apply_ite State.pending]

@[simp] theorem moveCopyOp_pending (s : State) (c : Cmd) (a : StepArgs) (d0 : State) (hd : d0.pending = s.pending) :
    ((moveCopyOp s c a).st d0).pending = s.pending := by
  unfold moveCopyOp; (repeat' split) <;> simp [*, apply_ite State.pending]

@[simp] theorem moveXorOp_pending (s : State) (c : Cmd) (a : StepArgs) (d0 : State) (hd : d0.pending = s.pending) :
    ((moveXorOp s c a).st d0).pending = s.pending := by
  unfold moveXorOp; (repeat' split) <;> simp [*, apply_ite State.pending]

@[simp] theorem moveAndOp_pending (s : State) (c : Cmd) (a : StepArgs) (d0 : State) (hd : d0.pending = s.pending) :
    ((moveAndOp s c a).st d0).pending = s.pending := by
  unfold moveAndOp; (repeat' split) <;> simp [*, apply_ite State.pending]

@[simp] theorem moveFillOp_pending (s : State) (c : Cmd) (a : StepArgs) (d0 : State) (hd : d0.pending = s.pending) :
    ((moveFillOp s c a).st d0).pending = s.pending := by
  unfold moveFillOp; (repeat' split) <;> simp [*, apply_ite State.pending]

@[simp] theorem moveLoadvOp_pending (s : State) (c : Cmd) (a : StepArgs) (d0 : State) (hd : d0.pending = s.pending) :
    ((moveLoadvOp s c a).st d0).pending = s.pending := by
  simp [moveLoadvOp]

@[simp] theorem moveGetvOp_pending (s : State) (c : Cmd) (a : StepArgs) (d0 : State) (hd : d0.pending = s.pending) :
    ((moveGetvOp s c a).st d0).pending = s.pending := by
  unfold moveGetvOp; (repeat' split) <;> simp [*, apply_ite State.pending]

@[simp] theorem movePutvOp_pending (s : State) (c : Cmd) (a : StepArgs) (d0 : State) (hd : d0.pending = s.pending) :
    ((movePutvOp s c a).st d0).pending = s.pending := by
  unfold movePutvOp; (repeat' split) <;> simp [*, apply_ite State.pending]

@[simp] theorem moveAddvOp_pending (s : State) (c : Cmd) (a : StepArgs) (d0 : State) (hd : d0.pending = s.pending) :
    ((moveAddvOp s c a).st d0).pending = s.pending := by
  simp [moveAddvOp]

@[simp] theorem moveSetfOp_pending (s : State) (c : Cmd) (a : StepArgs) (d0 : State) (hd : d0.pending = s.pending) :
    ((moveSetfOp s c a).st d0).pending = s.pending := by
  simp [moveSetfOp]

@[simp] theorem cmpBytes_pending (g : Bytes → Bytes → BitVec 4) (s : State) (c : Cmd) (a : StepArgs) (d0 : State) (hd : d0.pending = s.pending) :
    ((cmpBytes g s c a).st d0).pending = s.pending := by
  unfold cmpBytes; (repeat' split) <;> simp [*, apply_ite State.pending]

@[simp] theorem cmpEqCtOp_pending (s : State) (c : Cmd) (a : StepArgs) (d0 : State) (hd : d0.pending = s.pending) :
    ((cmpEqCtOp s c a).st d0).pending = s.pending := by
  unfold cmpEqCtOp; (repeat' split) <;> simp [*, apply_ite State.pending]

@[simp] theorem cmpMagOp_pending (s : State) (c : Cmd) (a : StepArgs) (d0 : State) (hd : d0.pending = s.pending) :
    ((cmpMagOp s c a).st d0).pending = s.pending := by
  unfold cmpMagOp; (repeat' split) <;> simp [*, apply_ite State.pending]

@[simp] theorem cmpTestvOp_pending (s : State) (c : Cmd) (a : StepArgs) (d0 : State) (hd : d0.pending = s.pending) :
    ((cmpTestvOp s c a).st d0).pending = s.pending := by
  simp [cmpTestvOp]

@[simp] theorem cmpCmpvOp_pending (s : State) (c : Cmd) (a : StepArgs) (d0 : State) (hd : d0.pending = s.pending) :
    ((cmpCmpvOp s c a).st d0).pending = s.pending := by
  simp [cmpCmpvOp]

@[simp] theorem cmpRangevOp_pending (s : State) (c : Cmd) (a : StepArgs) (d0 : State) (hd : d0.pending = s.pending) :
    ((cmpRangevOp s c a).st d0).pending = s.pending := by
  simp [cmpRangevOp]

@[simp] theorem doneRetireOp_pending (s : State) (c : Cmd) (a : StepArgs) (d0 : State) (hd : d0.pending = s.pending) :
    ((doneRetireOp s c a).st d0).pending = s.pending := by
  unfold doneRetireOp; (repeat' (first | split | (dsimp only; split))) <;> simp [*, apply_ite State.pending]

@[simp] theorem excServiceOp_pending (x1 : State) (c : Cmd) (a : StepArgs) (d0 : State) (hd : d0.pending = x1.pending) :
    ((excServiceOp x1 c a).st d0).pending = x1.pending := by
  unfold excServiceOp; split <;> simp [*, apply_ite State.pending]

@[simp] theorem State.cacheLine_pending (s : State) (n : Nat) (l : CacheLine) :
    (State.cacheLine s n l).pending = s.pending := by
  simp [State.cacheLine]

@[simp] theorem stepCacheFill_pending (n k : Nat) (ecc : Bool) (s : State) :
    (stepCacheFill n k ecc s).pending = s.pending := by
  unfold stepCacheFill; (repeat' split) <;> simp [*, apply_ite State.pending]

@[simp] theorem trdWrite_pending (w : Writer) (n off : Nat) (s : State) (f : State → State) (hf : ∀ z0, (f z0).pending = z0.pending) :
    (trdWrite w n off s f).pending = s.pending := by
  unfold trdWrite; split <;> simp [*, apply_ite State.pending]

@[simp] theorem trdResume_pending (n value : Nat) (s : State) :
    (trdResume n value s).pending = s.pending := by
  unfold trdResume; dsimp only; split <;> simp [*, apply_ite State.pending]

/-! ## The RAM -/

@[simp] theorem foldl_mem {α : Type} (f : State → α → State) (l : List α) (s : State) (h : ∀ t x, (f t x).mem = t.mem) :
    (l.foldl f s).mem = s.mem := by
  induction l generalizing s with
  | nil => rfl
  | cons x r ih => simp [List.foldl_cons, ih, h]

@[simp] theorem State.raise_mem (s : State) (code p1 p2 p3 p4 : Nat) :
    (State.raise s code p1 p2 p3 p4).mem = s.mem := by
  simp (maxDischargeDepth := 8) [State.raise, apply_ite State.mem]

@[simp] theorem State.msix_mem (s : State) (fn vec : Nat) :
    (State.msix s fn vec).mem = s.mem := by
  simp (maxDischargeDepth := 8) [State.msix, apply_ite State.mem]

@[simp] theorem State.cause_mem (s : State) (b : Nat) :
    (State.cause s b).mem = s.mem := by
  simp (maxDischargeDepth := 8) [State.cause, apply_ite State.mem]

@[simp] theorem State.setReady_mem (s : State) (r : Bool) :
    (State.setReady s r).mem = s.mem := by
  simp (maxDischargeDepth := 8) [State.setReady, apply_ite State.mem]

@[simp] theorem State.setPair_mem (s : State) (pstate role : Nat) :
    (State.setPair s pstate role).mem = s.mem := by
  simp (maxDischargeDepth := 8) [State.setPair, apply_ite State.mem]

@[simp] theorem State.setTimeState_mem (s : State) (t : Nat) :
    (State.setTimeState s t).mem = s.mem := by
  simp (maxDischargeDepth := 8) [State.setTimeState, apply_ite State.mem]

@[simp] theorem State.violation_mem (s : State) (code fn : Nat) (q : Option Nat) (p3 p4 : Nat) :
    (State.violation s code fn q p3 p4).mem = s.mem := by
  simp (maxDischargeDepth := 8) [State.violation, apply_ite State.mem]

@[simp] theorem State.mpuFault_mem (s : State) (unit cause kind : Nat) (user : Bool) (region addr size : Nat) :
    (State.mpuFault s unit cause kind user region addr size).mem = s.mem := by
  simp [State.mpuFault]

@[simp] theorem State.denyWrite_mem (s : State) (w : Writer) (addr size : Nat) :
    (State.denyWrite s w addr size).mem = s.mem := by
  simp [State.denyWrite]

@[simp] theorem State.frame_mem (s : State) (typ : Nat) (last : Bool) (beat : Nat) (payload : Bytes) :
    (State.frame s typ last beat payload).mem = s.mem := by
  simp (maxDischargeDepth := 8) [State.frame, apply_ite State.mem]

@[simp] theorem State.openBeat_mem (s : State) (n : Nat) :
    (State.openBeat s n).mem = s.mem := by
  simp [State.openBeat]

@[simp] theorem State.closeBeat_mem (s : State) :
    (State.closeBeat s).mem = s.mem := by
  unfold State.closeBeat; (repeat' split) <;> simp [*, apply_ite State.mem]

@[simp] theorem State.enter_mem (s : State) (r : BeatRec) :
    (State.enter s r).mem = s.mem := by
  simp (maxDischargeDepth := 8) [State.enter, apply_ite State.mem]

@[simp] theorem State.closeFull_mem (s : State) :
    (State.closeFull s).mem = s.mem := by
  simp (maxDischargeDepth := 8) [State.closeFull, apply_ite State.mem]

@[simp] theorem State.record_mem (s : State) (r : BeatRec) :
    (State.record s r).mem = s.mem := by
  simp [State.record]

@[simp] theorem State.commitWith_mem (s : State) (typ part : Nat) (body : Bytes) (more : List BeatRec) :
    (State.commitWith s typ part body more).mem = s.mem := by
  simp (maxDischargeDepth := 8) [State.commitWith, apply_ite State.mem]

@[simp] theorem State.commit_mem (s : State) (typ part : Nat) (body : Bytes) :
    (State.commit s typ part body).mem = s.mem := by
  simp [State.commit]

@[simp] theorem State.promoteEnd_mem (s : State) :
    (State.promoteEnd s).mem = s.mem := by
  simp (maxDischargeDepth := 8) [State.promoteEnd, apply_ite State.mem]

@[simp] theorem State.ringWrite_mem (s : State) (q : Queue) (tag status flags stamp : Nat) (inline : Bytes) :
    (State.ringWrite s q tag status flags stamp inline).mem = s.mem := by
  simp [State.ringWrite]

@[simp] theorem State.ringComplete_mem (s : State) (more : Bool) (q : Queue) (tag status flags stamp : Nat) (inline : Bytes) :
    (State.ringComplete s more q tag status flags stamp inline).mem = s.mem := by
  simp (maxDischargeDepth := 8) [State.ringComplete, apply_ite State.mem]

@[simp] theorem State.mboxComplete_mem (s : State) (fn tag status flags stamp : Nat) (inline : Bytes) :
    (State.mboxComplete s fn tag status flags stamp inline).mem = s.mem := by
  simp (maxDischargeDepth := 8) [State.mboxComplete, apply_ite State.mem]

@[simp] theorem State.writeReply_mem (s : State) (path : Path) (entry reply : Bytes) :
    (State.writeReply s path entry reply).mem = s.mem := by
  unfold State.writeReply; split <;> simp [*, apply_ite State.mem]

@[simp] theorem State.deliverOne_mem (s : State) (more : Bool) (h : Held) :
    (State.deliverOne s more h).mem = s.mem := by
  simp (maxDischargeDepth := 8) [State.deliverOne, apply_ite State.mem] <;> (repeat' (first | rfl | (split <;> simp [*, apply_ite State.mem])))

@[simp] theorem State.deliver_mem (s : State) (h : Held) :
    (State.deliver s h).mem = s.mem := by
  simp [State.deliver]

@[simp] theorem State.deliverAll_mem (s : State) (l : List Held) : (s.deliverAll l).mem = s.mem := by
  induction l generalizing s with
  | nil => rfl
  | cons h r ih => simp [State.deliverAll, ih]

@[simp] theorem State.refuseEntry_mem (s : State) (path : Path) (fn part : Nat) (entry : Bytes) (status : Nat) :
    (State.refuseEntry s path fn part entry status).mem = s.mem := by
  simp [State.refuseEntry]

@[simp] theorem State.unpin_mem (s : State) (k : KReg) :
    (State.unpin s k).mem = s.mem := by
  unfold State.unpin; split <;> simp [*, apply_ite State.mem]

@[simp] theorem State.endCeremony_mem (s : State) (p : Place) :
    (State.endCeremony s p).mem = s.mem := by
  simp (maxDischargeDepth := 8) [State.endCeremony, apply_ite State.mem]

@[simp] theorem State.release_mem (s : State) (c : Cmd) :
    (State.release s c).mem = s.mem := by
  simp [State.release]

@[simp] theorem State.putDup_mem (s : State) (d : Dup) :
    (State.putDup s d).mem = s.mem := by
  simp [State.putDup]

@[simp] theorem State.noteDup_mem (s : State) (c : Cmd) (inline : Bytes) :
    (State.noteDup s c inline).mem = s.mem := by
  unfold State.noteDup; split <;> simp [*, apply_ite State.mem]

@[simp] theorem State.commitFor_mem (s : State) (c : Cmd) (inline : Bytes) (typ part : Nat) (body : Bytes) :
    (State.commitFor s c inline typ part body).mem = s.mem := by
  unfold State.commitFor; split <;> simp [*, apply_ite State.mem]

@[simp] theorem State.retireWith_mem (s : State) (c : Cmd) (status : Nat) (rf keep : Bool) (reply : Bytes) :
    (State.retireWith s c status rf keep reply).mem = s.mem := by
  simp (maxDischargeDepth := 8) [State.retireWith, apply_ite State.mem]

@[simp] theorem State.retire_mem (s : State) (c : Cmd) (status : Nat) :
    (State.retire s c status).mem = s.mem := by
  simp [State.retire]

@[simp] theorem State.abort_mem (s : State) (c : Cmd) :
    (State.abort s c).mem = s.mem := by
  unfold State.abort; (repeat' split) <;> simp [*, apply_ite State.mem]

@[simp] theorem State.abortWhere_mem (s : State) (p : Cmd → Bool) :
    (State.abortWhere s p).mem = s.mem := by
  simp [State.abortWhere]

@[simp] theorem State.tick_mem (s0 : State) :
    (State.tick s0).mem = s0.mem := by
  simp [State.tick]

@[simp] theorem State.parkExc_mem (s : State) (n k : Nat) (c : Cmd) (a : StepArgs) (kind code : Nat) :
    (State.parkExc s n k c a kind code).mem = s.mem := by
  simp [State.parkExc]

@[simp] theorem State.settle_mem (s : State) (n k : Nat) (a : StepArgs) (c : Cmd) (o : StepOut)
    (h : ∀ d : State, d.mem = s.mem → (o.st d).mem = s.mem) : (s.settle n k a c o).mem = s.mem := by
  have := h s rfl; cases o <;> simp_all [State.settle, StepOut.st]

@[simp] theorem State.lineMiss_mem (s : State) (n : Nat) (c : Cmd) :
    (State.lineMiss s n c).mem = s.mem := by
  simp [State.lineMiss]

@[simp] theorem State.step1_mem (s : State) (n k : Nat) (a : StepArgs) (body : State → Cmd → StepArgs → StepOut)
    (h : ∀ t c a (d : State), d.mem = t.mem → ((body t c a).st d).mem = t.mem) : (s.step1 n k a body).mem = s.mem := by
  unfold State.step1; (repeat' split) <;> simp_all

@[simp] theorem moveBytes_mem (g : Bytes → Bytes → Bytes) (useB : Bool) (s : State) (c : Cmd) (a : StepArgs) (d0 : State) (hd : d0.mem = s.mem) :
    ((moveBytes g useB s c a).st d0).mem = s.mem := by
  unfold moveBytes; (repeat' (first | split | (dsimp only; split))) <;> simp [*, apply_ite State.mem]

@[simp] theorem moveCopyOp_mem (s : State) (c : Cmd) (a : StepArgs) (d0 : State) (hd : d0.mem = s.mem) :
    ((moveCopyOp s c a).st d0).mem = s.mem := by
  unfold moveCopyOp; (repeat' split) <;> simp [*, apply_ite State.mem]

@[simp] theorem moveXorOp_mem (s : State) (c : Cmd) (a : StepArgs) (d0 : State) (hd : d0.mem = s.mem) :
    ((moveXorOp s c a).st d0).mem = s.mem := by
  unfold moveXorOp; (repeat' split) <;> simp [*, apply_ite State.mem]

@[simp] theorem moveAndOp_mem (s : State) (c : Cmd) (a : StepArgs) (d0 : State) (hd : d0.mem = s.mem) :
    ((moveAndOp s c a).st d0).mem = s.mem := by
  unfold moveAndOp; (repeat' split) <;> simp [*, apply_ite State.mem]

@[simp] theorem moveFillOp_mem (s : State) (c : Cmd) (a : StepArgs) (d0 : State) (hd : d0.mem = s.mem) :
    ((moveFillOp s c a).st d0).mem = s.mem := by
  unfold moveFillOp; (repeat' split) <;> simp [*, apply_ite State.mem]

@[simp] theorem moveLoadvOp_mem (s : State) (c : Cmd) (a : StepArgs) (d0 : State) (hd : d0.mem = s.mem) :
    ((moveLoadvOp s c a).st d0).mem = s.mem := by
  simp [moveLoadvOp]

@[simp] theorem moveGetvOp_mem (s : State) (c : Cmd) (a : StepArgs) (d0 : State) (hd : d0.mem = s.mem) :
    ((moveGetvOp s c a).st d0).mem = s.mem := by
  unfold moveGetvOp; (repeat' split) <;> simp [*, apply_ite State.mem]

@[simp] theorem movePutvOp_mem (s : State) (c : Cmd) (a : StepArgs) (d0 : State) (hd : d0.mem = s.mem) :
    ((movePutvOp s c a).st d0).mem = s.mem := by
  unfold movePutvOp; (repeat' split) <;> simp [*, apply_ite State.mem]

@[simp] theorem moveAddvOp_mem (s : State) (c : Cmd) (a : StepArgs) (d0 : State) (hd : d0.mem = s.mem) :
    ((moveAddvOp s c a).st d0).mem = s.mem := by
  simp [moveAddvOp]

@[simp] theorem moveSetfOp_mem (s : State) (c : Cmd) (a : StepArgs) (d0 : State) (hd : d0.mem = s.mem) :
    ((moveSetfOp s c a).st d0).mem = s.mem := by
  simp [moveSetfOp]

@[simp] theorem cmpBytes_mem (g : Bytes → Bytes → BitVec 4) (s : State) (c : Cmd) (a : StepArgs) (d0 : State) (hd : d0.mem = s.mem) :
    ((cmpBytes g s c a).st d0).mem = s.mem := by
  unfold cmpBytes; (repeat' split) <;> simp [*, apply_ite State.mem]

@[simp] theorem cmpEqCtOp_mem (s : State) (c : Cmd) (a : StepArgs) (d0 : State) (hd : d0.mem = s.mem) :
    ((cmpEqCtOp s c a).st d0).mem = s.mem := by
  unfold cmpEqCtOp; (repeat' split) <;> simp [*, apply_ite State.mem]

@[simp] theorem cmpMagOp_mem (s : State) (c : Cmd) (a : StepArgs) (d0 : State) (hd : d0.mem = s.mem) :
    ((cmpMagOp s c a).st d0).mem = s.mem := by
  unfold cmpMagOp; (repeat' split) <;> simp [*, apply_ite State.mem]

@[simp] theorem cmpTestvOp_mem (s : State) (c : Cmd) (a : StepArgs) (d0 : State) (hd : d0.mem = s.mem) :
    ((cmpTestvOp s c a).st d0).mem = s.mem := by
  simp [cmpTestvOp]

@[simp] theorem cmpCmpvOp_mem (s : State) (c : Cmd) (a : StepArgs) (d0 : State) (hd : d0.mem = s.mem) :
    ((cmpCmpvOp s c a).st d0).mem = s.mem := by
  simp [cmpCmpvOp]

@[simp] theorem cmpRangevOp_mem (s : State) (c : Cmd) (a : StepArgs) (d0 : State) (hd : d0.mem = s.mem) :
    ((cmpRangevOp s c a).st d0).mem = s.mem := by
  simp [cmpRangevOp]

@[simp] theorem doneRetireOp_mem (s : State) (c : Cmd) (a : StepArgs) (d0 : State) (hd : d0.mem = s.mem) :
    ((doneRetireOp s c a).st d0).mem = s.mem := by
  unfold doneRetireOp; (repeat' (first | split | (dsimp only; split))) <;> simp [*, apply_ite State.mem]

@[simp] theorem excServiceOp_mem (x1 : State) (c : Cmd) (a : StepArgs) (d0 : State) (hd : d0.mem = x1.mem) :
    ((excServiceOp x1 c a).st d0).mem = x1.mem := by
  unfold excServiceOp; split <;> simp [*, apply_ite State.mem]

@[simp] theorem State.cacheLine_mem (s : State) (n : Nat) (l : CacheLine) :
    (State.cacheLine s n l).mem = s.mem := by
  simp [State.cacheLine]

@[simp] theorem stepCacheFill_mem (n k : Nat) (ecc : Bool) (s : State) :
    (stepCacheFill n k ecc s).mem = s.mem := by
  unfold stepCacheFill; (repeat' split) <;> simp [*, apply_ite State.mem]

@[simp] theorem trdWrite_mem (w : Writer) (n off : Nat) (s : State) (f : State → State) (hf : ∀ z0, (f z0).mem = z0.mem) :
    (trdWrite w n off s f).mem = s.mem := by
  unfold trdWrite; split <;> simp [*, apply_ite State.mem]

@[simp] theorem trdResume_mem (n value : Nat) (s : State) :
    (trdResume n value s).mem = s.mem := by
  unfold trdResume; dsimp only; split <;> simp [*, apply_ite State.mem]

end Sys2Proof.Machine
end

