-- ==== Sys2Proof/Laws/KeepsHost.lean ====
section
/-! SUPPORT. What the operations of Vendor, Sched and Host leave alone: a lemma ending in `_pending` says that the
queue of waiting commands stays as it was, one ending in `_mem` that the RAM of the internal map does. -/

set_option linter.all false

namespace Sys2Proof.Machine

open Sys2Proof

/-! ## The queue -/

@[simp] theorem idemCheck_pending (s : State) (c : Cmd) (d : DirEnt) : (idemCheck s c d).pending = s.pending := by
  unfold idemCheck
  generalize (d.commits && c.idem != 0 && dupFullYoung s) = b
  cases dupRecord s c with
  | some r => simp [apply_ite State.pending]
  | none => cases b <;> cases stewardHold s c d <;> simp

@[simp] theorem admitRest_pending (s : State) (c : Cmd) (d : DirEnt) :
    (admitRest s c d).pending = s.pending := by
  unfold admitRest; split <;> simp [*, apply_ite State.pending]

@[simp] theorem noteReserved_pending (s : State) (c : Cmd) :
    (noteReserved s c).pending = s.pending := by
  simp (maxDischargeDepth := 8) [noteReserved, apply_ite State.pending]

@[simp] theorem admitChecks_pending (s : State) (c : Cmd) :
    (admitChecks s c).pending = s.pending := by
  unfold admitChecks; split <;> simp [*, apply_ite State.pending]

@[simp] theorem admitEntry_pending (s : State) (p : Place) (path : Path) (fn part : Nat) (entry : Bytes) :
    (admitEntry s p path fn part entry).pending = s.pending := by
  simp [admitEntry]

@[simp] theorem admitMbx_pending (s : State) (m : Mbx) :
    (admitMbx s m).pending = s.pending := by
  simp (maxDischargeDepth := 8) [admitMbx, apply_ite State.pending] <;> (repeat' (first | rfl | (split <;> simp [*, apply_ite State.pending])))

@[simp] theorem admitFetched_pending (s : State) (e : Fetched) :
    (admitFetched s e).pending = s.pending := by
  unfold admitFetched; split <;> simp [*, apply_ite State.pending]

@[simp] theorem schedAdmit_pending (s0 : State) :
    (schedAdmit s0).pending = s0.pending := by
  unfold schedAdmit; (repeat' (first | split | (dsimp only; split))) <;> simp [*, apply_ite State.pending]

@[simp] theorem extDataFetched_pending (p : Place) (data : Bytes) (s : State) :
    (extDataFetched p data s).pending = s.pending := by
  unfold extDataFetched; (repeat' split) <;> simp [*, apply_ite State.pending]

@[simp] theorem State.tryFetch_pending (s : State) (qid : Nat) :
    (State.tryFetch s qid).pending = s.pending := by
  unfold State.tryFetch; split <;> simp [*, apply_ite State.pending]

@[simp] theorem State.tryErr_pending (s : State) (qid : Nat) :
    (State.tryErr s qid).pending = s.pending := by
  unfold State.tryErr; split <;> simp [*, apply_ite State.pending]

@[simp] theorem State.tryCancelled_pending (s : State) (qid k : Nat) : (s.tryCancelled qid k).pending = s.pending := by
  induction k generalizing s with
  | zero => rfl
  | succ k ih => unfold State.tryCancelled; (repeat' split) <;> simp [ih]

@[simp] theorem State.slotFree_pending (s : State) (qid : Nat) :
    (State.slotFree s qid).pending = s.pending := by
  simp [State.slotFree]

@[simp] theorem writeSqTail_pending (s : State) (q : Queue) (fn off v p4 : Nat) :
    (writeSqTail s q fn off v p4).pending = s.pending := by
  simp (maxDischargeDepth := 8) [writeSqTail, apply_ite State.pending]

@[simp] theorem writeCqHead_pending (s : State) (q : Queue) (fn off v p4 : Nat) :
    (writeCqHead s q fn off v p4).pending = s.pending := by
  simp (maxDischargeDepth := 8) [writeCqHead, apply_ite State.pending]

@[simp] theorem doorbell_pending (fn off size value : Nat) (s : State) :
    (doorbell fn off size value s).pending = s.pending := by
  simp (maxDischargeDepth := 8) [doorbell, apply_ite State.pending] <;> (repeat' (first | rfl | (split <;> simp [*, apply_ite State.pending])))

@[simp] theorem sqEntryFetched_pending (qid : Nat) (entries : List Bytes) (s : State) :
    (sqEntryFetched qid entries s).pending = s.pending := by
  unfold sqEntryFetched; split <;> simp [*, apply_ite State.pending]

@[simp] theorem ringFailed_pending (qid : Nat) (s : State) :
    (ringFailed qid s).pending = s.pending := by
  unfold ringFailed; split <;> simp [*, apply_ite State.pending]

@[simp] theorem readFailed_pending (p : Place) (addr : Nat) (s : State) :
    (readFailed p addr s).pending = s.pending := by
  unfold readFailed; (repeat' split) <;> simp [*, apply_ite State.pending]

@[simp] theorem State.mirrorQueue_pending (s : State) (qid : Nat) :
    (State.mirrorQueue s qid).pending = s.pending := by
  unfold State.mirrorQueue; split <;> simp [*, apply_ite State.pending]

@[simp] theorem State.unbind_pending (s : State) (qid : Nat) :
    (State.unbind s qid).pending = s.pending := by
  simp [State.unbind]

@[simp] theorem State.dropQueue_pending (s : State) (qid : Nat) :
    (State.dropQueue s qid).pending = s.pending := by
  unfold State.dropQueue; dsimp only; split <;> simp [*, apply_ite State.pending]

@[simp] theorem writeRefused_pending (p : Path) (addr : Nat) (s : State) :
    (writeRefused p addr s).pending = s.pending := by
  unfold writeRefused; (repeat' split) <;> simp [*, apply_ite State.pending]

@[simp] theorem keyBlockPointerRead_pending (p : Place) (ref : Nat) (data : Bytes) (s : State) :
    (keyBlockPointerRead p ref data s).pending = s.pending := by
  unfold keyBlockPointerRead; (repeat' split) <;> simp [*, apply_ite State.pending]

@[simp] theorem mbxStart_pending (fn : Nat) (m : Mbx) (s : State) :
    (mbxStart fn m s).pending = s.pending := by
  simp (maxDischargeDepth := 8) [mbxStart, apply_ite State.pending]

@[simp] theorem mbxAck_pending (fn : Nat) (s : State) :
    (mbxAck fn s).pending = s.pending := by
  simp (maxDischargeDepth := 8) [mbxAck, apply_ite State.pending]

@[simp] theorem mbxCtrl_pending (fn value : Nat) (s : State) :
    (mbxCtrl fn value s).pending = s.pending := by
  simp (maxDischargeDepth := 8) [mbxCtrl, apply_ite State.pending]

@[simp] theorem d0Return_pending (fn : Nat) (s : State) :
    (d0Return fn s).pending = s.pending := by
  simp [d0Return]

@[simp] theorem State.resetVf_pending (s : State) (fn : Nat) :
    (State.resetVf s fn).pending = s.pending := by
  simp [State.resetVf]

@[simp] theorem vfEnableClear_pending (s : State) :
    (vfEnableClear s).pending = s.pending := by
  simp [vfEnableClear]

@[simp] theorem cfgRequest_pending (r : CfgReq) (s : State) :
    (cfgRequest r s).pending = s.pending := by
  unfold cfgRequest; (repeat' split) <;> simp [*, apply_ite State.pending]

/-! ## The RAM -/

@[simp] theorem idemCheck_mem (s : State) (c : Cmd) (d : DirEnt) : (idemCheck s c d).mem = s.mem := by
  unfold idemCheck
  generalize (d.commits && c.idem != 0 && dupFullYoung s) = b
  cases dupRecord s c with
  | some r => simp [apply_ite State.mem]
  | none => cases b <;> cases stewardHold s c d <;> simp

@[simp] theorem admitRest_mem (s : State) (c : Cmd) (d : DirEnt) :
    (admitRest s c d).mem = s.mem := by
  unfold admitRest; split <;> simp [*, apply_ite State.mem]

@[simp] theorem noteReserved_mem (s : State) (c : Cmd) :
    (noteReserved s c).mem = s.mem := by
  simp (maxDischargeDepth := 8) [noteReserved, apply_ite State.mem]

@[simp] theorem admitChecks_mem (s : State) (c : Cmd) :
    (admitChecks s c).mem = s.mem := by
  unfold admitChecks; split <;> simp [*, apply_ite State.mem]

@[simp] theorem admitEntry_mem (s : State) (p : Place) (path : Path) (fn part : Nat) (entry : Bytes) :
    (admitEntry s p path fn part entry).mem = s.mem := by
  simp [admitEntry]

@[simp] theorem admitMbx_mem (s : State) (m : Mbx) :
    (admitMbx s m).mem = s.mem := by
  simp (maxDischargeDepth := 8) [admitMbx, apply_ite State.mem] <;> (repeat' (first | rfl | (split <;> simp [*, apply_ite State.mem])))

@[simp] theorem admitFetched_mem (s : State) (e : Fetched) :
    (admitFetched s e).mem = s.mem := by
  unfold admitFetched; split <;> simp [*, apply_ite State.mem]

@[simp] theorem schedAdmit_mem (s0 : State) :
    (schedAdmit s0).mem = s0.mem := by
  unfold schedAdmit; (repeat' (first | split | (dsimp only; split))) <;> simp [*, apply_ite State.mem]

@[simp] theorem extDataFetched_mem (p : Place) (data : Bytes) (s : State) :
    (extDataFetched p data s).mem = s.mem := by
  unfold extDataFetched; (repeat' split) <;> simp [*, apply_ite State.mem]

@[simp] theorem State.tryFetch_mem (s : State) (qid : Nat) :
    (State.tryFetch s qid).mem = s.mem := by
  unfold State.tryFetch; split <;> simp [*, apply_ite State.mem]

@[simp] theorem State.tryErr_mem (s : State) (qid : Nat) :
    (State.tryErr s qid).mem = s.mem := by
  unfold State.tryErr; split <;> simp [*, apply_ite State.mem]

@[simp] theorem State.tryCancelled_mem (s : State) (qid k : Nat) : (s.tryCancelled qid k).mem = s.mem := by
  induction k generalizing s with
  | zero => rfl
  | succ k ih => unfold State.tryCancelled; (repeat' split) <;> simp [ih]

@[simp] theorem State.slotFree_mem (s : State) (qid : Nat) :
    (State.slotFree s qid).mem = s.mem := by
  simp [State.slotFree]

@[simp] theorem writeSqTail_mem (s : State) (q : Queue) (fn off v p4 : Nat) :
    (writeSqTail s q fn off v p4).mem = s.mem := by
  simp (maxDischargeDepth := 8) [writeSqTail, apply_ite State.mem]

@[simp] theorem writeCqHead_mem (s : State) (q : Queue) (fn off v p4 : Nat) :
    (writeCqHead s q fn off v p4).mem = s.mem := by
  simp (maxDischargeDepth := 8) [writeCqHead, apply_ite State.mem]

@[simp] theorem doorbell_mem (fn off size value : Nat) (s : State) :
    (doorbell fn off size value s).mem = s.mem := by
  simp (maxDischargeDepth := 8) [doorbell, apply_ite State.mem] <;> (repeat' (first | rfl | (split <;> simp [*, apply_ite State.mem])))

@[simp] theorem sqEntryFetched_mem (qid : Nat) (entries : List Bytes) (s : State) :
    (sqEntryFetched qid entries s).mem = s.mem := by
  unfold sqEntryFetched; split <;> simp [*, apply_ite State.mem]

@[simp] theorem ringFailed_mem (qid : Nat) (s : State) :
    (ringFailed qid s).mem = s.mem := by
  unfold ringFailed; split <;> simp [*, apply_ite State.mem]

@[simp] theorem readFailed_mem (p : Place) (addr : Nat) (s : State) :
    (readFailed p addr s).mem = s.mem := by
  unfold readFailed; (repeat' split) <;> simp [*, apply_ite State.mem]

@[simp] theorem State.mirrorQueue_mem (s : State) (qid : Nat) :
    (State.mirrorQueue s qid).mem = s.mem := by
  unfold State.mirrorQueue; split <;> simp [*, apply_ite State.mem]

@[simp] theorem State.unbind_mem (s : State) (qid : Nat) :
    (State.unbind s qid).mem = s.mem := by
  simp [State.unbind]

@[simp] theorem State.dropQueue_mem (s : State) (qid : Nat) :
    (State.dropQueue s qid).mem = s.mem := by
  unfold State.dropQueue; dsimp only; split <;> simp [*, apply_ite State.mem]

@[simp] theorem writeRefused_mem (p : Path) (addr : Nat) (s : State) :
    (writeRefused p addr s).mem = s.mem := by
  unfold writeRefused; (repeat' split) <;> simp [*, apply_ite State.mem]

@[simp] theorem keyBlockPointerRead_mem (p : Place) (ref : Nat) (data : Bytes) (s : State) :
    (keyBlockPointerRead p ref data s).mem = s.mem := by
  unfold keyBlockPointerRead; (repeat' split) <;> simp [*, apply_ite State.mem]

@[simp] theorem mbxStart_mem (fn : Nat) (m : Mbx) (s : State) :
    (mbxStart fn m s).mem = s.mem := by
  simp (maxDischargeDepth := 8) [mbxStart, apply_ite State.mem]

@[simp] theorem mbxAck_mem (fn : Nat) (s : State) :
    (mbxAck fn s).mem = s.mem := by
  simp (maxDischargeDepth := 8) [mbxAck, apply_ite State.mem]

@[simp] theorem mbxCtrl_mem (fn value : Nat) (s : State) :
    (mbxCtrl fn value s).mem = s.mem := by
  simp (maxDischargeDepth := 8) [mbxCtrl, apply_ite State.mem]

@[simp] theorem d0Return_mem (fn : Nat) (s : State) :
    (d0Return fn s).mem = s.mem := by
  simp [d0Return]

@[simp] theorem State.resetVf_mem (s : State) (fn : Nat) :
    (State.resetVf s fn).mem = s.mem := by
  simp [State.resetVf]

@[simp] theorem vfEnableClear_mem (s : State) :
    (vfEnableClear s).mem = s.mem := by
  simp [vfEnableClear]

@[simp] theorem cfgRequest_mem (r : CfgReq) (s : State) :
    (cfgRequest r s).mem = s.mem := by
  unfold cfgRequest; (repeat' split) <;> simp [*, apply_ite State.mem]

end Sys2Proof.Machine
end

