-- ==== Sys2Proof/Laws/KeepsCache.lean ====
section
/-! SUPPORT. What the operations of Tables, Stones, KeyBlock and KeyCache leave alone: a lemma ending in `_pending` says that the
queue of waiting commands stays as it was, one ending in `_mem` that the RAM of the internal map does. -/

set_option linter.all false

namespace Sys2Proof.Machine

open Sys2Proof

/-! ## The queue -/

/-- The state a lookup's outcome carries, `d` where it carries none. -/
def Got.st (d : State) : Got → State
  | .got s _ _ _ => s
  | .hard s _ _ => s
  | .filling s _ _ _ _ => s
  | .wait s _ _ => s
  | .later => d
@[simp] theorem Got.st_got (d s : State) (c : Cmd) (m l : Bool) : Got.st d (.got s c m l) = s := rfl
@[simp] theorem Got.st_hard (d s : State) (c : Cmd) (st : Nat) : Got.st d (.hard s c st) = s := rfl
@[simp] theorem Got.st_filling (d s : State) (c : Cmd) (b u w : Nat) : Got.st d (.filling s c b u w) = s := rfl
@[simp] theorem Got.st_wait (d s : State) (c : Cmd) (p : Phase) : Got.st d (.wait s c p) = s := rfl
@[simp] theorem Got.st_later (d : State) : Got.st d .later = d := rfl

@[simp] theorem routePanLookupOp_pending (s : State) (c : Cmd) (a : StepArgs) (d0 : State) (hd : d0.pending = s.pending) :
    ((routePanLookupOp s c a).st d0).pending = s.pending := by
  unfold routePanLookupOp; split <;> simp [*, apply_ite State.pending]

@[simp] theorem countPolicy_pending (s : State) :
    (countPolicy s).pending = s.pending := by
  simp [countPolicy]

@[simp] theorem routePolicyLookupOp_pending (s : State) (c : Cmd) (a : StepArgs) (d0 : State) (hd : d0.pending = s.pending) :
    ((routePolicyLookupOp s c a).st d0).pending = s.pending := by
  unfold routePolicyLookupOp; split <;> simp [*, apply_ite State.pending]

@[simp] theorem updateFail_pending (s : State) (c : Cmd) (d idx : Nat) :
    (updateFail s c d idx).pending = s.pending := by
  simp [updateFail]

@[simp] theorem State.mirrorRemovals_pending (s : State) (gone : List Way) :
    (State.mirrorRemovals s gone).pending = s.pending := by
  simp [State.mirrorRemovals]

@[simp] theorem State.walk_pending (s : State) (parts : List Nat) :
    (State.walk s parts).pending = s.pending := by
  simp [State.walk]

@[simp] theorem commitRoutes_pending (s : State) (l : List Route) :
    (commitRoutes s l).pending = s.pending := by
  simp [commitRoutes]

@[simp] theorem commitRules_pending (s : State) (l : List Rule) (parts : List Nat) :
    (commitRules s l parts).pending = s.pending := by
  simp [commitRules]

@[simp] theorem runUpdate_pending (policy : Bool) (s : State) (p : Place) :
    (runUpdate policy s p).pending = s.pending := by
  unfold runUpdate; (repeat' (first | split | (dsimp only; split))) <;> simp [*, apply_ite State.pending]

@[simp] theorem parityCopy_pending (policy : Bool) (s : State) :
    (parityCopy policy s).pending = s.pending := by
  simp (maxDischargeDepth := 8) [parityCopy, apply_ite State.pending]

@[simp] theorem State.modWays_pending (s : State) (p : Way → Bool) (f : Way → Way) :
    (State.modWays s p f).pending = s.pending := by
  simp [State.modWays]

@[simp] theorem State.dropKey_pending (s : State) (h : Way) :
    (State.dropKey s h).pending = s.pending := by
  simp [State.dropKey]

@[simp] theorem flushWay_pending (s : State) (w : Way) :
    (flushWay s w).pending = s.pending := by
  simp (maxDischargeDepth := 8) [flushWay, apply_ite State.pending]

@[simp] theorem State.eccDrop_pending (s : State) (w : Way) (part : Nat) :
    (State.eccDrop s w part).pending = s.pending := by
  simp [State.eccDrop]

theorem evict_pending {s : State} {p b u : Nat} {r : Nat × State} (h : evict s p b u = some r) : r.2.pending = s.pending := by
  unfold evict at h
  dsimp only at h
  split at h
  · simp at h
  · split at h
    all_goals
      simp only [Option.some.injEq] at h
      subst h
      dsimp only
      split <;> simp

@[simp] theorem emptyReg_pending (s : State) (c : Cmd) (reg : Nat) :
    (emptyReg s c reg).1.pending = s.pending := by
  unfold emptyReg; split <;> simp [*, apply_ite State.pending]

@[simp] theorem fillReg_pending (s : State) (c : Cmd) (reg : Nat) (k : KReg) :
    (fillReg s c reg k).1.pending = s.pending := by
  simp [fillReg]

@[simp] theorem State.note_pending (s : State) (n : Option Note) :
    (State.note s n).pending = s.pending := by
  unfold State.note; split <;> simp [*, apply_ite State.pending]

@[simp] theorem State.limitReached_pending (s : State) (handle : Nat) :
    (State.limitReached s handle).pending = s.pending := by
  unfold State.limitReached; split <;> simp [*, apply_ite State.pending]

@[simp] theorem State.enqueue_pending (s : State) (k : CommitKind) (who : Option Place) :
    (State.enqueue s k who).pending = s.pending := by
  simp [State.enqueue]

@[simp] theorem pinWay_pending (s : State) (c : Cmd) (reg : Nat) (named : Bool) (w : Way) (key : KeyInfo) :
    (pinWay s c reg named w key).1.pending = s.pending := by
  simp [pinWay]

@[simp] theorem hitWay_pending (s0 : State) (c : Cmd) (q : Ask) (w : Way) (d0 : State) (hd : d0.pending = s0.pending) :
    ((hitWay s0 c q w).st d0).pending = s0.pending := by
  unfold hitWay; (repeat' (first | split | (dsimp only; split))) <;> simp [*, apply_ite State.pending]

theorem reserveWays_pending {s : State} {c : Cmd} {q : Ask} {t : Bytes} {k : KeyInfo} {r : State × Nat}
    (h : reserveWays s c q t k = .ok r) : r.1.pending = s.pending := by
  unfold reserveWays at h
  dsimp only at h
  split at h
  · simp at h
  · rename_i he
    have h1 := evict_pending he
    split at h
    · split at h
      · simp at h
      · rename_i h2
        have h3 := evict_pending h2
        simp only [Except.ok.injEq] at h
        subst h
        exact h3.trans h1
    · simp only [Except.ok.injEq] at h
      subst h
      exact h1

@[simp] theorem missShadow_pending (s : State) (c : Cmd) (q : Ask) (t : Bytes) (confined : Bool) (d0 : State) (hd : d0.pending = s.pending) :
    ((missShadow s c q t confined).st d0).pending = s.pending := by
  unfold missShadow; (repeat' (first | split | (dsimp only; split))) <;> simp [*, apply_ite State.pending]

@[simp] theorem missKey_pending (s0 : State) (c0 : Cmd) (q : Ask) (t : Bytes) (d0 : State) (hd : d0.pending = s0.pending) :
    ((missKey s0 c0 q t).st d0).pending = s0.pending := by
  unfold missKey
  dsimp only
  split
  · simp [hd]
  · split
    · simp (maxDischargeDepth := 8) [apply_ite State.pending, hd]
    · rename_i h
      have := reserveWays_pending h
      simpa [apply_ite State.pending] using this

@[simp] theorem cacheGet_pending (s0 : State) (c : Cmd) (q : Ask) (d0 : State) (hd : d0.pending = s0.pending) :
    ((cacheGet s0 c q).st d0).pending = s0.pending := by
  unfold cacheGet
  split
  · simp
  · rename_i salt _
    have key : ∀ (s1 : State) (p : Way → Bool) (t : Bytes), s1.pending = s0.pending →
        ((match s1.kc.ways.find? p with
          | some w => if w.filling then Got.wait s1 c (.waitFill w.bank w.bucket w.way) else hitWay s1 c q w
          | none => missKey s1 c q t).st d0).pending = s0.pending := by
      intro s1 p t h1
      split
      · split <;> simp [hd, h1]
      · simp [hd, h1]
    refine key _ _ _ ?_
    split <;> simp

@[simp] theorem Got.nested_st (g : Got) (d : State) : g.nested.st d = g.st d := by cases g <;> rfl

@[simp] theorem getObject_pending (s : State) (c : Cmd) (reg handle usage mask roles : Nat) (cacheOnly isRef : Bool) (d0 : State) (hd : d0.pending = s.pending) :
    ((getObject s c reg handle usage mask roles cacheOnly isRef).st d0).pending = s.pending := by
  unfold getObject; split <;> simp [*, apply_ite State.pending]

@[simp] theorem getHandle_pending (s0 : State) (c : Cmd) (reg h usage mask : Nat) (d0 : State) (hd : d0.pending = s0.pending) :
    ((getHandle s0 c reg h usage mask).st d0).pending = s0.pending := by
  unfold getHandle; (repeat' split) <;> simp [*, apply_ite State.pending]

@[simp] theorem getSeed_pending (s : State) (c : Cmd) (reg : Nat) (d0 : State) (hd : d0.pending = s.pending) :
    ((getSeed s c reg).st d0).pending = s.pending := by
  unfold getSeed; split <;> simp [*, apply_ite State.pending]

@[simp] theorem getDerived_pending (s : State) (c : Cmd) (parent : KReg) (reg : Nat) (rec_ : Bytes) (usage mask : Nat) (cacheOnly isRef : Bool) (d0 : State) (hd : d0.pending = s.pending) :
    ((getDerived s c parent reg rec_ usage mask cacheOnly isRef).st d0).pending = s.pending := by
  unfold getDerived; (repeat' split) <;> simp [*, apply_ite State.pending]

@[simp] theorem getBlock_pending (s : State) (c : Cmd) (wrap : KReg) (reg : Nat) (b : Bytes) (usage mask ref : Nat) (cacheOnly isRef : Bool) (d0 : State) (hd : d0.pending = s.pending) :
    ((getBlock s c wrap reg b usage mask ref cacheOnly isRef).st d0).pending = s.pending := by
  unfold getBlock; split <;> simp [*, apply_ite State.pending]

@[simp] theorem Got.clear_pending (g : Got) (reg : Nat) (d : State) : ((g.clear reg).st d).pending = (g.st d).pending := by
  cases g <;> simp [Got.clear]

@[simp] theorem getType4_pending (s : State) (c : Cmd) (r : KRef) (preg reg usage mask : Nat) (cacheOnly : Bool) (d0 : State)
    (hd : d0.pending = s.pending) : ((getType4 s c r preg reg usage mask cacheOnly).st d0).pending = s.pending := by
  have key : ∀ g : Got, (∀ d : State, d.pending = s.pending → (g.st d).pending = s.pending) →
      ((match g with
        | .got s1 c1 _ _ =>
          match c1.key preg with
          | none => Got.later
          | some p => (getDerived s1 c1 p reg (c1.rd (0x100 + r.len) 32) usage mask cacheOnly true).clear preg
        | o => o.nested).st d0).pending = s.pending := by
    intro g hg
    have := hg d0 hd
    cases g with
    | got s1 c1 m l =>
      have h1 : s1.pending = s.pending := by simpa using this
      dsimp only
      split <;> simp [hd, h1]
    | _ => simpa using this
  unfold getType4
  split
  · simp [hd]
  · apply key
    intro d h
    split
    · simp [h]
    · split <;> simp [h]

@[simp] theorem getSimple_pending (s : State) (c : Cmd) (r : KRef) (preg reg usage mask : Nat) (cacheOnly : Bool) (d0 : State) (hd : d0.pending = s.pending) :
    ((getSimple s c r preg reg usage mask cacheOnly).st d0).pending = s.pending := by
  unfold getSimple; (repeat' split) <;> simp [*, apply_ite State.pending]

@[simp] theorem getWrapped_pending (s : State) (c : Cmd) (i : Nat) (wrap : KReg) (reg usage mask : Nat) (cacheOnly : Bool)
    (d0 : State) (hd : d0.pending = s.pending) : ((getWrapped s c i wrap reg usage mask cacheOnly).st d0).pending = s.pending := by
  unfold getWrapped
  dsimp only
  split
  · simp [hd]
  · split <;> simp [hd]

@[simp] theorem getRef_pending (s : State) (c : Cmd) (i reg usage mask : Nat) (cacheOnly : Bool) (d0 : State)
    (hd : d0.pending = s.pending) : ((getRef s c i reg usage mask cacheOnly).st d0).pending = s.pending := by
  have key : ∀ g : Got, (∀ d : State, d.pending = s.pending → (g.st d).pending = s.pending) →
      ((match g with
        | .got s1 c1 _ _ =>
          match c1.key (parentReg 0) with
          | none => Got.later
          | some w => getWrapped s1 c1 i w reg usage mask cacheOnly
        | o => o.nested).st d0).pending = s.pending := by
    intro g hg
    have := hg d0 hd
    cases g with
    | got s1 c1 m l =>
      have h1 : s1.pending = s.pending := by simpa using this
      dsimp only
      split <;> simp [hd, h1]
    | _ => simpa using this
  unfold getRef
  dsimp only
  split
  · simp [hd]
  · split
    · split
      · simp [hd]
      · split
        · simp [hd]
        · apply key
          intro d h
          simp [h]
    · simp [hd]

@[simp] theorem wakeWay_pending (s : State) (b u w : Nat) :
    (wakeWay s b u w).pending = s.pending := by
  simp (maxDischargeDepth := 8) [wakeWay, apply_ite State.pending]

@[simp] theorem State.dropFill_pending (s : State) (f : Fill) :
    (State.dropFill s f).pending = s.pending := by
  simp [State.dropFill]

@[simp] theorem emptyParents_pending (s : State) (c : Cmd) (reg : Nat) : (emptyParents s c reg).1.pending = s.pending := by
  simp only [emptyParents, List.foldl]
  (repeat' split) <;> simp

@[simp] theorem finishFill_pending (s : State) (f : Fill) (k : KeyInfo) (uses : Nat) (give : Bool) :
    (finishFill s f k uses give).pending = s.pending := by
  unfold finishFill; (repeat' (first | split | (dsimp only; split))) <;> simp [*, apply_ite State.pending]

@[simp] theorem failFill_pending (s : State) (f : Fill) (status : Nat) (n : Option Note) :
    (failFill s f status n).pending = s.pending := by
  unfold failFill; (repeat' (first | split | (dsimp only; split))) <;> simp [*, apply_ite State.pending]

@[simp] theorem fillDone_pending (b u w : Nat) (s : State) :
    (fillDone b u w s).pending = s.pending := by
  unfold fillDone; (repeat' split) <;> simp [*, apply_ite State.pending]

@[simp] theorem placeNew_pending (s : State) (c : Cmd) (q : Ask) (k : KeyInfo) : (placeNew s c q k).1.pending = s.pending := by
  unfold placeNew
  dsimp only
  split
  · simp
  · split
    · simp
    · split
      · simp
      · rename_i h
        have := reserveWays_pending h
        split <;> simpa using this

@[simp] theorem Got.step_st (u : Bool → Bool → BitVec 4) (g : Got) (d : State) : (g.step u).st d = g.st d := by cases g <;> rfl

/-! ## The RAM -/

@[simp] theorem routePanLookupOp_mem (s : State) (c : Cmd) (a : StepArgs) (d0 : State) (hd : d0.mem = s.mem) :
    ((routePanLookupOp s c a).st d0).mem = s.mem := by
  unfold routePanLookupOp; split <;> simp [*, apply_ite State.mem]

@[simp] theorem countPolicy_mem (s : State) :
    (countPolicy s).mem = s.mem := by
  simp [countPolicy]

@[simp] theorem routePolicyLookupOp_mem (s : State) (c : Cmd) (a : StepArgs) (d0 : State) (hd : d0.mem = s.mem) :
    ((routePolicyLookupOp s c a).st d0).mem = s.mem := by
  unfold routePolicyLookupOp; split <;> simp [*, apply_ite State.mem]

@[simp] theorem updateFail_mem (s : State) (c : Cmd) (d idx : Nat) :
    (updateFail s c d idx).mem = s.mem := by
  simp [updateFail]

@[simp] theorem State.mirrorRemovals_mem (s : State) (gone : List Way) :
    (State.mirrorRemovals s gone).mem = s.mem := by
  simp [State.mirrorRemovals]

@[simp] theorem State.walk_mem (s : State) (parts : List Nat) :
    (State.walk s parts).mem = s.mem := by
  simp [State.walk]

@[simp] theorem commitRoutes_mem (s : State) (l : List Route) :
    (commitRoutes s l).mem = s.mem := by
  simp [commitRoutes]

@[simp] theorem commitRules_mem (s : State) (l : List Rule) (parts : List Nat) :
    (commitRules s l parts).mem = s.mem := by
  simp [commitRules]

@[simp] theorem runUpdate_mem (policy : Bool) (s : State) (p : Place) :
    (runUpdate policy s p).mem = s.mem := by
  unfold runUpdate; (repeat' (first | split | (dsimp only; split))) <;> simp [*, apply_ite State.mem]

@[simp] theorem parityCopy_mem (policy : Bool) (s : State) :
    (parityCopy policy s).mem = s.mem := by
  simp (maxDischargeDepth := 8) [parityCopy, apply_ite State.mem]

@[simp] theorem State.modWays_mem (s : State) (p : Way → Bool) (f : Way → Way) :
    (State.modWays s p f).mem = s.mem := by
  simp [State.modWays]

@[simp] theorem State.dropKey_mem (s : State) (h : Way) :
    (State.dropKey s h).mem = s.mem := by
  simp [State.dropKey]

@[simp] theorem flushWay_mem (s : State) (w : Way) :
    (flushWay s w).mem = s.mem := by
  simp (maxDischargeDepth := 8) [flushWay, apply_ite State.mem]

@[simp] theorem State.eccDrop_mem (s : State) (w : Way) (part : Nat) :
    (State.eccDrop s w part).mem = s.mem := by
  simp [State.eccDrop]

theorem evict_mem {s : State} {p b u : Nat} {r : Nat × State} (h : evict s p b u = some r) : r.2.mem = s.mem := by
  unfold evict at h
  dsimp only at h
  split at h
  · simp at h
  · split at h
    all_goals
      simp only [Option.some.injEq] at h
      subst h
      dsimp only
      split <;> simp

@[simp] theorem emptyReg_mem (s : State) (c : Cmd) (reg : Nat) :
    (emptyReg s c reg).1.mem = s.mem := by
  unfold emptyReg; split <;> simp [*, apply_ite State.mem]

@[simp] theorem fillReg_mem (s : State) (c : Cmd) (reg : Nat) (k : KReg) :
    (fillReg s c reg k).1.mem = s.mem := by
  simp [fillReg]

@[simp] theorem State.note_mem (s : State) (n : Option Note) :
    (State.note s n).mem = s.mem := by
  unfold State.note; split <;> simp [*, apply_ite State.mem]

@[simp] theorem State.limitReached_mem (s : State) (handle : Nat) :
    (State.limitReached s handle).mem = s.mem := by
  unfold State.limitReached; split <;> simp [*, apply_ite State.mem]

@[simp] theorem State.enqueue_mem (s : State) (k : CommitKind) (who : Option Place) :
    (State.enqueue s k who).mem = s.mem := by
  simp [State.enqueue]

@[simp] theorem pinWay_mem (s : State) (c : Cmd) (reg : Nat) (named : Bool) (w : Way) (key : KeyInfo) :
    (pinWay s c reg named w key).1.mem = s.mem := by
  simp [pinWay]

@[simp] theorem hitWay_mem (s0 : State) (c : Cmd) (q : Ask) (w : Way) (d0 : State) (hd : d0.mem = s0.mem) :
    ((hitWay s0 c q w).st d0).mem = s0.mem := by
  unfold hitWay; (repeat' (first | split | (dsimp only; split))) <;> simp [*, apply_ite State.mem]

theorem reserveWays_mem {s : State} {c : Cmd} {q : Ask} {t : Bytes} {k : KeyInfo} {r : State × Nat}
    (h : reserveWays s c q t k = .ok r) : r.1.mem = s.mem := by
  unfold reserveWays at h
  dsimp only at h
  split at h
  · simp at h
  · rename_i he
    have h1 := evict_mem he
    split at h
    · split at h
      · simp at h
      · rename_i h2
        have h3 := evict_mem h2
        simp only [Except.ok.injEq] at h
        subst h
        exact h3.trans h1
    · simp only [Except.ok.injEq] at h
      subst h
      exact h1

@[simp] theorem missShadow_mem (s : State) (c : Cmd) (q : Ask) (t : Bytes) (confined : Bool) (d0 : State) (hd : d0.mem = s.mem) :
    ((missShadow s c q t confined).st d0).mem = s.mem := by
  unfold missShadow; (repeat' (first | split | (dsimp only; split))) <;> simp [*, apply_ite State.mem]

@[simp] theorem missKey_mem (s0 : State) (c0 : Cmd) (q : Ask) (t : Bytes) (d0 : State) (hd : d0.mem = s0.mem) :
    ((missKey s0 c0 q t).st d0).mem = s0.mem := by
  unfold missKey
  dsimp only
  split
  · simp [hd]
  · split
    · simp (maxDischargeDepth := 8) [apply_ite State.mem, hd]
    · rename_i h
      have := reserveWays_mem h
      simpa [apply_ite State.mem] using this

@[simp] theorem cacheGet_mem (s0 : State) (c : Cmd) (q : Ask) (d0 : State) (hd : d0.mem = s0.mem) :
    ((cacheGet s0 c q).st d0).mem = s0.mem := by
  unfold cacheGet
  split
  · simp
  · rename_i salt _
    have key : ∀ (s1 : State) (p : Way → Bool) (t : Bytes), s1.mem = s0.mem →
        ((match s1.kc.ways.find? p with
          | some w => if w.filling then Got.wait s1 c (.waitFill w.bank w.bucket w.way) else hitWay s1 c q w
          | none => missKey s1 c q t).st d0).mem = s0.mem := by
      intro s1 p t h1
      split
      · split <;> simp [hd, h1]
      · simp [hd, h1]
    refine key _ _ _ ?_
    split <;> simp

@[simp] theorem getObject_mem (s : State) (c : Cmd) (reg handle usage mask roles : Nat) (cacheOnly isRef : Bool) (d0 : State) (hd : d0.mem = s.mem) :
    ((getObject s c reg handle usage mask roles cacheOnly isRef).st d0).mem = s.mem := by
  unfold getObject; split <;> simp [*, apply_ite State.mem]

@[simp] theorem getHandle_mem (s0 : State) (c : Cmd) (reg h usage mask : Nat) (d0 : State) (hd : d0.mem = s0.mem) :
    ((getHandle s0 c reg h usage mask).st d0).mem = s0.mem := by
  unfold getHandle; (repeat' split) <;> simp [*, apply_ite State.mem]

@[simp] theorem getSeed_mem (s : State) (c : Cmd) (reg : Nat) (d0 : State) (hd : d0.mem = s.mem) :
    ((getSeed s c reg).st d0).mem = s.mem := by
  unfold getSeed; split <;> simp [*, apply_ite State.mem]

@[simp] theorem getDerived_mem (s : State) (c : Cmd) (parent : KReg) (reg : Nat) (rec_ : Bytes) (usage mask : Nat) (cacheOnly isRef : Bool) (d0 : State) (hd : d0.mem = s.mem) :
    ((getDerived s c parent reg rec_ usage mask cacheOnly isRef).st d0).mem = s.mem := by
  unfold getDerived; (repeat' split) <;> simp [*, apply_ite State.mem]

@[simp] theorem getBlock_mem (s : State) (c : Cmd) (wrap : KReg) (reg : Nat) (b : Bytes) (usage mask ref : Nat) (cacheOnly isRef : Bool) (d0 : State) (hd : d0.mem = s.mem) :
    ((getBlock s c wrap reg b usage mask ref cacheOnly isRef).st d0).mem = s.mem := by
  unfold getBlock; split <;> simp [*, apply_ite State.mem]

@[simp] theorem Got.clear_mem (g : Got) (reg : Nat) (d : State) : ((g.clear reg).st d).mem = (g.st d).mem := by
  cases g <;> simp [Got.clear]

@[simp] theorem getType4_mem (s : State) (c : Cmd) (r : KRef) (preg reg usage mask : Nat) (cacheOnly : Bool) (d0 : State)
    (hd : d0.mem = s.mem) : ((getType4 s c r preg reg usage mask cacheOnly).st d0).mem = s.mem := by
  have key : ∀ g : Got, (∀ d : State, d.mem = s.mem → (g.st d).mem = s.mem) →
      ((match g with
        | .got s1 c1 _ _ =>
          match c1.key preg with
          | none => Got.later
          | some p => (getDerived s1 c1 p reg (c1.rd (0x100 + r.len) 32) usage mask cacheOnly true).clear preg
        | o => o.nested).st d0).mem = s.mem := by
    intro g hg
    have := hg d0 hd
    cases g with
    | got s1 c1 m l =>
      have h1 : s1.mem = s.mem := by simpa using this
      dsimp only
      split <;> simp [hd, h1]
    | _ => simpa using this
  unfold getType4
  split
  · simp [hd]
  · apply key
    intro d h
    split
    · simp [h]
    · split <;> simp [h]

@[simp] theorem getSimple_mem (s : State) (c : Cmd) (r : KRef) (preg reg usage mask : Nat) (cacheOnly : Bool) (d0 : State) (hd : d0.mem = s.mem) :
    ((getSimple s c r preg reg usage mask cacheOnly).st d0).mem = s.mem := by
  unfold getSimple; (repeat' split) <;> simp [*, apply_ite State.mem]

@[simp] theorem getWrapped_mem (s : State) (c : Cmd) (i : Nat) (wrap : KReg) (reg usage mask : Nat) (cacheOnly : Bool)
    (d0 : State) (hd : d0.mem = s.mem) : ((getWrapped s c i wrap reg usage mask cacheOnly).st d0).mem = s.mem := by
  unfold getWrapped
  dsimp only
  split
  · simp [hd]
  · split <;> simp [hd]

@[simp] theorem getRef_mem (s : State) (c : Cmd) (i reg usage mask : Nat) (cacheOnly : Bool) (d0 : State)
    (hd : d0.mem = s.mem) : ((getRef s c i reg usage mask cacheOnly).st d0).mem = s.mem := by
  have key : ∀ g : Got, (∀ d : State, d.mem = s.mem → (g.st d).mem = s.mem) →
      ((match g with
        | .got s1 c1 _ _ =>
          match c1.key (parentReg 0) with
          | none => Got.later
          | some w => getWrapped s1 c1 i w reg usage mask cacheOnly
        | o => o.nested).st d0).mem = s.mem := by
    intro g hg
    have := hg d0 hd
    cases g with
    | got s1 c1 m l =>
      have h1 : s1.mem = s.mem := by simpa using this
      dsimp only
      split <;> simp [hd, h1]
    | _ => simpa using this
  unfold getRef
  dsimp only
  split
  · simp [hd]
  · split
    · split
      · simp [hd]
      · split
        · simp [hd]
        · apply key
          intro d h
          simp [h]
    · simp [hd]

@[simp] theorem wakeWay_mem (s : State) (b u w : Nat) :
    (wakeWay s b u w).mem = s.mem := by
  simp (maxDischargeDepth := 8) [wakeWay, apply_ite State.mem]

@[simp] theorem State.dropFill_mem (s : State) (f : Fill) :
    (State.dropFill s f).mem = s.mem := by
  simp [State.dropFill]

@[simp] theorem emptyParents_mem (s : State) (c : Cmd) (reg : Nat) : (emptyParents s c reg).1.mem = s.mem := by
  simp only [emptyParents, List.foldl]
  (repeat' split) <;> simp

@[simp] theorem finishFill_mem (s : State) (f : Fill) (k : KeyInfo) (uses : Nat) (give : Bool) :
    (finishFill s f k uses give).mem = s.mem := by
  unfold finishFill; (repeat' (first | split | (dsimp only; split))) <;> simp [*, apply_ite State.mem]

@[simp] theorem failFill_mem (s : State) (f : Fill) (status : Nat) (n : Option Note) :
    (failFill s f status n).mem = s.mem := by
  unfold failFill; (repeat' (first | split | (dsimp only; split))) <;> simp [*, apply_ite State.mem]

@[simp] theorem fillDone_mem (b u w : Nat) (s : State) :
    (fillDone b u w s).mem = s.mem := by
  unfold fillDone; (repeat' split) <;> simp [*, apply_ite State.mem]

@[simp] theorem placeNew_mem (s : State) (c : Cmd) (q : Ask) (k : KeyInfo) : (placeNew s c q k).1.mem = s.mem := by
  unfold placeNew
  dsimp only
  split
  · simp
  · split
    · simp
    · split
      · simp
      · rename_i h
        have := reserveWays_mem h
        split <;> simpa using this

end Sys2Proof.Machine
end

