-- ==== Sys2Proof/Laws/KeepsKeys.lean ====
section
/-! SUPPORT. What the operations of Entropy, Journal, Bignum and Keys leave alone: a lemma ending in `_pending` says that the
queue of waiting commands stays as it was, one ending in `_mem` that the RAM of the internal map does. -/

set_option linter.all false

namespace Sys2Proof.Machine

open Sys2Proof

/-! ## The queue -/

/-- The state a request for random bytes leaves, `d` where it names none. -/
def Drawn.st (d : State) : Drawn → State
  | .bytes s _ => s
  | .off => d
  | .waits s => s
@[simp] theorem Drawn.st_bytes (d s : State) (b : Bytes) : Drawn.st d (.bytes s b) = s := rfl
@[simp] theorem Drawn.st_off (d : State) : Drawn.st d .off = d := rfl
@[simp] theorem Drawn.st_waits (d s : State) : Drawn.st d (.waits s) = s := rfl

@[simp] theorem State.modDrbg_pending (s : State) (i : Nat) (f : Drbg → Drbg) :
    (State.modDrbg s i f).pending = s.pending := by
  simp [State.modDrbg]

@[simp] theorem State.drbgWait_pending (s : State) (i kind : Nat) :
    (State.drbgWait s i kind).pending = s.pending := by
  simp (maxDischargeDepth := 8) [State.drbgWait, apply_ite State.pending]

@[simp] theorem State.generate_pending (s : State) (i n : Nat) (add : Bytes) (d0 : State) (hd : d0.pending = s.pending) :
    ((State.generate s i n add).st d0).pending = s.pending := by
  simp [State.generate]

@[simp] theorem State.request_pending (s : State) (i n : Nat) (add : Bytes) (d0 : State) (hd : d0.pending = s.pending) :
    ((State.request s i n add).st d0).pending = s.pending := by
  unfold State.request; (repeat' (first | split | (dsimp only; split))) <;> simp [*, apply_ite State.pending]

theorem State.requests_pending (s : State) (i : Nat) (add : Bytes) (k n : Nat) (acc : Bytes) (d0 : State) (hd : d0.pending = s.pending) :
    ((s.requests i add k n acc).st d0).pending = s.pending := by
  induction k generalizing s n acc with
  | zero => simp [State.requests]
  | succ k ih =>
    have h1 := State.request_pending s i n add d0 hd
    have h2 := State.request_pending s i 256 add d0 hd
    simp only [State.requests]
    split
    · split
      · simp_all
      · exact h1
    · split
      · rename_i s1 b h
        rw [h] at h2
        rw [ih s1 _ _ (by simpa using hd.trans h2.symm)]
        exact h2
      · exact h2

@[simp] theorem State.randomWith_pending (s : State) (i n : Nat) (add : Bytes) (d0 : State) (hd : d0.pending = s.pending) :
    ((s.randomWith i n add).st d0).pending = s.pending := by
  unfold State.randomWith
  split
  · simp
  · exact State.requests_pending s i add _ n [] d0 hd

@[simp] theorem State.random_pending (s : State) (i n : Nat) (d0 : State) (hd : d0.pending = s.pending) :
    ((s.random i n).st d0).pending = s.pending := State.randomWith_pending s i n [] d0 hd

theorem random__bytes_pending {s s1 : State} {i n : Nat} {b : Bytes} (h : s.random i n = .bytes s1 b) :
    s1.pending = s.pending := by
  have h1 := State.random_pending s i n s rfl
  rw [h] at h1
  exact h1

theorem random__waits_pending {s s1 : State} {i n : Nat} (h : s.random i n = .waits s1) : s1.pending = s.pending := by
  have h1 := State.random_pending s i n s rfl
  rw [h] at h1
  exact h1

theorem randomWith__bytes_pending {s s1 : State} {i n : Nat} {a b : Bytes} (h : s.randomWith i n a = .bytes s1 b) :
    s1.pending = s.pending := by
  have h1 := State.randomWith_pending s i n a s rfl
  rw [h] at h1
  exact h1

theorem randomWith__waits_pending {s s1 : State} {i n : Nat} {a : Bytes} (h : s.randomWith i n a = .waits s1) : s1.pending = s.pending := by
  have h1 := State.randomWith_pending s i n a s rfl
  rw [h] at h1
  exact h1

@[simp] theorem State.waitRng_pending (s : State) (c : Cmd) :
    (State.waitRng s c).pending = s.pending := by
  simp [State.waitRng]

theorem writeVersion_pending {s : State} {h k : Nat} {b : Bytes} {o : Option Nat} {r : State × Nat × Nat}
    (hr : writeVersion s h k b o = some r) : r.1.pending = s.pending := by
  unfold writeVersion at hr
  split at hr
  · simp only [Option.some.injEq] at hr; subst hr; rfl
  · simp at hr

@[simp] theorem zeroSlot_pending (s : State) (k : Nat) :
    (zeroSlot s k).pending = s.pending := by
  simp [zeroSlot]

@[simp] theorem State.setObj_pending (s : State) (o : Obj) :
    (State.setObj s o).pending = s.pending := by
  simp [State.setObj]

@[simp] theorem State.dropObj_pending (s : State) (h : Nat) :
    (State.dropObj s h).pending = s.pending := by
  simp [State.dropObj]

@[simp] theorem State.dropEntries_pending (s : State) (h : Nat) :
    (State.dropEntries s h).pending = s.pending := by
  simp [State.dropEntries]

@[simp] theorem committed_pending (s : State) (who : Option Place) (stamp : Nat) (mirror : Bool) (handle : Nat) :
    (committed s who stamp mirror handle).pending = s.pending := by
  unfold committed; (repeat' (first | split | (dsimp only; split))) <;> simp [*, apply_ite State.pending]

@[simp] theorem refused_pending (s : State) (who : Option Place) (status : Nat) :
    (refused s who status).pending = s.pending := by
  unfold refused; (repeat' split) <;> simp [*, apply_ite State.pending]

@[simp] theorem commitBy_pending (s : State) (who : Option Place) (typ part : Nat) (body : Bytes) :
    (commitBy s who typ part body).pending = s.pending := by
  unfold commitBy; split <;> simp [*, apply_ite State.pending]

@[simp] theorem commitStore_pending (s : State) (who : Option Place) (part : Nat) (attr : Bytes) (k : KeyInfo) (generated : Bool) :
    (commitStore s who part attr k generated).pending = s.pending := by
  unfold commitStore; (repeat' (first | split | (dsimp only; split))) <;> first | (simp [*, apply_ite State.pending]; done) | (have h9 := writeVersion_pending (by assumption); simp_all [apply_ite State.pending]; done)

@[simp] theorem commitTombstone_pending (s : State) (who : Option Place) (h : Nat) :
    (commitTombstone s who h).pending = s.pending := by
  unfold commitTombstone; (repeat' (first | split | (dsimp only; split))) <;> first | (simp [*, apply_ite State.pending]; done) | (have h9 := writeVersion_pending (by assumption); simp_all [apply_ite State.pending]; done)

@[simp] theorem commitUses_pending (s : State) (h add : Nat) (resv : Bool) :
    (commitUses s h add resv).pending = s.pending := by
  unfold commitUses; (repeat' (first | split | (dsimp only; split))) <;> first | (simp [*, apply_ite State.pending]; done) | (have h9 := writeVersion_pending (by assumption); simp_all [apply_ite State.pending]; done)

@[simp] theorem commitReserve_pending (s : State) (h b u w : Nat) :
    (commitReserve s h b u w).pending = s.pending := by
  unfold commitReserve; (repeat' (first | split | (dsimp only; split))) <;> simp [*, apply_ite State.pending]

@[simp] theorem relocate_pending (s : State) :
    (relocate s).pending = s.pending := by
  unfold relocate; (repeat' (first | split | (dsimp only; split))) <;> first | (simp [*, apply_ite State.pending]; done) | (have h9 := writeVersion_pending (by assumption); simp_all [apply_ite State.pending]; done)

@[simp] theorem commitDomain_pending (s : State) (key : Bytes) :
    (commitDomain s key).pending = s.pending := by
  unfold commitDomain; (repeat' (first | split | (dsimp only; split))) <;> first | (simp [*, apply_ite State.pending]; done) | (have h9 := writeVersion_pending (by assumption); simp_all [apply_ite State.pending]; done)

@[simp] theorem journalCommit_pending (s : State) :
    (journalCommit s).pending = s.pending := by
  unfold journalCommit; (repeat' split) <;> simp [*, apply_ite State.pending]

@[simp] theorem tornWrite_pending (s : State) (n : Nat) :
    (tornWrite s n).pending = s.pending := by
  unfold tornWrite; split <;> simp [*, apply_ite State.pending]

@[simp] theorem journalRelocate_pending (s : State) :
    (journalRelocate s).pending = s.pending := by
  simp (maxDischargeDepth := 8) [journalRelocate, apply_ite State.pending]

@[simp] theorem reservationDurable_pending (s : State) :
    (reservationDurable s).pending = s.pending := by
  simp (maxDischargeDepth := 8) [reservationDurable, apply_ite State.pending]

@[simp] theorem recover_pending (s0 : State) :
    (recover s0).pending = s0.pending := by
  simp (maxDischargeDepth := 8) [recover, apply_ite State.pending]

@[simp] theorem afterRecovery_pending (s : State) :
    (afterRecovery s).pending = s.pending := by
  simp [afterRecovery]

@[simp] theorem State.modCore_pending (s : State) (c : Nat) (f : Core → Core) :
    (State.modCore s c f).pending = s.pending := by
  simp [State.modCore]

@[simp] theorem State.modJob_pending (s : State) (j : Nat) (f : Job → Job) :
    (State.modJob s j f).pending = s.pending := by
  simp [State.modJob]

@[simp] theorem bumpAborts_pending (s : State) :
    (bumpAborts s).pending = s.pending := by
  simp [bumpAborts]

theorem submit_pending {s : State} {c : Cmd} {r : BnReq} {x : State × Nat} (h : submit s c r = .ok x) :
    x.1.pending = s.pending := by
  unfold submit at h
  dsimp only at h
  split at h
  · simp at h
  · split at h
    · simp at h
    · simp only [Except.ok.injEq] at h; subst h; rfl

theorem submit_error_pending {s : State} {c : Cmd} {r : BnReq} {x : State × Nat} (h : submit s c r = .error x) :
    x.1.pending = s.pending := by
  unfold submit at h
  dsimp only at h
  split at h
  · simp only [Except.error.injEq] at h; subst h; rfl
  · split at h
    · simp only [Except.error.injEq] at h; subst h; simp
    · simp at h

@[simp] theorem promoteAged_pending (s : State) :
    (promoteAged s).pending = s.pending := by
  simp [promoteAged]

@[simp] theorem occupy_pending (s : State) (cs : List Nat) : (occupy s cs).1.pending = s.pending := by
  unfold occupy
  suffices h : ∀ r : State × List (Nat × Nat), (cs.foldl (fun r c =>
    match freeCtxOf (r.1.core c) with
    | none => r
    | some x => (r.1.modCore c (fun k => { k with held := x :: k.held, running := true }), r.2 ++ [(c, x)])) r).1.pending
      = r.1.pending from h (s, [])
  induction cs with
  | nil => intro r; rfl
  | cons c cs ih =>
    intro r
    rw [List.foldl_cons, ih]
    split <;> simp

theorem blind_pending (s : State) (kind : Nat) (l : List (Nat × Nat)) (b : Bytes) :
    (∀ t x, blind s kind l b = .ok (t, x) → t.pending = s.pending) ∧
    ∀ t i, blind s kind l b = .error (t, i) → t.pending = s.pending := by
  induction l generalizing s b with
  | nil => simp +contextual [blind]
  | cons p r ih =>
    obtain ⟨i, n⟩ := p
    have h1 := State.random_pending s i n s rfl
    simp only [blind]
    split
    · rename_i y x h
      rw [h] at h1
      have h2 : y.pending = s.pending := h1
      rw [← h2]
      exact ih y x
    · rename_i y h
      rw [h] at h1
      have h2 : y.pending = s.pending := h1
      split <;> refine ⟨fun t x e => ?_, fun t x e => ?_⟩ <;> cases e <;> simp [h2]
    · split <;> refine ⟨fun t x e => ?_, fun t x e => ?_⟩ <;> cases e <;> simp

@[simp] theorem endJob_pending (s : State) (j : Job) :
    (endJob s j).pending = s.pending := by
  simp [endJob]

@[simp] theorem failJob_pending (s : State) (j : Job) (status : Nat) :
    (failJob s j status).pending = s.pending := by
  unfold failJob; split <;> simp [*, apply_ite State.pending]

@[simp] theorem stopJob_pending (s : State) (j : Job) (status : Nat) :
    (stopJob s j status).pending = s.pending := by
  simp (maxDischargeDepth := 8) [stopJob, apply_ite State.pending]

@[simp] theorem startJob_pending (s : State) (j : Job) (cs : List Nat) : (startJob s j cs).pending = s.pending := by
  have h := blind_pending s j.kind (blindAsks j cs) []
  unfold startJob
  split
  · rename_i e
    simpa using h.2 _ _ e
  · rename_i e
    simpa using h.1 _ _ e

@[simp] theorem jobPlace_pending (s0 : State) :
    (jobPlace s0).pending = s0.pending := by
  unfold jobPlace; (repeat' (first | split | (dsimp only; split))) <;> simp [*, apply_ite State.pending]

@[simp] theorem State.runCores_pending (s : State) (j : Job) (on : Bool) :
    (State.runCores s j on).pending = s.pending := by
  simp [State.runCores]

@[simp] theorem resumeJob_pending (s : State) (j : Job) :
    (resumeJob s j).pending = s.pending := by
  simp [resumeJob]

@[simp] theorem parkGroup_pending (s : State) (j : Job) :
    (parkGroup s j).pending = s.pending := by
  simp [parkGroup]

@[simp] theorem yieldPoint_pending (job : Nat) (s0 : State) :
    (yieldPoint job s0).pending = s0.pending := by
  simp (maxDischargeDepth := 8) [yieldPoint, apply_ite State.pending] <;> (repeat' (first | rfl | (split <;> simp [*, apply_ite State.pending])))

@[simp] theorem jobResume_pending (job : Nat) (s0 : State) :
    (jobResume job s0).pending = s0.pending := by
  unfold jobResume; dsimp only; split <;> simp [*, apply_ite State.pending]

@[simp] theorem starvePromote_pending (job : Nat) (s : State) :
    (starvePromote job s).pending = s.pending := by
  unfold starvePromote; split <;> simp [*, apply_ite State.pending]

@[simp] theorem requestCorePick_pending (s : State) (c : Nat) :
    (requestCorePick s c).pending = s.pending := by
  simp [requestCorePick]

@[simp] theorem removeCore_pending (s : State) (c cause : Nat) :
    (removeCore s c cause).pending = s.pending := by
  simp [removeCore]

@[simp] theorem mismatchCore_pending (s : State) (c : Nat) :
    (mismatchCore s c).pending = s.pending := by
  simp [mismatchCore]

@[simp] theorem bnStepDone_pending (s : State) (c : Cmd) (a : StepArgs) (r : BnReq) (flag : Bool) (out : Bytes) :
    (bnStepDone s c a r flag out).pending = s.pending := by
  unfold bnStepDone; (repeat' split) <;> simp [*, apply_ite State.pending]

@[simp] theorem nextCandidate_pending (s : State) (j : Job) :
    (nextCandidate s j).pending = s.pending := by
  unfold nextCandidate; (repeat' (first | split | (dsimp only; split))) <;> first | (simp [*, apply_ite State.pending]; done) | (have h9 := random__bytes_pending (by assumption); simp_all [apply_ite State.pending]; done) | (have h9 := random__waits_pending (by assumption); simp_all [apply_ite State.pending]; done)

@[simp] theorem jobEnd_pending (job : Nat) (differ : Bool) (ecc : Option Nat) (s : State) :
    (jobEnd job differ ecc s).pending = s.pending := by
  unfold jobEnd; (repeat' split) <;> simp [*, apply_ite State.pending]

@[simp] theorem scrubFault_pending (s : State) (p : Place) (order : Nat) :
    (scrubFault s p order).pending = s.pending := by
  unfold scrubFault; split <;> simp [*, apply_ite State.pending]

@[simp] theorem contextScrubbed_pending (core ctx : Nat) (zero : Bool) (s : State) :
    (contextScrubbed core ctx zero s).pending = s.pending := by
  unfold contextScrubbed; split <;> simp [*, apply_ite State.pending]

@[simp] theorem keygenLimit_pending (job candidates : Nat) (s : State) :
    (keygenLimit job candidates s).pending = s.pending := by
  unfold keygenLimit; split <;> simp [*, apply_ite State.pending]

@[simp] theorem soundKey_pending (s : State) (c : Cmd) (k : Option KReg) (f : KReg → StepOut) (d0 : State)
    (hf : ∀ k, ((f k).st d0).pending = s.pending) : ((soundKey s c k f).st d0).pending = s.pending := by
  unfold soundKey
  split
  · simp
  · split
    · simp
    · exact hf _

@[simp] theorem withKey_pending (s : State) (c : Cmd) (reg usage : Nat) (algs : List Nat) (f : KReg → StepOut)
    (d0 : State) (hf : ∀ k, ((f k).st d0).pending = s.pending) :
    ((withKey s c reg usage algs f).st d0).pending = s.pending := soundKey_pending s c _ f d0 hf

theorem withKey_pending_cps (s : State) (c : Cmd) (reg usage : Nat) (algs : List Nat) (f : KReg → StepOut) (p : List Instr)
    (d0 : State) (hs : s.pending = p) (hf : ∀ k, ((f k).st d0).pending = p) :
    ((withKey s c reg usage algs f).st d0).pending = p := by
  subst hs; exact withKey_pending s c reg usage algs f d0 hf

theorem soundKey_pending_cps (s : State) (c : Cmd) (k : Option KReg) (f : KReg → StepOut) (p : List Instr)
    (d0 : State) (hs : s.pending = p) (hf : ∀ k, ((f k).st d0).pending = p) :
    ((soundKey s c k f).st d0).pending = p := by
  subst hs; exact soundKey_pending s c k f d0 hf

@[simp] theorem parkJob_pending (s : State) (c : Cmd) (r : BnReq) (d0 : State) (hd : d0.pending = s.pending) :
    ((parkJob s c r).st d0).pending = s.pending := by
  unfold parkJob
  split
  · rename_i h
    simpa [hd] using submit_error_pending h
  · rename_i h
    simpa [hd] using submit_pending h

@[simp] theorem bnRanges_pending (srcs : List (Nat × Nat)) (dst : Nat × Nat) (k : Unit → StepOut) (d : State)
    (hk : ((k ()).st d).pending = d.pending) : ((bnRanges srcs dst k).st d).pending = d.pending := by
  unfold bnRanges; split <;> simp [*]

theorem bnRanges_pending_cps (srcs : List (Nat × Nat)) (dst : Nat × Nat) (k : Unit → StepOut) (d : State) (p : List Instr)
    (hd : d.pending = p) (hk : ((k ()).st d).pending = p) : ((bnRanges srcs dst k).st d).pending = p := by
  subst hd; exact bnRanges_pending srcs dst k d hk

@[simp] theorem bnEdSignOp_pending (s : State) (c : Cmd) (a : StepArgs) (d0 : State) (hd : d0.pending = s.pending) :
    ((bnEdSignOp s c a).st d0).pending = s.pending := by
  unfold bnEdSignOp; (repeat' (first | intro _ | apply withKey_pending_cps | apply bnRanges_pending_cps | split | (dsimp only; split))) <;> first | assumption | (simp (maxDischargeDepth := 8) [*, apply_ite State.pending]; done) | (simp_all [apply_ite State.pending]; done)

@[simp] theorem pubKey_pending (s : State) (c : Cmd) (a : StepArgs) (algs : List Nat) (f : Bytes → StepOut) (g : Unit → Bytes)
    (d0 : State) (hf : ∀ k, ((f k).st d0).pending = s.pending) :
    ((pubKey s c a algs f g).st d0).pending = s.pending := by
  unfold pubKey
  split <;> simp [*]

theorem pubKey_pending_cps (s : State) (c : Cmd) (a : StepArgs) (algs : List Nat) (f : Bytes → StepOut) (g : Unit → Bytes)
    (p : List Instr) (d0 : State) (hs : s.pending = p) (hf : ∀ k, ((f k).st d0).pending = p) :
    ((pubKey s c a algs f g).st d0).pending = p := by
  subst hs; exact pubKey_pending s c a algs f g d0 hf

@[simp] theorem bnEdVerifyOp_pending (s : State) (c : Cmd) (a : StepArgs) (d0 : State) (hd : d0.pending = s.pending) :
    ((bnEdVerifyOp s c a).st d0).pending = s.pending := by
  unfold bnEdVerifyOp; (repeat' (first | intro _ | apply pubKey_pending_cps | apply bnRanges_pending_cps | split | (dsimp only; split))) <;> first | assumption | (simp (maxDischargeDepth := 8) [*, apply_ite State.pending]; done) | (simp_all [apply_ite State.pending]; done)

@[simp] theorem bnX25519Op_pending (s : State) (c : Cmd) (a : StepArgs) (d0 : State) (hd : d0.pending = s.pending) :
    ((bnX25519Op s c a).st d0).pending = s.pending := by
  unfold bnX25519Op; (repeat' (first | intro _ | apply withKey_pending_cps | apply bnRanges_pending_cps | split | (dsimp only; split))) <;> first | assumption | (simp (maxDischargeDepth := 8) [*, apply_ite State.pending]; done) | (simp_all [apply_ite State.pending]; done)

@[simp] theorem bnEcSignOp_pending (s : State) (c : Cmd) (a : StepArgs) (d0 : State) (hd : d0.pending = s.pending) :
    ((bnEcSignOp s c a).st d0).pending = s.pending := by
  unfold bnEcSignOp; (repeat' (first | intro _ | apply withKey_pending_cps | apply bnRanges_pending_cps | split | (dsimp only; split))) <;> first | assumption | (simp (maxDischargeDepth := 8) [*, apply_ite State.pending]; done) | (simp_all [apply_ite State.pending]; done)

@[simp] theorem bnEcVerifyOp_pending (s : State) (c : Cmd) (a : StepArgs) (d0 : State) (hd : d0.pending = s.pending) :
    ((bnEcVerifyOp s c a).st d0).pending = s.pending := by
  unfold bnEcVerifyOp; (repeat' (first | intro _ | apply pubKey_pending_cps | apply bnRanges_pending_cps | split | (dsimp only; split))) <;> first | assumption | (simp (maxDischargeDepth := 8) [*, apply_ite State.pending]; done) | (simp_all [apply_ite State.pending]; done)

@[simp] theorem bnRsaSignOp_pending (s : State) (c : Cmd) (a : StepArgs) (d0 : State) (hd : d0.pending = s.pending) :
    ((bnRsaSignOp s c a).st d0).pending = s.pending := by
  unfold bnRsaSignOp; (repeat' (first | intro _ | apply withKey_pending_cps | apply bnRanges_pending_cps | split | (dsimp only; split))) <;> first | assumption | (simp (maxDischargeDepth := 8) [*, apply_ite State.pending]; done) | (simp_all [apply_ite State.pending]; done)

@[simp] theorem bnRsaVerifyOp_pending (s : State) (c : Cmd) (a : StepArgs) (d0 : State) (hd : d0.pending = s.pending) :
    ((bnRsaVerifyOp s c a).st d0).pending = s.pending := by
  unfold bnRsaVerifyOp; (repeat' (first | intro _ | apply pubKey_pending_cps | apply bnRanges_pending_cps | split | (dsimp only; split))) <;> first | assumption | (simp (maxDischargeDepth := 8) [*, apply_ite State.pending]; done) | (simp_all [apply_ite State.pending]; done)

@[simp] theorem bnPublicOp_pending (s : State) (c : Cmd) (a : StepArgs) (d0 : State) (hd : d0.pending = s.pending) :
    ((bnPublicOp s c a).st d0).pending = s.pending := by
  unfold bnPublicOp; (repeat' (first | intro _ | apply withKey_pending_cps | apply bnRanges_pending_cps | split | (dsimp only; split))) <;> first | assumption | (simp (maxDischargeDepth := 8) [*, apply_ite State.pending]; done) | (simp_all [apply_ite State.pending]; done)

@[simp] theorem bnGenerateOp_pending (s : State) (c : Cmd) (a : StepArgs) (d0 : State) (hd : d0.pending = s.pending) :
    ((bnGenerateOp s c a).st d0).pending = s.pending := by
  unfold bnGenerateOp; (repeat' (first | intro _ | apply withKey_pending_cps | apply bnRanges_pending_cps | split | (dsimp only; split))) <;> first | assumption | (simp (maxDischargeDepth := 8) [*, apply_ite State.pending]; done) | (simp_all [apply_ite State.pending]; done)

@[simp] theorem withRandom_pending (s : State) (c : Cmd) (n : Nat) (f : State → Bytes → StepOut)
    (d0 : State) (hd : d0.pending = s.pending) (hf : ∀ t b, t.pending = s.pending → ((f t b).st d0).pending = s.pending) :
    ((withRandom s c n f).st d0).pending = s.pending := by
  have h1 := State.random_pending s (drbgOf c.place) n s rfl
  unfold withRandom
  split <;> simp_all

theorem withRandom_pending_cps (s : State) (c : Cmd) (n : Nat) (f : State → Bytes → StepOut) (p : List Instr)
    (d0 : State) (hs : s.pending = p) (hd : d0.pending = p) (hf : ∀ t b, t.pending = p → ((f t b).st d0).pending = p) :
    ((withRandom s c n f).st d0).pending = p := by
  subst hs; exact withRandom_pending s c n f d0 hd hf

@[simp] theorem keyGetOp_pending (s : State) (c : Cmd) (a : StepArgs) (d0 : State) (hd : d0.pending = s.pending) :
    ((keyGetOp s c a).st d0).pending = s.pending := by
  unfold keyGetOp; (repeat' split) <;> simp [*, apply_ite State.pending]

@[simp] theorem rsaUnwrapStep_pending (s : State) (c : Cmd) (w : KReg) (block : Bytes) (d0 : State) (hd : d0.pending = s.pending) :
    ((rsaUnwrapStep s c w block).st d0).pending = s.pending := by
  unfold rsaUnwrapStep; (repeat' (first | split | (dsimp only; split))) <;> simp [*, apply_ite State.pending]

@[simp] theorem keyUnwrapOp_pending (s : State) (c : Cmd) (a : StepArgs) (d0 : State) (hd : d0.pending = s.pending) :
    ((keyUnwrapOp s c a).st d0).pending = s.pending := by
  unfold keyUnwrapOp; (repeat' (first | intro _ | apply withKey_pending_cps | split | (dsimp only; split))) <;> first | assumption | (simp (maxDischargeDepth := 8) [*, apply_ite State.pending]; done) | (simp_all [apply_ite State.pending]; done)

@[simp] theorem keyWrapOp_pending (s : State) (c : Cmd) (a : StepArgs) (d0 : State) (hd : d0.pending = s.pending) :
    ((keyWrapOp s c a).st d0).pending = s.pending := by
  unfold keyWrapOp
  split
  · simp [hd]
  · dsimp only
    split
    · simp [hd]
    · apply soundKey_pending; intro k
      apply withKey_pending; intro w
      split
      · simp
      · split
        · (repeat' split) <;> simp [hd]
        · split
          · simp
          · split
            · simp
            · refine withRandom_pending_cps _ _ _ _ _ _ (by simp) hd (fun t b h => ?_)
              split <;> simp [h]

@[simp] theorem keyDeriveOp_pending (s : State) (c : Cmd) (a : StepArgs) (d0 : State) (hd : d0.pending = s.pending) :
    ((keyDeriveOp s c a).st d0).pending = s.pending := by
  unfold keyDeriveOp; (repeat' split) <;> simp [*, apply_ite State.pending]

@[simp] theorem getDukpt_pending (s : State) (c : Cmd) (init : KReg) (reg t : Nat) (ksn : Bytes) (d0 : State) (hd : d0.pending = s.pending) :
    ((getDukpt s c init reg t ksn).st d0).pending = s.pending := by
  unfold getDukpt; (repeat' split) <;> simp [*, apply_ite State.pending]

@[simp] theorem keyDukptOp_pending (s : State) (c : Cmd) (a : StepArgs) (d0 : State) (hd : d0.pending = s.pending) :
    ((keyDukptOp s c a).st d0).pending = s.pending := by
  unfold keyDukptOp; (repeat' (first | intro _ | apply withKey_pending_cps | split | (dsimp only; split))) <;> first | assumption | (simp (maxDischargeDepth := 8) [*, apply_ite State.pending]; done) | (simp_all [apply_ite State.pending]; done)

@[simp] theorem keyGenerateOp_pending (s : State) (c : Cmd) (a : StepArgs) (d0 : State) (hd : d0.pending = s.pending) :
    ((keyGenerateOp s c a).st d0).pending = s.pending := by
  unfold keyGenerateOp; (repeat' (first | split | (dsimp only; split))) <;> simp [*, apply_ite State.pending]

theorem storeKey_pending {s : State} {c : Cmd} {k : KReg} {a : Bytes} {x : State × Cmd} (h : storeKey s c k a = .ok x) :
    x.1.pending = s.pending := by
  unfold storeKey at h
  dsimp only at h
  split at h
  · simp at h
  · split at h
    · simp at h
    · split at h
      · simp at h
      · simp only [Except.ok.injEq] at h; subst h; simp

@[simp] theorem keyStoreOp_pending (s : State) (c : Cmd) (a : StepArgs) (d0 : State) (hd : d0.pending = s.pending) :
    ((keyStoreOp s c a).st d0).pending = s.pending := by
  unfold keyStoreOp; (repeat' (first | intro _ | apply soundKey_pending_cps | split | (dsimp only; split))) <;> first | assumption | (simp (maxDischargeDepth := 8) [*, apply_ite State.pending]; done) | (simp_all [apply_ite State.pending]; done) | (have h9 := storeKey_pending (by assumption); simp_all [apply_ite State.pending]; done)

@[simp] theorem keyReleaseOp_pending (s : State) (c : Cmd) (a : StepArgs) (d0 : State) (hd : d0.pending = s.pending) :
    ((keyReleaseOp s c a).st d0).pending = s.pending := by
  simp [keyReleaseOp]

@[simp] theorem sweepStart_pending (s : State) :
    (sweepStart s).pending = s.pending := by
  simp (maxDischargeDepth := 8) [sweepStart, apply_ite State.pending]

@[simp] theorem sweepVisit_pending (s : State) :
    (sweepVisit s).pending = s.pending := by
  simp (maxDischargeDepth := 8) [sweepVisit, apply_ite State.pending]

/-! ## The RAM -/

@[simp] theorem State.modDrbg_mem (s : State) (i : Nat) (f : Drbg → Drbg) :
    (State.modDrbg s i f).mem = s.mem := by
  simp [State.modDrbg]

@[simp] theorem State.drbgWait_mem (s : State) (i kind : Nat) :
    (State.drbgWait s i kind).mem = s.mem := by
  simp (maxDischargeDepth := 8) [State.drbgWait, apply_ite State.mem]

@[simp] theorem State.generate_mem (s : State) (i n : Nat) (add : Bytes) (d0 : State) (hd : d0.mem = s.mem) :
    ((State.generate s i n add).st d0).mem = s.mem := by
  simp [State.generate]

@[simp] theorem State.request_mem (s : State) (i n : Nat) (add : Bytes) (d0 : State) (hd : d0.mem = s.mem) :
    ((State.request s i n add).st d0).mem = s.mem := by
  unfold State.request; (repeat' (first | split | (dsimp only; split))) <;> simp [*, apply_ite State.mem]

theorem State.requests_mem (s : State) (i : Nat) (add : Bytes) (k n : Nat) (acc : Bytes) (d0 : State) (hd : d0.mem = s.mem) :
    ((s.requests i add k n acc).st d0).mem = s.mem := by
  induction k generalizing s n acc with
  | zero => simp [State.requests]
  | succ k ih =>
    have h1 := State.request_mem s i n add d0 hd
    have h2 := State.request_mem s i 256 add d0 hd
    simp only [State.requests]
    split
    · split
      · simp_all
      · exact h1
    · split
      · rename_i s1 b h
        rw [h] at h2
        rw [ih s1 _ _ (by simpa using hd.trans h2.symm)]
        exact h2
      · exact h2

@[simp] theorem State.randomWith_mem (s : State) (i n : Nat) (add : Bytes) (d0 : State) (hd : d0.mem = s.mem) :
    ((s.randomWith i n add).st d0).mem = s.mem := by
  unfold State.randomWith
  split
  · simp
  · exact State.requests_mem s i add _ n [] d0 hd

@[simp] theorem State.random_mem (s : State) (i n : Nat) (d0 : State) (hd : d0.mem = s.mem) :
    ((s.random i n).st d0).mem = s.mem := State.randomWith_mem s i n [] d0 hd

theorem random__bytes_mem {s s1 : State} {i n : Nat} {b : Bytes} (h : s.random i n = .bytes s1 b) :
    s1.mem = s.mem := by
  have h1 := State.random_mem s i n s rfl
  rw [h] at h1
  exact h1

theorem random__waits_mem {s s1 : State} {i n : Nat} (h : s.random i n = .waits s1) : s1.mem = s.mem := by
  have h1 := State.random_mem s i n s rfl
  rw [h] at h1
  exact h1

theorem randomWith__bytes_mem {s s1 : State} {i n : Nat} {a b : Bytes} (h : s.randomWith i n a = .bytes s1 b) :
    s1.mem = s.mem := by
  have h1 := State.randomWith_mem s i n a s rfl
  rw [h] at h1
  exact h1

theorem randomWith__waits_mem {s s1 : State} {i n : Nat} {a : Bytes} (h : s.randomWith i n a = .waits s1) : s1.mem = s.mem := by
  have h1 := State.randomWith_mem s i n a s rfl
  rw [h] at h1
  exact h1

@[simp] theorem State.waitRng_mem (s : State) (c : Cmd) :
    (State.waitRng s c).mem = s.mem := by
  simp [State.waitRng]

@[simp] theorem State.setObj_mem (s : State) (o : Obj) :
    (State.setObj s o).mem = s.mem := by
  simp [State.setObj]

@[simp] theorem State.dropObj_mem (s : State) (h : Nat) :
    (State.dropObj s h).mem = s.mem := by
  simp [State.dropObj]

@[simp] theorem State.dropEntries_mem (s : State) (h : Nat) :
    (State.dropEntries s h).mem = s.mem := by
  simp [State.dropEntries]

@[simp] theorem committed_mem (s : State) (who : Option Place) (stamp : Nat) (mirror : Bool) (handle : Nat) :
    (committed s who stamp mirror handle).mem = s.mem := by
  unfold committed; (repeat' (first | split | (dsimp only; split))) <;> simp [*, apply_ite State.mem]

@[simp] theorem refused_mem (s : State) (who : Option Place) (status : Nat) :
    (refused s who status).mem = s.mem := by
  unfold refused; (repeat' split) <;> simp [*, apply_ite State.mem]

@[simp] theorem commitBy_mem (s : State) (who : Option Place) (typ part : Nat) (body : Bytes) :
    (commitBy s who typ part body).mem = s.mem := by
  unfold commitBy; split <;> simp [*, apply_ite State.mem]

@[simp] theorem journalRelocate_mem (s : State) :
    (journalRelocate s).mem = s.mem := by
  simp (maxDischargeDepth := 8) [journalRelocate, apply_ite State.mem]

@[simp] theorem reservationDurable_mem (s : State) :
    (reservationDurable s).mem = s.mem := by
  simp (maxDischargeDepth := 8) [reservationDurable, apply_ite State.mem]

@[simp] theorem afterRecovery_mem (s : State) :
    (afterRecovery s).mem = s.mem := by
  simp [afterRecovery]

@[simp] theorem State.modCore_mem (s : State) (c : Nat) (f : Core → Core) :
    (State.modCore s c f).mem = s.mem := by
  simp [State.modCore]

@[simp] theorem State.modJob_mem (s : State) (j : Nat) (f : Job → Job) :
    (State.modJob s j f).mem = s.mem := by
  simp [State.modJob]

@[simp] theorem bumpAborts_mem (s : State) :
    (bumpAborts s).mem = s.mem := by
  simp [bumpAborts]

theorem submit_mem {s : State} {c : Cmd} {r : BnReq} {x : State × Nat} (h : submit s c r = .ok x) :
    x.1.mem = s.mem := by
  unfold submit at h
  dsimp only at h
  split at h
  · simp at h
  · split at h
    · simp at h
    · simp only [Except.ok.injEq] at h; subst h; rfl

theorem submit_error_mem {s : State} {c : Cmd} {r : BnReq} {x : State × Nat} (h : submit s c r = .error x) :
    x.1.mem = s.mem := by
  unfold submit at h
  dsimp only at h
  split at h
  · simp only [Except.error.injEq] at h; subst h; rfl
  · split at h
    · simp only [Except.error.injEq] at h; subst h; simp
    · simp at h

@[simp] theorem promoteAged_mem (s : State) :
    (promoteAged s).mem = s.mem := by
  simp [promoteAged]

@[simp] theorem occupy_mem (s : State) (cs : List Nat) : (occupy s cs).1.mem = s.mem := by
  unfold occupy
  suffices h : ∀ r : State × List (Nat × Nat), (cs.foldl (fun r c =>
    match freeCtxOf (r.1.core c) with
    | none => r
    | some x => (r.1.modCore c (fun k => { k with held := x :: k.held, running := true }), r.2 ++ [(c, x)])) r).1.mem
      = r.1.mem from h (s, [])
  induction cs with
  | nil => intro r; rfl
  | cons c cs ih =>
    intro r
    rw [List.foldl_cons, ih]
    split <;> simp

theorem blind_mem (s : State) (kind : Nat) (l : List (Nat × Nat)) (b : Bytes) :
    (∀ t x, blind s kind l b = .ok (t, x) → t.mem = s.mem) ∧
    ∀ t i, blind s kind l b = .error (t, i) → t.mem = s.mem := by
  induction l generalizing s b with
  | nil => simp +contextual [blind]
  | cons p r ih =>
    obtain ⟨i, n⟩ := p
    have h1 := State.random_mem s i n s rfl
    simp only [blind]
    split
    · rename_i y x h
      rw [h] at h1
      have h2 : y.mem = s.mem := h1
      rw [← h2]
      exact ih y x
    · rename_i y h
      rw [h] at h1
      have h2 : y.mem = s.mem := h1
      split <;> refine ⟨fun t x e => ?_, fun t x e => ?_⟩ <;> cases e <;> simp [h2]
    · split <;> refine ⟨fun t x e => ?_, fun t x e => ?_⟩ <;> cases e <;> simp

@[simp] theorem endJob_mem (s : State) (j : Job) :
    (endJob s j).mem = s.mem := by
  simp [endJob]

@[simp] theorem failJob_mem (s : State) (j : Job) (status : Nat) :
    (failJob s j status).mem = s.mem := by
  unfold failJob; split <;> simp [*, apply_ite State.mem]

@[simp] theorem stopJob_mem (s : State) (j : Job) (status : Nat) :
    (stopJob s j status).mem = s.mem := by
  simp (maxDischargeDepth := 8) [stopJob, apply_ite State.mem]

@[simp] theorem startJob_mem (s : State) (j : Job) (cs : List Nat) : (startJob s j cs).mem = s.mem := by
  have h := blind_mem s j.kind (blindAsks j cs) []
  unfold startJob
  split
  · rename_i e
    simpa using h.2 _ _ e
  · rename_i e
    simpa using h.1 _ _ e

@[simp] theorem jobPlace_mem (s0 : State) :
    (jobPlace s0).mem = s0.mem := by
  unfold jobPlace; (repeat' (first | split | (dsimp only; split))) <;> simp [*, apply_ite State.mem]

@[simp] theorem State.runCores_mem (s : State) (j : Job) (on : Bool) :
    (State.runCores s j on).mem = s.mem := by
  simp [State.runCores]

@[simp] theorem resumeJob_mem (s : State) (j : Job) :
    (resumeJob s j).mem = s.mem := by
  simp [resumeJob]

@[simp] theorem parkGroup_mem (s : State) (j : Job) :
    (parkGroup s j).mem = s.mem := by
  simp [parkGroup]

@[simp] theorem yieldPoint_mem (job : Nat) (s0 : State) :
    (yieldPoint job s0).mem = s0.mem := by
  simp (maxDischargeDepth := 8) [yieldPoint, apply_ite State.mem] <;> (repeat' (first | rfl | (split <;> simp [*, apply_ite State.mem])))

@[simp] theorem jobResume_mem (job : Nat) (s0 : State) :
    (jobResume job s0).mem = s0.mem := by
  unfold jobResume; dsimp only; split <;> simp [*, apply_ite State.mem]

@[simp] theorem starvePromote_mem (job : Nat) (s : State) :
    (starvePromote job s).mem = s.mem := by
  unfold starvePromote; split <;> simp [*, apply_ite State.mem]

@[simp] theorem requestCorePick_mem (s : State) (c : Nat) :
    (requestCorePick s c).mem = s.mem := by
  simp [requestCorePick]

@[simp] theorem removeCore_mem (s : State) (c cause : Nat) :
    (removeCore s c cause).mem = s.mem := by
  simp [removeCore]

@[simp] theorem mismatchCore_mem (s : State) (c : Nat) :
    (mismatchCore s c).mem = s.mem := by
  simp [mismatchCore]

@[simp] theorem bnStepDone_mem (s : State) (c : Cmd) (a : StepArgs) (r : BnReq) (flag : Bool) (out : Bytes) :
    (bnStepDone s c a r flag out).mem = s.mem := by
  unfold bnStepDone; (repeat' split) <;> simp [*, apply_ite State.mem]

@[simp] theorem nextCandidate_mem (s : State) (j : Job) :
    (nextCandidate s j).mem = s.mem := by
  unfold nextCandidate; (repeat' (first | split | (dsimp only; split))) <;> first | (simp [*, apply_ite State.mem]; done) | (have h9 := random__bytes_mem (by assumption); simp_all [apply_ite State.mem]; done) | (have h9 := random__waits_mem (by assumption); simp_all [apply_ite State.mem]; done)

@[simp] theorem jobEnd_mem (job : Nat) (differ : Bool) (ecc : Option Nat) (s : State) :
    (jobEnd job differ ecc s).mem = s.mem := by
  unfold jobEnd; (repeat' split) <;> simp [*, apply_ite State.mem]

@[simp] theorem scrubFault_mem (s : State) (p : Place) (order : Nat) :
    (scrubFault s p order).mem = s.mem := by
  unfold scrubFault; split <;> simp [*, apply_ite State.mem]

@[simp] theorem contextScrubbed_mem (core ctx : Nat) (zero : Bool) (s : State) :
    (contextScrubbed core ctx zero s).mem = s.mem := by
  unfold contextScrubbed; split <;> simp [*, apply_ite State.mem]

@[simp] theorem keygenLimit_mem (job candidates : Nat) (s : State) :
    (keygenLimit job candidates s).mem = s.mem := by
  unfold keygenLimit; split <;> simp [*, apply_ite State.mem]

@[simp] theorem soundKey_mem (s : State) (c : Cmd) (k : Option KReg) (f : KReg → StepOut) (d0 : State)
    (hf : ∀ k, ((f k).st d0).mem = s.mem) : ((soundKey s c k f).st d0).mem = s.mem := by
  unfold soundKey
  split
  · simp
  · split
    · simp
    · exact hf _

@[simp] theorem withKey_mem (s : State) (c : Cmd) (reg usage : Nat) (algs : List Nat) (f : KReg → StepOut)
    (d0 : State) (hf : ∀ k, ((f k).st d0).mem = s.mem) :
    ((withKey s c reg usage algs f).st d0).mem = s.mem := soundKey_mem s c _ f d0 hf

theorem withKey_mem_cps (s : State) (c : Cmd) (reg usage : Nat) (algs : List Nat) (f : KReg → StepOut) (p : Mem)
    (d0 : State) (hs : s.mem = p) (hf : ∀ k, ((f k).st d0).mem = p) :
    ((withKey s c reg usage algs f).st d0).mem = p := by
  subst hs; exact withKey_mem s c reg usage algs f d0 hf

theorem soundKey_mem_cps (s : State) (c : Cmd) (k : Option KReg) (f : KReg → StepOut) (p : Mem)
    (d0 : State) (hs : s.mem = p) (hf : ∀ k, ((f k).st d0).mem = p) :
    ((soundKey s c k f).st d0).mem = p := by
  subst hs; exact soundKey_mem s c k f d0 hf

@[simp] theorem parkJob_mem (s : State) (c : Cmd) (r : BnReq) (d0 : State) (hd : d0.mem = s.mem) :
    ((parkJob s c r).st d0).mem = s.mem := by
  unfold parkJob
  split
  · rename_i h
    simpa [hd] using submit_error_mem h
  · rename_i h
    simpa [hd] using submit_mem h

@[simp] theorem bnRanges_mem (srcs : List (Nat × Nat)) (dst : Nat × Nat) (k : Unit → StepOut) (d : State)
    (hk : ((k ()).st d).mem = d.mem) : ((bnRanges srcs dst k).st d).mem = d.mem := by
  unfold bnRanges; split <;> simp [*]

theorem bnRanges_mem_cps (srcs : List (Nat × Nat)) (dst : Nat × Nat) (k : Unit → StepOut) (d : State) (p : Mem)
    (hd : d.mem = p) (hk : ((k ()).st d).mem = p) : ((bnRanges srcs dst k).st d).mem = p := by
  subst hd; exact bnRanges_mem srcs dst k d hk

@[simp] theorem bnEdSignOp_mem (s : State) (c : Cmd) (a : StepArgs) (d0 : State) (hd : d0.mem = s.mem) :
    ((bnEdSignOp s c a).st d0).mem = s.mem := by
  unfold bnEdSignOp; (repeat' (first | intro _ | apply withKey_mem_cps | apply bnRanges_mem_cps | split | (dsimp only; split))) <;> first | assumption | (simp (maxDischargeDepth := 8) [*, apply_ite State.mem]; done) | (simp_all [apply_ite State.mem]; done)

@[simp] theorem pubKey_mem (s : State) (c : Cmd) (a : StepArgs) (algs : List Nat) (f : Bytes → StepOut) (g : Unit → Bytes)
    (d0 : State) (hf : ∀ k, ((f k).st d0).mem = s.mem) :
    ((pubKey s c a algs f g).st d0).mem = s.mem := by
  unfold pubKey
  split <;> simp [*]

theorem pubKey_mem_cps (s : State) (c : Cmd) (a : StepArgs) (algs : List Nat) (f : Bytes → StepOut) (g : Unit → Bytes)
    (p : Mem) (d0 : State) (hs : s.mem = p) (hf : ∀ k, ((f k).st d0).mem = p) :
    ((pubKey s c a algs f g).st d0).mem = p := by
  subst hs; exact pubKey_mem s c a algs f g d0 hf

@[simp] theorem bnEdVerifyOp_mem (s : State) (c : Cmd) (a : StepArgs) (d0 : State) (hd : d0.mem = s.mem) :
    ((bnEdVerifyOp s c a).st d0).mem = s.mem := by
  unfold bnEdVerifyOp; (repeat' (first | intro _ | apply pubKey_mem_cps | apply bnRanges_mem_cps | split | (dsimp only; split))) <;> first | assumption | (simp (maxDischargeDepth := 8) [*, apply_ite State.mem]; done) | (simp_all [apply_ite State.mem]; done)

@[simp] theorem bnX25519Op_mem (s : State) (c : Cmd) (a : StepArgs) (d0 : State) (hd : d0.mem = s.mem) :
    ((bnX25519Op s c a).st d0).mem = s.mem := by
  unfold bnX25519Op; (repeat' (first | intro _ | apply withKey_mem_cps | apply bnRanges_mem_cps | split | (dsimp only; split))) <;> first | assumption | (simp (maxDischargeDepth := 8) [*, apply_ite State.mem]; done) | (simp_all [apply_ite State.mem]; done)

@[simp] theorem bnEcSignOp_mem (s : State) (c : Cmd) (a : StepArgs) (d0 : State) (hd : d0.mem = s.mem) :
    ((bnEcSignOp s c a).st d0).mem = s.mem := by
  unfold bnEcSignOp; (repeat' (first | intro _ | apply withKey_mem_cps | apply bnRanges_mem_cps | split | (dsimp only; split))) <;> first | assumption | (simp (maxDischargeDepth := 8) [*, apply_ite State.mem]; done) | (simp_all [apply_ite State.mem]; done)

@[simp] theorem bnEcVerifyOp_mem (s : State) (c : Cmd) (a : StepArgs) (d0 : State) (hd : d0.mem = s.mem) :
    ((bnEcVerifyOp s c a).st d0).mem = s.mem := by
  unfold bnEcVerifyOp; (repeat' (first | intro _ | apply pubKey_mem_cps | apply bnRanges_mem_cps | split | (dsimp only; split))) <;> first | assumption | (simp (maxDischargeDepth := 8) [*, apply_ite State.mem]; done) | (simp_all [apply_ite State.mem]; done)

@[simp] theorem bnRsaSignOp_mem (s : State) (c : Cmd) (a : StepArgs) (d0 : State) (hd : d0.mem = s.mem) :
    ((bnRsaSignOp s c a).st d0).mem = s.mem := by
  unfold bnRsaSignOp; (repeat' (first | intro _ | apply withKey_mem_cps | apply bnRanges_mem_cps | split | (dsimp only; split))) <;> first | assumption | (simp (maxDischargeDepth := 8) [*, apply_ite State.mem]; done) | (simp_all [apply_ite State.mem]; done)

@[simp] theorem bnRsaVerifyOp_mem (s : State) (c : Cmd) (a : StepArgs) (d0 : State) (hd : d0.mem = s.mem) :
    ((bnRsaVerifyOp s c a).st d0).mem = s.mem := by
  unfold bnRsaVerifyOp; (repeat' (first | intro _ | apply pubKey_mem_cps | apply bnRanges_mem_cps | split | (dsimp only; split))) <;> first | assumption | (simp (maxDischargeDepth := 8) [*, apply_ite State.mem]; done) | (simp_all [apply_ite State.mem]; done)

@[simp] theorem bnPublicOp_mem (s : State) (c : Cmd) (a : StepArgs) (d0 : State) (hd : d0.mem = s.mem) :
    ((bnPublicOp s c a).st d0).mem = s.mem := by
  unfold bnPublicOp; (repeat' (first | intro _ | apply withKey_mem_cps | apply bnRanges_mem_cps | split | (dsimp only; split))) <;> first | assumption | (simp (maxDischargeDepth := 8) [*, apply_ite State.mem]; done) | (simp_all [apply_ite State.mem]; done)

@[simp] theorem bnGenerateOp_mem (s : State) (c : Cmd) (a : StepArgs) (d0 : State) (hd : d0.mem = s.mem) :
    ((bnGenerateOp s c a).st d0).mem = s.mem := by
  unfold bnGenerateOp; (repeat' (first | intro _ | apply withKey_mem_cps | apply bnRanges_mem_cps | split | (dsimp only; split))) <;> first | assumption | (simp (maxDischargeDepth := 8) [*, apply_ite State.mem]; done) | (simp_all [apply_ite State.mem]; done)

@[simp] theorem withRandom_mem (s : State) (c : Cmd) (n : Nat) (f : State → Bytes → StepOut)
    (d0 : State) (hd : d0.mem = s.mem) (hf : ∀ t b, t.mem = s.mem → ((f t b).st d0).mem = s.mem) :
    ((withRandom s c n f).st d0).mem = s.mem := by
  have h1 := State.random_mem s (drbgOf c.place) n s rfl
  unfold withRandom
  split <;> simp_all

theorem withRandom_mem_cps (s : State) (c : Cmd) (n : Nat) (f : State → Bytes → StepOut) (p : Mem)
    (d0 : State) (hs : s.mem = p) (hd : d0.mem = p) (hf : ∀ t b, t.mem = p → ((f t b).st d0).mem = p) :
    ((withRandom s c n f).st d0).mem = p := by
  subst hs; exact withRandom_mem s c n f d0 hd hf

@[simp] theorem keyGetOp_mem (s : State) (c : Cmd) (a : StepArgs) (d0 : State) (hd : d0.mem = s.mem) :
    ((keyGetOp s c a).st d0).mem = s.mem := by
  unfold keyGetOp; (repeat' split) <;> simp [*, apply_ite State.mem]

@[simp] theorem rsaUnwrapStep_mem (s : State) (c : Cmd) (w : KReg) (block : Bytes) (d0 : State) (hd : d0.mem = s.mem) :
    ((rsaUnwrapStep s c w block).st d0).mem = s.mem := by
  unfold rsaUnwrapStep; (repeat' (first | split | (dsimp only; split))) <;> simp [*, apply_ite State.mem]

@[simp] theorem keyUnwrapOp_mem (s : State) (c : Cmd) (a : StepArgs) (d0 : State) (hd : d0.mem = s.mem) :
    ((keyUnwrapOp s c a).st d0).mem = s.mem := by
  unfold keyUnwrapOp; (repeat' (first | intro _ | apply withKey_mem_cps | split | (dsimp only; split))) <;> first | assumption | (simp (maxDischargeDepth := 8) [*, apply_ite State.mem]; done) | (simp_all [apply_ite State.mem]; done)

@[simp] theorem keyWrapOp_mem (s : State) (c : Cmd) (a : StepArgs) (d0 : State) (hd : d0.mem = s.mem) :
    ((keyWrapOp s c a).st d0).mem = s.mem := by
  unfold keyWrapOp
  split
  · simp [hd]
  · dsimp only
    split
    · simp [hd]
    · apply soundKey_mem; intro k
      apply withKey_mem; intro w
      split
      · simp
      · split
        · (repeat' split) <;> simp [hd]
        · split
          · simp
          · split
            · simp
            · refine withRandom_mem_cps _ _ _ _ _ _ (by simp) hd (fun t b h => ?_)
              split <;> simp [h]

@[simp] theorem keyDeriveOp_mem (s : State) (c : Cmd) (a : StepArgs) (d0 : State) (hd : d0.mem = s.mem) :
    ((keyDeriveOp s c a).st d0).mem = s.mem := by
  unfold keyDeriveOp; (repeat' split) <;> simp [*, apply_ite State.mem]

@[simp] theorem getDukpt_mem (s : State) (c : Cmd) (init : KReg) (reg t : Nat) (ksn : Bytes) (d0 : State) (hd : d0.mem = s.mem) :
    ((getDukpt s c init reg t ksn).st d0).mem = s.mem := by
  unfold getDukpt; (repeat' split) <;> simp [*, apply_ite State.mem]

@[simp] theorem keyDukptOp_mem (s : State) (c : Cmd) (a : StepArgs) (d0 : State) (hd : d0.mem = s.mem) :
    ((keyDukptOp s c a).st d0).mem = s.mem := by
  unfold keyDukptOp; (repeat' (first | intro _ | apply withKey_mem_cps | split | (dsimp only; split))) <;> first | assumption | (simp (maxDischargeDepth := 8) [*, apply_ite State.mem]; done) | (simp_all [apply_ite State.mem]; done)

@[simp] theorem keyGenerateOp_mem (s : State) (c : Cmd) (a : StepArgs) (d0 : State) (hd : d0.mem = s.mem) :
    ((keyGenerateOp s c a).st d0).mem = s.mem := by
  unfold keyGenerateOp; (repeat' (first | split | (dsimp only; split))) <;> simp [*, apply_ite State.mem]

theorem storeKey_mem {s : State} {c : Cmd} {k : KReg} {a : Bytes} {x : State × Cmd} (h : storeKey s c k a = .ok x) :
    x.1.mem = s.mem := by
  unfold storeKey at h
  dsimp only at h
  split at h
  · simp at h
  · split at h
    · simp at h
    · split at h
      · simp at h
      · simp only [Except.ok.injEq] at h; subst h; simp

@[simp] theorem keyStoreOp_mem (s : State) (c : Cmd) (a : StepArgs) (d0 : State) (hd : d0.mem = s.mem) :
    ((keyStoreOp s c a).st d0).mem = s.mem := by
  unfold keyStoreOp; (repeat' (first | intro _ | apply soundKey_mem_cps | split | (dsimp only; split))) <;> first | assumption | (simp (maxDischargeDepth := 8) [*, apply_ite State.mem]; done) | (simp_all [apply_ite State.mem]; done) | (have h9 := storeKey_mem (by assumption); simp_all [apply_ite State.mem]; done)

@[simp] theorem keyReleaseOp_mem (s : State) (c : Cmd) (a : StepArgs) (d0 : State) (hd : d0.mem = s.mem) :
    ((keyReleaseOp s c a).st d0).mem = s.mem := by
  simp [keyReleaseOp]

@[simp] theorem sweepStart_mem (s : State) :
    (sweepStart s).mem = s.mem := by
  simp (maxDischargeDepth := 8) [sweepStart, apply_ite State.mem]

@[simp] theorem sweepVisit_mem (s : State) :
    (sweepVisit s).mem = s.mem := by
  simp (maxDischargeDepth := 8) [sweepVisit, apply_ite State.mem]

end Sys2Proof.Machine
end

