-- ==== Sys2Proof/Laws/KeepsLoom.lean ====
section
/-! SUPPORT. What the operations of Sym and Loom leave alone: a lemma ending in `_pending` says that the
queue of waiting commands stays as it was, one ending in `_mem` that the RAM of the internal map does. -/

set_option linter.all false

namespace Sys2Proof.Machine

open Sys2Proof

/-! ## The queue -/

/-- The state key resolution leaves. -/
def Keys.st (_ : State) : Keys → State
  | .ready s _ => s
  | .stop s => s
@[simp] theorem Keys.st_ready (d s : State) (c : Cmd) : Keys.st d (.ready s c) = s := rfl
@[simp] theorem Keys.st_stop (d s : State) : Keys.st d (.stop s) = s := rfl

@[simp] theorem withCore_pending (s : State) (c : Cmd) (f : Unit → StepOut) (d0 : State) (hd : d0.pending = s.pending)
    (hf : ((f ()).st d0).pending = s.pending) : ((withCore s c f).st d0).pending = s.pending := by
  unfold withCore
  split <;> simp [*]

theorem withCore_pending_cps (s : State) (c : Cmd) (f : Unit → StepOut) (d0 : State) (p : List Instr) (hs : s.pending = p)
    (hd : d0.pending = p) (hf : ((f ()).st d0).pending = p) : ((withCore s c f).st d0).pending = p := by
  subst hs; exact withCore_pending s c f d0 hd hf

@[simp] theorem symBlocks_pending (usages : List Nat) (iv : Bool) (whole : Bool) (g : KeyInfo → Bytes → Bytes → Bytes) (s : State) (c : Cmd) (a : StepArgs) (d0 : State) (hd : d0.pending = s.pending) :
    ((symBlocks usages iv whole g s c a).st d0).pending = s.pending := by
  unfold symBlocks; (repeat' (first | intro _ | apply withCore_pending_cps | apply withKey_pending_cps | split | (dsimp only; split))) <;> first | assumption | (simp (maxDischargeDepth := 8) [*, apply_ite State.pending]; done) | (simp_all [apply_ite State.pending]; done)

@[simp] theorem symEcbEncOp_pending (s : State) (c : Cmd) (a : StepArgs) (d0 : State) (hd : d0.pending = s.pending) :
    ((symEcbEncOp s c a).st d0).pending = s.pending := by
  unfold symEcbEncOp
  simp [hd]

@[simp] theorem symEcbDecOp_pending (s : State) (c : Cmd) (a : StepArgs) (d0 : State) (hd : d0.pending = s.pending) :
    ((symEcbDecOp s c a).st d0).pending = s.pending := by
  unfold symEcbDecOp
  simp [hd]

@[simp] theorem symCbcEncOp_pending (s : State) (c : Cmd) (a : StepArgs) (d0 : State) (hd : d0.pending = s.pending) :
    ((symCbcEncOp s c a).st d0).pending = s.pending := by
  unfold symCbcEncOp
  simp [hd]

@[simp] theorem symCbcDecOp_pending (s : State) (c : Cmd) (a : StepArgs) (d0 : State) (hd : d0.pending = s.pending) :
    ((symCbcDecOp s c a).st d0).pending = s.pending := by
  unfold symCbcDecOp
  simp [hd]

@[simp] theorem symCtrOp_pending (s : State) (c : Cmd) (a : StepArgs) (d0 : State) (hd : d0.pending = s.pending) :
    ((symCtrOp s c a).st d0).pending = s.pending := by
  unfold symCtrOp
  simp [hd]

@[simp] theorem symCodeEcbOp_pending (s : State) (c : Cmd) (a : StepArgs) (d0 : State) (hd : d0.pending = s.pending) :
    ((symCodeEcbOp s c a).st d0).pending = s.pending := by
  unfold symCodeEcbOp
  simp [hd]

@[simp] theorem symCodeCbcOp_pending (s : State) (c : Cmd) (a : StepArgs) (d0 : State) (hd : d0.pending = s.pending) :
    ((symCodeCbcOp s c a).st d0).pending = s.pending := by
  unfold symCodeCbcOp; (repeat' (first | intro _ | apply withCore_pending_cps | apply withKey_pending_cps | split | (dsimp only; split))) <;> first | assumption | (simp (maxDischargeDepth := 8) [*, apply_ite State.pending]; done) | (simp_all [apply_ite State.pending]; done)

@[simp] theorem macEmv_pending (s : State) (c : Cmd) (a : StepArgs) (l : Nat) (d0 : State) (hd : d0.pending = s.pending) :
    ((macEmv s c a l).st d0).pending = s.pending := by
  unfold macEmv; (repeat' (first | intro _ | apply withCore_pending_cps | apply withKey_pending_cps | split | (dsimp only; split))) <;> first | assumption | (simp (maxDischargeDepth := 8) [*, apply_ite State.pending]; done) | (simp_all [apply_ite State.pending]; done)

@[simp] theorem macStep_pending (usage : Nat) (verify : Bool) (s : State) (c : Cmd) (a : StepArgs) (l : Nat) (d0 : State) (hd : d0.pending = s.pending) :
    ((macStep usage verify s c a l).st d0).pending = s.pending := by
  unfold macStep; (repeat' (first | intro _ | apply withCore_pending_cps | apply withKey_pending_cps | split | (dsimp only; split))) <;> first | assumption | (simp (maxDischargeDepth := 8) [*, apply_ite State.pending]; done) | (simp_all [apply_ite State.pending]; done)

@[simp] theorem symMacGenOp_pending (s : State) (c : Cmd) (a : StepArgs) (d0 : State) (hd : d0.pending = s.pending) :
    ((symMacGenOp s c a).st d0).pending = s.pending := by
  unfold symMacGenOp; (repeat' (first | split | (dsimp only; split))) <;> simp [*, apply_ite State.pending]

@[simp] theorem symMacVerifyOp_pending (s : State) (c : Cmd) (a : StepArgs) (d0 : State) (hd : d0.pending = s.pending) :
    ((symMacVerifyOp s c a).st d0).pending = s.pending := by
  unfold symMacVerifyOp; (repeat' split) <;> simp [*, apply_ite State.pending]

@[simp] theorem symHmacOp_pending (s : State) (c : Cmd) (a : StepArgs) (d0 : State) (hd : d0.pending = s.pending) :
    ((symHmacOp s c a).st d0).pending = s.pending := by
  unfold symHmacOp; (repeat' (first | intro _ | apply withCore_pending_cps | apply withKey_pending_cps | split | (dsimp only; split))) <;> first | assumption | (simp (maxDischargeDepth := 8) [*, apply_ite State.pending]; done) | (simp_all [apply_ite State.pending]; done)

@[simp] theorem symHmacVerifyOp_pending (s : State) (c : Cmd) (a : StepArgs) (d0 : State) (hd : d0.pending = s.pending) :
    ((symHmacVerifyOp s c a).st d0).pending = s.pending := by
  unfold symHmacVerifyOp; (repeat' (first | intro _ | apply withCore_pending_cps | apply withKey_pending_cps | split | (dsimp only; split))) <;> first | assumption | (simp (maxDischargeDepth := 8) [*, apply_ite State.pending]; done) | (simp_all [apply_ite State.pending]; done)

@[simp] theorem hashStep_pending (h n : Nat) (s : State) (c : Cmd) (a : StepArgs) (d0 : State) (hd : d0.pending = s.pending) :
    ((hashStep h n s c a).st d0).pending = s.pending := by
  unfold hashStep; (repeat' (first | intro _ | apply withCore_pending_cps | split | (dsimp only; split))) <;> first | assumption | (simp (maxDischargeDepth := 8) [*, apply_ite State.pending]; done) | (simp_all [apply_ite State.pending]; done)

@[simp] theorem symSha256Op_pending (s : State) (c : Cmd) (a : StepArgs) (d0 : State) (hd : d0.pending = s.pending) :
    ((symSha256Op s c a).st d0).pending = s.pending := by
  unfold symSha256Op; (repeat' split) <;> simp [*, apply_ite State.pending]

@[simp] theorem symSha512Op_pending (s : State) (c : Cmd) (a : StepArgs) (d0 : State) (hd : d0.pending = s.pending) :
    ((symSha512Op s c a).st d0).pending = s.pending := by
  unfold symSha512Op; split <;> simp [*, apply_ite State.pending]

@[simp] theorem freeDst_pending (s : State) (c : Cmd) (d n : Nat) (u : BitVec 4) (d0 : State) (hd : d0.pending = s.pending) :
    ((freeDst s c d n u).st d0).pending = s.pending := by
  simp [freeDst]

@[simp] theorem fmtPanFieldOp_pending (s : State) (c : Cmd) (a : StepArgs) (d0 : State) (hd : d0.pending = s.pending) :
    ((fmtPanFieldOp s c a).st d0).pending = s.pending := by
  unfold fmtPanFieldOp; (repeat' (first | split | (dsimp only; split))) <;> simp [*, apply_ite State.pending]

@[simp] theorem fmtPinDecodeOp_pending (s : State) (c : Cmd) (a : StepArgs) (d0 : State) (hd : d0.pending = s.pending) :
    ((fmtPinDecodeOp s c a).st d0).pending = s.pending := by
  unfold fmtPinDecodeOp; (repeat' (first | split | (dsimp only; split))) <;> simp [*, apply_ite State.pending]

@[simp] theorem fmtPinEncodeOp_pending (s : State) (c : Cmd) (a : StepArgs) (d0 : State) (hd : d0.pending = s.pending) :
    ((fmtPinEncodeOp s c a).st d0).pending = s.pending := by
  unfold fmtPinEncodeOp; (repeat' (first | split | (dsimp only; split))) <;> simp [*, apply_ite State.pending]

@[simp] theorem fmtDecimaliseOp_pending (s : State) (c : Cmd) (a : StepArgs) (d0 : State) (hd : d0.pending = s.pending) :
    ((fmtDecimaliseOp s c a).st d0).pending = s.pending := by
  unfold fmtDecimaliseOp; (repeat' split) <;> simp [*, apply_ite State.pending]

@[simp] theorem bcdStep_pending (g : Bytes → Option Bytes) (dlen : Nat → Nat) (s : State) (c : Cmd) (a : StepArgs) (d0 : State) (hd : d0.pending = s.pending) :
    ((bcdStep g dlen s c a).st d0).pending = s.pending := by
  unfold bcdStep; (repeat' split) <;> simp [*, apply_ite State.pending]

@[simp] theorem fmtBcdPackOp_pending (s : State) (c : Cmd) (a : StepArgs) (d0 : State) (hd : d0.pending = s.pending) :
    ((fmtBcdPackOp s c a).st d0).pending = s.pending := by
  unfold fmtBcdPackOp
  simp [hd]

@[simp] theorem fmtBcdUnpackOp_pending (s : State) (c : Cmd) (a : StepArgs) (d0 : State) (hd : d0.pending = s.pending) :
    ((fmtBcdUnpackOp s c a).st d0).pending = s.pending := by
  unfold fmtBcdUnpackOp
  simp [hd]

@[simp] theorem fmtPadOp_pending (s : State) (c : Cmd) (a : StepArgs) (d0 : State) (hd : d0.pending = s.pending) :
    ((fmtPadOp s c a).st d0).pending = s.pending := by
  unfold fmtPadOp; (repeat' (first | split | (dsimp only; split))) <;> simp [*, apply_ite State.pending]

@[simp] theorem fmtTlvFindOp_pending (s : State) (c : Cmd) (a : StepArgs) (d0 : State) (hd : d0.pending = s.pending) :
    ((fmtTlvFindOp s c a).st d0).pending = s.pending := by
  unfold fmtTlvFindOp; (repeat' split) <;> simp [*, apply_ite State.pending]

@[simp] theorem randGenOp_pending (s : State) (c : Cmd) (a : StepArgs) (d0 : State) (hd : d0.pending = s.pending) :
    ((randGenOp s c a).st d0).pending = s.pending := by
  unfold randGenOp; (repeat' (first | split | (dsimp only; split))) <;> simp_all [apply_ite State.pending]

@[simp] theorem loomRow_pending (s : State) (n k op : Nat) (body : State → Cmd → State) (hbody : ∀ z0 z1, (body z0 z1).pending = z0.pending) :
    (loomRow s n k op body).pending = s.pending := by
  unfold loomRow; (repeat' split) <;> simp [*, apply_ite State.pending]

@[simp] theorem failWith_pending (s : State) (c : Cmd) (status d : Nat) :
    (failWith s c status d).pending = s.pending := by
  simp [failWith]

@[simp] theorem badField_pending (s : State) (c : Cmd) (d : Nat) :
    (badField s c d).pending = s.pending := by
  simp [badField]

@[simp] theorem badLength_pending (s : State) (c : Cmd) :
    (badLength s c).pending = s.pending := by
  simp [badLength]

@[simp] theorem doneWith_pending (s : State) (c : Cmd) (inline reply : Bytes) :
    (doneWith s c inline reply).pending = s.pending := by
  simp [doneWith]

@[simp] theorem doneVerify_pending (s : State) (c : Cmd) (ok : Bool) :
    (doneVerify s c ok).pending = s.pending := by
  simp [doneVerify]

theorem Got.keys_pending (g : Got) (s0 d : State) : ((g.keys s0).st d).pending = (g.st s0).pending := by
  cases g <;> simp [Got.keys]

theorem needKeys_pending (s : State) (c : Cmd) (l : List (Nat × Nat × Nat)) (d : State) :
    ((needKeys s c l).st d).pending = s.pending := by
  induction l generalizing s c with
  | nil => rfl
  | cons x l ih =>
    obtain ⟨i, u, m⟩ := x
    simp only [needKeys]
    split
    · exact ih s c
    · have h1 := Got.keys_pending (getRef s c i i u m false) s d
      have h2 := getRef_pending s c i i u m false s rfl
      split
      · rename_i s1 c1 h
        rw [ih]
        rw [h, h2] at h1
        exact h1
      · rename_i x _ _
        exact h1.trans h2

@[simp] theorem withKeys_pending (s : State) (c : Cmd) (sym : Bool) (l : List (Nat × Nat × Nat)) (f : State → Cmd → State)
    (hf : ∀ t c, t.pending = s.pending → (f t c).pending = s.pending) : (withKeys s c sym l f).pending = s.pending := by
  have h := needKeys_pending s c l s
  unfold withKeys
  split
  · simp_all
  · rename_i s1 c1 h1
    have h2 : s1.pending = s.pending := by simpa [h1] using h
    split
    · exact hf _ _ h2
    · split
      · exact hf _ _ h2
      · simpa using h2
      · exact h2

theorem withKeys_pending_cps (s : State) (c : Cmd) (sym : Bool) (l : List (Nat × Nat × Nat)) (f : State → Cmd → State)
    (p : List Instr) (hs : s.pending = p) (hf : ∀ t c, t.pending = p → (f t c).pending = p) :
    (withKeys s c sym l f).pending = p := by
  subst hs; exact withKeys_pending s c sym l f hf

@[simp] theorem useKey_pending (s : State) (c : Cmd) (reg : Nat) (f : KReg → State) (hf : ∀ z, (f z).pending = s.pending) :
    (useKey s c reg f).pending = s.pending := by
  unfold useKey
  (repeat' split) <;> first | exact hf _ | exact hf _ _ | (simp; done) | simp

theorem useKey_pending_cps (s : State) (c : Cmd) (reg : Nat) (f : KReg → State) (p : List Instr) (hs : s.pending = p) (hf : ∀ z, (f z).pending = p) :
    (useKey s c reg f).pending = p := by
  subst hs; exact useKey_pending s c reg f hf

@[simp] theorem rowRandomWith_pending (s : State) (c : Cmd) (n : Nat) (add : Bytes) (f : State → Bytes → State)
    (hf : ∀ t b, t.pending = s.pending → (f t b).pending = s.pending) : (rowRandomWith s c n add f).pending = s.pending := by
  have h1 := State.randomWith_pending s (drbgOf c.place) n add s rfl
  unfold rowRandomWith
  split <;> simp_all

theorem rowRandomWith_pending_cps (s : State) (c : Cmd) (n : Nat) (add : Bytes) (f : State → Bytes → State) (p : List Instr)
    (hs : s.pending = p) (hf : ∀ t b, t.pending = p → (f t b).pending = p) : (rowRandomWith s c n add f).pending = p := by
  subst hs; exact rowRandomWith_pending s c n add f hf

@[simp] theorem rowRandom_pending (s : State) (c : Cmd) (n : Nat) (f : State → Bytes → State)
    (hf : ∀ t b, t.pending = s.pending → (f t b).pending = s.pending) : (rowRandom s c n f).pending = s.pending :=
  rowRandomWith_pending s c n [] f hf

theorem rowRandom_pending_cps (s : State) (c : Cmd) (n : Nat) (f : State → Bytes → State) (p : List Instr)
    (hs : s.pending = p) (hf : ∀ t b, t.pending = p → (f t b).pending = p) : (rowRandom s c n f).pending = p := by
  subst hs; exact rowRandom_pending s c n f hf

@[simp] theorem rowJob_pending (s : State) (c : Cmd) (r : BnReq) (f : Bool → Bytes → State) (hf : ∀ z y, (f z y).pending = s.pending) :
    (rowJob s c r f).pending = s.pending := by
  unfold rowJob
  split
  · exact hf _ _
  · split
    · rename_i h
      simpa using submit_error_pending h
    · rename_i h
      simpa using submit_pending h

theorem rowJob_pending_cps (s : State) (c : Cmd) (r : BnReq) (f : Bool → Bytes → State) (p : List Instr) (hs : s.pending = p) (hf : ∀ z y, (f z y).pending = p) :
    (rowJob s c r f).pending = p := by
  subst hs; exact rowJob_pending s c r f hf

@[simp] theorem rowStore_pending (s : State) (c : Cmd) (k : KReg) (attr : Bytes) (f : Nat → State) (hf : ∀ z, (f z).pending = s.pending) :
    (rowStore s c k attr f).pending = s.pending := by
  unfold rowStore
  (repeat' split) <;> first | exact hf _ | exact hf _ _ | (simp; done) | (have h9 := storeKey_pending (by assumption); simp_all)

theorem rowStore_pending_cps (s : State) (c : Cmd) (k : KReg) (attr : Bytes) (f : Nat → State) (p : List Instr) (hs : s.pending = p) (hf : ∀ z, (f z).pending = p) :
    (rowStore s c k attr f).pending = p := by
  subst hs; exact rowStore_pending s c k attr f hf

@[simp] theorem markHandled_pending (s : State) (b u w inc : Nat) :
    (markHandled s b u w inc).pending = s.pending := by
  unfold markHandled; split <;> simp [*, apply_ite State.pending]

theorem handleResult_pending {s : State} {k : KReg} {r : State × Bytes} (h : handleResult s k = some r) :
    r.1.pending = s.pending := by
  unfold handleResult at h
  split at h
  · simp at h
  · dsimp only at h
    rw [Option.map_eq_some_iff] at h
    obtain ⟨x, -, rfl⟩ := h
    simp

@[simp] theorem noHandle_pending (s : State) (c : Cmd) :
    (noHandle s c).pending = s.pending := by
  simp [noHandle]

/-! ## The RAM -/

@[simp] theorem withCore_mem (s : State) (c : Cmd) (f : Unit → StepOut) (d0 : State) (hd : d0.mem = s.mem)
    (hf : ((f ()).st d0).mem = s.mem) : ((withCore s c f).st d0).mem = s.mem := by
  unfold withCore
  split <;> simp [*]

theorem withCore_mem_cps (s : State) (c : Cmd) (f : Unit → StepOut) (d0 : State) (p : Mem) (hs : s.mem = p)
    (hd : d0.mem = p) (hf : ((f ()).st d0).mem = p) : ((withCore s c f).st d0).mem = p := by
  subst hs; exact withCore_mem s c f d0 hd hf

@[simp] theorem symBlocks_mem (usages : List Nat) (iv : Bool) (whole : Bool) (g : KeyInfo → Bytes → Bytes → Bytes) (s : State) (c : Cmd) (a : StepArgs) (d0 : State) (hd : d0.mem = s.mem) :
    ((symBlocks usages iv whole g s c a).st d0).mem = s.mem := by
  unfold symBlocks; (repeat' (first | intro _ | apply withCore_mem_cps | apply withKey_mem_cps | split | (dsimp only; split))) <;> first | assumption | (simp (maxDischargeDepth := 8) [*, apply_ite State.mem]; done) | (simp_all [apply_ite State.mem]; done)

@[simp] theorem symEcbEncOp_mem (s : State) (c : Cmd) (a : StepArgs) (d0 : State) (hd : d0.mem = s.mem) :
    ((symEcbEncOp s c a).st d0).mem = s.mem := by
  unfold symEcbEncOp
  simp [hd]

@[simp] theorem symEcbDecOp_mem (s : State) (c : Cmd) (a : StepArgs) (d0 : State) (hd : d0.mem = s.mem) :
    ((symEcbDecOp s c a).st d0).mem = s.mem := by
  unfold symEcbDecOp
  simp [hd]

@[simp] theorem symCbcEncOp_mem (s : State) (c : Cmd) (a : StepArgs) (d0 : State) (hd : d0.mem = s.mem) :
    ((symCbcEncOp s c a).st d0).mem = s.mem := by
  unfold symCbcEncOp
  simp [hd]

@[simp] theorem symCbcDecOp_mem (s : State) (c : Cmd) (a : StepArgs) (d0 : State) (hd : d0.mem = s.mem) :
    ((symCbcDecOp s c a).st d0).mem = s.mem := by
  unfold symCbcDecOp
  simp [hd]

@[simp] theorem symCtrOp_mem (s : State) (c : Cmd) (a : StepArgs) (d0 : State) (hd : d0.mem = s.mem) :
    ((symCtrOp s c a).st d0).mem = s.mem := by
  unfold symCtrOp
  simp [hd]

@[simp] theorem symCodeEcbOp_mem (s : State) (c : Cmd) (a : StepArgs) (d0 : State) (hd : d0.mem = s.mem) :
    ((symCodeEcbOp s c a).st d0).mem = s.mem := by
  unfold symCodeEcbOp
  simp [hd]

@[simp] theorem symCodeCbcOp_mem (s : State) (c : Cmd) (a : StepArgs) (d0 : State) (hd : d0.mem = s.mem) :
    ((symCodeCbcOp s c a).st d0).mem = s.mem := by
  unfold symCodeCbcOp; (repeat' (first | intro _ | apply withCore_mem_cps | apply withKey_mem_cps | split | (dsimp only; split))) <;> first | assumption | (simp (maxDischargeDepth := 8) [*, apply_ite State.mem]; done) | (simp_all [apply_ite State.mem]; done)

@[simp] theorem macEmv_mem (s : State) (c : Cmd) (a : StepArgs) (l : Nat) (d0 : State) (hd : d0.mem = s.mem) :
    ((macEmv s c a l).st d0).mem = s.mem := by
  unfold macEmv; (repeat' (first | intro _ | apply withCore_mem_cps | apply withKey_mem_cps | split | (dsimp only; split))) <;> first | assumption | (simp (maxDischargeDepth := 8) [*, apply_ite State.mem]; done) | (simp_all [apply_ite State.mem]; done)

@[simp] theorem macStep_mem (usage : Nat) (verify : Bool) (s : State) (c : Cmd) (a : StepArgs) (l : Nat) (d0 : State) (hd : d0.mem = s.mem) :
    ((macStep usage verify s c a l).st d0).mem = s.mem := by
  unfold macStep; (repeat' (first | intro _ | apply withCore_mem_cps | apply withKey_mem_cps | split | (dsimp only; split))) <;> first | assumption | (simp (maxDischargeDepth := 8) [*, apply_ite State.mem]; done) | (simp_all [apply_ite State.mem]; done)

@[simp] theorem symMacGenOp_mem (s : State) (c : Cmd) (a : StepArgs) (d0 : State) (hd : d0.mem = s.mem) :
    ((symMacGenOp s c a).st d0).mem = s.mem := by
  unfold symMacGenOp; (repeat' (first | split | (dsimp only; split))) <;> simp [*, apply_ite State.mem]

@[simp] theorem symMacVerifyOp_mem (s : State) (c : Cmd) (a : StepArgs) (d0 : State) (hd : d0.mem = s.mem) :
    ((symMacVerifyOp s c a).st d0).mem = s.mem := by
  unfold symMacVerifyOp; (repeat' split) <;> simp [*, apply_ite State.mem]

@[simp] theorem symHmacOp_mem (s : State) (c : Cmd) (a : StepArgs) (d0 : State) (hd : d0.mem = s.mem) :
    ((symHmacOp s c a).st d0).mem = s.mem := by
  unfold symHmacOp; (repeat' (first | intro _ | apply withCore_mem_cps | apply withKey_mem_cps | split | (dsimp only; split))) <;> first | assumption | (simp (maxDischargeDepth := 8) [*, apply_ite State.mem]; done) | (simp_all [apply_ite State.mem]; done)

@[simp] theorem symHmacVerifyOp_mem (s : State) (c : Cmd) (a : StepArgs) (d0 : State) (hd : d0.mem = s.mem) :
    ((symHmacVerifyOp s c a).st d0).mem = s.mem := by
  unfold symHmacVerifyOp; (repeat' (first | intro _ | apply withCore_mem_cps | apply withKey_mem_cps | split | (dsimp only; split))) <;> first | assumption | (simp (maxDischargeDepth := 8) [*, apply_ite State.mem]; done) | (simp_all [apply_ite State.mem]; done)

@[simp] theorem hashStep_mem (h n : Nat) (s : State) (c : Cmd) (a : StepArgs) (d0 : State) (hd : d0.mem = s.mem) :
    ((hashStep h n s c a).st d0).mem = s.mem := by
  unfold hashStep; (repeat' (first | intro _ | apply withCore_mem_cps | split | (dsimp only; split))) <;> first | assumption | (simp (maxDischargeDepth := 8) [*, apply_ite State.mem]; done) | (simp_all [apply_ite State.mem]; done)

@[simp] theorem symSha256Op_mem (s : State) (c : Cmd) (a : StepArgs) (d0 : State) (hd : d0.mem = s.mem) :
    ((symSha256Op s c a).st d0).mem = s.mem := by
  unfold symSha256Op; (repeat' split) <;> simp [*, apply_ite State.mem]

@[simp] theorem symSha512Op_mem (s : State) (c : Cmd) (a : StepArgs) (d0 : State) (hd : d0.mem = s.mem) :
    ((symSha512Op s c a).st d0).mem = s.mem := by
  unfold symSha512Op; split <;> simp [*, apply_ite State.mem]

@[simp] theorem freeDst_mem (s : State) (c : Cmd) (d n : Nat) (u : BitVec 4) (d0 : State) (hd : d0.mem = s.mem) :
    ((freeDst s c d n u).st d0).mem = s.mem := by
  simp [freeDst]

@[simp] theorem fmtPanFieldOp_mem (s : State) (c : Cmd) (a : StepArgs) (d0 : State) (hd : d0.mem = s.mem) :
    ((fmtPanFieldOp s c a).st d0).mem = s.mem := by
  unfold fmtPanFieldOp; (repeat' (first | split | (dsimp only; split))) <;> simp [*, apply_ite State.mem]

@[simp] theorem fmtPinDecodeOp_mem (s : State) (c : Cmd) (a : StepArgs) (d0 : State) (hd : d0.mem = s.mem) :
    ((fmtPinDecodeOp s c a).st d0).mem = s.mem := by
  unfold fmtPinDecodeOp; (repeat' (first | split | (dsimp only; split))) <;> simp [*, apply_ite State.mem]

@[simp] theorem fmtPinEncodeOp_mem (s : State) (c : Cmd) (a : StepArgs) (d0 : State) (hd : d0.mem = s.mem) :
    ((fmtPinEncodeOp s c a).st d0).mem = s.mem := by
  unfold fmtPinEncodeOp; (repeat' (first | split | (dsimp only; split))) <;> simp [*, apply_ite State.mem]

@[simp] theorem fmtDecimaliseOp_mem (s : State) (c : Cmd) (a : StepArgs) (d0 : State) (hd : d0.mem = s.mem) :
    ((fmtDecimaliseOp s c a).st d0).mem = s.mem := by
  unfold fmtDecimaliseOp; (repeat' split) <;> simp [*, apply_ite State.mem]

@[simp] theorem bcdStep_mem (g : Bytes → Option Bytes) (dlen : Nat → Nat) (s : State) (c : Cmd) (a : StepArgs) (d0 : State) (hd : d0.mem = s.mem) :
    ((bcdStep g dlen s c a).st d0).mem = s.mem := by
  unfold bcdStep; (repeat' split) <;> simp [*, apply_ite State.mem]

@[simp] theorem fmtBcdPackOp_mem (s : State) (c : Cmd) (a : StepArgs) (d0 : State) (hd : d0.mem = s.mem) :
    ((fmtBcdPackOp s c a).st d0).mem = s.mem := by
  unfold fmtBcdPackOp
  simp [hd]

@[simp] theorem fmtBcdUnpackOp_mem (s : State) (c : Cmd) (a : StepArgs) (d0 : State) (hd : d0.mem = s.mem) :
    ((fmtBcdUnpackOp s c a).st d0).mem = s.mem := by
  unfold fmtBcdUnpackOp
  simp [hd]

@[simp] theorem fmtPadOp_mem (s : State) (c : Cmd) (a : StepArgs) (d0 : State) (hd : d0.mem = s.mem) :
    ((fmtPadOp s c a).st d0).mem = s.mem := by
  unfold fmtPadOp; (repeat' (first | split | (dsimp only; split))) <;> simp [*, apply_ite State.mem]

@[simp] theorem fmtTlvFindOp_mem (s : State) (c : Cmd) (a : StepArgs) (d0 : State) (hd : d0.mem = s.mem) :
    ((fmtTlvFindOp s c a).st d0).mem = s.mem := by
  unfold fmtTlvFindOp; (repeat' split) <;> simp [*, apply_ite State.mem]

@[simp] theorem randGenOp_mem (s : State) (c : Cmd) (a : StepArgs) (d0 : State) (hd : d0.mem = s.mem) :
    ((randGenOp s c a).st d0).mem = s.mem := by
  unfold randGenOp; (repeat' (first | split | (dsimp only; split))) <;> simp_all [apply_ite State.mem]

@[simp] theorem loomRow_mem (s : State) (n k op : Nat) (body : State → Cmd → State) (hbody : ∀ z0 z1, (body z0 z1).mem = z0.mem) :
    (loomRow s n k op body).mem = s.mem := by
  unfold loomRow; (repeat' split) <;> simp [*, apply_ite State.mem]

@[simp] theorem failWith_mem (s : State) (c : Cmd) (status d : Nat) :
    (failWith s c status d).mem = s.mem := by
  simp [failWith]

@[simp] theorem badField_mem (s : State) (c : Cmd) (d : Nat) :
    (badField s c d).mem = s.mem := by
  simp [badField]

@[simp] theorem badLength_mem (s : State) (c : Cmd) :
    (badLength s c).mem = s.mem := by
  simp [badLength]

@[simp] theorem doneWith_mem (s : State) (c : Cmd) (inline reply : Bytes) :
    (doneWith s c inline reply).mem = s.mem := by
  simp [doneWith]

@[simp] theorem doneVerify_mem (s : State) (c : Cmd) (ok : Bool) :
    (doneVerify s c ok).mem = s.mem := by
  simp [doneVerify]

theorem Got.keys_mem (g : Got) (s0 d : State) : ((g.keys s0).st d).mem = (g.st s0).mem := by
  cases g <;> simp [Got.keys]

theorem needKeys_mem (s : State) (c : Cmd) (l : List (Nat × Nat × Nat)) (d : State) :
    ((needKeys s c l).st d).mem = s.mem := by
  induction l generalizing s c with
  | nil => rfl
  | cons x l ih =>
    obtain ⟨i, u, m⟩ := x
    simp only [needKeys]
    split
    · exact ih s c
    · have h1 := Got.keys_mem (getRef s c i i u m false) s d
      have h2 := getRef_mem s c i i u m false s rfl
      split
      · rename_i s1 c1 h
        rw [ih]
        rw [h, h2] at h1
        exact h1
      · rename_i x _ _
        exact h1.trans h2

@[simp] theorem withKeys_mem (s : State) (c : Cmd) (sym : Bool) (l : List (Nat × Nat × Nat)) (f : State → Cmd → State)
    (hf : ∀ t c, t.mem = s.mem → (f t c).mem = s.mem) : (withKeys s c sym l f).mem = s.mem := by
  have h := needKeys_mem s c l s
  unfold withKeys
  split
  · simp_all
  · rename_i s1 c1 h1
    have h2 : s1.mem = s.mem := by simpa [h1] using h
    split
    · exact hf _ _ h2
    · split
      · exact hf _ _ h2
      · simpa using h2
      · exact h2

theorem withKeys_mem_cps (s : State) (c : Cmd) (sym : Bool) (l : List (Nat × Nat × Nat)) (f : State → Cmd → State)
    (p : Mem) (hs : s.mem = p) (hf : ∀ t c, t.mem = p → (f t c).mem = p) :
    (withKeys s c sym l f).mem = p := by
  subst hs; exact withKeys_mem s c sym l f hf

@[simp] theorem useKey_mem (s : State) (c : Cmd) (reg : Nat) (f : KReg → State) (hf : ∀ z, (f z).mem = s.mem) :
    (useKey s c reg f).mem = s.mem := by
  unfold useKey
  (repeat' split) <;> first | exact hf _ | exact hf _ _ | (simp; done) | simp

theorem useKey_mem_cps (s : State) (c : Cmd) (reg : Nat) (f : KReg → State) (p : Mem) (hs : s.mem = p) (hf : ∀ z, (f z).mem = p) :
    (useKey s c reg f).mem = p := by
  subst hs; exact useKey_mem s c reg f hf

@[simp] theorem rowRandomWith_mem (s : State) (c : Cmd) (n : Nat) (add : Bytes) (f : State → Bytes → State)
    (hf : ∀ t b, t.mem = s.mem → (f t b).mem = s.mem) : (rowRandomWith s c n add f).mem = s.mem := by
  have h1 := State.randomWith_mem s (drbgOf c.place) n add s rfl
  unfold rowRandomWith
  split <;> simp_all

theorem rowRandomWith_mem_cps (s : State) (c : Cmd) (n : Nat) (add : Bytes) (f : State → Bytes → State) (p : Mem)
    (hs : s.mem = p) (hf : ∀ t b, t.mem = p → (f t b).mem = p) : (rowRandomWith s c n add f).mem = p := by
  subst hs; exact rowRandomWith_mem s c n add f hf

@[simp] theorem rowRandom_mem (s : State) (c : Cmd) (n : Nat) (f : State → Bytes → State)
    (hf : ∀ t b, t.mem = s.mem → (f t b).mem = s.mem) : (rowRandom s c n f).mem = s.mem :=
  rowRandomWith_mem s c n [] f hf

theorem rowRandom_mem_cps (s : State) (c : Cmd) (n : Nat) (f : State → Bytes → State) (p : Mem)
    (hs : s.mem = p) (hf : ∀ t b, t.mem = p → (f t b).mem = p) : (rowRandom s c n f).mem = p := by
  subst hs; exact rowRandom_mem s c n f hf

@[simp] theorem rowJob_mem (s : State) (c : Cmd) (r : BnReq) (f : Bool → Bytes → State) (hf : ∀ z y, (f z y).mem = s.mem) :
    (rowJob s c r f).mem = s.mem := by
  unfold rowJob
  split
  · exact hf _ _
  · split
    · rename_i h
      simpa using submit_error_mem h
    · rename_i h
      simpa using submit_mem h

theorem rowJob_mem_cps (s : State) (c : Cmd) (r : BnReq) (f : Bool → Bytes → State) (p : Mem) (hs : s.mem = p) (hf : ∀ z y, (f z y).mem = p) :
    (rowJob s c r f).mem = p := by
  subst hs; exact rowJob_mem s c r f hf

@[simp] theorem rowStore_mem (s : State) (c : Cmd) (k : KReg) (attr : Bytes) (f : Nat → State) (hf : ∀ z, (f z).mem = s.mem) :
    (rowStore s c k attr f).mem = s.mem := by
  unfold rowStore
  (repeat' split) <;> first | exact hf _ | exact hf _ _ | (simp; done) | (have h9 := storeKey_mem (by assumption); simp_all)

theorem rowStore_mem_cps (s : State) (c : Cmd) (k : KReg) (attr : Bytes) (f : Nat → State) (p : Mem) (hs : s.mem = p) (hf : ∀ z, (f z).mem = p) :
    (rowStore s c k attr f).mem = p := by
  subst hs; exact rowStore_mem s c k attr f hf

@[simp] theorem markHandled_mem (s : State) (b u w inc : Nat) :
    (markHandled s b u w inc).mem = s.mem := by
  unfold markHandled; split <;> simp [*, apply_ite State.mem]

theorem handleResult_mem {s : State} {k : KReg} {r : State × Bytes} (h : handleResult s k = some r) :
    r.1.mem = s.mem := by
  unfold handleResult at h
  split at h
  · simp at h
  · dsimp only at h
    rw [Option.map_eq_some_iff] at h
    obtain ⟨x, -, rfl⟩ := h
    simp

@[simp] theorem noHandle_mem (s : State) (c : Cmd) :
    (noHandle s c).mem = s.mem := by
  simp [noHandle]

end Sys2Proof.Machine
end

