-- ==== Sys2Proof/Laws/KeepsAsym.lean ====
section
/-! SUPPORT. What the operations of Payment and Asym leave alone: a lemma ending in `_pending` says that the
queue of waiting commands stays as it was, one ending in `_mem` that the RAM of the internal map does. -/

set_option linter.all false

namespace Sys2Proof.Machine

open Sys2Proof

/-! ## The queue -/

@[simp] theorem translateTo_pending (s : State) (c : Cmd) (outKey : KeyInfo) (fo : Nat) (pin pan : List Nat) :
    (translateTo s c outKey fo pin pan).pending = s.pending := by
  simp [translateTo]

@[simp] theorem pinTranslate_pending (s : State) (c : Cmd) :
    (pinTranslate s c).pending = s.pending := by
  unfold pinTranslate; (repeat' (first | intro _ | apply useKey_pending_cps | apply withKeys_pending_cps | split | (dsimp only; split))) <;> first | assumption | (simp (maxDischargeDepth := 8) [*, apply_ite State.pending]; done) | (simp_all [apply_ite State.pending]; done)

@[simp] theorem offsetRow_pending (verify : Bool) (f : State → Cmd → List Nat → List Nat → State) (s : State) (c : Cmd) (hf : ∀ z0 z1 z2 z3, (f z0 z1 z2 z3).pending = z0.pending) :
    (offsetRow verify f s c).pending = s.pending := by
  unfold offsetRow; (repeat' (first | intro _ | apply useKey_pending_cps | apply withKeys_pending_cps | split | (dsimp only; split))) <;> first | assumption | (simp (maxDischargeDepth := 8) [*, apply_ite State.pending]; done) | (simp_all [apply_ite State.pending]; done)

@[simp] theorem pinVerifyOffset_pending (s : State) (c : Cmd) :
    (pinVerifyOffset s c).pending = s.pending := by
  simp [pinVerifyOffset]

@[simp] theorem pinOffsetGenerate_pending (s : State) (c : Cmd) :
    (pinOffsetGenerate s c).pending = s.pending := by
  simp [pinOffsetGenerate]

@[simp] theorem pvvRow_pending (verify : Bool) (f : State → Cmd → List Nat → State) (s : State) (c : Cmd) (hf : ∀ z0 z1 z2, (f z0 z1 z2).pending = z0.pending) :
    (pvvRow verify f s c).pending = s.pending := by
  unfold pvvRow; (repeat' (first | intro _ | apply useKey_pending_cps | apply withKeys_pending_cps | split | (dsimp only; split))) <;> first | assumption | (simp (maxDischargeDepth := 8) [*, apply_ite State.pending]; done) | (simp_all [apply_ite State.pending]; done)

@[simp] theorem pinVerifyPvv_pending (s : State) (c : Cmd) :
    (pinVerifyPvv s c).pending = s.pending := by
  simp [pinVerifyPvv]

@[simp] theorem pvvGenerate_pending (s : State) (c : Cmd) :
    (pvvGenerate s c).pending = s.pending := by
  simp [pvvGenerate]

@[simp] theorem cvcRow_pending (verify : Bool) (f : State → Cmd → List Nat → State) (s : State) (c : Cmd) (hf : ∀ z0 z1 z2, (f z0 z1 z2).pending = z0.pending) :
    (cvcRow verify f s c).pending = s.pending := by
  unfold cvcRow; split <;> simp [*, apply_ite State.pending]

@[simp] theorem cvcGenerate_pending (s : State) (c : Cmd) :
    (cvcGenerate s c).pending = s.pending := by
  simp [cvcGenerate]

@[simp] theorem cvcVerify_pending (s : State) (c : Cmd) :
    (cvcVerify s c).pending = s.pending := by
  simp [cvcVerify]

@[simp] theorem emvArqcVerify_pending (s : State) (c : Cmd) :
    (emvArqcVerify s c).pending = s.pending := by
  unfold emvArqcVerify; split <;> simp [*, apply_ite State.pending]

@[simp] theorem withDukpt_pending (s : State) (c : Cmd) (t o l : Nat) (f : State → Cmd → KeyInfo → State)
    (hf : ∀ t c k, t.pending = s.pending → (f t c k).pending = s.pending) : (withDukpt s c t o l f).pending = s.pending := by
  unfold withDukpt
  apply useKey_pending
  intro init
  dsimp only
  split
  · simp
  · split
    · exact hf _ _ _ rfl
    · have h1 := Got.keys_pending (getDukpt s c init 2 t (c.inlB o (c.inl l 1))) s s
      have h2 := getDukpt_pending s c init 2 t (c.inlB o (c.inl l 1)) s rfl
      rw [h2] at h1
      split
      · rename_i h; rw [h] at h1; exact h1
      · rename_i h; rw [h] at h1
        exact useKey_pending_cps _ _ _ _ _ h1 (fun w => hf _ _ _ h1)

theorem withDukpt_pending_cps (s : State) (c : Cmd) (t o l : Nat) (f : State → Cmd → KeyInfo → State) (p : List Instr)
    (hs : s.pending = p) (hf : ∀ t c k, t.pending = p → (f t c k).pending = p) : (withDukpt s c t o l f).pending = p := by
  subst hs; exact withDukpt_pending s c t o l f hf

@[simp] theorem dukptPinTranslate_pending (s : State) (c : Cmd) :
    (dukptPinTranslate s c).pending = s.pending := by
  unfold dukptPinTranslate; (repeat' (first | intro _ | apply withDukpt_pending_cps | apply useKey_pending_cps | apply withKeys_pending_cps | split | (dsimp only; split))) <;> first | assumption | (simp (maxDischargeDepth := 8) [*, apply_ite State.pending]; done) | (simp_all [apply_ite State.pending]; done)

@[simp] theorem dukptDecrypt_pending (s : State) (c : Cmd) :
    (dukptDecrypt s c).pending = s.pending := by
  simp (maxDischargeDepth := 8) [dukptDecrypt, apply_ite State.pending]

@[simp] theorem dukptMacVerify_pending (s : State) (c : Cmd) :
    (dukptMacVerify s c).pending = s.pending := by
  simp (maxDischargeDepth := 8) [dukptMacVerify, apply_ite State.pending]

@[simp] theorem macRow_pending (usage : Nat) (verify : Bool) (s : State) (c : Cmd) :
    (macRow usage verify s c).pending = s.pending := by
  unfold macRow; split <;> simp [*, apply_ite State.pending]

@[simp] theorem kbImport_pending (s : State) (c : Cmd) :
    (kbImport s c).pending = s.pending := by
  simp (maxDischargeDepth := 8) [kbImport, apply_ite State.pending]

@[simp] theorem kbExport_pending (s : State) (c : Cmd) :
    (kbExport s c).pending = s.pending := by
  simp (maxDischargeDepth := 8) [kbExport, apply_ite State.pending]

@[simp] theorem kbTranslate_pending (s : State) (c : Cmd) : (kbTranslate s c).pending = s.pending := by
  unfold kbTranslate
  split
  · simp
  · apply withKeys_pending
    intro t c1 h
    refine useKey_pending_cps _ _ _ _ _ h (fun k => useKey_pending_cps _ _ _ _ _ h (fun w => ?_))
    generalize (refBlock c1 0).map kbHeader = g
    split
    · split
      · simp [h]
      · refine rowRandom_pending_cps _ _ _ _ _ (by simp [h]) (fun t2 b h2 => ?_)
        dsimp only
        split <;> simp [h2]
    · simp [h]

@[simp] theorem generateExport_pending (s : State) (c : Cmd) (k : KeyInfo) (lead : Bytes) (f : State → Cmd → State) (hf : ∀ z0 z1, (f z0 z1).pending = z0.pending) :
    (generateExport s c k lead f).pending = s.pending := by
  unfold generateExport; split <;> simp [*, apply_ite State.pending]

@[simp] theorem generateStore_pending (s : State) (c : Cmd) (reg : Nat) (f : Nat → Cmd → State) (hf : ∀ z0 z1, (f z0 z1).pending = s.pending) :
    (generateStore s c reg f).pending = s.pending := by
  unfold generateStore; split <;> simp [*, apply_ite State.pending]

@[simp] theorem kbGenerate_pending (s : State) (c : Cmd) :
    (kbGenerate s c).pending = s.pending := by
  unfold kbGenerate; (repeat' (first | intro _ | apply rowRandom_pending_cps | apply withKeys_pending_cps | split | (dsimp only; split))) <;> first | assumption | (simp (maxDischargeDepth := 8) [*, apply_ite State.pending]; done) | (simp_all [apply_ite State.pending]; done)

@[simp] theorem rngGenerate_pending (s : State) (c : Cmd) : (rngGenerate s c).pending = s.pending := by
  unfold rngGenerate
  split
  · simp
  · dsimp only
    split
    · simp
    · exact rowRandomWith_pending _ _ _ _ _ (fun t b h => by simp [h])

@[simp] theorem hashRow_pending (s : State) (c : Cmd) :
    (hashRow s c).pending = s.pending := by
  simp (maxDischargeDepth := 8) [hashRow, apply_ite State.pending]

@[simp] theorem asymKeys_pending (s : State) (c : Cmd) (sym : Bool) (l : List (Nat × Nat × Nat)) (f : State → Cmd → State)
    (hf : ∀ t c, t.pending = s.pending → (f t c).pending = s.pending) : (asymKeys s c sym l f).pending = s.pending :=
  withKeys_pending s c _ l f hf

theorem asymKeys_pending_cps (s : State) (c : Cmd) (sym : Bool) (l : List (Nat × Nat × Nat)) (f : State → Cmd → State)
    (p : List Instr) (hs : s.pending = p) (hf : ∀ t c, t.pending = p → (f t c).pending = p) :
    (asymKeys s c sym l f).pending = p := withKeys_pending_cps s c _ l f p hs hf

@[simp] theorem ed25519Sign_pending (s : State) (c : Cmd) :
    (ed25519Sign s c).pending = s.pending := by
  simp (maxDischargeDepth := 8) [ed25519Sign, apply_ite State.pending]

@[simp] theorem verifyJob_pending (s : State) (c : Cmd) (r : BnReq) :
    (verifyJob s c r).pending = s.pending := by
  simp [verifyJob]

@[simp] theorem ed25519Verify_pending (s : State) (c : Cmd) :
    (ed25519Verify s c).pending = s.pending := by
  simp (maxDischargeDepth := 8) [ed25519Verify, apply_ite State.pending]

@[simp] theorem giveKey_pending (s : State) (c : Cmd) (q : Ask) (k : KeyInfo) (n : Nat) :
    (giveKey s c q k n).pending = s.pending := by
  unfold giveKey
  dsimp only
  split
  · simp
  · rename_i h
    rw [Option.bind_eq_some_iff] at h
    obtain ⟨x, -, hx⟩ := h
    have := handleResult_pending hx
    simp_all

@[simp] theorem x25519Agree_pending (s : State) (c : Cmd) :
    (x25519Agree s c).pending = s.pending := by
  unfold x25519Agree; (repeat' (first | intro _ | apply asymKeys_pending_cps | apply rowJob_pending_cps | apply useKey_pending_cps | split | (dsimp only; split))) <;> first | assumption | (simp (maxDischargeDepth := 8) [*, apply_ite State.pending]; done) | (simp_all [apply_ite State.pending]; done)

@[simp] theorem asymPublic_pending (s : State) (c : Cmd) :
    (asymPublic s c).pending = s.pending := by
  simp (maxDischargeDepth := 8) [asymPublic, apply_ite State.pending]

@[simp] theorem ecdsaSign_pending (size : Nat) (s : State) (c : Cmd) :
    (ecdsaSign size s c).pending = s.pending := by
  simp (maxDischargeDepth := 8) [ecdsaSign, apply_ite State.pending]

@[simp] theorem ecdsaVerify_pending (size : Nat) (s : State) (c : Cmd) :
    (ecdsaVerify size s c).pending = s.pending := by
  simp (maxDischargeDepth := 8) [ecdsaVerify, apply_ite State.pending]

@[simp] theorem rsaSign_pending (size : Nat) (s : State) (c : Cmd) :
    (rsaSign size s c).pending = s.pending := by
  simp (maxDischargeDepth := 8) [rsaSign, apply_ite State.pending]

@[simp] theorem rsaVerify_pending (size : Nat) (s : State) (c : Cmd) :
    (rsaVerify size s c).pending = s.pending := by
  simp (maxDischargeDepth := 8) [rsaVerify, apply_ite State.pending]

@[simp] theorem rsaKeyWrap_pending (size : Nat) (s : State) (c : Cmd) :
    (rsaKeyWrap size s c).pending = s.pending := by
  simp (maxDischargeDepth := 8) [rsaKeyWrap, apply_ite State.pending]

@[simp] theorem rsaKeyUnwrap_pending (size : Nat) (s : State) (c : Cmd) :
    (rsaKeyUnwrap size s c).pending = s.pending := by
  unfold rsaKeyUnwrap; (repeat' (first | intro _ | apply asymKeys_pending_cps | apply rowJob_pending_cps | apply useKey_pending_cps | split | (dsimp only; split))) <;> first | assumption | (simp (maxDischargeDepth := 8) [*, apply_ite State.pending]; done) | (simp_all [apply_ite State.pending]; done)

@[simp] theorem asymGenerate_pending (s : State) (c : Cmd) :
    (asymGenerate s c).pending = s.pending := by
  unfold asymGenerate; (repeat' (first | intro _ | apply asymKeys_pending_cps | apply rowJob_pending_cps | split | (dsimp only; split))) <;> first | assumption | (simp (maxDischargeDepth := 8) [*, apply_ite State.pending]; done) | (simp_all [apply_ite State.pending]; done)

@[simp] theorem rsaGenerate_pending (size : Nat) (s : State) (c : Cmd) :
    (rsaGenerate size s c).pending = s.pending := by
  simp (maxDischargeDepth := 8) [rsaGenerate, apply_ite State.pending]

/-! ## The RAM -/

@[simp] theorem translateTo_mem (s : State) (c : Cmd) (outKey : KeyInfo) (fo : Nat) (pin pan : List Nat) :
    (translateTo s c outKey fo pin pan).mem = s.mem := by
  simp [translateTo]

@[simp] theorem pinTranslate_mem (s : State) (c : Cmd) :
    (pinTranslate s c).mem = s.mem := by
  unfold pinTranslate; (repeat' (first | intro _ | apply useKey_mem_cps | apply withKeys_mem_cps | split | (dsimp only; split))) <;> first | assumption | (simp (maxDischargeDepth := 8) [*, apply_ite State.mem]; done) | (simp_all [apply_ite State.mem]; done)

@[simp] theorem offsetRow_mem (verify : Bool) (f : State → Cmd → List Nat → List Nat → State) (s : State) (c : Cmd) (hf : ∀ z0 z1 z2 z3, (f z0 z1 z2 z3).mem = z0.mem) :
    (offsetRow verify f s c).mem = s.mem := by
  unfold offsetRow; (repeat' (first | intro _ | apply useKey_mem_cps | apply withKeys_mem_cps | split | (dsimp only; split))) <;> first | assumption | (simp (maxDischargeDepth := 8) [*, apply_ite State.mem]; done) | (simp_all [apply_ite State.mem]; done)

@[simp] theorem pinVerifyOffset_mem (s : State) (c : Cmd) :
    (pinVerifyOffset s c).mem = s.mem := by
  simp [pinVerifyOffset]

@[simp] theorem pinOffsetGenerate_mem (s : State) (c : Cmd) :
    (pinOffsetGenerate s c).mem = s.mem := by
  simp [pinOffsetGenerate]

@[simp] theorem pvvRow_mem (verify : Bool) (f : State → Cmd → List Nat → State) (s : State) (c : Cmd) (hf : ∀ z0 z1 z2, (f z0 z1 z2).mem = z0.mem) :
    (pvvRow verify f s c).mem = s.mem := by
  unfold pvvRow; (repeat' (first | intro _ | apply useKey_mem_cps | apply withKeys_mem_cps | split | (dsimp only; split))) <;> first | assumption | (simp (maxDischargeDepth := 8) [*, apply_ite State.mem]; done) | (simp_all [apply_ite State.mem]; done)

@[simp] theorem pinVerifyPvv_mem (s : State) (c : Cmd) :
    (pinVerifyPvv s c).mem = s.mem := by
  simp [pinVerifyPvv]

@[simp] theorem pvvGenerate_mem (s : State) (c : Cmd) :
    (pvvGenerate s c).mem = s.mem := by
  simp [pvvGenerate]

@[simp] theorem cvcRow_mem (verify : Bool) (f : State → Cmd → List Nat → State) (s : State) (c : Cmd) (hf : ∀ z0 z1 z2, (f z0 z1 z2).mem = z0.mem) :
    (cvcRow verify f s c).mem = s.mem := by
  unfold cvcRow; split <;> simp [*, apply_ite State.mem]

@[simp] theorem cvcGenerate_mem (s : State) (c : Cmd) :
    (cvcGenerate s c).mem = s.mem := by
  simp [cvcGenerate]

@[simp] theorem cvcVerify_mem (s : State) (c : Cmd) :
    (cvcVerify s c).mem = s.mem := by
  simp [cvcVerify]

@[simp] theorem emvArqcVerify_mem (s : State) (c : Cmd) :
    (emvArqcVerify s c).mem = s.mem := by
  unfold emvArqcVerify; split <;> simp [*, apply_ite State.mem]

@[simp] theorem withDukpt_mem (s : State) (c : Cmd) (t o l : Nat) (f : State → Cmd → KeyInfo → State)
    (hf : ∀ t c k, t.mem = s.mem → (f t c k).mem = s.mem) : (withDukpt s c t o l f).mem = s.mem := by
  unfold withDukpt
  apply useKey_mem
  intro init
  dsimp only
  split
  · simp
  · split
    · exact hf _ _ _ rfl
    · have h1 := Got.keys_mem (getDukpt s c init 2 t (c.inlB o (c.inl l 1))) s s
      have h2 := getDukpt_mem s c init 2 t (c.inlB o (c.inl l 1)) s rfl
      rw [h2] at h1
      split
      · rename_i h; rw [h] at h1; exact h1
      · rename_i h; rw [h] at h1
        exact useKey_mem_cps _ _ _ _ _ h1 (fun w => hf _ _ _ h1)

theorem withDukpt_mem_cps (s : State) (c : Cmd) (t o l : Nat) (f : State → Cmd → KeyInfo → State) (p : Mem)
    (hs : s.mem = p) (hf : ∀ t c k, t.mem = p → (f t c k).mem = p) : (withDukpt s c t o l f).mem = p := by
  subst hs; exact withDukpt_mem s c t o l f hf

@[simp] theorem dukptPinTranslate_mem (s : State) (c : Cmd) :
    (dukptPinTranslate s c).mem = s.mem := by
  unfold dukptPinTranslate; (repeat' (first | intro _ | apply withDukpt_mem_cps | apply useKey_mem_cps | apply withKeys_mem_cps | split | (dsimp only; split))) <;> first | assumption | (simp (maxDischargeDepth := 8) [*, apply_ite State.mem]; done) | (simp_all [apply_ite State.mem]; done)

@[simp] theorem dukptDecrypt_mem (s : State) (c : Cmd) :
    (dukptDecrypt s c).mem = s.mem := by
  simp (maxDischargeDepth := 8) [dukptDecrypt, apply_ite State.mem]

@[simp] theorem dukptMacVerify_mem (s : State) (c : Cmd) :
    (dukptMacVerify s c).mem = s.mem := by
  simp (maxDischargeDepth := 8) [dukptMacVerify, apply_ite State.mem]

@[simp] theorem macRow_mem (usage : Nat) (verify : Bool) (s : State) (c : Cmd) :
    (macRow usage verify s c).mem = s.mem := by
  unfold macRow; split <;> simp [*, apply_ite State.mem]

@[simp] theorem kbImport_mem (s : State) (c : Cmd) :
    (kbImport s c).mem = s.mem := by
  simp (maxDischargeDepth := 8) [kbImport, apply_ite State.mem]

@[simp] theorem kbExport_mem (s : State) (c : Cmd) :
    (kbExport s c).mem = s.mem := by
  simp (maxDischargeDepth := 8) [kbExport, apply_ite State.mem]

@[simp] theorem kbTranslate_mem (s : State) (c : Cmd) : (kbTranslate s c).mem = s.mem := by
  unfold kbTranslate
  split
  · simp
  · apply withKeys_mem
    intro t c1 h
    refine useKey_mem_cps _ _ _ _ _ h (fun k => useKey_mem_cps _ _ _ _ _ h (fun w => ?_))
    generalize (refBlock c1 0).map kbHeader = g
    split
    · split
      · simp [h]
      · refine rowRandom_mem_cps _ _ _ _ _ (by simp [h]) (fun t2 b h2 => ?_)
        dsimp only
        split <;> simp [h2]
    · simp [h]

@[simp] theorem generateExport_mem (s : State) (c : Cmd) (k : KeyInfo) (lead : Bytes) (f : State → Cmd → State) (hf : ∀ z0 z1, (f z0 z1).mem = z0.mem) :
    (generateExport s c k lead f).mem = s.mem := by
  unfold generateExport; split <;> simp [*, apply_ite State.mem]

@[simp] theorem generateStore_mem (s : State) (c : Cmd) (reg : Nat) (f : Nat → Cmd → State) (hf : ∀ z0 z1, (f z0 z1).mem = s.mem) :
    (generateStore s c reg f).mem = s.mem := by
  unfold generateStore; split <;> simp [*, apply_ite State.mem]

@[simp] theorem kbGenerate_mem (s : State) (c : Cmd) :
    (kbGenerate s c).mem = s.mem := by
  unfold kbGenerate; (repeat' (first | intro _ | apply rowRandom_mem_cps | apply withKeys_mem_cps | split | (dsimp only; split))) <;> first | assumption | (simp (maxDischargeDepth := 8) [*, apply_ite State.mem]; done) | (simp_all [apply_ite State.mem]; done)

@[simp] theorem rngGenerate_mem (s : State) (c : Cmd) : (rngGenerate s c).mem = s.mem := by
  unfold rngGenerate
  split
  · simp
  · dsimp only
    split
    · simp
    · exact rowRandomWith_mem _ _ _ _ _ (fun t b h => by simp [h])

@[simp] theorem hashRow_mem (s : State) (c : Cmd) :
    (hashRow s c).mem = s.mem := by
  simp (maxDischargeDepth := 8) [hashRow, apply_ite State.mem]

@[simp] theorem asymKeys_mem (s : State) (c : Cmd) (sym : Bool) (l : List (Nat × Nat × Nat)) (f : State → Cmd → State)
    (hf : ∀ t c, t.mem = s.mem → (f t c).mem = s.mem) : (asymKeys s c sym l f).mem = s.mem :=
  withKeys_mem s c _ l f hf

theorem asymKeys_mem_cps (s : State) (c : Cmd) (sym : Bool) (l : List (Nat × Nat × Nat)) (f : State → Cmd → State)
    (p : Mem) (hs : s.mem = p) (hf : ∀ t c, t.mem = p → (f t c).mem = p) :
    (asymKeys s c sym l f).mem = p := withKeys_mem_cps s c _ l f p hs hf

@[simp] theorem ed25519Sign_mem (s : State) (c : Cmd) :
    (ed25519Sign s c).mem = s.mem := by
  simp (maxDischargeDepth := 8) [ed25519Sign, apply_ite State.mem]

@[simp] theorem verifyJob_mem (s : State) (c : Cmd) (r : BnReq) :
    (verifyJob s c r).mem = s.mem := by
  simp [verifyJob]

@[simp] theorem ed25519Verify_mem (s : State) (c : Cmd) :
    (ed25519Verify s c).mem = s.mem := by
  simp (maxDischargeDepth := 8) [ed25519Verify, apply_ite State.mem]

@[simp] theorem giveKey_mem (s : State) (c : Cmd) (q : Ask) (k : KeyInfo) (n : Nat) :
    (giveKey s c q k n).mem = s.mem := by
  unfold giveKey
  dsimp only
  split
  · simp
  · rename_i h
    rw [Option.bind_eq_some_iff] at h
    obtain ⟨x, -, hx⟩ := h
    have := handleResult_mem hx
    simp_all

@[simp] theorem x25519Agree_mem (s : State) (c : Cmd) :
    (x25519Agree s c).mem = s.mem := by
  unfold x25519Agree; (repeat' (first | intro _ | apply asymKeys_mem_cps | apply rowJob_mem_cps | apply useKey_mem_cps | split | (dsimp only; split))) <;> first | assumption | (simp (maxDischargeDepth := 8) [*, apply_ite State.mem]; done) | (simp_all [apply_ite State.mem]; done)

@[simp] theorem asymPublic_mem (s : State) (c : Cmd) :
    (asymPublic s c).mem = s.mem := by
  simp (maxDischargeDepth := 8) [asymPublic, apply_ite State.mem]

@[simp] theorem ecdsaSign_mem (size : Nat) (s : State) (c : Cmd) :
    (ecdsaSign size s c).mem = s.mem := by
  simp (maxDischargeDepth := 8) [ecdsaSign, apply_ite State.mem]

@[simp] theorem ecdsaVerify_mem (size : Nat) (s : State) (c : Cmd) :
    (ecdsaVerify size s c).mem = s.mem := by
  simp (maxDischargeDepth := 8) [ecdsaVerify, apply_ite State.mem]

@[simp] theorem rsaSign_mem (size : Nat) (s : State) (c : Cmd) :
    (rsaSign size s c).mem = s.mem := by
  simp (maxDischargeDepth := 8) [rsaSign, apply_ite State.mem]

@[simp] theorem rsaVerify_mem (size : Nat) (s : State) (c : Cmd) :
    (rsaVerify size s c).mem = s.mem := by
  simp (maxDischargeDepth := 8) [rsaVerify, apply_ite State.mem]

@[simp] theorem rsaKeyWrap_mem (size : Nat) (s : State) (c : Cmd) :
    (rsaKeyWrap size s c).mem = s.mem := by
  simp (maxDischargeDepth := 8) [rsaKeyWrap, apply_ite State.mem]

@[simp] theorem rsaKeyUnwrap_mem (size : Nat) (s : State) (c : Cmd) :
    (rsaKeyUnwrap size s c).mem = s.mem := by
  unfold rsaKeyUnwrap; (repeat' (first | intro _ | apply asymKeys_mem_cps | apply rowJob_mem_cps | apply useKey_mem_cps | split | (dsimp only; split))) <;> first | assumption | (simp (maxDischargeDepth := 8) [*, apply_ite State.mem]; done) | (simp_all [apply_ite State.mem]; done)

@[simp] theorem asymGenerate_mem (s : State) (c : Cmd) :
    (asymGenerate s c).mem = s.mem := by
  unfold asymGenerate; (repeat' (first | intro _ | apply asymKeys_mem_cps | apply rowJob_mem_cps | split | (dsimp only; split))) <;> first | assumption | (simp (maxDischargeDepth := 8) [*, apply_ite State.mem]; done) | (simp_all [apply_ite State.mem]; done)

@[simp] theorem rsaGenerate_mem (size : Nat) (s : State) (c : Cmd) :
    (rsaGenerate size s c).mem = s.mem := by
  simp (maxDischargeDepth := 8) [rsaGenerate, apply_ite State.mem]

end Sys2Proof.Machine
end

