-- ==== Sys2Proof/Laws/KeepsQuorum.lean ====
section
/-! SUPPORT. What the operations of Quorum, Partition, Rng and Time leave alone: a lemma ending in `_pending` says that the
queue of waiting commands stays as it was, one ending in `_mem` that the RAM of the internal map does. -/

set_option linter.all false

namespace Sys2Proof.Machine

open Sys2Proof

/-! ## The queue -/

@[simp] theorem stewardRow_pending (s : State) (i op : Nat) (body : State → Cmd → State) (hbody : ∀ z0 z1, (body z0 z1).pending = z0.pending) :
    (stewardRow s i op body).pending = s.pending := by
  unfold stewardRow; (repeat' split) <;> simp [*, apply_ite State.pending]

@[simp] theorem okInline_pending (s : State) (c : Cmd) (inline : Bytes) :
    (okInline s c inline).pending = s.pending := by
  simp [okInline]

@[simp] theorem okReply_pending (s : State) (c : Cmd) (inline reply : Bytes) :
    (okReply s c inline reply).pending = s.pending := by
  simp [okReply]

@[simp] theorem failDetail_pending (s : State) (c : Cmd) (status : Nat) (detail : Bytes) :
    (failDetail s c status detail).pending = s.pending := by
  simp [failDetail]

@[simp] theorem commitDone_pending (s0 s : State) (c : Cmd) (typ part : Nat) (body inline reply : Bytes)
    (h : s.pending = s0.pending) : (commitDone s0 s c typ part body inline reply).pending = s0.pending := by
  unfold commitDone
  split <;> simp [h]

@[simp] theorem issueNonce_pending (s : State) (part value : Nat) :
    (issueNonce s part value).pending = s.pending := by
  simp (maxDischargeDepth := 8) [issueNonce, apply_ite State.pending]

@[simp] theorem useNonce_pending (s : State) (part value : Nat) :
    (useNonce s part value).pending = s.pending := by
  simp [useNonce]

@[simp] theorem nonceExpiry_pending (part value : Nat) (s : State) :
    (nonceExpiry part value s).pending = s.pending := by
  unfold nonceExpiry; split <;> simp [*, apply_ite State.pending]

@[simp] theorem withQuorum_pending (s : State) (c : Cmd) (f : State) (h : f.pending = s.pending) :
    (withQuorum s c f).pending = s.pending := by
  unfold withQuorum
  split <;> simp [h]

@[simp] theorem verifyQuorum_pending (s : State) (c : Cmd) (d : Demand) : (verifyQuorum s c d).1.pending = s.pending := by
  unfold verifyQuorum
  (repeat' (first | split | (dsimp only; split))) <;> simp

@[simp] theorem beginVerify_pending (s : State) :
    (beginVerify s).pending = s.pending := by
  simp [beginVerify]

@[simp] theorem partGoneFail_pending (s : State) (c : Cmd) :
    (partGoneFail s c).pending = s.pending := by
  simp (maxDischargeDepth := 8) [partGoneFail, apply_ite State.pending]

@[simp] theorem quorumVerifyDone_pending (p : Place) (s : State) :
    (quorumVerifyDone p s).pending = s.pending := by
  simp (maxDischargeDepth := 8) [quorumVerifyDone, apply_ite State.pending] <;> (repeat' (first | rfl | (split <;> simp [*, apply_ite State.pending])))

@[simp] theorem qrNonce_pending (s : State) (c : Cmd) :
    (qrNonce s c).pending = s.pending := by
  unfold qrNonce; (repeat' (first | split | (dsimp only; split))) <;> first | (simp [*, apply_ite State.pending]; done) | (have h9 := random__bytes_pending (by assumption); simp_all [apply_ite State.pending]; done) | (have h9 := random__waits_pending (by assumption); simp_all [apply_ite State.pending]; done)

@[simp] theorem custCommit_pending (s : State) (c : Cmd) (p : Part) (r : Bytes) :
    (custCommit s c p r).pending = s.pending := by
  simp (maxDischargeDepth := 8) [custCommit, apply_ite State.pending]

@[simp] theorem custSet_pending (s : State) (c : Cmd) :
    (custSet s c).pending = s.pending := by
  simp (maxDischargeDepth := 8) [custSet, apply_ite State.pending] <;> (repeat' (first | rfl | (split <;> simp [*, apply_ite State.pending])))

@[simp] theorem custQuery_pending (s : State) (c : Cmd) :
    (custQuery s c).pending = s.pending := by
  simp (maxDischargeDepth := 8) [custQuery, apply_ite State.pending] <;> (repeat' (first | rfl | (split <;> simp [*, apply_ite State.pending])))

@[simp] theorem partDone_pending (s : State) (c : Cmd) (p : Part) (inline : Bytes) :
    (partDone s c p inline).pending = s.pending := by
  simp [partDone]

@[simp] theorem partCreateBody_pending (s : State) (c : Cmd) (par : Part) (r : Bytes) :
    (partCreateBody s c par r).pending = s.pending := by
  unfold partCreateBody; split <;> simp [*, apply_ite State.pending]

@[simp] theorem partCreate_pending (s : State) (c : Cmd) :
    (partCreate s c).pending = s.pending := by
  unfold partCreate; dsimp only; split <;> simp [*, apply_ite State.pending]

@[simp] theorem partModifyBody_pending (s : State) (c : Cmd) (p : Part) (r : Bytes) :
    (partModifyBody s c p r).pending = s.pending := by
  simp (maxDischargeDepth := 8) [partModifyBody, apply_ite State.pending]

@[simp] theorem partModify_pending (s : State) (c : Cmd) :
    (partModify s c).pending = s.pending := by
  unfold partModify; dsimp only; split <;> simp [*, apply_ite State.pending]

@[simp] theorem partSetAccessKey_pending (s : State) (c : Cmd) :
    (partSetAccessKey s c).pending = s.pending := by
  simp (maxDischargeDepth := 8) [partSetAccessKey, apply_ite State.pending] <;> (repeat' (first | rfl | (split <;> simp [*, apply_ite State.pending])))

@[simp] theorem partEnableOpcodes_pending (s : State) (c : Cmd) :
    (partEnableOpcodes s c).pending = s.pending := by
  unfold partEnableOpcodes; split <;> simp [*, apply_ite State.pending]

@[simp] theorem partSetCachePolicy_pending (s : State) (c : Cmd) :
    (partSetCachePolicy s c).pending = s.pending := by
  unfold partSetCachePolicy; dsimp only; split <;> simp [*, apply_ite State.pending]

@[simp] theorem partQuery_pending (s : State) (c : Cmd) :
    (partQuery s c).pending = s.pending := by
  simp (maxDischargeDepth := 8) [partQuery, apply_ite State.pending] <;> (repeat' (first | rfl | (split <;> simp [*, apply_ite State.pending])))

@[simp] theorem qCreate_pending (s : State) (c : Cmd) :
    (qCreate s c).pending = s.pending := by
  simp (maxDischargeDepth := 8) [qCreate, apply_ite State.pending] <;> (repeat' (first | rfl | (split <;> simp [*, apply_ite State.pending])))

@[simp] theorem inTurn_pending (body : State → Cmd → State) (s : State) (c : Cmd) (hbody : ∀ z0 z1, (body z0 z1).pending = z0.pending) :
    (inTurn body s c).pending = s.pending := by
  unfold inTurn; split <;> simp [*, apply_ite State.pending]

@[simp] theorem begun_pending (s : State) (c : Cmd) (q : Nat) :
    (begun s c q).1.pending = s.pending := by
  simp [begun]

@[simp] theorem qDelete_pending (s : State) (c : Cmd) :
    (qDelete s c).pending = s.pending := by
  simp (maxDischargeDepth := 8) [qDelete, apply_ite State.pending] <;> (repeat' (first | rfl | (split <;> simp [*, apply_ite State.pending])))

@[simp] theorem qBind_pending (s : State) (c : Cmd) :
    (qBind s c).pending = s.pending := by
  simp (maxDischargeDepth := 8) [qBind, apply_ite State.pending] <;> (repeat' (first | rfl | (split <;> simp [*, apply_ite State.pending])))

@[simp] theorem qUnbind_pending (s : State) (c : Cmd) :
    (qUnbind s c).pending = s.pending := by
  simp (maxDischargeDepth := 8) [qUnbind, apply_ite State.pending] <;> (repeat' (first | rfl | (split <;> simp [*, apply_ite State.pending])))

@[simp] theorem qQuery_pending (s : State) (c : Cmd) :
    (qQuery s c).pending = s.pending := by
  simp (maxDischargeDepth := 8) [qQuery, apply_ite State.pending] <;> (repeat' (first | rfl | (split <;> simp [*, apply_ite State.pending])))

@[simp] theorem cmdCancel_pending (s : State) (c : Cmd) :
    (cmdCancel s c).pending = s.pending := by
  simp (maxDischargeDepth := 8) [cmdCancel, apply_ite State.pending]

@[simp] theorem drainTimeout_pending (s : State) :
    (drainTimeout s).pending = s.pending := by
  simp (maxDischargeDepth := 8) [drainTimeout, apply_ite State.pending]

@[simp] theorem tearPart_pending (s : State) (root cur : Nat) (who : Option Place) :
    (tearPart s root cur who).pending = s.pending := by
  simp [tearPart]

@[simp] theorem teardownStart_pending (s : State) (c : Cmd) (p : Part) :
    (teardownStart s c p).pending = s.pending := by
  simp (maxDischargeDepth := 8) [teardownStart, apply_ite State.pending]

@[simp] theorem partTeardown_pending (s : State) (c : Cmd) :
    (partTeardown s c).pending = s.pending := by
  simp (maxDischargeDepth := 8) [partTeardown, apply_ite State.pending] <;> (repeat' (first | rfl | (split <;> simp [*, apply_ite State.pending])))

@[simp] theorem setTear_pending (s : State) (root step : Nat) :
    (setTear s root step).pending = s.pending := by
  simp [setTear]

@[simp] theorem abortPoint_pending (p : Nat) (s : State) :
    (abortPoint p s).pending = s.pending := by
  unfold abortPoint; split <;> simp [*, apply_ite State.pending]

@[simp] theorem teardownObjects_pending (s : State) (t : Tear) :
    (teardownObjects s t).pending = s.pending := by
  unfold teardownObjects; split <;> simp [*, apply_ite State.pending]

@[simp] theorem removePart_pending (s : State) (p : Part) (c : Option Cmd) :
    (removePart s p c).pending = s.pending := by
  unfold removePart; split <;> simp [*, apply_ite State.pending]

@[simp] theorem teardownFinish_pending (s : State) (t : Tear) :
    (teardownFinish s t).pending = s.pending := by
  simp (maxDischargeDepth := 8) [teardownFinish, apply_ite State.pending] <;> (repeat' (first | rfl | (split <;> simp [*, apply_ite State.pending])))

@[simp] theorem teardownAdvance_pending (s : State) :
    (teardownAdvance s).pending = s.pending := by
  unfold teardownAdvance; split <;> simp [*, apply_ite State.pending]

@[simp] theorem teardownTables_pending (policy : Bool) (s : State) (p : Nat) (w : Place) :
    (teardownTables policy s p w).pending = s.pending := by
  simp (maxDischargeDepth := 8) [teardownTables, apply_ite State.pending]

@[simp] theorem updateSettled_pending (policy : Bool) (s : State) :
    (updateSettled policy s).pending = s.pending := by
  unfold updateSettled; (repeat' split) <;> simp [*, apply_ite State.pending]

@[simp] theorem walkDone_pending (s : State) :
    (walkDone s).pending = s.pending := by
  simp (maxDischargeDepth := 8) [walkDone, apply_ite State.pending] <;> (repeat' (first | rfl | (split <;> simp [*, apply_ite State.pending])))

@[simp] theorem kcFlush_pending (s : State) (c : Cmd) :
    (kcFlush s c).pending = s.pending := by
  simp (maxDischargeDepth := 8) [kcFlush, apply_ite State.pending] <;> (repeat' (first | rfl | (split <;> simp [*, apply_ite State.pending])))

@[simp] theorem kcQuery_pending (s : State) (c : Cmd) :
    (kcQuery s c).pending = s.pending := by
  unfold kcQuery; split <;> simp [*, apply_ite State.pending]

@[simp] theorem enqueueUpdate_pending (policy : Bool) (s : State) (c : Cmd) :
    (enqueueUpdate policy s c).pending = s.pending := by
  simp (maxDischargeDepth := 8) [enqueueUpdate, apply_ite State.pending]

@[simp] theorem rtPolicyUpdate_pending (s : State) (c : Cmd) :
    (rtPolicyUpdate s c).pending = s.pending := by
  unfold rtPolicyUpdate; dsimp only; split <;> simp [*, apply_ite State.pending]

@[simp] theorem tableFail_pending (s : State) (c : Cmd) (d : Nat) :
    (tableFail s c d).pending = s.pending := by
  simp [tableFail]

@[simp] theorem rtRouteLayout_pending (s : State) (c : Cmd) :
    (rtRouteLayout s c).pending = s.pending := by
  simp (maxDischargeDepth := 8) [rtRouteLayout, apply_ite State.pending]

@[simp] theorem rtQuery_pending (s : State) (c : Cmd) :
    (rtQuery s c).pending = s.pending := by
  simp (maxDischargeDepth := 8) [rtQuery, apply_ite State.pending] <;> (repeat' (first | rfl | (split <;> simp [*, apply_ite State.pending])))

@[simp] theorem rtSetLimits_pending (s : State) (c : Cmd) :
    (rtSetLimits s c).pending = s.pending := by
  unfold rtSetLimits; dsimp only; split <;> simp [*, apply_ite State.pending]

@[simp] theorem wakeDrbg_pending (s : State) (i : Nat) :
    (wakeDrbg s i).pending = s.pending := by
  simp (maxDischargeDepth := 8) [wakeDrbg, apply_ite State.pending]

@[simp] theorem drawOnce_pending (s : State) (n : Nat) (f : State → Bytes → State) (hf : ∀ z0 z1, (f z0 z1).pending = z0.pending) :
    (drawOnce s n f).pending = s.pending := by
  unfold drawOnce; (repeat' (first | split | (dsimp only; split))) <;> first | (simp [*, apply_ite State.pending]; done) | (have h9 := random__bytes_pending (by assumption); simp_all [apply_ite State.pending]; done) | (have h9 := random__waits_pending (by assumption); simp_all [apply_ite State.pending]; done)

@[simp] theorem drawSalts_pending (s : State) :
    (drawSalts s).pending = s.pending := by
  simp (maxDischargeDepth := 8) [drawSalts, apply_ite State.pending]

@[simp] theorem takeBlock_pending (s : State) (i : Nat) (block : Bytes) :
    (takeBlock s i block).pending = s.pending := by
  simp (maxDischargeDepth := 8) [takeBlock, apply_ite State.pending]

@[simp] theorem servePool_pending (x : Nat) (s : State) : (servePool x s).pending = s.pending := by
  induction x generalizing s with
  | zero => rfl
  | succ k ih =>
    unfold servePool
    split
    · rw [ih]; simp
    · rfl

@[simp] theorem wantAll_pending (s : State) :
    (wantAll s).pending = s.pending := by
  simp (maxDischargeDepth := 8) [wantAll, apply_ite State.pending]

@[simp] theorem feed_pending (s : State) :
    (feed s).pending = s.pending := by
  simp (maxDischargeDepth := 8) [feed, apply_ite State.pending]

@[simp] theorem blockConditioned_pending (samples : List (List Bool)) (s : State) :
    (blockConditioned samples s).pending = s.pending := by
  unfold blockConditioned; (repeat' (first | split | (dsimp only; split))) <;> simp [*, apply_ite State.pending]

@[simp] theorem readySet_pending (s : State) :
    (readySet s).pending = s.pending := by
  simp (maxDischargeDepth := 8) [readySet, apply_ite State.pending]

@[simp] theorem loomLeft_pending (s : State) :
    (loomLeft s).pending = s.pending := by
  simp (maxDischargeDepth := 8) [loomLeft, apply_ite State.pending]

@[simp] theorem endWaits_pending (s : State) :
    (endWaits s).pending = s.pending := by
  simp [endWaits]

@[simp] theorem stopRandom_pending (s : State) :
    (stopRandom s).pending = s.pending := by
  simp [stopRandom]

@[simp] theorem countFail_pending (s : State) (source test : Nat) :
    (countFail s source test).pending = s.pending := by
  simp (maxDischargeDepth := 8) [countFail, apply_ite State.pending]

@[simp] theorem healthFailure_pending (source test : Nat) (samples : List Bool) (s : State) :
    (healthFailure source test samples s).pending = s.pending := by
  simp (maxDischargeDepth := 8) [healthFailure, apply_ite State.pending]

@[simp] theorem endRawExit_pending (s : State) (status : Nat) :
    (endRawExit s status).pending = s.pending := by
  simp [endRawExit]

@[simp] theorem testPassDone_pending (samples : List (List Bool)) (kat : Bool) (us : Nat) (s : State) :
    (testPassDone samples kat us s).pending = s.pending := by
  simp (maxDischargeDepth := 8) [testPassDone, apply_ite State.pending]

@[simp] theorem estimateBlock_pending (source : Nat) (samples : List Bool) (s : State) :
    (estimateBlock source samples s).pending = s.pending := by
  simp (maxDischargeDepth := 8) [estimateBlock, apply_ite State.pending] <;> (repeat' (first | rfl | (split <;> simp [*, apply_ite State.pending])))

@[simp] theorem jobUnfed_pending (s : State) (j : Job) :
    (jobUnfed s j).pending = s.pending := by
  simp (maxDischargeDepth := 8) [jobUnfed, apply_ite State.pending]

@[simp] theorem reseedTimeout_pending (i : Nat) (s : State) :
    (reseedTimeout i s).pending = s.pending := by
  unfold reseedTimeout; split <;> simp [*, apply_ite State.pending]

@[simp] theorem badParam_pending (s : State) (c : Cmd) :
    (badParam s c).pending = s.pending := by
  simp [badParam]

@[simp] theorem rawEnterBody_pending (s : State) (c : Cmd) :
    (rawEnterBody s c).pending = s.pending := by
  simp (maxDischargeDepth := 8) [rawEnterBody, apply_ite State.pending]

@[simp] theorem rngRawEnter_pending (s : State) (c : Cmd) : (rngRawEnter s c).pending = s.pending := by
  unfold rngRawEnter
  split <;> simp

@[simp] theorem rngRawRead_pending (s : State) (c : Cmd) :
    (rngRawRead s c).pending = s.pending := by
  simp (maxDischargeDepth := 8) [rngRawRead, apply_ite State.pending]

@[simp] theorem leaveRaw_pending (s : State) (cause : Nat) :
    (leaveRaw s cause).pending = s.pending := by
  simp [leaveRaw]

@[simp] theorem rngRawExit_pending (s : State) (c : Cmd) :
    (rngRawExit s c).pending = s.pending := by
  simp (maxDischargeDepth := 8) [rngRawExit, apply_ite State.pending]

@[simp] theorem rawTimeout_pending (s : State) :
    (rawTimeout s).pending = s.pending := by
  simp (maxDischargeDepth := 8) [rawTimeout, apply_ite State.pending]

@[simp] theorem rngHealthQuery_pending (s : State) (c : Cmd) :
    (rngHealthQuery s c).pending = s.pending := by
  simp (maxDischargeDepth := 8) [rngHealthQuery, apply_ite State.pending]

@[simp] theorem timeCapture_pending (s : State) :
    (timeCapture s).pending = s.pending := by
  simp [timeCapture]

@[simp] theorem stepTime_pending (s : State) (off : Int) :
    (stepTime s off).pending = s.pending := by
  simp [stepTime]

@[simp] theorem changeTime_pending (s : State) (n : Nat) (off : Int) :
    (changeTime s n off).pending = s.pending := by
  simp (maxDischargeDepth := 8) [changeTime, apply_ite State.pending]

@[simp] theorem toHoldover_pending (s : State) :
    (toHoldover s).pending = s.pending := by
  simp [toHoldover]

@[simp] theorem loseSource_pending (s : State) :
    (loseSource s).pending = s.pending := by
  simp (maxDischargeDepth := 8) [loseSource, apply_ite State.pending]

@[simp] theorem changeSource_pending (s : State) :
    (changeSource s).pending = s.pending := by
  simp (maxDischargeDepth := 8) [changeSource, apply_ite State.pending]

@[simp] theorem timeUnlock_pending (s : State) :
    (timeUnlock s).pending = s.pending := by
  simp [timeUnlock]

@[simp] theorem slew_pending (s : State) (off : Int) :
    (slew s off).pending = s.pending := by
  simp [slew]

@[simp] theorem outlier_pending (s : State) (off : Int) :
    (outlier s off).pending = s.pending := by
  simp (maxDischargeDepth := 8) [outlier, apply_ite State.pending]

@[simp] theorem measureTo_pending (lock : Nat) (s : State) (off : Int) :
    (measureTo lock s off).pending = s.pending := by
  simp (maxDischargeDepth := 8) [measureTo, apply_ite State.pending]

@[simp] theorem measure_pending (s : State) (off : Int) :
    (measure s off).pending = s.pending := by
  simp [measure]

@[simp] theorem ptpBad_pending (s : State) (typ : Nat) (m : PtpMsg) :
    (ptpBad s typ m).pending = s.pending := by
  simp [ptpBad]

@[simp] theorem ptpSecond_pending (s : State) :
    (ptpSecond s).pending = s.pending := by
  simp (maxDischargeDepth := 8) [ptpSecond, apply_ite State.pending]

@[simp] theorem selectMaster_pending (s : State) (m : PtpMsg) :
    (selectMaster s m).pending = s.pending := by
  simp (maxDischargeDepth := 8) [selectMaster, apply_ite State.pending]

@[simp] theorem electMaster_pending (s : State) :
    (electMaster s).pending = s.pending := by
  unfold electMaster; split <;> simp [*, apply_ite State.pending]

@[simp] theorem dropMaster_pending (s : State) (id : Nat) :
    (dropMaster s id).pending = s.pending := by
  simp (maxDischargeDepth := 8) [dropMaster, apply_ite State.pending]

@[simp] theorem hearMaster_pending (s : State) (m : PtpMsg) :
    (hearMaster s m).pending = s.pending := by
  simp [hearMaster]

@[simp] theorem ptpAnnounce_pending (m : PtpMsg) (s0 : State) :
    (ptpAnnounce m s0).pending = s0.pending := by
  simp (maxDischargeDepth := 8) [ptpAnnounce, apply_ite State.pending]

@[simp] theorem sendDelayReq_pending (s : State) :
    (sendDelayReq s).pending = s.pending := by
  simp [sendDelayReq]

@[simp] theorem ptpSync_pending (m : PtpMsg) (s0 : State) :
    (ptpSync m s0).pending = s0.pending := by
  simp (maxDischargeDepth := 8) [ptpSync, apply_ite State.pending]

@[simp] theorem ptpMeasure_pending (s : State) (off : Int) :
    (ptpMeasure s off).pending = s.pending := by
  simp (maxDischargeDepth := 8) [ptpMeasure, apply_ite State.pending]

@[simp] theorem ptpExchange_pending (s : State) :
    (ptpExchange s).pending = s.pending := by
  unfold ptpExchange; split <;> simp [*, apply_ite State.pending]

@[simp] theorem ptpFollowUp_pending (m : PtpMsg) (s : State) :
    (ptpFollowUp m s).pending = s.pending := by
  simp (maxDischargeDepth := 8) [ptpFollowUp, apply_ite State.pending]

@[simp] theorem ptpDelayResp_pending (m : PtpMsg) (s : State) :
    (ptpDelayResp m s).pending = s.pending := by
  simp (maxDischargeDepth := 8) [ptpDelayResp, apply_ite State.pending]

@[simp] theorem ppsEdge_pending (ns : Nat) (s : State) :
    (ppsEdge ns s).pending = s.pending := by
  simp (maxDischargeDepth := 8) [ppsEdge, apply_ite State.pending]

@[simp] theorem timeExchange_pending (s : State) :
    (timeExchange s).pending = s.pending := by
  simp (maxDischargeDepth := 8) [timeExchange, apply_ite State.pending]

@[simp] theorem timeAnswer_pending (s : State) (rx : Int) :
    (timeAnswer s rx).pending = s.pending := by
  simp [timeAnswer]

@[simp] theorem partnerMeasure_pending (s : State) (p : Bytes) (rx : Int) :
    (partnerMeasure s p rx).pending = s.pending := by
  unfold partnerMeasure; split <;> simp [*, apply_ite State.pending]

@[simp] theorem timePromote_pending (s : State) :
    (timePromote s).pending = s.pending := by
  simp (maxDischargeDepth := 8) [timePromote, apply_ite State.pending]

@[simp] theorem ptSetConfig_pending (s : State) (c : Cmd) :
    (ptSetConfig s c).pending = s.pending := by
  simp (maxDischargeDepth := 8) [ptSetConfig, apply_ite State.pending]

@[simp] theorem ptQuery_pending (s : State) (c : Cmd) :
    (ptQuery s c).pending = s.pending := by
  simp [ptQuery]

/-! ## The RAM -/

@[simp] theorem stewardRow_mem (s : State) (i op : Nat) (body : State → Cmd → State) (hbody : ∀ z0 z1, (body z0 z1).mem = z0.mem) :
    (stewardRow s i op body).mem = s.mem := by
  unfold stewardRow; (repeat' split) <;> simp [*, apply_ite State.mem]

@[simp] theorem okInline_mem (s : State) (c : Cmd) (inline : Bytes) :
    (okInline s c inline).mem = s.mem := by
  simp [okInline]

@[simp] theorem okReply_mem (s : State) (c : Cmd) (inline reply : Bytes) :
    (okReply s c inline reply).mem = s.mem := by
  simp [okReply]

@[simp] theorem failDetail_mem (s : State) (c : Cmd) (status : Nat) (detail : Bytes) :
    (failDetail s c status detail).mem = s.mem := by
  simp [failDetail]

@[simp] theorem commitDone_mem (s0 s : State) (c : Cmd) (typ part : Nat) (body inline reply : Bytes)
    (h : s.mem = s0.mem) : (commitDone s0 s c typ part body inline reply).mem = s0.mem := by
  unfold commitDone
  split <;> simp [h]

@[simp] theorem issueNonce_mem (s : State) (part value : Nat) :
    (issueNonce s part value).mem = s.mem := by
  simp (maxDischargeDepth := 8) [issueNonce, apply_ite State.mem]

@[simp] theorem useNonce_mem (s : State) (part value : Nat) :
    (useNonce s part value).mem = s.mem := by
  simp [useNonce]

@[simp] theorem nonceExpiry_mem (part value : Nat) (s : State) :
    (nonceExpiry part value s).mem = s.mem := by
  unfold nonceExpiry; split <;> simp [*, apply_ite State.mem]

@[simp] theorem withQuorum_mem (s : State) (c : Cmd) (f : State) (h : f.mem = s.mem) :
    (withQuorum s c f).mem = s.mem := by
  unfold withQuorum
  split <;> simp [h]

@[simp] theorem verifyQuorum_mem (s : State) (c : Cmd) (d : Demand) : (verifyQuorum s c d).1.mem = s.mem := by
  unfold verifyQuorum
  (repeat' (first | split | (dsimp only; split))) <;> simp

@[simp] theorem beginVerify_mem (s : State) :
    (beginVerify s).mem = s.mem := by
  simp [beginVerify]

@[simp] theorem partGoneFail_mem (s : State) (c : Cmd) :
    (partGoneFail s c).mem = s.mem := by
  simp (maxDischargeDepth := 8) [partGoneFail, apply_ite State.mem]

@[simp] theorem quorumVerifyDone_mem (p : Place) (s : State) :
    (quorumVerifyDone p s).mem = s.mem := by
  simp (maxDischargeDepth := 8) [quorumVerifyDone, apply_ite State.mem] <;> (repeat' (first | rfl | (split <;> simp [*, apply_ite State.mem])))

@[simp] theorem qrNonce_mem (s : State) (c : Cmd) :
    (qrNonce s c).mem = s.mem := by
  unfold qrNonce; (repeat' (first | split | (dsimp only; split))) <;> first | (simp [*, apply_ite State.mem]; done) | (have h9 := random__bytes_mem (by assumption); simp_all [apply_ite State.mem]; done) | (have h9 := random__waits_mem (by assumption); simp_all [apply_ite State.mem]; done)

@[simp] theorem custCommit_mem (s : State) (c : Cmd) (p : Part) (r : Bytes) :
    (custCommit s c p r).mem = s.mem := by
  simp (maxDischargeDepth := 8) [custCommit, apply_ite State.mem]

@[simp] theorem custSet_mem (s : State) (c : Cmd) :
    (custSet s c).mem = s.mem := by
  simp (maxDischargeDepth := 8) [custSet, apply_ite State.mem] <;> (repeat' (first | rfl | (split <;> simp [*, apply_ite State.mem])))

@[simp] theorem custQuery_mem (s : State) (c : Cmd) :
    (custQuery s c).mem = s.mem := by
  simp (maxDischargeDepth := 8) [custQuery, apply_ite State.mem] <;> (repeat' (first | rfl | (split <;> simp [*, apply_ite State.mem])))

@[simp] theorem partDone_mem (s : State) (c : Cmd) (p : Part) (inline : Bytes) :
    (partDone s c p inline).mem = s.mem := by
  simp [partDone]

@[simp] theorem partCreateBody_mem (s : State) (c : Cmd) (par : Part) (r : Bytes) :
    (partCreateBody s c par r).mem = s.mem := by
  unfold partCreateBody; split <;> simp [*, apply_ite State.mem]

@[simp] theorem partCreate_mem (s : State) (c : Cmd) :
    (partCreate s c).mem = s.mem := by
  unfold partCreate; dsimp only; split <;> simp [*, apply_ite State.mem]

@[simp] theorem partModifyBody_mem (s : State) (c : Cmd) (p : Part) (r : Bytes) :
    (partModifyBody s c p r).mem = s.mem := by
  simp (maxDischargeDepth := 8) [partModifyBody, apply_ite State.mem]

@[simp] theorem partModify_mem (s : State) (c : Cmd) :
    (partModify s c).mem = s.mem := by
  unfold partModify; dsimp only; split <;> simp [*, apply_ite State.mem]

@[simp] theorem partSetAccessKey_mem (s : State) (c : Cmd) :
    (partSetAccessKey s c).mem = s.mem := by
  simp (maxDischargeDepth := 8) [partSetAccessKey, apply_ite State.mem] <;> (repeat' (first | rfl | (split <;> simp [*, apply_ite State.mem])))

@[simp] theorem partEnableOpcodes_mem (s : State) (c : Cmd) :
    (partEnableOpcodes s c).mem = s.mem := by
  unfold partEnableOpcodes; split <;> simp [*, apply_ite State.mem]

@[simp] theorem partSetCachePolicy_mem (s : State) (c : Cmd) :
    (partSetCachePolicy s c).mem = s.mem := by
  unfold partSetCachePolicy; dsimp only; split <;> simp [*, apply_ite State.mem]

@[simp] theorem partQuery_mem (s : State) (c : Cmd) :
    (partQuery s c).mem = s.mem := by
  simp (maxDischargeDepth := 8) [partQuery, apply_ite State.mem] <;> (repeat' (first | rfl | (split <;> simp [*, apply_ite State.mem])))

@[simp] theorem qCreate_mem (s : State) (c : Cmd) :
    (qCreate s c).mem = s.mem := by
  simp (maxDischargeDepth := 8) [qCreate, apply_ite State.mem] <;> (repeat' (first | rfl | (split <;> simp [*, apply_ite State.mem])))

@[simp] theorem inTurn_mem (body : State → Cmd → State) (s : State) (c : Cmd) (hbody : ∀ z0 z1, (body z0 z1).mem = z0.mem) :
    (inTurn body s c).mem = s.mem := by
  unfold inTurn; split <;> simp [*, apply_ite State.mem]

@[simp] theorem begun_mem (s : State) (c : Cmd) (q : Nat) :
    (begun s c q).1.mem = s.mem := by
  simp [begun]

@[simp] theorem qDelete_mem (s : State) (c : Cmd) :
    (qDelete s c).mem = s.mem := by
  simp (maxDischargeDepth := 8) [qDelete, apply_ite State.mem] <;> (repeat' (first | rfl | (split <;> simp [*, apply_ite State.mem])))

@[simp] theorem qBind_mem (s : State) (c : Cmd) :
    (qBind s c).mem = s.mem := by
  simp (maxDischargeDepth := 8) [qBind, apply_ite State.mem] <;> (repeat' (first | rfl | (split <;> simp [*, apply_ite State.mem])))

@[simp] theorem qUnbind_mem (s : State) (c : Cmd) :
    (qUnbind s c).mem = s.mem := by
  simp (maxDischargeDepth := 8) [qUnbind, apply_ite State.mem] <;> (repeat' (first | rfl | (split <;> simp [*, apply_ite State.mem])))

@[simp] theorem qQuery_mem (s : State) (c : Cmd) :
    (qQuery s c).mem = s.mem := by
  simp (maxDischargeDepth := 8) [qQuery, apply_ite State.mem] <;> (repeat' (first | rfl | (split <;> simp [*, apply_ite State.mem])))

@[simp] theorem cmdCancel_mem (s : State) (c : Cmd) :
    (cmdCancel s c).mem = s.mem := by
  simp (maxDischargeDepth := 8) [cmdCancel, apply_ite State.mem]

@[simp] theorem drainTimeout_mem (s : State) :
    (drainTimeout s).mem = s.mem := by
  simp (maxDischargeDepth := 8) [drainTimeout, apply_ite State.mem]

@[simp] theorem tearPart_mem (s : State) (root cur : Nat) (who : Option Place) :
    (tearPart s root cur who).mem = s.mem := by
  simp [tearPart]

@[simp] theorem teardownStart_mem (s : State) (c : Cmd) (p : Part) :
    (teardownStart s c p).mem = s.mem := by
  simp (maxDischargeDepth := 8) [teardownStart, apply_ite State.mem]

@[simp] theorem partTeardown_mem (s : State) (c : Cmd) :
    (partTeardown s c).mem = s.mem := by
  simp (maxDischargeDepth := 8) [partTeardown, apply_ite State.mem] <;> (repeat' (first | rfl | (split <;> simp [*, apply_ite State.mem])))

@[simp] theorem setTear_mem (s : State) (root step : Nat) :
    (setTear s root step).mem = s.mem := by
  simp [setTear]

@[simp] theorem abortPoint_mem (p : Nat) (s : State) :
    (abortPoint p s).mem = s.mem := by
  unfold abortPoint; split <;> simp [*, apply_ite State.mem]

@[simp] theorem teardownObjects_mem (s : State) (t : Tear) :
    (teardownObjects s t).mem = s.mem := by
  unfold teardownObjects; split <;> simp [*, apply_ite State.mem]

@[simp] theorem removePart_mem (s : State) (p : Part) (c : Option Cmd) :
    (removePart s p c).mem = s.mem := by
  unfold removePart; split <;> simp [*, apply_ite State.mem]

@[simp] theorem teardownFinish_mem (s : State) (t : Tear) :
    (teardownFinish s t).mem = s.mem := by
  simp (maxDischargeDepth := 8) [teardownFinish, apply_ite State.mem] <;> (repeat' (first | rfl | (split <;> simp [*, apply_ite State.mem])))

@[simp] theorem teardownAdvance_mem (s : State) :
    (teardownAdvance s).mem = s.mem := by
  unfold teardownAdvance; split <;> simp [*, apply_ite State.mem]

@[simp] theorem teardownTables_mem (policy : Bool) (s : State) (p : Nat) (w : Place) :
    (teardownTables policy s p w).mem = s.mem := by
  simp (maxDischargeDepth := 8) [teardownTables, apply_ite State.mem]

@[simp] theorem updateSettled_mem (policy : Bool) (s : State) :
    (updateSettled policy s).mem = s.mem := by
  unfold updateSettled; (repeat' split) <;> simp [*, apply_ite State.mem]

@[simp] theorem walkDone_mem (s : State) :
    (walkDone s).mem = s.mem := by
  simp (maxDischargeDepth := 8) [walkDone, apply_ite State.mem] <;> (repeat' (first | rfl | (split <;> simp [*, apply_ite State.mem])))

@[simp] theorem kcFlush_mem (s : State) (c : Cmd) :
    (kcFlush s c).mem = s.mem := by
  simp (maxDischargeDepth := 8) [kcFlush, apply_ite State.mem] <;> (repeat' (first | rfl | (split <;> simp [*, apply_ite State.mem])))

@[simp] theorem kcQuery_mem (s : State) (c : Cmd) :
    (kcQuery s c).mem = s.mem := by
  unfold kcQuery; split <;> simp [*, apply_ite State.mem]

@[simp] theorem enqueueUpdate_mem (policy : Bool) (s : State) (c : Cmd) :
    (enqueueUpdate policy s c).mem = s.mem := by
  simp (maxDischargeDepth := 8) [enqueueUpdate, apply_ite State.mem]

@[simp] theorem rtPolicyUpdate_mem (s : State) (c : Cmd) :
    (rtPolicyUpdate s c).mem = s.mem := by
  unfold rtPolicyUpdate; dsimp only; split <;> simp [*, apply_ite State.mem]

@[simp] theorem tableFail_mem (s : State) (c : Cmd) (d : Nat) :
    (tableFail s c d).mem = s.mem := by
  simp [tableFail]

@[simp] theorem rtRouteLayout_mem (s : State) (c : Cmd) :
    (rtRouteLayout s c).mem = s.mem := by
  simp (maxDischargeDepth := 8) [rtRouteLayout, apply_ite State.mem]

@[simp] theorem rtQuery_mem (s : State) (c : Cmd) :
    (rtQuery s c).mem = s.mem := by
  simp (maxDischargeDepth := 8) [rtQuery, apply_ite State.mem] <;> (repeat' (first | rfl | (split <;> simp [*, apply_ite State.mem])))

@[simp] theorem rtSetLimits_mem (s : State) (c : Cmd) :
    (rtSetLimits s c).mem = s.mem := by
  unfold rtSetLimits; dsimp only; split <;> simp [*, apply_ite State.mem]

@[simp] theorem wakeDrbg_mem (s : State) (i : Nat) :
    (wakeDrbg s i).mem = s.mem := by
  simp (maxDischargeDepth := 8) [wakeDrbg, apply_ite State.mem]

@[simp] theorem drawOnce_mem (s : State) (n : Nat) (f : State → Bytes → State) (hf : ∀ z0 z1, (f z0 z1).mem = z0.mem) :
    (drawOnce s n f).mem = s.mem := by
  unfold drawOnce; (repeat' (first | split | (dsimp only; split))) <;> first | (simp [*, apply_ite State.mem]; done) | (have h9 := random__bytes_mem (by assumption); simp_all [apply_ite State.mem]; done) | (have h9 := random__waits_mem (by assumption); simp_all [apply_ite State.mem]; done)

@[simp] theorem drawSalts_mem (s : State) :
    (drawSalts s).mem = s.mem := by
  simp (maxDischargeDepth := 8) [drawSalts, apply_ite State.mem]

@[simp] theorem takeBlock_mem (s : State) (i : Nat) (block : Bytes) :
    (takeBlock s i block).mem = s.mem := by
  simp (maxDischargeDepth := 8) [takeBlock, apply_ite State.mem]

@[simp] theorem servePool_mem (x : Nat) (s : State) : (servePool x s).mem = s.mem := by
  induction x generalizing s with
  | zero => rfl
  | succ k ih =>
    unfold servePool
    split
    · rw [ih]; simp
    · rfl

@[simp] theorem wantAll_mem (s : State) :
    (wantAll s).mem = s.mem := by
  simp (maxDischargeDepth := 8) [wantAll, apply_ite State.mem]

@[simp] theorem feed_mem (s : State) :
    (feed s).mem = s.mem := by
  simp (maxDischargeDepth := 8) [feed, apply_ite State.mem]

@[simp] theorem blockConditioned_mem (samples : List (List Bool)) (s : State) :
    (blockConditioned samples s).mem = s.mem := by
  unfold blockConditioned; (repeat' (first | split | (dsimp only; split))) <;> simp [*, apply_ite State.mem]

@[simp] theorem readySet_mem (s : State) :
    (readySet s).mem = s.mem := by
  simp (maxDischargeDepth := 8) [readySet, apply_ite State.mem]

@[simp] theorem loomLeft_mem (s : State) :
    (loomLeft s).mem = s.mem := by
  simp (maxDischargeDepth := 8) [loomLeft, apply_ite State.mem]

@[simp] theorem endWaits_mem (s : State) :
    (endWaits s).mem = s.mem := by
  simp [endWaits]

@[simp] theorem stopRandom_mem (s : State) :
    (stopRandom s).mem = s.mem := by
  simp [stopRandom]

@[simp] theorem countFail_mem (s : State) (source test : Nat) :
    (countFail s source test).mem = s.mem := by
  simp (maxDischargeDepth := 8) [countFail, apply_ite State.mem]

@[simp] theorem healthFailure_mem (source test : Nat) (samples : List Bool) (s : State) :
    (healthFailure source test samples s).mem = s.mem := by
  simp (maxDischargeDepth := 8) [healthFailure, apply_ite State.mem]

@[simp] theorem endRawExit_mem (s : State) (status : Nat) :
    (endRawExit s status).mem = s.mem := by
  simp [endRawExit]

@[simp] theorem testPassDone_mem (samples : List (List Bool)) (kat : Bool) (us : Nat) (s : State) :
    (testPassDone samples kat us s).mem = s.mem := by
  simp (maxDischargeDepth := 8) [testPassDone, apply_ite State.mem]

@[simp] theorem estimateBlock_mem (source : Nat) (samples : List Bool) (s : State) :
    (estimateBlock source samples s).mem = s.mem := by
  simp (maxDischargeDepth := 8) [estimateBlock, apply_ite State.mem] <;> (repeat' (first | rfl | (split <;> simp [*, apply_ite State.mem])))

@[simp] theorem jobUnfed_mem (s : State) (j : Job) :
    (jobUnfed s j).mem = s.mem := by
  simp (maxDischargeDepth := 8) [jobUnfed, apply_ite State.mem]

@[simp] theorem reseedTimeout_mem (i : Nat) (s : State) :
    (reseedTimeout i s).mem = s.mem := by
  unfold reseedTimeout; split <;> simp [*, apply_ite State.mem]

@[simp] theorem badParam_mem (s : State) (c : Cmd) :
    (badParam s c).mem = s.mem := by
  simp [badParam]

@[simp] theorem rawEnterBody_mem (s : State) (c : Cmd) :
    (rawEnterBody s c).mem = s.mem := by
  simp (maxDischargeDepth := 8) [rawEnterBody, apply_ite State.mem]

@[simp] theorem rngRawEnter_mem (s : State) (c : Cmd) : (rngRawEnter s c).mem = s.mem := by
  unfold rngRawEnter
  split <;> simp

@[simp] theorem rngRawRead_mem (s : State) (c : Cmd) :
    (rngRawRead s c).mem = s.mem := by
  simp (maxDischargeDepth := 8) [rngRawRead, apply_ite State.mem]

@[simp] theorem leaveRaw_mem (s : State) (cause : Nat) :
    (leaveRaw s cause).mem = s.mem := by
  simp [leaveRaw]

@[simp] theorem rngRawExit_mem (s : State) (c : Cmd) :
    (rngRawExit s c).mem = s.mem := by
  simp (maxDischargeDepth := 8) [rngRawExit, apply_ite State.mem]

@[simp] theorem rawTimeout_mem (s : State) :
    (rawTimeout s).mem = s.mem := by
  simp (maxDischargeDepth := 8) [rawTimeout, apply_ite State.mem]

@[simp] theorem rngHealthQuery_mem (s : State) (c : Cmd) :
    (rngHealthQuery s c).mem = s.mem := by
  simp (maxDischargeDepth := 8) [rngHealthQuery, apply_ite State.mem]

@[simp] theorem timeCapture_mem (s : State) :
    (timeCapture s).mem = s.mem := by
  simp [timeCapture]

@[simp] theorem stepTime_mem (s : State) (off : Int) :
    (stepTime s off).mem = s.mem := by
  simp [stepTime]

@[simp] theorem changeTime_mem (s : State) (n : Nat) (off : Int) :
    (changeTime s n off).mem = s.mem := by
  simp (maxDischargeDepth := 8) [changeTime, apply_ite State.mem]

@[simp] theorem toHoldover_mem (s : State) :
    (toHoldover s).mem = s.mem := by
  simp [toHoldover]

@[simp] theorem loseSource_mem (s : State) :
    (loseSource s).mem = s.mem := by
  simp (maxDischargeDepth := 8) [loseSource, apply_ite State.mem]

@[simp] theorem changeSource_mem (s : State) :
    (changeSource s).mem = s.mem := by
  simp (maxDischargeDepth := 8) [changeSource, apply_ite State.mem]

@[simp] theorem timeUnlock_mem (s : State) :
    (timeUnlock s).mem = s.mem := by
  simp [timeUnlock]

@[simp] theorem slew_mem (s : State) (off : Int) :
    (slew s off).mem = s.mem := by
  simp [slew]

@[simp] theorem outlier_mem (s : State) (off : Int) :
    (outlier s off).mem = s.mem := by
  simp (maxDischargeDepth := 8) [outlier, apply_ite State.mem]

@[simp] theorem measureTo_mem (lock : Nat) (s : State) (off : Int) :
    (measureTo lock s off).mem = s.mem := by
  simp (maxDischargeDepth := 8) [measureTo, apply_ite State.mem]

@[simp] theorem measure_mem (s : State) (off : Int) :
    (measure s off).mem = s.mem := by
  simp [measure]

@[simp] theorem ptpBad_mem (s : State) (typ : Nat) (m : PtpMsg) :
    (ptpBad s typ m).mem = s.mem := by
  simp [ptpBad]

@[simp] theorem ptpSecond_mem (s : State) :
    (ptpSecond s).mem = s.mem := by
  simp (maxDischargeDepth := 8) [ptpSecond, apply_ite State.mem]

@[simp] theorem selectMaster_mem (s : State) (m : PtpMsg) :
    (selectMaster s m).mem = s.mem := by
  simp (maxDischargeDepth := 8) [selectMaster, apply_ite State.mem]

@[simp] theorem electMaster_mem (s : State) :
    (electMaster s).mem = s.mem := by
  unfold electMaster; split <;> simp [*, apply_ite State.mem]

@[simp] theorem dropMaster_mem (s : State) (id : Nat) :
    (dropMaster s id).mem = s.mem := by
  simp (maxDischargeDepth := 8) [dropMaster, apply_ite State.mem]

@[simp] theorem hearMaster_mem (s : State) (m : PtpMsg) :
    (hearMaster s m).mem = s.mem := by
  simp [hearMaster]

@[simp] theorem ptpAnnounce_mem (m : PtpMsg) (s0 : State) :
    (ptpAnnounce m s0).mem = s0.mem := by
  simp (maxDischargeDepth := 8) [ptpAnnounce, apply_ite State.mem]

@[simp] theorem sendDelayReq_mem (s : State) :
    (sendDelayReq s).mem = s.mem := by
  simp [sendDelayReq]

@[simp] theorem ptpSync_mem (m : PtpMsg) (s0 : State) :
    (ptpSync m s0).mem = s0.mem := by
  simp (maxDischargeDepth := 8) [ptpSync, apply_ite State.mem]

@[simp] theorem ptpMeasure_mem (s : State) (off : Int) :
    (ptpMeasure s off).mem = s.mem := by
  simp (maxDischargeDepth := 8) [ptpMeasure, apply_ite State.mem]

@[simp] theorem ptpExchange_mem (s : State) :
    (ptpExchange s).mem = s.mem := by
  unfold ptpExchange; split <;> simp [*, apply_ite State.mem]

@[simp] theorem ptpFollowUp_mem (m : PtpMsg) (s : State) :
    (ptpFollowUp m s).mem = s.mem := by
  simp (maxDischargeDepth := 8) [ptpFollowUp, apply_ite State.mem]

@[simp] theorem ptpDelayResp_mem (m : PtpMsg) (s : State) :
    (ptpDelayResp m s).mem = s.mem := by
  simp (maxDischargeDepth := 8) [ptpDelayResp, apply_ite State.mem]

@[simp] theorem ppsEdge_mem (ns : Nat) (s : State) :
    (ppsEdge ns s).mem = s.mem := by
  simp (maxDischargeDepth := 8) [ppsEdge, apply_ite State.mem]

@[simp] theorem timeExchange_mem (s : State) :
    (timeExchange s).mem = s.mem := by
  simp (maxDischargeDepth := 8) [timeExchange, apply_ite State.mem]

@[simp] theorem timeAnswer_mem (s : State) (rx : Int) :
    (timeAnswer s rx).mem = s.mem := by
  simp [timeAnswer]

@[simp] theorem partnerMeasure_mem (s : State) (p : Bytes) (rx : Int) :
    (partnerMeasure s p rx).mem = s.mem := by
  unfold partnerMeasure; split <;> simp [*, apply_ite State.mem]

@[simp] theorem timePromote_mem (s : State) :
    (timePromote s).mem = s.mem := by
  simp (maxDischargeDepth := 8) [timePromote, apply_ite State.mem]

@[simp] theorem ptSetConfig_mem (s : State) (c : Cmd) :
    (ptSetConfig s c).mem = s.mem := by
  simp (maxDischargeDepth := 8) [ptSetConfig, apply_ite State.mem]

@[simp] theorem ptQuery_mem (s : State) (c : Cmd) :
    (ptQuery s c).mem = s.mem := by
  simp [ptQuery]

end Sys2Proof.Machine
end

