-- ==== Sys2Proof/Laws/KeepsResets.lean ====
section
/-! SUPPORT. What the operations of Recorder, Bist, Resets, Supply, Otp, Objects, Iom and Drafts leave alone: a lemma ending in `_pending` says that the
queue of waiting commands stays as it was, one ending in `_mem` that the RAM of the internal map does. -/

set_option linter.all false

namespace Sys2Proof.Machine

open Sys2Proof

/-! ## The queue -/

@[simp] theorem takeToken_pending (s : State) (code : Nat) :
    (takeToken s code).1.pending = s.pending := by
  unfold takeToken; (repeat' (first | split | (dsimp only; split))) <;> simp [*, apply_ite State.pending]

@[simp] theorem ringTake_pending (s : State) (e : Ev) (suppressed : Bool) :
    (ringTake s e suppressed).pending = s.pending := by
  simp (maxDischargeDepth := 8) [ringTake, apply_ite State.pending]

@[simp] theorem exportRec_pending (s : State) (r : Rec) :
    (exportRec s r).pending = s.pending := by
  simp (maxDischargeDepth := 8) [exportRec, apply_ite State.pending]

@[simp] theorem appendLog_pending (s : State) (e : Ev) :
    (appendLog s e).pending = s.pending := by
  simp [appendLog]

@[simp] theorem bumpRepeat_pending (s : State) (code : Nat) :
    (bumpRepeat s code).pending = s.pending := by
  unfold bumpRepeat; split <;> simp [*, apply_ite State.pending]

@[simp] theorem bumpLost_pending (s : State) (n : Nat) :
    (bumpLost s n).pending = s.pending := by
  simp [bumpLost]

@[simp] theorem logFull_pending (s : State) :
    (logFull s).pending = s.pending := by
  simp [logFull]

@[simp] theorem writeEvent_pending (s0 : State) (e : Ev) :
    (writeEvent s0 e).pending = s0.pending := by
  simp (maxDischargeDepth := 8) [writeEvent, apply_ite State.pending]

@[simp] theorem eventRecord_pending (s : State) :
    (eventRecord s).pending = s.pending := by
  unfold eventRecord; split <;> simp [*, apply_ite State.pending]

@[simp] theorem optimeStore_pending (s0 : State) :
    (optimeStore s0).pending = s0.pending := by
  simp (maxDischargeDepth := 8) [optimeStore, apply_ite State.pending]

@[simp] theorem clearLog_pending (s : State) :
    (clearLog s).pending = s.pending := by
  simp [clearLog]

@[simp] theorem clearBegin_pending (s : State) (c : Cmd) :
    (clearBegin s c).pending = s.pending := by
  simp (maxDischargeDepth := 8) [clearBegin, apply_ite State.pending]

@[simp] theorem evrClear_pending (s : State) (c : Cmd) :
    (evrClear s c).pending = s.pending := by
  simp (maxDischargeDepth := 8) [evrClear, apply_ite State.pending]

@[simp] theorem clearEnd_pending (s : State) (p : Place) :
    (clearEnd s p).pending = s.pending := by
  unfold clearEnd; (repeat' split) <;> simp [*, apply_ite State.pending]

@[simp] theorem evrSetExport_pending (s : State) (c : Cmd) :
    (evrSetExport s c).pending = s.pending := by
  simp (maxDischargeDepth := 8) [evrSetExport, apply_ite State.pending]

@[simp] theorem evrRead_pending (s : State) (c : Cmd) :
    (evrRead s c).pending = s.pending := by
  simp (maxDischargeDepth := 8) [evrRead, apply_ite State.pending]

@[simp] theorem bbRead_pending (s : State) (c : Cmd) :
    (bbRead s c).pending = s.pending := by
  simp (maxDischargeDepth := 8) [bbRead, apply_ite State.pending]

@[simp] theorem bbRelease_pending (s : State) (c : Cmd) :
    (bbRelease s c).pending = s.pending := by
  simp (maxDischargeDepth := 8) [bbRelease, apply_ite State.pending]

@[simp] theorem recorderStart_pending (s : State) :
    (recorderStart s).pending = s.pending := by
  simp (maxDischargeDepth := 8) [recorderStart, apply_ite State.pending]

@[simp] theorem State.modUnit_pending (s : State) (u : Nat) (f : BUnit → BUnit) :
    (State.modUnit s u f).pending = s.pending := by
  simp [State.modUnit]

@[simp] theorem State.modSlot_pending (s : State) (i : Nat) (f : Slot → Slot) :
    (State.modSlot s i f).pending = s.pending := by
  simp [State.modSlot]

@[simp] theorem takeUnit_pending (s : State) (u : Nat) :
    (takeUnit s u).pending = s.pending := by
  simp (maxDischargeDepth := 8) [takeUnit, apply_ite State.pending]

@[simp] theorem startPick_pending (s : State) (i u pick : Nat) (requested : Bool) (kind : Nat) (who : Option Place) :
    (startPick s i u pick requested kind who).pending = s.pending := by
  simp [startPick]

@[simp] theorem dropRequests_pending (s : State) (i k : Nat) : (dropRequests s i k).pending = s.pending := by
  induction k generalizing s with
  | zero => rfl
  | succ k ih =>
    unfold dropRequests
    split
    · rfl
    · split
      · rfl
      · rw [ih]; split <;> simp

@[simp] theorem advanceWalk_pending (s : State) (i pick u : Nat) :
    (advanceWalk s i pick u).pending = s.pending := by
  unfold advanceWalk; split <;> simp [*, apply_ite State.pending]

@[simp] theorem slotPeriod_pending (i : Nat) (s : State) :
    (slotPeriod i s).pending = s.pending := by
  unfold slotPeriod; (repeat' (first | split | (dsimp only; split))) <;> simp [*, apply_ite State.pending]

@[simp] theorem requestPick_pending (s : State) (u pick kind : Nat) (who : Option Place) :
    (requestPick s u pick kind who).pending = s.pending := by
  simp [requestPick]

@[simp] theorem bistRequest_pending (w : Writer) (value : Nat) (s : State) :
    (bistRequest w value s).pending = s.pending := by
  simp (maxDischargeDepth := 8) [bistRequest, apply_ite State.pending]

@[simp] theorem giveUnit_pending (s : State) (u st : Nat) :
    (giveUnit s u st).pending = s.pending := by
  simp (maxDischargeDepth := 8) [giveUnit, apply_ite State.pending]

@[simp] theorem retireUnit_pending (s : State) (u cause : Nat) :
    (retireUnit s u cause).pending = s.pending := by
  simp (maxDischargeDepth := 8) [retireUnit, apply_ite State.pending]

@[simp] theorem answerPick_pending (s : State) (x : Slot) (v : Nat) :
    (answerPick s x v).pending = s.pending := by
  unfold answerPick; split <;> simp [*, apply_ite State.pending]

@[simp] theorem closeSlot_pending (s : State) (i : Nat) (x : Slot) :
    (closeSlot s i x).pending = s.pending := by
  simp (maxDischargeDepth := 8) [closeSlot, apply_ite State.pending]

@[simp] theorem failPick_pending (s : State) (i misr : Nat) :
    (failPick s i misr).pending = s.pending := by
  simp (maxDischargeDepth := 8) [failPick, apply_ite State.pending]

@[simp] theorem returnRepeat_pending (s : State) (u pick : Nat) :
    (returnRepeat s u pick).pending = s.pending := by
  simp (maxDischargeDepth := 8) [returnRepeat, apply_ite State.pending]

@[simp] theorem passPick_pending (s : State) (i : Nat) :
    (passPick s i).pending = s.pending := by
  simp (maxDischargeDepth := 8) [passPick, apply_ite State.pending]

@[simp] theorem bistIdle_pending (i : Nat) (s : State) :
    (bistIdle i s).pending = s.pending := by
  simp (maxDischargeDepth := 8) [bistIdle, apply_ite State.pending]

@[simp] theorem isolateTimeout_pending (i : Nat) (s : State) :
    (isolateTimeout i s).pending = s.pending := by
  simp (maxDischargeDepth := 8) [isolateTimeout, apply_ite State.pending]

@[simp] theorem patternsDone_pending (i misr : Nat) (s : State) :
    (patternsDone i misr s).pending = s.pending := by
  simp (maxDischargeDepth := 8) [patternsDone, apply_ite State.pending]

@[simp] theorem unitRestored_pending (i : Nat) (kat : Bool) (s : State) :
    (unitRestored i kat s).pending = s.pending := by
  simp (maxDischargeDepth := 8) [unitRestored, apply_ite State.pending]

@[simp] theorem abandonPick_pending (cause : Nat) (s : State) (i : Nat) :
    (abandonPick cause s i).pending = s.pending := by
  simp (maxDischargeDepth := 8) [abandonPick, apply_ite State.pending]

@[simp] theorem abandonPicks_pending (cause : Nat) (s : State) :
    (abandonPicks cause s).pending = s.pending := by
  simp [abandonPicks]

@[simp] theorem bistQuery_pending (s : State) (c : Cmd) :
    (bistQuery s c).pending = s.pending := by
  simp (maxDischargeDepth := 8) [bistQuery, apply_ite State.pending]

@[simp] theorem bistPick_pending (s : State) (c : Cmd) :
    (bistPick s c).pending = s.pending := by
  simp (maxDischargeDepth := 8) [bistPick, apply_ite State.pending]

@[simp] theorem bistSetPace_pending (s : State) (c : Cmd) :
    (bistSetPace s c).pending = s.pending := by
  simp (maxDischargeDepth := 8) [bistSetPace, apply_ite State.pending]

@[simp] theorem endGrant_pending (cause : Nat) (s : State) :
    (endGrant cause s).pending = s.pending := by
  simp (maxDischargeDepth := 8) [endGrant, apply_ite State.pending]

@[simp] theorem State.clearFor_pending (s : State) (k : BitVec 4) :
    (State.clearFor s k).pending = s.pending := by
  simp (maxDischargeDepth := 8) [State.clearFor, apply_ite State.pending]

@[simp] theorem cutWrite_pending (k : BitVec 4) (s : State) :
    (cutWrite k s).pending = s.pending := by
  simp (maxDischargeDepth := 8) [cutWrite, apply_ite State.pending]

@[simp] theorem assertReset_pending (k : BitVec 4) (cause : BitVec 7) (grantCause : Nat) (s : State) :
    (assertReset k cause grantCause s).pending = s.pending := by
  simp (maxDischargeDepth := 8) [assertReset, apply_ite State.pending]

@[simp] theorem warmReset_pending (cause : BitVec 7) (s : State) :
    (warmReset cause s).pending = s.pending := by
  simp (maxDischargeDepth := 8) [warmReset, apply_ite State.pending]

@[simp] theorem resetSag_pending (rail us : Nat) (s : State) :
    (resetSag rail us s).pending = s.pending := by
  simp (maxDischargeDepth := 8) [resetSag, apply_ite State.pending]

@[simp] theorem rstreqWarm_pending (w : Writer) (value : Nat) (s : State) :
    (rstreqWarm w value s).pending = s.pending := by
  simp (maxDischargeDepth := 8) [rstreqWarm, apply_ite State.pending]

@[simp] theorem wdtWrite_pending (w : Writer) (i value : Nat) (s : State) :
    (wdtWrite w i value s).pending = s.pending := by
  simp (maxDischargeDepth := 8) [wdtWrite, apply_ite State.pending]

@[simp] theorem journalCommitDone_pending (s : State) :
    (journalCommitDone s).pending = s.pending := by
  simp (maxDischargeDepth := 8) [journalCommitDone, apply_ite State.pending]

@[simp] theorem latchInputs_pending (s : State) (mask : BitVec 15) :
    (latchInputs s mask).pending = s.pending := by
  simp [latchInputs]

@[simp] theorem zeroise_pending (mask : BitVec 15) (s : State) :
    (zeroise mask s).pending = s.pending := by
  simp (maxDischargeDepth := 8) [zeroise, apply_ite State.pending]

@[simp] theorem logInput_pending (s : State) (i : Nat) :
    (logInput s i).pending = s.pending := by
  simp (maxDischargeDepth := 8) [logInput, apply_ite State.pending]

@[simp] theorem tamperSample_pending (r : TamperReading) (s : State) :
    (tamperSample r s).pending = s.pending := by
  simp (maxDischargeDepth := 8) [tamperSample, apply_ite State.pending]

@[simp] theorem clockFault_pending (s : State) (refLost : Bool) :
    (clockFault s refLost).pending = s.pending := by
  simp [clockFault]

@[simp] theorem comparatorTrip_pending (i : Nat) (refLost : Bool) (s : State) :
    (comparatorTrip i refLost s).pending = s.pending := by
  simp (maxDischargeDepth := 8) [comparatorTrip, apply_ite State.pending]

@[simp] theorem batPowerOn_pending (s : State) :
    (batPowerOn s).pending = s.pending := by
  simp [batPowerOn]

@[simp] theorem supplySwitch_pending (on : Bool) (s : State) :
    (supplySwitch on s).pending = s.pending := by
  simp [supplySwitch]

@[simp] theorem vbatMeasure_pending (mv : Nat) (s : State) :
    (vbatMeasure mv s).pending = s.pending := by
  simp (maxDischargeDepth := 8) [vbatMeasure, apply_ite State.pending]

@[simp] theorem warningOnset_pending (mask : Nat) (s0 : State) :
    (warningOnset mask s0).pending = s0.pending := by
  simp (maxDischargeDepth := 8) [warningOnset, apply_ite State.pending]

@[simp] theorem sagWarning_pending (rails : BitVec 3) (s : State) :
    (sagWarning rails s).pending = s.pending := by
  simp (maxDischargeDepth := 8) [sagWarning, apply_ite State.pending]

@[simp] theorem pfailAssert_pending (s : State) :
    (pfailAssert s).pending = s.pending := by
  simp (maxDischargeDepth := 8) [pfailAssert, apply_ite State.pending]

@[simp] theorem tmpConfig_pending (s : State) (c : Cmd) :
    (tmpConfig s c).pending = s.pending := by
  simp (maxDischargeDepth := 8) [tmpConfig, apply_ite State.pending]

@[simp] theorem tmpQuery_pending (s : State) (c : Cmd) :
    (tmpQuery s c).pending = s.pending := by
  simp [tmpQuery]

@[simp] theorem tmpAck_pending (s : State) (c : Cmd) :
    (tmpAck s c).pending = s.pending := by
  simp (maxDischargeDepth := 8) [tmpAck, apply_ite State.pending]

@[simp] theorem excRow_pending (s : State) (n k op : Nat) (draft serve : State → Cmd → State) (hdraft : ∀ z0 z1, (draft z0 z1).pending = z0.pending) (hserve : ∀ z0 z1, (serve z0 z1).pending = z0.pending) :
    (excRow s n k op draft serve).pending = s.pending := by
  unfold excRow; (repeat' split) <;> simp [*, apply_ite State.pending]

@[simp] theorem excStep_pending (s : State) (c : Cmd) :
    (excStep s c).pending = s.pending := by
  unfold excStep; split <;> simp [*, apply_ite State.pending]

@[simp] theorem resolveThenExc_pending (s : State) (c : Cmd) :
    (resolveThenExc s c).pending = s.pending := by
  unfold resolveThenExc; split <;> simp [*, apply_ite State.pending]

@[simp] theorem objQuery_pending (s : State) (c : Cmd) :
    (objQuery s c).pending = s.pending := by
  simp (maxDischargeDepth := 8) [objQuery, apply_ite State.pending]

@[simp] theorem serveQuery_pending (s : State) (c : Cmd) :
    (serveQuery s c).pending = s.pending := by
  unfold serveQuery; split <;> simp [*, apply_ite State.pending]

@[simp] theorem requestDelete_pending (s : State) (c : Cmd) (o : Obj) :
    (requestDelete s c o).pending = s.pending := by
  unfold requestDelete; split <;> simp [*, apply_ite State.pending]

@[simp] theorem serveDelete_pending (s : State) (c0 : Cmd) :
    (serveDelete s c0).pending = s.pending := by
  unfold serveDelete; dsimp only; split <;> simp [*, apply_ite State.pending]

@[simp] theorem objDelete_pending (s : State) (c : Cmd) :
    (objDelete s c).pending = s.pending := by
  unfold objDelete; (repeat' split) <;> simp [*, apply_ite State.pending]

@[simp] theorem kcLoad_pending (s : State) (c : Cmd) : (kcLoad s c).pending = s.pending := by
  have h1 := Got.keys_pending (getRef s c 0 0 (c.inl 72 1) (c.inl 76 4) true) s s
  have h2 := getRef_pending s c 0 0 (c.inl 72 1) (c.inl 76 4) true s rfl
  rw [h2] at h1
  unfold kcLoad
  split
  · split
    · simp
    · have h9 := handleResult_pending (by assumption); simp_all
  · split
    · rename_i h; rw [h] at h1; exact h1
    · rename_i h; rw [h] at h1
      split
      · simpa using h1
      · split
        · simpa using h1
        · have h9 := handleResult_pending (by assumption); simp_all

@[simp] theorem attestDevice_pending (s : State) (c : Cmd) :
    (attestDevice s c).pending = s.pending := by
  unfold attestDevice; split <;> simp [*, apply_ite State.pending]

@[simp] theorem attestPartition_pending (s : State) (c : Cmd) :
    (attestPartition s c).pending = s.pending := by
  unfold attestPartition; (repeat' (first | split | (dsimp only; split))) <;> simp [*, apply_ite State.pending]

@[simp] theorem State.modPin_pending (s : State) (n : Nat) (f : Pin → Pin) :
    (State.modPin s n f).pending = s.pending := by
  simp [State.modPin]

@[simp] theorem pinGrant_pending (s : State) (n f : Nat) :
    (pinGrant s n f).pending = s.pending := by
  simp (maxDischargeDepth := 8) [pinGrant, apply_ite State.pending]

@[simp] theorem pinRefuse_pending (s : State) (n f : Nat) :
    (pinRefuse s n f).pending = s.pending := by
  simp [pinRefuse]

@[simp] theorem pinRequest_pending (s : State) (n f : Nat) :
    (pinRequest s n f).pending = s.pending := by
  unfold pinRequest; split <;> simp [*, apply_ite State.pending]

@[simp] theorem applyPins_pending (s : State) :
    (applyPins s).pending = s.pending := by
  simp (maxDischargeDepth := 8) [applyPins, apply_ite State.pending]

@[simp] theorem iomSet_pending (s : State) (c : Cmd) :
    (iomSet s c).pending = s.pending := by
  unfold iomSet; (repeat' (first | split | (dsimp only; split))) <;> simp [*, apply_ite State.pending]

@[simp] theorem putEntry_pending (s : State) (d : DirEnt) :
    (putEntry s d).pending = s.pending := by
  simp [putEntry]

@[simp] theorem installDraft_pending (s : State) (img : Bytes) (gen : Nat) :
    (installDraft s img gen).pending = s.pending := by
  simp [installDraft]

@[simp] theorem unloadDraft_pending (s : State) (op gen high : Nat) :
    (unloadDraft s op gen high).pending = s.pending := by
  simp [unloadDraft]

@[simp] theorem applyDraft_pending (s : State) (body : Bytes) :
    (applyDraft s body).pending = s.pending := by
  simp (maxDischargeDepth := 8) [applyDraft, apply_ite State.pending]

@[simp] theorem setSigner_pending (s : State) (slot : Nat) (key : Bytes) :
    (setSigner s slot key).pending = s.pending := by
  simp [setSigner]

@[simp] theorem withImage_pending (s : State) (c : Cmd) (f : State → State) (hf : ∀ z0, (f z0).pending = z0.pending) :
    (withImage s c f).pending = s.pending := by
  unfold withImage; split <;> simp [*, apply_ite State.pending]

@[simp] theorem draftCommit_pending (s : State) (c : Cmd) :
    (draftCommit s c).pending = s.pending := by
  unfold draftCommit; dsimp only; split <;> simp [*, apply_ite State.pending]

@[simp] theorem draftLoad_pending (s : State) (c : Cmd) :
    (draftLoad s c).pending = s.pending := by
  simp [draftLoad]

@[simp] theorem draftUnload_pending (s : State) (c : Cmd) :
    (draftUnload s c).pending = s.pending := by
  simp (maxDischargeDepth := 8) [draftUnload, apply_ite State.pending]

@[simp] theorem draftSignerSet_pending (s : State) (c : Cmd) :
    (draftSignerSet s c).pending = s.pending := by
  simp (maxDischargeDepth := 8) [draftSignerSet, apply_ite State.pending]

@[simp] theorem draftQuery_pending (s : State) (c : Cmd) :
    (draftQuery s c).pending = s.pending := by
  simp (maxDischargeDepth := 8) [draftQuery, apply_ite State.pending]

theorem nthOp_all (P : StepFn → Prop) {l : List StepFn} {o : Nat} {f : StepFn} (h : nthOp l o = some f)
    (hl : ∀ g ∈ l, P g) : P f := by
  unfold nthOp at h
  split at h
  · simp at h
  · exact hl f (List.mem_of_getElem? h)

theorem unitOp_keeps_pending {u o : Nat} {f : StepFn} (h : unitOp u o = some f) :
    ∀ (t : State) (c : Cmd) (a : StepArgs) (d : State), d.pending = t.pending → ((f t c a).st d).pending = t.pending := by
  unfold unitOp at h
  (repeat' split at h)
  all_goals first
    | (simp at h; done)
    | (refine nthOp_all (fun g => ∀ (t : State) (c : Cmd) (a : StepArgs) (d : State), d.pending = t.pending →
        ((g t c a).st d).pending = t.pending) h ?_
       simp only [List.forall_mem_cons]
       (repeat' apply And.intro) <;> first | (intro t c a d hd; simp [hd]; done) | (intro x hx; cases hx))

@[simp] theorem draftStep_pending (s : State) (n k : Nat) (c : Cmd) : (draftStep s n k c).pending = s.pending := by
  unfold draftStep
  dsimp only
  apply State.step1_pending
  cases h : unitOp (stepUnit ((stepWord s n c).getD 0)) (stepOp ((stepWord s n c).getD 0)) with
  | none => intro t c a d hd; simpa using hd
  | some f => exact unitOp_keeps_pending h

@[simp] theorem draftRun_pending (x : Nat) (s : State) (n k : Nat) : (draftRun x s n k).pending = s.pending := by
  induction x generalizing s with
  | zero => rfl
  | succ x ih =>
    unfold draftRun
    split
    · dsimp only
      split
      · simp
      · split
        · simp
        · rw [ih]; simp
    · rfl

@[simp] theorem customerDraft_pending (n k : Nat) (s : State) :
    (customerDraft n k s).pending = s.pending := by
  unfold customerDraft; split <;> simp [*, apply_ite State.pending]

/-! ## The RAM -/

@[simp] theorem takeToken_mem (s : State) (code : Nat) :
    (takeToken s code).1.mem = s.mem := by
  unfold takeToken; (repeat' (first | split | (dsimp only; split))) <;> simp [*, apply_ite State.mem]

@[simp] theorem ringTake_mem (s : State) (e : Ev) (suppressed : Bool) :
    (ringTake s e suppressed).mem = s.mem := by
  simp (maxDischargeDepth := 8) [ringTake, apply_ite State.mem]

@[simp] theorem exportRec_mem (s : State) (r : Rec) :
    (exportRec s r).mem = s.mem := by
  simp (maxDischargeDepth := 8) [exportRec, apply_ite State.mem]

@[simp] theorem appendLog_mem (s : State) (e : Ev) :
    (appendLog s e).mem = s.mem := by
  simp [appendLog]

@[simp] theorem bumpRepeat_mem (s : State) (code : Nat) :
    (bumpRepeat s code).mem = s.mem := by
  unfold bumpRepeat; split <;> simp [*, apply_ite State.mem]

@[simp] theorem bumpLost_mem (s : State) (n : Nat) :
    (bumpLost s n).mem = s.mem := by
  simp [bumpLost]

@[simp] theorem logFull_mem (s : State) :
    (logFull s).mem = s.mem := by
  simp [logFull]

@[simp] theorem writeEvent_mem (s0 : State) (e : Ev) :
    (writeEvent s0 e).mem = s0.mem := by
  simp (maxDischargeDepth := 8) [writeEvent, apply_ite State.mem]

@[simp] theorem eventRecord_mem (s : State) :
    (eventRecord s).mem = s.mem := by
  unfold eventRecord; split <;> simp [*, apply_ite State.mem]

@[simp] theorem optimeStore_mem (s0 : State) :
    (optimeStore s0).mem = s0.mem := by
  simp (maxDischargeDepth := 8) [optimeStore, apply_ite State.mem]

@[simp] theorem clearLog_mem (s : State) :
    (clearLog s).mem = s.mem := by
  simp [clearLog]

@[simp] theorem clearBegin_mem (s : State) (c : Cmd) :
    (clearBegin s c).mem = s.mem := by
  simp (maxDischargeDepth := 8) [clearBegin, apply_ite State.mem]

@[simp] theorem evrClear_mem (s : State) (c : Cmd) :
    (evrClear s c).mem = s.mem := by
  simp (maxDischargeDepth := 8) [evrClear, apply_ite State.mem]

@[simp] theorem clearEnd_mem (s : State) (p : Place) :
    (clearEnd s p).mem = s.mem := by
  unfold clearEnd; (repeat' split) <;> simp [*, apply_ite State.mem]

@[simp] theorem evrSetExport_mem (s : State) (c : Cmd) :
    (evrSetExport s c).mem = s.mem := by
  simp (maxDischargeDepth := 8) [evrSetExport, apply_ite State.mem]

@[simp] theorem evrRead_mem (s : State) (c : Cmd) :
    (evrRead s c).mem = s.mem := by
  simp (maxDischargeDepth := 8) [evrRead, apply_ite State.mem]

@[simp] theorem bbRead_mem (s : State) (c : Cmd) :
    (bbRead s c).mem = s.mem := by
  simp (maxDischargeDepth := 8) [bbRead, apply_ite State.mem]

@[simp] theorem bbRelease_mem (s : State) (c : Cmd) :
    (bbRelease s c).mem = s.mem := by
  simp (maxDischargeDepth := 8) [bbRelease, apply_ite State.mem]

@[simp] theorem recorderStart_mem (s : State) :
    (recorderStart s).mem = s.mem := by
  simp (maxDischargeDepth := 8) [recorderStart, apply_ite State.mem]

@[simp] theorem State.modUnit_mem (s : State) (u : Nat) (f : BUnit → BUnit) :
    (State.modUnit s u f).mem = s.mem := by
  simp [State.modUnit]

@[simp] theorem State.modSlot_mem (s : State) (i : Nat) (f : Slot → Slot) :
    (State.modSlot s i f).mem = s.mem := by
  simp [State.modSlot]

@[simp] theorem takeUnit_mem (s : State) (u : Nat) :
    (takeUnit s u).mem = s.mem := by
  simp (maxDischargeDepth := 8) [takeUnit, apply_ite State.mem]

@[simp] theorem startPick_mem (s : State) (i u pick : Nat) (requested : Bool) (kind : Nat) (who : Option Place) :
    (startPick s i u pick requested kind who).mem = s.mem := by
  simp [startPick]

@[simp] theorem dropRequests_mem (s : State) (i k : Nat) : (dropRequests s i k).mem = s.mem := by
  induction k generalizing s with
  | zero => rfl
  | succ k ih =>
    unfold dropRequests
    split
    · rfl
    · split
      · rfl
      · rw [ih]; split <;> simp

@[simp] theorem advanceWalk_mem (s : State) (i pick u : Nat) :
    (advanceWalk s i pick u).mem = s.mem := by
  unfold advanceWalk; split <;> simp [*, apply_ite State.mem]

@[simp] theorem slotPeriod_mem (i : Nat) (s : State) :
    (slotPeriod i s).mem = s.mem := by
  unfold slotPeriod; (repeat' (first | split | (dsimp only; split))) <;> simp [*, apply_ite State.mem]

@[simp] theorem requestPick_mem (s : State) (u pick kind : Nat) (who : Option Place) :
    (requestPick s u pick kind who).mem = s.mem := by
  simp [requestPick]

@[simp] theorem bistRequest_mem (w : Writer) (value : Nat) (s : State) :
    (bistRequest w value s).mem = s.mem := by
  simp (maxDischargeDepth := 8) [bistRequest, apply_ite State.mem]

@[simp] theorem giveUnit_mem (s : State) (u st : Nat) :
    (giveUnit s u st).mem = s.mem := by
  simp (maxDischargeDepth := 8) [giveUnit, apply_ite State.mem]

@[simp] theorem retireUnit_mem (s : State) (u cause : Nat) :
    (retireUnit s u cause).mem = s.mem := by
  simp (maxDischargeDepth := 8) [retireUnit, apply_ite State.mem]

@[simp] theorem answerPick_mem (s : State) (x : Slot) (v : Nat) :
    (answerPick s x v).mem = s.mem := by
  unfold answerPick; split <;> simp [*, apply_ite State.mem]

@[simp] theorem closeSlot_mem (s : State) (i : Nat) (x : Slot) :
    (closeSlot s i x).mem = s.mem := by
  simp (maxDischargeDepth := 8) [closeSlot, apply_ite State.mem]

@[simp] theorem failPick_mem (s : State) (i misr : Nat) :
    (failPick s i misr).mem = s.mem := by
  simp (maxDischargeDepth := 8) [failPick, apply_ite State.mem]

@[simp] theorem returnRepeat_mem (s : State) (u pick : Nat) :
    (returnRepeat s u pick).mem = s.mem := by
  simp (maxDischargeDepth := 8) [returnRepeat, apply_ite State.mem]

@[simp] theorem passPick_mem (s : State) (i : Nat) :
    (passPick s i).mem = s.mem := by
  simp (maxDischargeDepth := 8) [passPick, apply_ite State.mem]

@[simp] theorem bistIdle_mem (i : Nat) (s : State) :
    (bistIdle i s).mem = s.mem := by
  simp (maxDischargeDepth := 8) [bistIdle, apply_ite State.mem]

@[simp] theorem isolateTimeout_mem (i : Nat) (s : State) :
    (isolateTimeout i s).mem = s.mem := by
  simp (maxDischargeDepth := 8) [isolateTimeout, apply_ite State.mem]

@[simp] theorem patternsDone_mem (i misr : Nat) (s : State) :
    (patternsDone i misr s).mem = s.mem := by
  simp (maxDischargeDepth := 8) [patternsDone, apply_ite State.mem]

@[simp] theorem unitRestored_mem (i : Nat) (kat : Bool) (s : State) :
    (unitRestored i kat s).mem = s.mem := by
  simp (maxDischargeDepth := 8) [unitRestored, apply_ite State.mem]

@[simp] theorem abandonPick_mem (cause : Nat) (s : State) (i : Nat) :
    (abandonPick cause s i).mem = s.mem := by
  simp (maxDischargeDepth := 8) [abandonPick, apply_ite State.mem]

@[simp] theorem abandonPicks_mem (cause : Nat) (s : State) :
    (abandonPicks cause s).mem = s.mem := by
  simp [abandonPicks]

@[simp] theorem bistQuery_mem (s : State) (c : Cmd) :
    (bistQuery s c).mem = s.mem := by
  simp (maxDischargeDepth := 8) [bistQuery, apply_ite State.mem]

@[simp] theorem bistPick_mem (s : State) (c : Cmd) :
    (bistPick s c).mem = s.mem := by
  simp (maxDischargeDepth := 8) [bistPick, apply_ite State.mem]

@[simp] theorem bistSetPace_mem (s : State) (c : Cmd) :
    (bistSetPace s c).mem = s.mem := by
  simp (maxDischargeDepth := 8) [bistSetPace, apply_ite State.mem]

@[simp] theorem endGrant_mem (cause : Nat) (s : State) :
    (endGrant cause s).mem = s.mem := by
  simp (maxDischargeDepth := 8) [endGrant, apply_ite State.mem]

@[simp] theorem wdtWrite_mem (w : Writer) (i value : Nat) (s : State) :
    (wdtWrite w i value s).mem = s.mem := by
  simp (maxDischargeDepth := 8) [wdtWrite, apply_ite State.mem]

@[simp] theorem latchInputs_mem (s : State) (mask : BitVec 15) :
    (latchInputs s mask).mem = s.mem := by
  simp [latchInputs]

@[simp] theorem logInput_mem (s : State) (i : Nat) :
    (logInput s i).mem = s.mem := by
  simp (maxDischargeDepth := 8) [logInput, apply_ite State.mem]

@[simp] theorem clockFault_mem (s : State) (refLost : Bool) :
    (clockFault s refLost).mem = s.mem := by
  simp [clockFault]

@[simp] theorem batPowerOn_mem (s : State) :
    (batPowerOn s).mem = s.mem := by
  simp [batPowerOn]

@[simp] theorem supplySwitch_mem (on : Bool) (s : State) :
    (supplySwitch on s).mem = s.mem := by
  simp [supplySwitch]

@[simp] theorem vbatMeasure_mem (mv : Nat) (s : State) :
    (vbatMeasure mv s).mem = s.mem := by
  simp (maxDischargeDepth := 8) [vbatMeasure, apply_ite State.mem]

@[simp] theorem warningOnset_mem (mask : Nat) (s0 : State) :
    (warningOnset mask s0).mem = s0.mem := by
  simp (maxDischargeDepth := 8) [warningOnset, apply_ite State.mem]

@[simp] theorem sagWarning_mem (rails : BitVec 3) (s : State) :
    (sagWarning rails s).mem = s.mem := by
  simp (maxDischargeDepth := 8) [sagWarning, apply_ite State.mem]

@[simp] theorem pfailAssert_mem (s : State) :
    (pfailAssert s).mem = s.mem := by
  simp (maxDischargeDepth := 8) [pfailAssert, apply_ite State.mem]

@[simp] theorem tmpConfig_mem (s : State) (c : Cmd) :
    (tmpConfig s c).mem = s.mem := by
  simp (maxDischargeDepth := 8) [tmpConfig, apply_ite State.mem]

@[simp] theorem tmpQuery_mem (s : State) (c : Cmd) :
    (tmpQuery s c).mem = s.mem := by
  simp [tmpQuery]

@[simp] theorem tmpAck_mem (s : State) (c : Cmd) :
    (tmpAck s c).mem = s.mem := by
  simp (maxDischargeDepth := 8) [tmpAck, apply_ite State.mem]

@[simp] theorem excRow_mem (s : State) (n k op : Nat) (draft serve : State → Cmd → State) (hdraft : ∀ z0 z1, (draft z0 z1).mem = z0.mem) (hserve : ∀ z0 z1, (serve z0 z1).mem = z0.mem) :
    (excRow s n k op draft serve).mem = s.mem := by
  unfold excRow; (repeat' split) <;> simp [*, apply_ite State.mem]

@[simp] theorem excStep_mem (s : State) (c : Cmd) :
    (excStep s c).mem = s.mem := by
  unfold excStep; split <;> simp [*, apply_ite State.mem]

@[simp] theorem resolveThenExc_mem (s : State) (c : Cmd) :
    (resolveThenExc s c).mem = s.mem := by
  unfold resolveThenExc; split <;> simp [*, apply_ite State.mem]

@[simp] theorem objQuery_mem (s : State) (c : Cmd) :
    (objQuery s c).mem = s.mem := by
  simp (maxDischargeDepth := 8) [objQuery, apply_ite State.mem]

@[simp] theorem serveQuery_mem (s : State) (c : Cmd) :
    (serveQuery s c).mem = s.mem := by
  unfold serveQuery; split <;> simp [*, apply_ite State.mem]

@[simp] theorem requestDelete_mem (s : State) (c : Cmd) (o : Obj) :
    (requestDelete s c o).mem = s.mem := by
  unfold requestDelete; split <;> simp [*, apply_ite State.mem]

@[simp] theorem serveDelete_mem (s : State) (c0 : Cmd) :
    (serveDelete s c0).mem = s.mem := by
  unfold serveDelete; dsimp only; split <;> simp [*, apply_ite State.mem]

@[simp] theorem objDelete_mem (s : State) (c : Cmd) :
    (objDelete s c).mem = s.mem := by
  unfold objDelete; (repeat' split) <;> simp [*, apply_ite State.mem]

@[simp] theorem kcLoad_mem (s : State) (c : Cmd) : (kcLoad s c).mem = s.mem := by
  have h1 := Got.keys_mem (getRef s c 0 0 (c.inl 72 1) (c.inl 76 4) true) s s
  have h2 := getRef_mem s c 0 0 (c.inl 72 1) (c.inl 76 4) true s rfl
  rw [h2] at h1
  unfold kcLoad
  split
  · split
    · simp
    · have h9 := handleResult_mem (by assumption); simp_all
  · split
    · rename_i h; rw [h] at h1; exact h1
    · rename_i h; rw [h] at h1
      split
      · simpa using h1
      · split
        · simpa using h1
        · have h9 := handleResult_mem (by assumption); simp_all

@[simp] theorem attestDevice_mem (s : State) (c : Cmd) :
    (attestDevice s c).mem = s.mem := by
  unfold attestDevice; split <;> simp [*, apply_ite State.mem]

@[simp] theorem attestPartition_mem (s : State) (c : Cmd) :
    (attestPartition s c).mem = s.mem := by
  unfold attestPartition; (repeat' (first | split | (dsimp only; split))) <;> simp [*, apply_ite State.mem]

@[simp] theorem State.modPin_mem (s : State) (n : Nat) (f : Pin → Pin) :
    (State.modPin s n f).mem = s.mem := by
  simp [State.modPin]

@[simp] theorem pinGrant_mem (s : State) (n f : Nat) :
    (pinGrant s n f).mem = s.mem := by
  simp (maxDischargeDepth := 8) [pinGrant, apply_ite State.mem]

@[simp] theorem pinRefuse_mem (s : State) (n f : Nat) :
    (pinRefuse s n f).mem = s.mem := by
  simp [pinRefuse]

@[simp] theorem pinRequest_mem (s : State) (n f : Nat) :
    (pinRequest s n f).mem = s.mem := by
  unfold pinRequest; split <;> simp [*, apply_ite State.mem]

@[simp] theorem applyPins_mem (s : State) :
    (applyPins s).mem = s.mem := by
  simp (maxDischargeDepth := 8) [applyPins, apply_ite State.mem]

@[simp] theorem iomSet_mem (s : State) (c : Cmd) :
    (iomSet s c).mem = s.mem := by
  unfold iomSet; (repeat' (first | split | (dsimp only; split))) <;> simp [*, apply_ite State.mem]

@[simp] theorem putEntry_mem (s : State) (d : DirEnt) :
    (putEntry s d).mem = s.mem := by
  simp [putEntry]

@[simp] theorem unloadDraft_mem (s : State) (op gen high : Nat) :
    (unloadDraft s op gen high).mem = s.mem := by
  simp [unloadDraft]

@[simp] theorem setSigner_mem (s : State) (slot : Nat) (key : Bytes) :
    (setSigner s slot key).mem = s.mem := by
  simp [setSigner]

@[simp] theorem withImage_mem (s : State) (c : Cmd) (f : State → State) (hf : ∀ z0, (f z0).mem = z0.mem) :
    (withImage s c f).mem = s.mem := by
  unfold withImage; split <;> simp [*, apply_ite State.mem]

@[simp] theorem draftUnload_mem (s : State) (c : Cmd) :
    (draftUnload s c).mem = s.mem := by
  simp (maxDischargeDepth := 8) [draftUnload, apply_ite State.mem]

@[simp] theorem draftSignerSet_mem (s : State) (c : Cmd) :
    (draftSignerSet s c).mem = s.mem := by
  simp (maxDischargeDepth := 8) [draftSignerSet, apply_ite State.mem]

@[simp] theorem draftQuery_mem (s : State) (c : Cmd) :
    (draftQuery s c).mem = s.mem := by
  simp (maxDischargeDepth := 8) [draftQuery, apply_ite State.mem]

theorem unitOp_keeps_mem {u o : Nat} {f : StepFn} (h : unitOp u o = some f) :
    ∀ (t : State) (c : Cmd) (a : StepArgs) (d : State), d.mem = t.mem → ((f t c a).st d).mem = t.mem := by
  unfold unitOp at h
  (repeat' split at h)
  all_goals first
    | (simp at h; done)
    | (refine nthOp_all (fun g => ∀ (t : State) (c : Cmd) (a : StepArgs) (d : State), d.mem = t.mem →
        ((g t c a).st d).mem = t.mem) h ?_
       simp only [List.forall_mem_cons]
       (repeat' apply And.intro) <;> first | (intro t c a d hd; simp [hd]; done) | (intro x hx; cases hx))

@[simp] theorem draftStep_mem (s : State) (n k : Nat) (c : Cmd) : (draftStep s n k c).mem = s.mem := by
  unfold draftStep
  dsimp only
  apply State.step1_mem
  cases h : unitOp (stepUnit ((stepWord s n c).getD 0)) (stepOp ((stepWord s n c).getD 0)) with
  | none => intro t c a d hd; simpa using hd
  | some f => exact unitOp_keeps_mem h

@[simp] theorem draftRun_mem (x : Nat) (s : State) (n k : Nat) : (draftRun x s n k).mem = s.mem := by
  induction x generalizing s with
  | zero => rfl
  | succ x ih =>
    unfold draftRun
    split
    · dsimp only
      split
      · simp
      · split
        · simp
        · rw [ih]; simp
    · rfl

@[simp] theorem customerDraft_mem (n k : Nat) (s : State) :
    (customerDraft n k s).mem = s.mem := by
  unfold customerDraft; split <;> simp [*, apply_ite State.mem]

end Sys2Proof.Machine
end

