-- ==== Sys2Proof/Laws/KeepsPair.lean ====
section
/-! SUPPORT. What the operations of Link, Standby, Pair and Startup leave alone: a lemma ending in `_pending` says that the
queue of waiting commands stays as it was, one ending in `_mem` that the RAM of the internal map does. -/

set_option linter.all false

namespace Sys2Proof.Machine

open Sys2Proof

/-! ## The queue -/

theorem getD_pending {o : Option State} {s t : State} (h : (o.getD s).pending = s.pending) (ho : o = some t) :
    t.pending = s.pending := by rw [ho] at h; exact h

@[simp] theorem trainLanes_pending (s : State) :
    (trainLanes s).pending = s.pending := by
  simp [trainLanes]

@[simp] theorem sendHello_pending (s : State) :
    (sendHello s).pending = s.pending := by
  simp [sendHello]

@[simp] theorem relink_pending (cause : Nat) (s : State) :
    (relink cause s).pending = s.pending := by
  simp (maxDischargeDepth := 8) [relink, apply_ite State.pending]

@[simp] theorem withSession_pending (s : State) (h : Hello) (secret z : Bytes) :
    (withSession s h secret z).pending = s.pending := by
  simp [withSession]

@[simp] theorem ensureReservation_pending (s : State) :
    (ensureReservation s).pending = s.pending := by
  simp (maxDischargeDepth := 8) [ensureReservation, apply_ite State.pending]

@[simp] theorem commitPairRec_pending (s : State) (r : PairRec) :
    (commitPairRec s r).pending = s.pending := by
  unfold commitPairRec; (repeat' (first | split | (dsimp only; split))) <;> first | (simp [*, apply_ite State.pending]; done) | (have h9 := writeVersion_pending (by assumption); simp_all [apply_ite State.pending]; done)

@[simp] theorem startMirroring_pending (s : State) :
    (startMirroring s).pending = s.pending := by
  simp (maxDischargeDepth := 8) [startMirroring, apply_ite State.pending]

@[simp] theorem sendRecords_pending (s : State) (typ beat : Nat) (b : Bytes) :
    (sendRecords s typ beat b).pending = s.pending := by
  simp (maxDischargeDepth := 8) [sendRecords, apply_ite State.pending]

@[simp] theorem resendBeats_pending (s : State) :
    (resendBeats s).pending = s.pending := by
  simp (maxDischargeDepth := 8) [resendBeats, apply_ite State.pending]

@[simp] theorem sendSnapshot_pending (s : State) :
    (sendSnapshot s).pending = s.pending := by
  simp [sendSnapshot]

@[simp] theorem rejoin_pending (s : State) :
    (rejoin s).pending = s.pending := by
  simp [rejoin]

@[simp] theorem ceremonyDone_pending (s : State) :
    (ceremonyDone s).pending = s.pending := by
  unfold ceremonyDone; (repeat' split) <;> simp [*, apply_ite State.pending]

@[simp] theorem linkUp_pending (s : State) :
    (linkUp s).pending = s.pending := by
  simp (maxDischargeDepth := 8) [linkUp, apply_ite State.pending]

@[simp] theorem frameDropped_pending (s : State) :
    (frameDropped s).pending = s.pending := by
  simp [frameDropped]

@[simp] theorem badFrame_pending (s : State) :
    (badFrame s).pending = s.pending := by
  simp (maxDischargeDepth := 8) [badFrame, apply_ite State.pending]

@[simp] theorem notPermitted_pending (s : State) :
    (notPermitted s).pending = s.pending := by
  simp [notPermitted]

@[simp] theorem badBeat_pending (s : State) :
    (badBeat s).pending = s.pending := by
  simp [badBeat]

@[simp] theorem badSnapshot_pending (s : State) :
    (badSnapshot s).pending = s.pending := by
  simp [badSnapshot]

@[simp] theorem receive_pending (w : Wire) (s : State) (k : Frame → State → State) (hk : ∀ z0 z1, (k z0 z1).pending = z1.pending) :
    (receive w s k).pending = s.pending := by
  unfold receive; (repeat' (first | split | (dsimp only; split))) <;> simp [*, apply_ite State.pending]

@[simp] theorem luakaFrame_pending (typ : Nat) (w : Wire) (s : State) (k : Frame → State → State) (hk : ∀ z0 z1, (k z0 z1).pending = z1.pending) :
    (luakaFrame typ w s k).pending = s.pending := by
  unfold luakaFrame; split <;> simp [*, apply_ite State.pending]

@[simp] theorem ceremonyFails_pending (s : State) (status d : Nat) :
    (ceremonyFails s status d).pending = s.pending := by
  unfold ceremonyFails; split <;> simp [*, apply_ite State.pending]

@[simp] theorem ceremonyCommit_pending (s : State) (h : Hello) (z : Bytes) :
    (ceremonyCommit s h z).pending = s.pending := by
  simp (maxDischargeDepth := 8) [ceremonyCommit, apply_ite State.pending]

@[simp] theorem deriveKeys_pending (s : State) (h : Hello) :
    (deriveKeys s h).pending = s.pending := by
  unfold deriveKeys; (repeat' split) <;> simp [*, apply_ite State.pending]

@[simp] theorem takeHello_pending (s : State) (h : Hello) :
    (takeHello s h).pending = s.pending := by
  unfold takeHello; (repeat' (first | split | (dsimp only; split))) <;> simp [*, apply_ite State.pending]

@[simp] theorem helloTimer_pending (s : State) : (helloTimer s).pending = s.pending := by
  unfold helloTimer
  split
  · rfl
  · split
    · simp
    · apply drawOnce_pending
      intro t b
      dsimp only
      split <;> simp

@[simp] theorem luakaHello_pending (p : Bytes) (s : State) :
    (luakaHello p s).pending = s.pending := by
  unfold luakaHello; (repeat' (first | split | (dsimp only; split))) <;> simp [*, apply_ite State.pending]

@[simp] theorem laneTimeout_pending (s : State) :
    (laneTimeout s).pending = s.pending := by
  simp (maxDischargeDepth := 8) [laneTimeout, apply_ite State.pending]

@[simp] theorem laneLoss_pending (lane : Nat) (s : State) :
    (laneLoss lane s).pending = s.pending := by
  simp (maxDischargeDepth := 8) [laneLoss, apply_ite State.pending]

theorem standbyVersion_pending {s : State} {h k : Nat} {b : Bytes} {o : Option Nat} {l : Bool} {r : State × Nat}
    (hr : standbyVersion s h k b o l = some r) : r.1.pending = s.pending := by
  unfold standbyVersion at hr
  split at hr
  · simp at hr
  · have h9 := writeVersion_pending (by assumption)
    simp only [Option.some.injEq] at hr
    subst hr
    simp_all

@[simp] theorem applyObject_pending (s : State) (b : Bytes) :
    ((applyObject s b).getD s).pending = s.pending := by
  unfold applyObject; (repeat' (first | split | (dsimp only; split))) <;> first | (simp [*, apply_ite State.pending]; done) | (have h9 := standbyVersion_pending (by assumption); simp_all [apply_ite State.pending]; done)

@[simp] theorem applyTombstone_pending (s : State) (b : Bytes) :
    ((applyTombstone s b).getD s).pending = s.pending := by
  unfold applyTombstone; (repeat' (first | split | (dsimp only; split))) <;> first | (simp [*, apply_ite State.pending]; done) | (have h9 := writeVersion_pending (by assumption); simp_all [apply_ite State.pending]; done)

@[simp] theorem applyDomain_pending (s : State) (b : Bytes) : ((applyDomain s b).getD s).pending = s.pending := by
  unfold applyDomain
  split
  · rfl
  · cases h : standbyVersion s domainHandle 3 (sl b 0 96) none false with
    | none => rfl
    | some r => simpa using standbyVersion_pending h

@[simp] theorem dropTables_pending (s : State) (id rg pg : Nat) :
    (dropTables s id rg pg).pending = s.pending := by
  simp [dropTables]

@[simp] theorem dropPart_pending (s : State) (id rg pg : Nat) :
    (dropPart s id rg pg).pending = s.pending := by
  simp [dropPart]

@[simp] theorem applyPart_pending (both : Bool) (s : State) (b : Bytes) : ((applyPart both s b).getD s).pending = s.pending := by
  unfold applyPart
  dsimp only
  split
  · split
    · rfl
    · split
      · rfl
      · cases s.part? (fieldLe b 2 2) <;> simp
  · split
    · rfl
    · split <;> rfl

@[simp] theorem applyCust_pending (s : State) (b : Bytes) :
    ((applyCust s b).getD s).pending = s.pending := by
  unfold applyCust; dsimp only; split <;> simp [*, apply_ite State.pending]

@[simp] theorem applyRoutes_pending (s0 : State) (b : Bytes) :
    ((applyRoutes s0 b).getD s0).pending = s0.pending := by
  unfold applyRoutes; (repeat' (first | split | (dsimp only; split))) <;> simp [*, apply_ite State.pending]

@[simp] theorem applyRules_pending (s0 : State) (b : Bytes) :
    ((applyRules s0 b).getD s0).pending = s0.pending := by
  unfold applyRules; (repeat' (first | split | (dsimp only; split))) <;> simp [*, apply_ite State.pending]

@[simp] theorem snapRoutes_pending (s : State) (b : Bytes) :
    ((snapRoutes s b).getD s).pending = s.pending := by
  unfold snapRoutes; dsimp only; split <;> simp [*, apply_ite State.pending]

@[simp] theorem snapRules_pending (s : State) (b : Bytes) :
    ((snapRules s b).getD s).pending = s.pending := by
  unfold snapRules; dsimp only; split <;> simp [*, apply_ite State.pending]

@[simp] theorem applyTableConfig_pending (s : State) (b : Bytes) :
    ((applyTableConfig s b).getD s).pending = s.pending := by
  unfold applyTableConfig; (repeat' split) <;> simp [*, apply_ite State.pending]

@[simp] theorem applyTableState_pending (s : State) (b : Bytes) :
    ((applyTableState s b).getD s).pending = s.pending := by
  unfold applyTableState; dsimp only; split <;> simp [*, apply_ite State.pending]

@[simp] theorem applyQueue_pending (s : State) (b : Bytes) :
    ((applyQueue s b).getD s).pending = s.pending := by
  unfold applyQueue; (repeat' split) <;> simp [*, apply_ite State.pending]

@[simp] theorem applyCacheFill_pending (s : State) (part : Nat) (b : Bytes) :
    ((applyCacheFill s part b).getD s).pending = s.pending := by
  unfold applyCacheFill; dsimp only; split <;> simp [*, apply_ite State.pending]

@[simp] theorem applyCacheRemove_pending (s : State) (b : Bytes) :
    ((applyCacheRemove s b).getD s).pending = s.pending := by
  unfold applyCacheRemove; split <;> simp [*, apply_ite State.pending]

@[simp] theorem applyDup_pending (s : State) (b : Bytes) :
    ((applyDup s b).getD s).pending = s.pending := by
  unfold applyDup; split <;> simp [*, apply_ite State.pending]

@[simp] theorem applyConfig_pending (s : State) (b : Bytes) :
    ((applyConfig s b).getD s).pending = s.pending := by
  unfold applyConfig; (repeat' split) <;> simp [*, apply_ite State.pending]

theorem getD_ite_pending {p : Prop} [Decidable p] {a b : Option State} {s : State} {q : List Instr} (ha : (a.getD s).pending = q)
    (hb : (b.getD s).pending = q) : ((if p then a else b).getD s).pending = q := by split <;> assumption

@[simp] theorem applyRec_pending (both : Bool) (s : State) (r : BeatRec) :
    ((applyRec both s r).getD s).pending = s.pending := by
  unfold applyRec
  dsimp only
  repeat' with_reducible refine getD_ite_pending ?_ ?_
  all_goals first | rfl | (simp; done)

@[simp] theorem emptyStore_pending (s : State) :
    (emptyStore s).pending = s.pending := by
  simp [emptyStore]

@[simp] theorem dropState_pending (s0 : State) :
    (dropState s0).pending = s0.pending := by
  simp [dropState]

@[simp] theorem beginSnapshot_pending (s : State) :
    (beginSnapshot s).pending = s.pending := by
  unfold beginSnapshot; split <;> simp [*, apply_ite State.pending]

theorem foldBind_pending {α : Type} (g : State → α → Option State) (h : ∀ t x u, g t x = some u → u.pending = t.pending)
    (l : List α) (s u : State) (hu : l.foldl (fun (o : Option State) r => o.bind (fun t => g t r)) (some s) = some u) :
    u.pending = s.pending := by
  induction l generalizing s with
  | nil => simp only [List.foldl_nil, Option.some.injEq] at hu; rw [hu]
  | cons x l ih =>
    rw [List.foldl_cons, Option.bind_some] at hu
    cases hg : g s x with
    | none =>
      rw [hg] at hu
      exfalso
      have : ∀ l : List α, l.foldl (fun (o : Option State) r => o.bind (fun t => g t r)) none = none := by
        intro l; induction l with
        | nil => rfl
        | cons y l ih2 => rw [List.foldl_cons]; exact ih2
      rw [this] at hu
      cases hu
    | some t =>
      rw [hg] at hu
      exact (ih t hu).trans (h s x t hg)

theorem applySnap_pending {rs : List BeatRec} {s u : State} (h : applySnap rs s = some u) : u.pending = s.pending := by
  refine foldBind_pending (fun (t : State) (r : BeatRec) => (applyRec true t r).map (fun u : State => u.modLk (fun l : Link => l.seen (itemOf r))))
    ?_ rs s u h
  intro t x v hv
  rw [Option.map_eq_some_iff] at hv
  obtain ⟨w, hw, rfl⟩ := hv
  simpa using getD_pending (applyRec_pending true t x) hw

@[simp] theorem snapData_pending (f : Frame) (s0 : State) : (snapData f s0).pending = s0.pending := by
  unfold snapData
  dsimp only
  generalize hs : (if s0.lk.role = 3 ∧ s0.lk.pstate = 2 then s0 else rejoin s0) = s
  have h1 : s.pending = s0.pending := by rw [← hs]; split <;> simp
  generalize hs1 : (if s.lk.snapRx.isSome ∨ !snapFirst f.payload then s else beginSnapshot s) = s1
  have h2 : s1.pending = s0.pending := by rw [← hs1]; split <;> simp [h1]
  split
  · exact h2
  · split
    · simpa using h2
    · split
      · simpa using h2
      · have h9 := applySnap_pending (by assumption)
        simp [h9, h2]

@[simp] theorem snapEnd_pending (f : Frame) (s : State) :
    (snapEnd f s).pending = s.pending := by
  simp (maxDischargeDepth := 8) [snapEnd, apply_ite State.pending]

@[simp] theorem inSync_pending (s : State) :
    (inSync s).pending = s.pending := by
  simp [inSync]

@[simp] theorem beatData_pending (f : Frame) (s0 : State) :
    (beatData f s0).pending = s0.pending := by
  unfold beatData; (repeat' (first | split | (dsimp only; split))) <;> simp [*, apply_ite State.pending]

theorem applyBeat_pending {rs : List (BeatRec × Bool)} {s u : State} (h : applyBeat rs s = some u) :
    u.pending = s.pending := by
  refine foldBind_pending (fun t (r : BeatRec × Bool) => if r.2 then applyRec false t r.1 else some t) ?_ rs s u h
  intro t x v hv
  split at hv
  · exact getD_pending (applyRec_pending false t x.1) hv
  · simp only [Option.some.injEq] at hv; rw [hv]

@[simp] theorem finishBeat_pending (num : Nat) (rs : List (BeatRec × Bool)) (s : State) :
    (finishBeat num rs s).pending = s.pending := by
  unfold finishBeat; (repeat' (first | split | (dsimp only; split))) <;> first | (simp [*, apply_ite State.pending]; done) | (have h9 := applyBeat_pending (by assumption); simp_all [apply_ite State.pending]; done)

@[simp] theorem beatEnd_pending (f : Frame) (s0 : State) :
    (beatEnd f s0).pending = s0.pending := by
  simp (maxDischargeDepth := 8) [beatEnd, apply_ite State.pending]

@[simp] theorem applyWaiting_pending (x : Nat) (s : State) : (applyWaiting x s).pending = s.pending := by
  induction x generalizing s with
  | zero => rfl
  | succ k ih =>
    unfold applyWaiting
    split
    · rfl
    · rw [ih]; simp

@[simp] theorem handOver_pending (s : State) (c : Cmd) :
    (handOver s c).pending = s.pending := by
  simp [handOver]

@[simp] theorem switchAdvance_pending (s : State) :
    (switchAdvance s).pending = s.pending := by
  unfold switchAdvance; split <;> simp [*, apply_ite State.pending]

@[simp] theorem beatClose_pending (s0 : State) :
    (beatClose s0).pending = s0.pending := by
  simp (maxDischargeDepth := 8) [beatClose, apply_ite State.pending] <;> (repeat' (first | rfl | (split <;> simp [*, apply_ite State.pending])))

@[simp] theorem beatAck_pending (f : Frame) (s : State) :
    (beatAck f s).pending = s.pending := by
  simp (maxDischargeDepth := 8) [beatAck, apply_ite State.pending]

@[simp] theorem luakaTime_pending (rxNs : Int) (f : Frame) (s : State) :
    (luakaTime rxNs f s).pending = s.pending := by
  simp (maxDischargeDepth := 8) [luakaTime, apply_ite State.pending]

@[simp] theorem enterLone_pending (s : State) :
    (enterLone s).pending = s.pending := by
  unfold enterLone; dsimp only; split <;> simp [*, apply_ite State.pending]

@[simp] theorem heartbeatLoss_pending (s : State) :
    (heartbeatLoss s).pending = s.pending := by
  simp (maxDischargeDepth := 8) [heartbeatLoss, apply_ite State.pending]

@[simp] theorem clearTables_pending (s : State) (p : Nat) :
    (clearTables s p).pending = s.pending := by
  simp (maxDischargeDepth := 8) [clearTables, apply_ite State.pending]

@[simp] theorem resumeTear_pending (root x : Nat) (s : State) : (resumeTear root x s).pending = s.pending := by
  induction x generalizing s with
  | zero => rfl
  | succ k ih =>
    unfold resumeTear
    split
    · rfl
    · dsimp only
      split
      · simp
      · split <;> simp [ih]

@[simp] theorem resumeTears_pending (s : State) :
    (resumeTears s).pending = s.pending := by
  simp [resumeTears]

@[simp] theorem becomeActive_pending (s : State) :
    (becomeActive s).pending = s.pending := by
  simp (maxDischargeDepth := 8) [becomeActive, apply_ite State.pending]

@[simp] theorem drive_pending (s : State) :
    (drive s).pending = s.pending := by
  simp [drive]

@[simp] theorem release1_pending (s : State) :
    (release1 s).pending = s.pending := by
  simp [release1]

@[simp] theorem actInChange_pending (low : Bool) (s : State) :
    (actInChange low s).pending = s.pending := by
  simp [actInChange]

@[simp] theorem guardExpiry_pending (s : State) :
    (guardExpiry s).pending = s.pending := by
  simp (maxDischargeDepth := 8) [guardExpiry, apply_ite State.pending]

@[simp] theorem claimReread_pending (s : State) :
    (claimReread s).pending = s.pending := by
  simp (maxDischargeDepth := 8) [claimReread, apply_ite State.pending]

@[simp] theorem claimCheck_pending (s : State) :
    (claimCheck s).pending = s.pending := by
  simp (maxDischargeDepth := 8) [claimCheck, apply_ite State.pending]

@[simp] theorem contentionHigh_pending (s : State) :
    (contentionHigh s).pending = s.pending := by
  simp (maxDischargeDepth := 8) [contentionHigh, apply_ite State.pending]

@[simp] theorem standDown_pending (s : State) :
    (standDown s).pending = s.pending := by
  simp [standDown]

@[simp] theorem contentionTimeout_pending (s : State) :
    (contentionTimeout s).pending = s.pending := by
  simp (maxDischargeDepth := 8) [contentionTimeout, apply_ite State.pending]

@[simp] theorem interlockLow_pending (s : State) :
    (interlockLow s).pending = s.pending := by
  simp (maxDischargeDepth := 8) [interlockLow, apply_ite State.pending]

@[simp] theorem becomeUnpaired_pending (s : State) :
    (becomeUnpaired s).pending = s.pending := by
  simp [becomeUnpaired]

@[simp] theorem leavePair_pending (s : State) :
    (leavePair s).pending = s.pending := by
  simp [leavePair]

@[simp] theorem dropPairRec_pending (s : State) :
    (dropPairRec s).pending = s.pending := by
  unfold dropPairRec; (repeat' (first | split | (dsimp only; split))) <;> first | (simp [*, apply_ite State.pending]; done) | (have h9 := writeVersion_pending (by assumption); simp_all [apply_ite State.pending]; done)

@[simp] theorem dissolveActive_pending (s : State) :
    (dissolveActive s).pending = s.pending := by
  simp (maxDischargeDepth := 8) [dissolveActive, apply_ite State.pending]

@[simp] theorem detail7_pending (s : State) (c : Cmd) :
    (detail7 s c).pending = s.pending := by
  simp [detail7]

@[simp] theorem beginPair_pending (s : State) (c : Cmd) :
    (beginPair s c).pending = s.pending := by
  simp (maxDischargeDepth := 8) [beginPair, apply_ite State.pending]

@[simp] theorem pairBegin_pending (s : State) (c : Cmd) :
    (pairBegin s c).pending = s.pending := by
  simp (maxDischargeDepth := 8) [pairBegin, apply_ite State.pending]

@[simp] theorem ceremonyInterlock_pending (s : State) :
    (ceremonyInterlock s).pending = s.pending := by
  simp (maxDischargeDepth := 8) [ceremonyInterlock, apply_ite State.pending]

@[simp] theorem pairSetPolicy_pending (s : State) (c : Cmd) :
    (pairSetPolicy s c).pending = s.pending := by
  unfold pairSetPolicy
  dsimp only
  split
  · simp
  · exact commitDone_pending _ _ _ _ _ _ _ _ (State.modLk_pending _ _)

@[simp] theorem pairQuery_pending (s : State) (c : Cmd) :
    (pairQuery s c).pending = s.pending := by
  simp (maxDischargeDepth := 8) [pairQuery, apply_ite State.pending]

@[simp] theorem pairSwitchover_pending (s : State) (c : Cmd) :
    (pairSwitchover s c).pending = s.pending := by
  simp (maxDischargeDepth := 8) [pairSwitchover, apply_ite State.pending]

@[simp] theorem pairDissolve_pending (s : State) (c : Cmd) :
    (pairDissolve s c).pending = s.pending := by
  simp (maxDischargeDepth := 8) [pairDissolve, apply_ite State.pending] <;> (repeat' (first | rfl | (split <;> simp [*, apply_ite State.pending])))

@[simp] theorem slotEvents_pending (s : State) (r : SlotRead) (i check : Nat) :
    (slotEvents s r i check).pending = s.pending := by
  simp (maxDischargeDepth := 8) [slotEvents, apply_ite State.pending]

@[simp] theorem powerLink_pending (s : State) :
    (powerLink s).pending = s.pending := by
  simp (maxDischargeDepth := 8) [powerLink, apply_ite State.pending]

@[simp] theorem freshLoom_pending (n : Nat) (s : State) :
    (freshLoom n s).pending = s.pending := by
  simp [freshLoom]

@[simp] theorem switchOn_pending (d : Nat) (s : State) :
    (switchOn d s).pending = s.pending := by
  simp (maxDischargeDepth := 8) [switchOn, apply_ite State.pending]

@[simp] theorem switchOff_pending (d : Nat) (s : State) :
    (switchOff d s).pending = s.pending := by
  simp (maxDischargeDepth := 8) [switchOff, apply_ite State.pending]

@[simp] theorem startDrains_pending (s : State) :
    (startDrains s).pending = s.pending := by
  simp (maxDischargeDepth := 8) [startDrains, apply_ite State.pending]

@[simp] theorem fillSeq_pending (ds : List Nat) (s : State) :
    (fillSeq ds s).pending = s.pending := by
  simp [fillSeq]

@[simp] theorem State.atStep_pending (s : State) (n : Nat) :
    (State.atStep s n).pending = s.pending := by
  simp [State.atStep]

@[simp] theorem stepResume_pending (s : State) :
    (stepResume s).pending = s.pending := by
  unfold stepResume; dsimp only; split <;> simp [*, apply_ite State.pending]

@[simp] theorem dropRecords_pending (s : State) :
    (dropRecords s).pending = s.pending := by
  simp [dropRecords]

@[simp] theorem authRecords_pending (s : State) :
    (authRecords s).pending = s.pending := by
  simp (maxDischargeDepth := 8) [authRecords, apply_ite State.pending]

@[simp] theorem loadConfig_pending (s0 : State) :
    (loadConfig s0).pending = s0.pending := by
  simp [loadConfig]

@[simp] theorem loadPair_pending (s : State) :
    (loadPair s).pending = s.pending := by
  unfold loadPair; split <;> simp [*, apply_ite State.pending]

@[simp] theorem restartEvents_pending (s : State) :
    (restartEvents s).pending = s.pending := by
  simp (maxDischargeDepth := 8) [restartEvents, apply_ite State.pending]

@[simp] theorem stepFirmware_pending (s : State) :
    (stepFirmware s).pending = s.pending := by
  simp [stepFirmware]

@[simp] theorem startupStep_pending (s : State) :
    ((startupStep s).getD s).pending = s.pending := by
  unfold startupStep; (repeat' split) <;> simp [*, apply_ite State.pending]

@[simp] theorem startupAdvance_pending (x : Nat) (s : State) : (startupAdvance x s).pending = s.pending := by
  induction x generalizing s with
  | zero => rfl
  | succ k ih =>
    unfold startupAdvance
    split
    · rfl
    · rename_i t h
      rw [ih]
      exact getD_pending (startupStep_pending s) h

@[simp] theorem State.advance_pending (s : State) :
    (State.advance s).pending = s.pending := by
  simp [State.advance]

@[simp] theorem resetRelease_pending (s : State) :
    (resetRelease s).pending = s.pending := by
  simp (maxDischargeDepth := 8) [resetRelease, apply_ite State.pending]

@[simp] theorem railsConfirmed_pending (s : State) :
    (railsConfirmed s).pending = s.pending := by
  simp (maxDischargeDepth := 8) [railsConfirmed, apply_ite State.pending]

@[simp] theorem pllLocked_pending (external : Bool) (s : State) :
    (pllLocked external s).pending = s.pending := by
  simp (maxDischargeDepth := 8) [pllLocked, apply_ite State.pending]

@[simp] theorem stopStartup_pending (last : Nat) (s : State) :
    (stopStartup last s).pending = s.pending := by
  simp [stopStartup]

@[simp] theorem lbistComplete_pending (failing : Option Nat) (s : State) :
    (lbistComplete failing s).pending = s.pending := by
  unfold lbistComplete; (repeat' split) <;> simp [*, apply_ite State.pending]

@[simp] theorem runImage_pending (i : Nat) (fallback : Bool) (img : Image) (s : State) :
    (runImage i fallback img s).pending = s.pending := by
  simp [runImage]

@[simp] theorem bootVerified_pending (a b : SlotRead) (s : State) :
    (bootVerified a b s).pending = s.pending := by
  simp (maxDischargeDepth := 8) [bootVerified, apply_ite State.pending] <;> (repeat' (first | rfl | (split <;> simp [*, apply_ite State.pending])))

@[simp] theorem loomEnter_pending (n : Nat) (failing : Option Nat) (s : State) :
    (loomEnter n failing s).pending = s.pending := by
  unfold loomEnter; split <;> simp [*, apply_ite State.pending]

@[simp] theorem pdRequest_pending (s : State) (d : Nat) (on : Bool) :
    (pdRequest s d on).pending = s.pending := by
  simp (maxDischargeDepth := 8) [pdRequest, apply_ite State.pending]

@[simp] theorem pdctlWrite_pending (w : Writer) (reg value : Nat) (s : State) :
    (pdctlWrite w reg value s).pending = s.pending := by
  simp (maxDischargeDepth := 8) [pdctlWrite, apply_ite State.pending]

@[simp] theorem orderDone_pending (s : State) :
    (orderDone s).pending = s.pending := by
  simp (maxDischargeDepth := 8) [orderDone, apply_ite State.pending]

@[simp] theorem domainSwitched_pending (s : State) :
    (domainSwitched s).pending = s.pending := by
  unfold domainSwitched; (repeat' split) <;> simp [*, apply_ite State.pending]

@[simp] theorem loomOff_pending (n : Nat) (s : State) :
    (loomOff n s).pending = s.pending := by
  simp (maxDischargeDepth := 8) [loomOff, apply_ite State.pending]

@[simp] theorem drainDone_pending (n : Nat) (s : State) :
    (drainDone n s).pending = s.pending := by
  simp (maxDischargeDepth := 8) [drainDone, apply_ite State.pending]

@[simp] theorem drainOver_pending (n : Nat) (s : State) :
    (drainOver n s).pending = s.pending := by
  simp (maxDischargeDepth := 8) [drainOver, apply_ite State.pending]

@[simp] theorem holdRelease_pending (s : State) :
    (holdRelease s).pending = s.pending := by
  simp (maxDischargeDepth := 8) [holdRelease, apply_ite State.pending]

@[simp] theorem warningClear_pending (us : Nat) (s : State) :
    (warningClear us s).pending = s.pending := by
  simp (maxDischargeDepth := 8) [warningClear, apply_ite State.pending]

/-! ## The RAM -/

theorem getD_mem {o : Option State} {s t : State} (h : (o.getD s).mem = s.mem) (ho : o = some t) :
    t.mem = s.mem := by rw [ho] at h; exact h

@[simp] theorem trainLanes_mem (s : State) :
    (trainLanes s).mem = s.mem := by
  simp [trainLanes]

@[simp] theorem sendHello_mem (s : State) :
    (sendHello s).mem = s.mem := by
  simp [sendHello]

@[simp] theorem relink_mem (cause : Nat) (s : State) :
    (relink cause s).mem = s.mem := by
  simp (maxDischargeDepth := 8) [relink, apply_ite State.mem]

@[simp] theorem withSession_mem (s : State) (h : Hello) (secret z : Bytes) :
    (withSession s h secret z).mem = s.mem := by
  simp [withSession]

@[simp] theorem ensureReservation_mem (s : State) :
    (ensureReservation s).mem = s.mem := by
  simp (maxDischargeDepth := 8) [ensureReservation, apply_ite State.mem]

@[simp] theorem startMirroring_mem (s : State) :
    (startMirroring s).mem = s.mem := by
  simp (maxDischargeDepth := 8) [startMirroring, apply_ite State.mem]

@[simp] theorem sendRecords_mem (s : State) (typ beat : Nat) (b : Bytes) :
    (sendRecords s typ beat b).mem = s.mem := by
  simp (maxDischargeDepth := 8) [sendRecords, apply_ite State.mem]

@[simp] theorem resendBeats_mem (s : State) :
    (resendBeats s).mem = s.mem := by
  simp (maxDischargeDepth := 8) [resendBeats, apply_ite State.mem]

@[simp] theorem sendSnapshot_mem (s : State) :
    (sendSnapshot s).mem = s.mem := by
  simp [sendSnapshot]

@[simp] theorem rejoin_mem (s : State) :
    (rejoin s).mem = s.mem := by
  simp [rejoin]

@[simp] theorem ceremonyDone_mem (s : State) :
    (ceremonyDone s).mem = s.mem := by
  unfold ceremonyDone; (repeat' split) <;> simp [*, apply_ite State.mem]

@[simp] theorem linkUp_mem (s : State) :
    (linkUp s).mem = s.mem := by
  simp (maxDischargeDepth := 8) [linkUp, apply_ite State.mem]

@[simp] theorem frameDropped_mem (s : State) :
    (frameDropped s).mem = s.mem := by
  simp [frameDropped]

@[simp] theorem badFrame_mem (s : State) :
    (badFrame s).mem = s.mem := by
  simp (maxDischargeDepth := 8) [badFrame, apply_ite State.mem]

@[simp] theorem notPermitted_mem (s : State) :
    (notPermitted s).mem = s.mem := by
  simp [notPermitted]

@[simp] theorem badBeat_mem (s : State) :
    (badBeat s).mem = s.mem := by
  simp [badBeat]

@[simp] theorem badSnapshot_mem (s : State) :
    (badSnapshot s).mem = s.mem := by
  simp [badSnapshot]

@[simp] theorem receive_mem (w : Wire) (s : State) (k : Frame → State → State) (hk : ∀ z0 z1, (k z0 z1).mem = z1.mem) :
    (receive w s k).mem = s.mem := by
  unfold receive; (repeat' (first | split | (dsimp only; split))) <;> simp [*, apply_ite State.mem]

@[simp] theorem luakaFrame_mem (typ : Nat) (w : Wire) (s : State) (k : Frame → State → State) (hk : ∀ z0 z1, (k z0 z1).mem = z1.mem) :
    (luakaFrame typ w s k).mem = s.mem := by
  unfold luakaFrame; split <;> simp [*, apply_ite State.mem]

@[simp] theorem ceremonyFails_mem (s : State) (status d : Nat) :
    (ceremonyFails s status d).mem = s.mem := by
  unfold ceremonyFails; split <;> simp [*, apply_ite State.mem]

@[simp] theorem laneTimeout_mem (s : State) :
    (laneTimeout s).mem = s.mem := by
  simp (maxDischargeDepth := 8) [laneTimeout, apply_ite State.mem]

@[simp] theorem laneLoss_mem (lane : Nat) (s : State) :
    (laneLoss lane s).mem = s.mem := by
  simp (maxDischargeDepth := 8) [laneLoss, apply_ite State.mem]

@[simp] theorem dropTables_mem (s : State) (id rg pg : Nat) :
    (dropTables s id rg pg).mem = s.mem := by
  simp [dropTables]

@[simp] theorem dropPart_mem (s : State) (id rg pg : Nat) :
    (dropPart s id rg pg).mem = s.mem := by
  simp [dropPart]

@[simp] theorem applyPart_mem (both : Bool) (s : State) (b : Bytes) : ((applyPart both s b).getD s).mem = s.mem := by
  unfold applyPart
  dsimp only
  split
  · split
    · rfl
    · split
      · rfl
      · cases s.part? (fieldLe b 2 2) <;> simp
  · split
    · rfl
    · split <;> rfl

@[simp] theorem applyCust_mem (s : State) (b : Bytes) :
    ((applyCust s b).getD s).mem = s.mem := by
  unfold applyCust; dsimp only; split <;> simp [*, apply_ite State.mem]

@[simp] theorem applyRoutes_mem (s0 : State) (b : Bytes) :
    ((applyRoutes s0 b).getD s0).mem = s0.mem := by
  unfold applyRoutes; (repeat' (first | split | (dsimp only; split))) <;> simp [*, apply_ite State.mem]

@[simp] theorem applyRules_mem (s0 : State) (b : Bytes) :
    ((applyRules s0 b).getD s0).mem = s0.mem := by
  unfold applyRules; (repeat' (first | split | (dsimp only; split))) <;> simp [*, apply_ite State.mem]

@[simp] theorem snapRoutes_mem (s : State) (b : Bytes) :
    ((snapRoutes s b).getD s).mem = s.mem := by
  unfold snapRoutes; dsimp only; split <;> simp [*, apply_ite State.mem]

@[simp] theorem snapRules_mem (s : State) (b : Bytes) :
    ((snapRules s b).getD s).mem = s.mem := by
  unfold snapRules; dsimp only; split <;> simp [*, apply_ite State.mem]

@[simp] theorem applyTableConfig_mem (s : State) (b : Bytes) :
    ((applyTableConfig s b).getD s).mem = s.mem := by
  unfold applyTableConfig; (repeat' split) <;> simp [*, apply_ite State.mem]

@[simp] theorem applyTableState_mem (s : State) (b : Bytes) :
    ((applyTableState s b).getD s).mem = s.mem := by
  unfold applyTableState; dsimp only; split <;> simp [*, apply_ite State.mem]

@[simp] theorem applyQueue_mem (s : State) (b : Bytes) :
    ((applyQueue s b).getD s).mem = s.mem := by
  unfold applyQueue; (repeat' split) <;> simp [*, apply_ite State.mem]

@[simp] theorem applyCacheFill_mem (s : State) (part : Nat) (b : Bytes) :
    ((applyCacheFill s part b).getD s).mem = s.mem := by
  unfold applyCacheFill; dsimp only; split <;> simp [*, apply_ite State.mem]

@[simp] theorem applyCacheRemove_mem (s : State) (b : Bytes) :
    ((applyCacheRemove s b).getD s).mem = s.mem := by
  unfold applyCacheRemove; split <;> simp [*, apply_ite State.mem]

@[simp] theorem applyDup_mem (s : State) (b : Bytes) :
    ((applyDup s b).getD s).mem = s.mem := by
  unfold applyDup; split <;> simp [*, apply_ite State.mem]

@[simp] theorem applyConfig_mem (s : State) (b : Bytes) :
    ((applyConfig s b).getD s).mem = s.mem := by
  unfold applyConfig; (repeat' split) <;> simp [*, apply_ite State.mem]

@[simp] theorem emptyStore_mem (s : State) :
    (emptyStore s).mem = s.mem := by
  simp [emptyStore]

@[simp] theorem dropState_mem (s0 : State) :
    (dropState s0).mem = s0.mem := by
  simp [dropState]

@[simp] theorem snapEnd_mem (f : Frame) (s : State) :
    (snapEnd f s).mem = s.mem := by
  simp (maxDischargeDepth := 8) [snapEnd, apply_ite State.mem]

@[simp] theorem inSync_mem (s : State) :
    (inSync s).mem = s.mem := by
  simp [inSync]

@[simp] theorem beatData_mem (f : Frame) (s0 : State) :
    (beatData f s0).mem = s0.mem := by
  unfold beatData; (repeat' (first | split | (dsimp only; split))) <;> simp [*, apply_ite State.mem]

@[simp] theorem handOver_mem (s : State) (c : Cmd) :
    (handOver s c).mem = s.mem := by
  simp [handOver]

@[simp] theorem switchAdvance_mem (s : State) :
    (switchAdvance s).mem = s.mem := by
  unfold switchAdvance; split <;> simp [*, apply_ite State.mem]

@[simp] theorem beatClose_mem (s0 : State) :
    (beatClose s0).mem = s0.mem := by
  simp (maxDischargeDepth := 8) [beatClose, apply_ite State.mem] <;> (repeat' (first | rfl | (split <;> simp [*, apply_ite State.mem])))

@[simp] theorem beatAck_mem (f : Frame) (s : State) :
    (beatAck f s).mem = s.mem := by
  simp (maxDischargeDepth := 8) [beatAck, apply_ite State.mem]

@[simp] theorem luakaTime_mem (rxNs : Int) (f : Frame) (s : State) :
    (luakaTime rxNs f s).mem = s.mem := by
  simp (maxDischargeDepth := 8) [luakaTime, apply_ite State.mem]

@[simp] theorem enterLone_mem (s : State) :
    (enterLone s).mem = s.mem := by
  unfold enterLone; dsimp only; split <;> simp [*, apply_ite State.mem]

@[simp] theorem heartbeatLoss_mem (s : State) :
    (heartbeatLoss s).mem = s.mem := by
  simp (maxDischargeDepth := 8) [heartbeatLoss, apply_ite State.mem]

@[simp] theorem clearTables_mem (s : State) (p : Nat) :
    (clearTables s p).mem = s.mem := by
  simp (maxDischargeDepth := 8) [clearTables, apply_ite State.mem]

@[simp] theorem resumeTear_mem (root x : Nat) (s : State) : (resumeTear root x s).mem = s.mem := by
  induction x generalizing s with
  | zero => rfl
  | succ k ih =>
    unfold resumeTear
    split
    · rfl
    · dsimp only
      split
      · simp
      · split <;> simp [ih]

@[simp] theorem resumeTears_mem (s : State) :
    (resumeTears s).mem = s.mem := by
  simp [resumeTears]

@[simp] theorem becomeActive_mem (s : State) :
    (becomeActive s).mem = s.mem := by
  simp (maxDischargeDepth := 8) [becomeActive, apply_ite State.mem]

@[simp] theorem drive_mem (s : State) :
    (drive s).mem = s.mem := by
  simp [drive]

@[simp] theorem release1_mem (s : State) :
    (release1 s).mem = s.mem := by
  simp [release1]

@[simp] theorem actInChange_mem (low : Bool) (s : State) :
    (actInChange low s).mem = s.mem := by
  simp [actInChange]

@[simp] theorem guardExpiry_mem (s : State) :
    (guardExpiry s).mem = s.mem := by
  simp (maxDischargeDepth := 8) [guardExpiry, apply_ite State.mem]

@[simp] theorem claimReread_mem (s : State) :
    (claimReread s).mem = s.mem := by
  simp (maxDischargeDepth := 8) [claimReread, apply_ite State.mem]

@[simp] theorem claimCheck_mem (s : State) :
    (claimCheck s).mem = s.mem := by
  simp (maxDischargeDepth := 8) [claimCheck, apply_ite State.mem]

@[simp] theorem contentionHigh_mem (s : State) :
    (contentionHigh s).mem = s.mem := by
  simp (maxDischargeDepth := 8) [contentionHigh, apply_ite State.mem]

@[simp] theorem standDown_mem (s : State) :
    (standDown s).mem = s.mem := by
  simp [standDown]

@[simp] theorem contentionTimeout_mem (s : State) :
    (contentionTimeout s).mem = s.mem := by
  simp (maxDischargeDepth := 8) [contentionTimeout, apply_ite State.mem]

@[simp] theorem interlockLow_mem (s : State) :
    (interlockLow s).mem = s.mem := by
  simp (maxDischargeDepth := 8) [interlockLow, apply_ite State.mem]

@[simp] theorem becomeUnpaired_mem (s : State) :
    (becomeUnpaired s).mem = s.mem := by
  simp [becomeUnpaired]

@[simp] theorem leavePair_mem (s : State) :
    (leavePair s).mem = s.mem := by
  simp [leavePair]

@[simp] theorem detail7_mem (s : State) (c : Cmd) :
    (detail7 s c).mem = s.mem := by
  simp [detail7]

@[simp] theorem beginPair_mem (s : State) (c : Cmd) :
    (beginPair s c).mem = s.mem := by
  simp (maxDischargeDepth := 8) [beginPair, apply_ite State.mem]

@[simp] theorem pairBegin_mem (s : State) (c : Cmd) :
    (pairBegin s c).mem = s.mem := by
  simp (maxDischargeDepth := 8) [pairBegin, apply_ite State.mem]

@[simp] theorem ceremonyInterlock_mem (s : State) :
    (ceremonyInterlock s).mem = s.mem := by
  simp (maxDischargeDepth := 8) [ceremonyInterlock, apply_ite State.mem]

@[simp] theorem pairSetPolicy_mem (s : State) (c : Cmd) :
    (pairSetPolicy s c).mem = s.mem := by
  unfold pairSetPolicy
  dsimp only
  split
  · simp
  · exact commitDone_mem _ _ _ _ _ _ _ _ (State.modLk_mem _ _)

@[simp] theorem pairQuery_mem (s : State) (c : Cmd) :
    (pairQuery s c).mem = s.mem := by
  simp (maxDischargeDepth := 8) [pairQuery, apply_ite State.mem]

@[simp] theorem pairSwitchover_mem (s : State) (c : Cmd) :
    (pairSwitchover s c).mem = s.mem := by
  simp (maxDischargeDepth := 8) [pairSwitchover, apply_ite State.mem]

@[simp] theorem slotEvents_mem (s : State) (r : SlotRead) (i check : Nat) :
    (slotEvents s r i check).mem = s.mem := by
  simp (maxDischargeDepth := 8) [slotEvents, apply_ite State.mem]

@[simp] theorem powerLink_mem (s : State) :
    (powerLink s).mem = s.mem := by
  simp (maxDischargeDepth := 8) [powerLink, apply_ite State.mem]

@[simp] theorem freshLoom_mem (n : Nat) (s : State) :
    (freshLoom n s).mem = s.mem := by
  simp [freshLoom]

@[simp] theorem startDrains_mem (s : State) :
    (startDrains s).mem = s.mem := by
  simp (maxDischargeDepth := 8) [startDrains, apply_ite State.mem]

@[simp] theorem fillSeq_mem (ds : List Nat) (s : State) :
    (fillSeq ds s).mem = s.mem := by
  simp [fillSeq]

@[simp] theorem State.atStep_mem (s : State) (n : Nat) :
    (State.atStep s n).mem = s.mem := by
  simp [State.atStep]

@[simp] theorem stepResume_mem (s : State) :
    (stepResume s).mem = s.mem := by
  unfold stepResume; dsimp only; split <;> simp [*, apply_ite State.mem]

@[simp] theorem dropRecords_mem (s : State) :
    (dropRecords s).mem = s.mem := by
  simp [dropRecords]

@[simp] theorem authRecords_mem (s : State) :
    (authRecords s).mem = s.mem := by
  simp (maxDischargeDepth := 8) [authRecords, apply_ite State.mem]

@[simp] theorem loadConfig_mem (s0 : State) :
    (loadConfig s0).mem = s0.mem := by
  simp [loadConfig]

@[simp] theorem loadPair_mem (s : State) :
    (loadPair s).mem = s.mem := by
  unfold loadPair; split <;> simp [*, apply_ite State.mem]

@[simp] theorem restartEvents_mem (s : State) :
    (restartEvents s).mem = s.mem := by
  simp (maxDischargeDepth := 8) [restartEvents, apply_ite State.mem]

@[simp] theorem stopStartup_mem (last : Nat) (s : State) :
    (stopStartup last s).mem = s.mem := by
  simp [stopStartup]

@[simp] theorem loomEnter_mem (n : Nat) (failing : Option Nat) (s : State) :
    (loomEnter n failing s).mem = s.mem := by
  unfold loomEnter; split <;> simp [*, apply_ite State.mem]

@[simp] theorem pdRequest_mem (s : State) (d : Nat) (on : Bool) :
    (pdRequest s d on).mem = s.mem := by
  simp (maxDischargeDepth := 8) [pdRequest, apply_ite State.mem]

@[simp] theorem pdctlWrite_mem (w : Writer) (reg value : Nat) (s : State) :
    (pdctlWrite w reg value s).mem = s.mem := by
  simp (maxDischargeDepth := 8) [pdctlWrite, apply_ite State.mem]

@[simp] theorem orderDone_mem (s : State) :
    (orderDone s).mem = s.mem := by
  simp (maxDischargeDepth := 8) [orderDone, apply_ite State.mem]

end Sys2Proof.Machine
end

