-- ==== Sys2Proof/Laws/KeepsRegs.lean ====
section
/-! SUPPORT. What the operations of LifeCycle, Debug, Mpu, Smbus, Regs and Access leave alone: a lemma ending in `_pending` says that the
queue of waiting commands stays as it was, one ending in `_mem` that the RAM of the internal map does. -/

set_option linter.all false

namespace Sys2Proof.Machine

open Sys2Proof

/-! ## The queue -/

@[simp] theorem refuseCmd_pending (s : State) (who : Option Place) (r : Nat) :
    (refuseCmd s who r).pending = s.pending := by
  unfold refuseCmd; split <;> simp [*, apply_ite State.pending]

@[simp] theorem goRefused_pending (s : State) (dst r : Nat) (who : Option Place) :
    (goRefused s dst r who).pending = s.pending := by
  simp [goRefused]

@[simp] theorem afterToken_pending (s : State) (dst : Nat) :
    (afterToken s dst).pending = s.pending := by
  simp [afterToken]

@[simp] theorem goAccepted_pending (s : State) (dst path : Nat) (who : Option Place) :
    (goAccepted s dst path who).pending = s.pending := by
  simp (maxDischargeDepth := 8) [goAccepted, apply_ite State.pending] <;> (repeat' (first | rfl | (split <;> simp [*, apply_ite State.pending])))

@[simp] theorem goTransition_pending (s : State) (dst path : Nat) (who : Option Place) :
    (goTransition s dst path who).pending = s.pending := by
  unfold goTransition; dsimp only; split <;> simp [*, apply_ite State.pending]

@[simp] theorem lcGo_pending (w : Writer) (value : Nat) (s : State) :
    (lcGo w value s).pending = s.pending := by
  simp (maxDischargeDepth := 8) [lcGo, apply_ite State.pending]

@[simp] theorem lcProg_pending (w : Writer) (value : Nat) (s : State) :
    (lcProg w value s).pending = s.pending := by
  unfold lcProg; (repeat' split) <;> simp [*, apply_ite State.pending]

theorem beginWords__ok_pending {s s1 : State} {x y : Session} (h : beginWords s x = .ok (s1, y)) : s1.pending = s.pending := by
  have h1 := State.random_pending s 16 32 s rfl
  unfold beginWords at h
  split at h
  · simp only [Except.ok.injEq, Prod.mk.injEq] at h
    rw [h.1]
  · split at h
    · simp only [Except.ok.injEq, Prod.mk.injEq] at h
      rw [← h.1]
      simp_all
    · cases h
    · cases h

theorem beginWords__error_pending {s t : State} {x : Session} (h : beginWords s x = .error t) : t.pending = s.pending := by
  have h1 := State.random_pending s 16 32 s rfl
  unfold beginWords at h
  split at h
  · cases h
  · split at h
    · cases h
    · simp only [Except.error.injEq] at h
      rw [← h]
      simp_all
    · simp only [Except.error.injEq] at h
      rw [← h]
      simp

@[simp] theorem transitionDone_pending (s : State) (x : Session) :
    (transitionDone s x).pending = s.pending := by
  simp (maxDischargeDepth := 8) [transitionDone, apply_ite State.pending] <;> (repeat' (first | rfl | (split <;> simp [*, apply_ite State.pending])))

@[simp] theorem rollbackDone_pending (s : State) (c : Cmd) (old : Nat) :
    (rollbackDone s c old).pending = s.pending := by
  simp [rollbackDone]

@[simp] theorem sessionDone_pending (s : State) (x : Session) :
    (sessionDone s x).pending = s.pending := by
  simp (maxDischargeDepth := 8) [sessionDone, apply_ite State.pending] <;> (repeat' (first | rfl | (split <;> simp [*, apply_ite State.pending])))

@[simp] theorem programNext_pending (s : State) (x : Session) :
    (programNext s x).pending = s.pending := by
  unfold programNext; split <;> simp [*, apply_ite State.pending]

@[simp] theorem otpWord_pending (s : State) :
    (otpWord s).pending = s.pending := by
  unfold otpWord; (repeat' (first | split | (dsimp only; split))) <;> first | (simp [*, apply_ite State.pending]; done) | (have h9 := beginWords__ok_pending (by assumption); simp_all [apply_ite State.pending]; done) | (have h9 := beginWords__error_pending (by assumption); simp_all [apply_ite State.pending]; done)

@[simp] theorem transitionReset_pending (s : State) :
    (transitionReset s).pending = s.pending := by
  simp (maxDischargeDepth := 8) [transitionReset, apply_ite State.pending]

@[simp] theorem lcTransition_pending (s : State) (c : Cmd) :
    (lcTransition s c).pending = s.pending := by
  simp (maxDischargeDepth := 8) [lcTransition, apply_ite State.pending]

@[simp] theorem lcQuery_pending (s : State) (c : Cmd) :
    (lcQuery s c).pending = s.pending := by
  simp [lcQuery]

@[simp] theorem lcEndorse_pending (s : State) (c : Cmd) :
    (lcEndorse s c).pending = s.pending := by
  simp [lcEndorse]

@[simp] theorem stageImage_pending (s : State) (c : Cmd) :
    (stageImage s c).pending = s.pending := by
  unfold stageImage; split <;> simp [*, apply_ite State.pending]

@[simp] theorem fwStage_pending (s : State) (c : Cmd) :
    (fwStage s c).pending = s.pending := by
  simp [fwStage]

@[simp] theorem rollbackAdvance_pending (s : State) (c : Cmd) :
    (rollbackAdvance s c).pending = s.pending := by
  simp (maxDischargeDepth := 8) [rollbackAdvance, apply_ite State.pending]

@[simp] theorem dbgRefuse_pending (s : State) (r : Nat) :
    (dbgRefuse s r).pending = s.pending := by
  simp [dbgRefuse]

@[simp] theorem dbgGrant_pending (s : State) (path : Nat) (t : Bytes) :
    (dbgGrant s path t).pending = s.pending := by
  simp [dbgGrant]

@[simp] theorem dbgOnly_pending (w : Writer) (addr : Nat) (s k : State) (h : k.pending = s.pending) :
    (dbgOnly w addr s k).pending = s.pending := by
  unfold dbgOnly
  split <;> simp [h]

@[simp] theorem dbgSubmit_pending (w : Writer) (value : Nat) (s : State) : (dbgSubmit w value s).pending = s.pending := by
  unfold dbgSubmit
  apply dbgOnly_pending
  (repeat' (first | split | (dsimp only; split))) <;> simp

@[simp] theorem challengeRead_pending (s : State) :
    (challengeRead s).pending = s.pending := by
  unfold challengeRead; (repeat' (first | split | (dsimp only; split))) <;> first | (simp [*, apply_ite State.pending]; done) | (have h9 := random__bytes_pending (by assumption); simp_all [apply_ite State.pending]; done) | (have h9 := random__waits_pending (by assumption); simp_all [apply_ite State.pending]; done)

@[simp] theorem dbgCtrlEnd_pending (w : Writer) (value : Nat) (s : State) :
    (dbgCtrlEnd w value s).pending = s.pending := by
  simp (maxDischargeDepth := 8) [dbgCtrlEnd, apply_ite State.pending]

@[simp] theorem grantExpiry_pending (s : State) :
    (grantExpiry s).pending = s.pending := by
  simp (maxDischargeDepth := 8) [grantExpiry, apply_ite State.pending]

@[simp] theorem runControl_pending (i : Nat) (op : RunOp) (s : State) :
    (runControl i op s).pending = s.pending := by
  unfold runControl; (repeat' split) <;> simp [*, apply_ite State.pending]

@[simp] theorem loadInstr_pending (i : TapInstr) (s : State) :
    (loadInstr i s).pending = s.pending := by
  simp (maxDischargeDepth := 8) [loadInstr, apply_ite State.pending]

@[simp] theorem scanInstruction_pending (i : TapInstr) (s : State) :
    (scanInstruction i s).pending = s.pending := by
  simp (maxDischargeDepth := 8) [scanInstruction, apply_ite State.pending]

@[simp] theorem dbgAuthorise_pending (s : State) (c : Cmd) :
    (dbgAuthorise s c).pending = s.pending := by
  unfold dbgAuthorise; dsimp only; split <;> simp [*, apply_ite State.pending]

@[simp] theorem dbgEnd_pending (s : State) (c : Cmd) :
    (dbgEnd s c).pending = s.pending := by
  simp [dbgEnd]

@[simp] theorem State.modUnitReg_pending (s : State) (i : Nat) (f : Mpu → Mpu) :
    (State.modUnitReg s i f).pending = s.pending := by
  simp [State.modUnitReg]

@[simp] theorem mpuRefuse_pending (s : State) (i addr : Nat) :
    (mpuRefuse s i addr).pending = s.pending := by
  simp [mpuRefuse]

@[simp] theorem mpuWriter_pending (w : Writer) (i addr : Nat) (s : State) (f : State → State) (hf : ∀ z0, (f z0).pending = z0.pending) :
    (mpuWriter w i addr s f).pending = s.pending := by
  unfold mpuWriter; split <;> simp [*, apply_ite State.pending]

@[simp] theorem mpuSwap_pending (w : Writer) (i : Nat) (s : State) :
    (mpuSwap w i s).pending = s.pending := by
  simp (maxDischargeDepth := 8) [mpuSwap, apply_ite State.pending]

@[simp] theorem mpuLock_pending (w : Writer) (i : Nat) (s : State) :
    (mpuLock w i s).pending = s.pending := by
  simp [mpuLock]

@[simp] theorem regionWrite_pending (w : Writer) (addr value : Nat) (s : State) :
    (regionWrite w addr value s).pending = s.pending := by
  unfold regionWrite; split <;> simp [*, apply_ite State.pending]

@[simp] theorem smbAnswer_pending (s : State) (data : Bytes) :
    (smbAnswer s data).pending = s.pending := by
  simp (maxDischargeDepth := 8) [smbAnswer, apply_ite State.pending]

@[simp] theorem smbViolation_pending (s : State) (code : Nat) :
    (smbViolation s code).pending = s.pending := by
  simp (maxDischargeDepth := 8) [smbViolation, apply_ite State.pending]

@[simp] theorem smbViolates_pending (command : Nat) (act : BusAct) (s : State) :
    (smbViolates command act s).pending = s.pending := by
  unfold smbViolates; (repeat' split) <;> simp [*, apply_ite State.pending]

@[simp] theorem thermChange_pending (temp : Int) (s : State) :
    (thermChange temp s).pending = s.pending := by
  simp [thermChange]

@[simp] theorem readReg_pending (a : Nat) (s : State) :
    (readReg a s).pending = s.pending := by
  simp (maxDischargeDepth := 8) [readReg, apply_ite State.pending]

@[simp] theorem sysWrite_pending (w : Writer) (o v : Nat) (s : State) :
    (sysWrite w o v s).pending = s.pending := by
  unfold sysWrite; split <;> simp [*, apply_ite State.pending]

@[simp] theorem lcWrite_pending (w : Writer) (o v mask : Nat) (s : State) :
    (lcWrite w o v mask s).pending = s.pending := by
  simp (maxDischargeDepth := 8) [lcWrite, apply_ite State.pending]

@[simp] theorem sagWrite_pending (o v : Nat) (s : State) :
    (sagWrite o v s).pending = s.pending := by
  simp (maxDischargeDepth := 8) [sagWrite, apply_ite State.pending]

@[simp] theorem tmpWrite_pending (o v : Nat) (s : State) :
    (tmpWrite o v s).pending = s.pending := by
  unfold tmpWrite; split <;> simp [*, apply_ite State.pending]

@[simp] theorem rngWrite_pending (o v : Nat) (s : State) :
    (rngWrite o v s).pending = s.pending := by
  unfold rngWrite; split <;> simp [*, apply_ite State.pending]

@[simp] theorem schWrite_pending (o v : Nat) (s : State) :
    (schWrite o v s).pending = s.pending := by
  unfold schWrite; split <;> simp [*, apply_ite State.pending]

@[simp] theorem kcWrite_pending (o v : Nat) (s : State) :
    (kcWrite o v s).pending = s.pending := by
  unfold kcWrite; split <;> simp [*, apply_ite State.pending]

@[simp] theorem rtWrite_pending (o v : Nat) (s : State) :
    (rtWrite o v s).pending = s.pending := by
  simp (maxDischargeDepth := 8) [rtWrite, apply_ite State.pending]

@[simp] theorem trdBlockWrite_pending (o v : Nat) (s : State) :
    (trdBlockWrite o v s).pending = s.pending := by
  unfold trdBlockWrite; (repeat' split) <;> simp [*, apply_ite State.pending]

@[simp] theorem lkWrite_pending (o v : Nat) (s : State) :
    (lkWrite o v s).pending = s.pending := by
  unfold lkWrite; split <;> simp [*, apply_ite State.pending]

@[simp] theorem ptWrite_pending (o v : Nat) (s : State) :
    (ptWrite o v s).pending = s.pending := by
  unfold ptWrite; split <;> simp [*, apply_ite State.pending]

@[simp] theorem evrWrite_pending (o v : Nat) (s : State) :
    (evrWrite o v s).pending = s.pending := by
  simp (maxDischargeDepth := 8) [evrWrite, apply_ite State.pending]

@[simp] theorem bistWrite_pending (w : Writer) (o v : Nat) (s : State) :
    (bistWrite w o v s).pending = s.pending := by
  unfold bistWrite; split <;> simp [*, apply_ite State.pending]

@[simp] theorem mpuBlockWrite_pending (w : Writer) (a v : Nat) (s : State) :
    (mpuBlockWrite w a v s).pending = s.pending := by
  unfold mpuBlockWrite; (repeat' split) <;> simp [*, apply_ite State.pending]

@[simp] theorem dbgWrite_pending (w : Writer) (o v mask : Nat) (s : State) :
    (dbgWrite w o v mask s).pending = s.pending := by
  simp (maxDischargeDepth := 8) [dbgWrite, apply_ite State.pending]

@[simp] theorem iomWrite_pending (o v : Nat) (s : State) :
    (iomWrite o v s).pending = s.pending := by
  unfold iomWrite; split <;> simp [*, apply_ite State.pending]

@[simp] theorem regWrite_pending (w : Writer) (a v0 mask : Nat) (s : State) :
    (regWrite w a v0 mask s).pending = s.pending := by
  unfold regWrite; split <;> simp [*, apply_ite State.pending]

@[simp] theorem writeRegs_pending (w : Writer) (addr size value : Nat) (s : State) :
    (writeRegs w addr size value s).pending = s.pending := by
  unfold writeRegs
  dsimp only
  split
  · simp
  · split
    · simp
    · exact foldl_pending _ _ _ (fun t a => regWrite_pending _ _ _ _ t)

@[simp] theorem setEnable_pending (s : State) (v : BitVec 9) :
    (setEnable s v).pending = s.pending := by
  simp (maxDischargeDepth := 8) [setEnable, apply_ite State.pending]

@[simp] theorem msixWrite_pending (fn vec k v : Nat) (s : State) :
    (msixWrite fn vec k v s).pending = s.pending := by
  simp (maxDischargeDepth := 8) [msixWrite, apply_ite State.pending]

@[simp] theorem hostRegWrite_pending (fn a v0 mask : Nat) (s : State) :
    (hostRegWrite fn a v0 mask s).pending = s.pending := by
  simp (maxDischargeDepth := 8) [hostRegWrite, apply_ite State.pending]

@[simp] theorem mbxWrite_pending (fn off size value : Nat) (s : State) :
    (mbxWrite fn off size value s).pending = s.pending := by
  simp (maxDischargeDepth := 8) [mbxWrite, apply_ite State.pending]

@[simp] theorem hostWrite_pending (fn off size value : Nat) (s : State) :
    (hostWrite fn off size value s).pending = s.pending := by
  simp (maxDischargeDepth := 8) [hostWrite, apply_ite State.pending]

@[simp] theorem poisonedWrite_pending (fn off value : Nat) (s : State) :
    (poisonedWrite fn off value s).pending = s.pending := by
  simp (maxDischargeDepth := 8) [poisonedWrite, apply_ite State.pending]

@[simp] theorem registerWrite_pending (w : Writer) (addr size value : Nat) (s : State) :
    (registerWrite w addr size value s).pending = s.pending := by
  unfold registerWrite; split <;> simp [*, apply_ite State.pending]

@[simp] theorem faultAnswer_pending (unit addr : Nat) (s : State) :
    (faultAnswer unit addr s).pending = s.pending := by
  unfold faultAnswer; (repeat' split) <;> simp [*, apply_ite State.pending]

@[simp] theorem accessFault_pending (unit : Nat) (kind : AccKind) (user : Bool) (addr size cause region : Nat) (s : State) :
    (accessFault unit kind user addr size cause region s).pending = s.pending := by
  simp [accessFault]

@[simp] theorem memPut_pending (s : State) (a : Nat) (b : Byte) :
    (memPut s a b).pending = s.pending := by
  unfold memPut; (repeat' split) <;> simp [*, apply_ite State.pending]

@[simp] theorem accessPass_pending (unit : Nat) (kind : AccKind) (user : Bool) (addr size : Nat) (data : Bytes) (s : State) :
    (accessPass unit kind user addr size data s).pending = s.pending := by
  unfold accessPass
  dsimp only
  split
  · simp
  · split
    · split
      · simp
      · exact foldl_pending _ _ _ (fun t a => readReg_pending _ t)
    · split
      · simp
      · split
        · exact foldl_pending _ _ _ (fun t a => memPut_pending t _ _)
        · simp

@[simp] theorem masterAccess_pending (unit : Nat) (kind : AccKind) (user : Bool) (addr size : Nat) (data : Bytes) (s : State) :
    (masterAccess unit kind user addr size data s).pending = s.pending := by
  simp (maxDischargeDepth := 8) [masterAccess, apply_ite State.pending] <;> (repeat' (first | rfl | (split <;> simp [*, apply_ite State.pending])))

/-! ## The RAM -/

@[simp] theorem refuseCmd_mem (s : State) (who : Option Place) (r : Nat) :
    (refuseCmd s who r).mem = s.mem := by
  unfold refuseCmd; split <;> simp [*, apply_ite State.mem]

@[simp] theorem goRefused_mem (s : State) (dst r : Nat) (who : Option Place) :
    (goRefused s dst r who).mem = s.mem := by
  simp [goRefused]

@[simp] theorem afterToken_mem (s : State) (dst : Nat) :
    (afterToken s dst).mem = s.mem := by
  simp [afterToken]

@[simp] theorem goAccepted_mem (s : State) (dst path : Nat) (who : Option Place) :
    (goAccepted s dst path who).mem = s.mem := by
  simp (maxDischargeDepth := 8) [goAccepted, apply_ite State.mem] <;> (repeat' (first | rfl | (split <;> simp [*, apply_ite State.mem])))

@[simp] theorem goTransition_mem (s : State) (dst path : Nat) (who : Option Place) :
    (goTransition s dst path who).mem = s.mem := by
  unfold goTransition; dsimp only; split <;> simp [*, apply_ite State.mem]

@[simp] theorem lcGo_mem (w : Writer) (value : Nat) (s : State) :
    (lcGo w value s).mem = s.mem := by
  simp (maxDischargeDepth := 8) [lcGo, apply_ite State.mem]

@[simp] theorem lcProg_mem (w : Writer) (value : Nat) (s : State) :
    (lcProg w value s).mem = s.mem := by
  unfold lcProg; (repeat' split) <;> simp [*, apply_ite State.mem]

theorem beginWords__ok_mem {s s1 : State} {x y : Session} (h : beginWords s x = .ok (s1, y)) : s1.mem = s.mem := by
  have h1 := State.random_mem s 16 32 s rfl
  unfold beginWords at h
  split at h
  · simp only [Except.ok.injEq, Prod.mk.injEq] at h
    rw [h.1]
  · split at h
    · simp only [Except.ok.injEq, Prod.mk.injEq] at h
      rw [← h.1]
      simp_all
    · cases h
    · cases h

theorem beginWords__error_mem {s t : State} {x : Session} (h : beginWords s x = .error t) : t.mem = s.mem := by
  have h1 := State.random_mem s 16 32 s rfl
  unfold beginWords at h
  split at h
  · cases h
  · split at h
    · cases h
    · simp only [Except.error.injEq] at h
      rw [← h]
      simp_all
    · simp only [Except.error.injEq] at h
      rw [← h]
      simp

@[simp] theorem rollbackDone_mem (s : State) (c : Cmd) (old : Nat) :
    (rollbackDone s c old).mem = s.mem := by
  simp [rollbackDone]

@[simp] theorem lcTransition_mem (s : State) (c : Cmd) :
    (lcTransition s c).mem = s.mem := by
  simp (maxDischargeDepth := 8) [lcTransition, apply_ite State.mem]

@[simp] theorem lcQuery_mem (s : State) (c : Cmd) :
    (lcQuery s c).mem = s.mem := by
  simp [lcQuery]

@[simp] theorem lcEndorse_mem (s : State) (c : Cmd) :
    (lcEndorse s c).mem = s.mem := by
  simp [lcEndorse]

@[simp] theorem stageImage_mem (s : State) (c : Cmd) :
    (stageImage s c).mem = s.mem := by
  unfold stageImage; split <;> simp [*, apply_ite State.mem]

@[simp] theorem fwStage_mem (s : State) (c : Cmd) :
    (fwStage s c).mem = s.mem := by
  simp [fwStage]

@[simp] theorem rollbackAdvance_mem (s : State) (c : Cmd) :
    (rollbackAdvance s c).mem = s.mem := by
  simp (maxDischargeDepth := 8) [rollbackAdvance, apply_ite State.mem]

@[simp] theorem dbgRefuse_mem (s : State) (r : Nat) :
    (dbgRefuse s r).mem = s.mem := by
  simp [dbgRefuse]

@[simp] theorem dbgGrant_mem (s : State) (path : Nat) (t : Bytes) :
    (dbgGrant s path t).mem = s.mem := by
  simp [dbgGrant]

@[simp] theorem dbgOnly_mem (w : Writer) (addr : Nat) (s k : State) (h : k.mem = s.mem) :
    (dbgOnly w addr s k).mem = s.mem := by
  unfold dbgOnly
  split <;> simp [h]

@[simp] theorem dbgSubmit_mem (w : Writer) (value : Nat) (s : State) : (dbgSubmit w value s).mem = s.mem := by
  unfold dbgSubmit
  apply dbgOnly_mem
  (repeat' (first | split | (dsimp only; split))) <;> simp

@[simp] theorem challengeRead_mem (s : State) :
    (challengeRead s).mem = s.mem := by
  unfold challengeRead; (repeat' (first | split | (dsimp only; split))) <;> first | (simp [*, apply_ite State.mem]; done) | (have h9 := random__bytes_mem (by assumption); simp_all [apply_ite State.mem]; done) | (have h9 := random__waits_mem (by assumption); simp_all [apply_ite State.mem]; done)

@[simp] theorem dbgCtrlEnd_mem (w : Writer) (value : Nat) (s : State) :
    (dbgCtrlEnd w value s).mem = s.mem := by
  simp (maxDischargeDepth := 8) [dbgCtrlEnd, apply_ite State.mem]

@[simp] theorem grantExpiry_mem (s : State) :
    (grantExpiry s).mem = s.mem := by
  simp (maxDischargeDepth := 8) [grantExpiry, apply_ite State.mem]

@[simp] theorem runControl_mem (i : Nat) (op : RunOp) (s : State) :
    (runControl i op s).mem = s.mem := by
  unfold runControl; (repeat' split) <;> simp [*, apply_ite State.mem]

@[simp] theorem dbgAuthorise_mem (s : State) (c : Cmd) :
    (dbgAuthorise s c).mem = s.mem := by
  unfold dbgAuthorise; dsimp only; split <;> simp [*, apply_ite State.mem]

@[simp] theorem dbgEnd_mem (s : State) (c : Cmd) :
    (dbgEnd s c).mem = s.mem := by
  simp [dbgEnd]

@[simp] theorem State.modUnitReg_mem (s : State) (i : Nat) (f : Mpu → Mpu) :
    (State.modUnitReg s i f).mem = s.mem := by
  simp [State.modUnitReg]

@[simp] theorem mpuRefuse_mem (s : State) (i addr : Nat) :
    (mpuRefuse s i addr).mem = s.mem := by
  simp [mpuRefuse]

@[simp] theorem mpuWriter_mem (w : Writer) (i addr : Nat) (s : State) (f : State → State) (hf : ∀ z0, (f z0).mem = z0.mem) :
    (mpuWriter w i addr s f).mem = s.mem := by
  unfold mpuWriter; split <;> simp [*, apply_ite State.mem]

@[simp] theorem mpuSwap_mem (w : Writer) (i : Nat) (s : State) :
    (mpuSwap w i s).mem = s.mem := by
  simp (maxDischargeDepth := 8) [mpuSwap, apply_ite State.mem]

@[simp] theorem mpuLock_mem (w : Writer) (i : Nat) (s : State) :
    (mpuLock w i s).mem = s.mem := by
  simp [mpuLock]

@[simp] theorem regionWrite_mem (w : Writer) (addr value : Nat) (s : State) :
    (regionWrite w addr value s).mem = s.mem := by
  unfold regionWrite; split <;> simp [*, apply_ite State.mem]

@[simp] theorem smbAnswer_mem (s : State) (data : Bytes) :
    (smbAnswer s data).mem = s.mem := by
  simp (maxDischargeDepth := 8) [smbAnswer, apply_ite State.mem]

@[simp] theorem smbViolation_mem (s : State) (code : Nat) :
    (smbViolation s code).mem = s.mem := by
  simp (maxDischargeDepth := 8) [smbViolation, apply_ite State.mem]

@[simp] theorem smbViolates_mem (command : Nat) (act : BusAct) (s : State) :
    (smbViolates command act s).mem = s.mem := by
  unfold smbViolates; (repeat' split) <;> simp [*, apply_ite State.mem]

@[simp] theorem thermChange_mem (temp : Int) (s : State) :
    (thermChange temp s).mem = s.mem := by
  simp [thermChange]

@[simp] theorem readReg_mem (a : Nat) (s : State) :
    (readReg a s).mem = s.mem := by
  simp (maxDischargeDepth := 8) [readReg, apply_ite State.mem]

@[simp] theorem lcWrite_mem (w : Writer) (o v mask : Nat) (s : State) :
    (lcWrite w o v mask s).mem = s.mem := by
  simp (maxDischargeDepth := 8) [lcWrite, apply_ite State.mem]

@[simp] theorem sagWrite_mem (o v : Nat) (s : State) :
    (sagWrite o v s).mem = s.mem := by
  simp (maxDischargeDepth := 8) [sagWrite, apply_ite State.mem]

@[simp] theorem tmpWrite_mem (o v : Nat) (s : State) :
    (tmpWrite o v s).mem = s.mem := by
  unfold tmpWrite; split <;> simp [*, apply_ite State.mem]

@[simp] theorem rngWrite_mem (o v : Nat) (s : State) :
    (rngWrite o v s).mem = s.mem := by
  unfold rngWrite; split <;> simp [*, apply_ite State.mem]

@[simp] theorem schWrite_mem (o v : Nat) (s : State) :
    (schWrite o v s).mem = s.mem := by
  unfold schWrite; split <;> simp [*, apply_ite State.mem]

@[simp] theorem kcWrite_mem (o v : Nat) (s : State) :
    (kcWrite o v s).mem = s.mem := by
  unfold kcWrite; split <;> simp [*, apply_ite State.mem]

@[simp] theorem rtWrite_mem (o v : Nat) (s : State) :
    (rtWrite o v s).mem = s.mem := by
  simp (maxDischargeDepth := 8) [rtWrite, apply_ite State.mem]

@[simp] theorem trdBlockWrite_mem (o v : Nat) (s : State) :
    (trdBlockWrite o v s).mem = s.mem := by
  unfold trdBlockWrite; (repeat' split) <;> simp [*, apply_ite State.mem]

@[simp] theorem lkWrite_mem (o v : Nat) (s : State) :
    (lkWrite o v s).mem = s.mem := by
  unfold lkWrite; split <;> simp [*, apply_ite State.mem]

@[simp] theorem ptWrite_mem (o v : Nat) (s : State) :
    (ptWrite o v s).mem = s.mem := by
  unfold ptWrite; split <;> simp [*, apply_ite State.mem]

@[simp] theorem evrWrite_mem (o v : Nat) (s : State) :
    (evrWrite o v s).mem = s.mem := by
  simp (maxDischargeDepth := 8) [evrWrite, apply_ite State.mem]

@[simp] theorem bistWrite_mem (w : Writer) (o v : Nat) (s : State) :
    (bistWrite w o v s).mem = s.mem := by
  unfold bistWrite; split <;> simp [*, apply_ite State.mem]

@[simp] theorem mpuBlockWrite_mem (w : Writer) (a v : Nat) (s : State) :
    (mpuBlockWrite w a v s).mem = s.mem := by
  unfold mpuBlockWrite; (repeat' split) <;> simp [*, apply_ite State.mem]

@[simp] theorem dbgWrite_mem (w : Writer) (o v mask : Nat) (s : State) :
    (dbgWrite w o v mask s).mem = s.mem := by
  simp (maxDischargeDepth := 8) [dbgWrite, apply_ite State.mem]

@[simp] theorem iomWrite_mem (o v : Nat) (s : State) :
    (iomWrite o v s).mem = s.mem := by
  unfold iomWrite; split <;> simp [*, apply_ite State.mem]

@[simp] theorem setEnable_mem (s : State) (v : BitVec 9) :
    (setEnable s v).mem = s.mem := by
  simp (maxDischargeDepth := 8) [setEnable, apply_ite State.mem]

@[simp] theorem msixWrite_mem (fn vec k v : Nat) (s : State) :
    (msixWrite fn vec k v s).mem = s.mem := by
  simp (maxDischargeDepth := 8) [msixWrite, apply_ite State.mem]

@[simp] theorem hostRegWrite_mem (fn a v0 mask : Nat) (s : State) :
    (hostRegWrite fn a v0 mask s).mem = s.mem := by
  simp (maxDischargeDepth := 8) [hostRegWrite, apply_ite State.mem]

@[simp] theorem mbxWrite_mem (fn off size value : Nat) (s : State) :
    (mbxWrite fn off size value s).mem = s.mem := by
  simp (maxDischargeDepth := 8) [mbxWrite, apply_ite State.mem]

@[simp] theorem hostWrite_mem (fn off size value : Nat) (s : State) :
    (hostWrite fn off size value s).mem = s.mem := by
  simp (maxDischargeDepth := 8) [hostWrite, apply_ite State.mem]

@[simp] theorem poisonedWrite_mem (fn off value : Nat) (s : State) :
    (poisonedWrite fn off value s).mem = s.mem := by
  simp (maxDischargeDepth := 8) [poisonedWrite, apply_ite State.mem]

@[simp] theorem faultAnswer_mem (unit addr : Nat) (s : State) :
    (faultAnswer unit addr s).mem = s.mem := by
  unfold faultAnswer; (repeat' split) <;> simp [*, apply_ite State.mem]

@[simp] theorem accessFault_mem (unit : Nat) (kind : AccKind) (user : Bool) (addr size cause region : Nat) (s : State) :
    (accessFault unit kind user addr size cause region s).mem = s.mem := by
  simp [accessFault]

end Sys2Proof.Machine
end

