-- ==== Sys2Proof/Laws/Memory.lean ====
section
/-! SUPPORT. Byte memory: reading back what was written, leaving the rest alone, and the canonical form. -/

namespace Sys2Proof.Machine

open Sys2Proof

/-! ## Reading after writing -/

theorem Mem.read_of_lt_wfFrom {m : Mem} {lo x : Nat} (h : Mem.wfFrom lo m = true) (hx : x < lo) : Mem.read m x = 0#8 := by
  induction m generalizing lo with
  | nil => rfl
  | cons p r ih =>
    obtain ⟨a, b⟩ := p
    simp only [Mem.wfFrom, Bool.and_eq_true, decide_eq_true_eq] at h
    simp only [Mem.read]
    rw [if_neg (by omega)]
    exact ih h.2 (by omega)

theorem Mem.wfFrom_mono {m : Mem} {lo hi : Nat} (h : Mem.wfFrom hi m = true) (hl : lo ≤ hi) : Mem.wfFrom lo m = true := by
  cases m with
  | nil => rfl
  | cons p r =>
    obtain ⟨a, b⟩ := p
    simp only [Mem.wfFrom, Bool.and_eq_true, decide_eq_true_eq] at h ⊢
    exact ⟨⟨by omega, h.1.2⟩, h.2⟩

/-- A write keeps the canonical form. -/
theorem Mem.write_wfFrom {m : Mem} {lo x : Nat} (v : Byte) (h : Mem.wfFrom lo m = true) (hx : lo ≤ x) :
    Mem.wfFrom lo (Mem.write m x v) = true := by
  induction m generalizing lo with
  | nil =>
    simp only [Mem.write]
    split
    · rfl
    · simp [Mem.wfFrom, *]
  | cons p r ih =>
    obtain ⟨a, b⟩ := p
    have h' := h
    simp only [Mem.wfFrom, Bool.and_eq_true, decide_eq_true_eq] at h'
    obtain ⟨⟨h1, h2⟩, h3⟩ := h'
    simp only [Mem.write]
    split
    · split
      · exact h
      · simp only [Mem.wfFrom, Bool.and_eq_true, decide_eq_true_eq]
        exact ⟨⟨hx, by assumption⟩, ⟨by omega, h2⟩, h3⟩
    · split
      · split
        · exact Mem.wfFrom_mono h3 (by omega)
        · simp only [Mem.wfFrom, Bool.and_eq_true, decide_eq_true_eq]
          exact ⟨⟨hx, by assumption⟩, by subst_vars; exact h3⟩
      · simp only [Mem.wfFrom, Bool.and_eq_true, decide_eq_true_eq]
        exact ⟨⟨h1, h2⟩, ih h3 (by omega)⟩

theorem Mem.write_wf {m : Mem} (x : Nat) (v : Byte) (h : Mem.wf m = true) : Mem.wf (Mem.write m x v) = true :=
  Mem.write_wfFrom v h (Nat.zero_le x)

theorem Mem.writeN_wf {m : Mem} (b : Bytes) (x : Nat) (h : Mem.wf m = true) : Mem.wf (Mem.writeN m x b) = true := by
  induction b generalizing m x with
  | nil => exact h
  | cons y ys ih => exact ih (x + 1) (Mem.write_wf x y h)

/-- Filtering by address keeps the canonical form. -/
theorem Mem.filter_wfFrom {m : Mem} {lo : Nat} (p : Host.Cell → Bool) (h : Mem.wfFrom lo m = true) :
    Mem.wfFrom lo (m.filter p) = true := by
  induction m generalizing lo with
  | nil => rfl
  | cons q r ih =>
    obtain ⟨a, b⟩ := q
    simp only [Mem.wfFrom, Bool.and_eq_true, decide_eq_true_eq] at h
    by_cases hp : p (a, b) = true
    · simp only [List.filter_cons_of_pos hp, Mem.wfFrom, Bool.and_eq_true, decide_eq_true_eq]
      exact ⟨h.1, ih h.2⟩
    · rw [List.filter_cons_of_neg hp]
      exact Mem.wfFrom_mono (ih h.2) (by omega)

theorem Mem.read_write {m : Mem} {lo : Nat} (x y : Nat) (v : Byte) (h : Mem.wfFrom lo m = true) :
    Mem.read (Mem.write m x v) y = if y = x then v else Mem.read m y := by
  induction m generalizing lo with
  | nil =>
    simp only [Mem.write]
    split
    · subst_vars; simp [Mem.read]
    · simp only [Mem.read]
  | cons p r ih =>
    obtain ⟨a, b⟩ := p
    have h' := h
    simp only [Mem.wfFrom, Bool.and_eq_true, decide_eq_true_eq] at h'
    obtain ⟨⟨h1, h2⟩, h3⟩ := h'
    simp only [Mem.write]
    split
    · split
      · subst_vars
        by_cases hy : y = x
        · subst hy
          simp only [Mem.read, if_true]
          rw [if_neg (by omega)]
          exact Mem.read_of_lt_wfFrom h3 (by omega)
        · simp [hy]
      · simp only [Mem.read]
    · split
      · rename_i hx
        subst hx
        split
        · rename_i hv
          subst hv
          by_cases hy : y = x
          · subst hy
            simp only [if_true]
            exact Mem.read_of_lt_wfFrom h3 (by omega)
          · simp [hy, Mem.read]
        · by_cases hy : y = x <;> simp [hy, Mem.read]
      · simp only [Mem.read]
        rw [ih h3]
        by_cases hya : y = a
        · subst hya
          rw [if_pos rfl, if_neg (by omega), if_pos rfl]
        · simp [hya]

/-- A string written reads back, and every other byte is as before. -/
theorem Mem.read_writeN {m : Mem} (b : Bytes) (x y : Nat) (h : Mem.wf m = true) :
    Mem.read (Mem.writeN m x b) y =
      if x ≤ y ∧ y < x + b.length then (b[y - x]?).getD 0#8 else Mem.read m y := by
  induction b generalizing m x with
  | nil =>
    simp only [Mem.writeN, List.length_nil]
    rw [if_neg (by omega)]
  | cons v vs ih =>
    simp only [Mem.writeN, List.length_cons]
    rw [ih (x + 1) (Mem.write_wf x v h), Mem.read_write x y v h]
    by_cases hy : y = x
    · subst hy
      rw [if_neg (by omega), if_pos rfl, if_pos (by omega)]
      simp
    · by_cases h1 : x + 1 ≤ y ∧ y < x + 1 + vs.length
      · rw [if_pos h1, if_pos (by omega)]
        have : y - x = (y - (x + 1)) + 1 := by omega
        rw [this, List.getElem?_cons_succ]
      · rw [if_neg h1, if_neg hy, if_neg (by omega)]

theorem Mem.readN_length (m : Mem) (a n : Nat) : (Mem.readN m a n).length = n := by simp [Mem.readN]

/-- A string written reads back whole. -/
theorem Mem.readN_writeN {m : Mem} (b : Bytes) (x : Nat) (h : Mem.wf m = true) :
    Mem.readN (Mem.writeN m x b) x b.length = b := by
  apply List.ext_getElem
  · simp [Mem.readN]
  · intro i h1 h2
    simp only [Mem.readN, List.getElem_map, List.getElem_range]
    rw [Mem.read_writeN b x _ h, if_pos (by omega)]
    simp [h2]

/-- A range clear of the bytes written reads as before. -/
theorem Mem.readN_writeN_of_disjoint {m : Mem} (b : Bytes) (x a n : Nat) (h : Mem.wf m = true)
    (hd : a + n ≤ x ∨ x + b.length ≤ a) : Mem.readN (Mem.writeN m x b) a n = Mem.readN m a n := by
  simp only [Mem.readN]
  apply List.map_congr_left
  intro i hi
  rw [List.mem_range] at hi
  rw [Mem.read_writeN b x _ h, if_neg (by omega)]

end Sys2Proof.Machine
end

