-- ==== Sys2Proof/Laws/Exec.lean ====
section
/-! SUPPORT. The operations that write the RAM of the internal map keep its canonical form (lemmas ending in `_ram`),
so every command keeps it; no command touches the queue of waiting commands. -/

set_option linter.all false

namespace Sys2Proof.Machine

open Sys2Proof

@[simp] theorem foldl_ram {α : Type} (f : State → α → State) (l : List α) (s : State) (hs : s.mem.wf = true)
    (h : ∀ t x, t.mem.wf = true → (f t x).mem.wf = true) : (l.foldl f s).mem.wf = true := by
  induction l generalizing s with
  | nil => exact hs
  | cons x r ih => exact ih _ (h _ _ hs)

theorem getD_ram {o : Option State} {s t : State} (h : (o.getD s).mem.wf = true) (ho : o = some t) : t.mem.wf = true := by
  rw [ho] at h; exact h

theorem commitDone_ram (s0 s : State) (c : Cmd) (typ part : Nat) (body inline reply : Bytes) (h0 : s0.mem.wf = true)
    (h : s.mem.wf = true) : (commitDone s0 s c typ part body inline reply).mem.wf = true := by
  unfold commitDone
  split <;> simpa

theorem withQuorum_ram (s : State) (c : Cmd) (f : State) (hs : s.mem.wf = true) (h : f.mem.wf = true) :
    (withQuorum s c f).mem.wf = true := by
  unfold withQuorum
  split <;> simpa

theorem withImage_ram (s : State) (c : Cmd) (f : State → State) (hs : s.mem.wf = true)
    (h : ∀ t, t.mem.wf = true → (f t).mem.wf = true) : (withImage s c f).mem.wf = true := by
  unfold withImage
  split
  · exact h _ hs
  · split
    · simp [hs]
    · split
      · simp [hs]
      · dsimp only
        generalize 0x200000 = n
        split <;> simp [hs]

theorem stewardRow_ram (s : State) (i op : Nat) (body : State → Cmd → State) (hs : s.mem.wf = true)
    (h : ∀ t c, t.mem.wf = true → (body t c).mem.wf = true) : (stewardRow s i op body).mem.wf = true := by
  unfold stewardRow
  split
  · exact hs
  · split
    · exact hs
    · split
      · split
        · simpa
        · exact h _ _ hs
      · split
        · simpa
        · exact h _ _ hs
      · exact hs

theorem drawOnce_ram (s : State) (n : Nat) (f : State → Bytes → State) (hs : s.mem.wf = true)
    (h : ∀ t b, t.mem.wf = true → (f t b).mem.wf = true) : (drawOnce s n f).mem.wf = true := by
  have h1 := State.random_mem s 16 n s rfl
  unfold drawOnce
  split
  · apply h
    simp_all
  · exact hs

theorem writeVersion_ram {s : State} {h k : Nat} {b : Bytes} {o : Option Nat} {r : State × Nat × Nat}
    (hr : writeVersion s h k b o = some r) (hs : s.mem.wf = true) : r.1.mem.wf = true := by
  unfold writeVersion at hr
  split at hr
  · simp only [Option.some.injEq] at hr; subst hr; exact Mem.writeN_wf _ _ hs
  · simp at hr

@[simp] theorem zeroSlot_ram (s : State) (k : Nat) (h : s.mem.wf = true) : (zeroSlot s k).mem.wf = true := by
  have h1 := Mem.writeN_wf (zeros 128) (slotAddr k) h
  unfold zeroSlot
  dsimp only
  generalize Mem.writeN s.mem (slotAddr k) (zeros 128) = m at h1
  exact h1

@[simp] theorem commitStore_ram (s : State) (who : Option Place) (part : Nat) (attr : Bytes) (k : KeyInfo) (generated : Bool) (hW : s.mem.wf = true) :
    (commitStore s who part attr k generated).mem.wf = true := by
  unfold commitStore; (repeat' (first | split | (dsimp only; split))) <;> first | (simp [*]; done) | (have h9 := writeVersion_ram (by assumption) (by simp [*]); simp_all; done)

@[simp] theorem commitTombstone_ram (s : State) (who : Option Place) (h : Nat) (hW : s.mem.wf = true) :
    (commitTombstone s who h).mem.wf = true := by
  unfold commitTombstone; (repeat' (first | split | (dsimp only; split))) <;> first | (simp [*]; done) | (have h9 := writeVersion_ram (by assumption) (by simp [*]); simp_all; done)

@[simp] theorem commitUses_ram (s : State) (h add : Nat) (resv : Bool) (hW : s.mem.wf = true) :
    (commitUses s h add resv).mem.wf = true := by
  unfold commitUses; (repeat' (first | split | (dsimp only; split))) <;> first | (simp [*]; done) | (have h9 := writeVersion_ram (by assumption) (by simp [*]); simp_all; done)

@[simp] theorem commitReserve_ram (s : State) (h b u w : Nat) (hW : s.mem.wf = true) :
    (commitReserve s h b u w).mem.wf = true := by
  unfold commitReserve; (repeat' (first | split | (dsimp only; split))) <;> simp (maxDischargeDepth := 8) [*]

@[simp] theorem relocate_ram (s : State) (hW : s.mem.wf = true) :
    (relocate s).mem.wf = true := by
  unfold relocate; (repeat' (first | split | (dsimp only; split))) <;> first | (simp [*]; done) | (have h9 := writeVersion_ram (by assumption) (by simp [*]); simp_all; done)

@[simp] theorem commitDomain_ram (s : State) (key : Bytes) (hW : s.mem.wf = true) :
    (commitDomain s key).mem.wf = true := by
  unfold commitDomain; (repeat' (first | split | (dsimp only; split))) <;> first | (simp [*]; done) | (have h9 := writeVersion_ram (by assumption) (by simp [*]); simp_all; done)

@[simp] theorem journalCommit_ram (s : State) (hW : s.mem.wf = true) :
    (journalCommit s).mem.wf = true := by
  unfold journalCommit; (repeat' split) <;> simp [*]

@[simp] theorem tornWrite_ram (s : State) (n : Nat) (h : s.mem.wf = true) : (tornWrite s n).mem.wf = true := by
  unfold tornWrite
  split
  · exact h
  · exact Mem.writeN_wf _ _ h

@[simp] theorem recover_ram (s0 : State) (hW : s0.mem.wf = true) :
    (recover s0).mem.wf = true := by
  unfold recover; (repeat' (first | split | (dsimp only; split))) <;> simp_all (maxDischargeDepth := 8)

@[simp] theorem keepMram_ram (m : Mem) (h : m.wf = true) : (keepMram m).wf = true := Mem.filter_wfFrom _ h

@[simp] theorem State.clearFor_ram (s : State) (k : BitVec 4) (h : s.mem.wf = true) : (s.clearFor k).mem.wf = true := by
  unfold State.clearFor
  dsimp only
  split <;> exact keepMram_ram _ h

@[simp] theorem cutWrite_ram (k : BitVec 4) (s : State) (hW : s.mem.wf = true) :
    (cutWrite k s).mem.wf = true := by
  unfold cutWrite; (repeat' split) <;> simp [*]

@[simp] theorem assertReset_ram (k : BitVec 4) (cause : BitVec 7) (grantCause : Nat) (s : State) (hW : s.mem.wf = true) :
    (assertReset k cause grantCause s).mem.wf = true := by
  unfold assertReset; dsimp only; split <;> simp [*]

@[simp] theorem warmReset_ram (cause : BitVec 7) (s : State) (hW : s.mem.wf = true) :
    (warmReset cause s).mem.wf = true := by
  unfold warmReset; split <;> simp [*]

@[simp] theorem resetSag_ram (rail us : Nat) (s : State) (hW : s.mem.wf = true) :
    (resetSag rail us s).mem.wf = true := by
  unfold resetSag; split <;> simp [*]

@[simp] theorem rstreqWarm_ram (w : Writer) (value : Nat) (s : State) (hW : s.mem.wf = true) :
    (rstreqWarm w value s).mem.wf = true := by
  unfold rstreqWarm; (repeat' split) <;> simp [*]

@[simp] theorem journalCommitDone_ram (s : State) (hW : s.mem.wf = true) :
    (journalCommitDone s).mem.wf = true := by
  unfold journalCommitDone; dsimp only; split <;> simp [*]

@[simp] theorem zeroise_ram (mask : BitVec 15) (s : State) (hW : s.mem.wf = true) :
    (zeroise mask s).mem.wf = true := by
  unfold zeroise; split <;> simp [*]

@[simp] theorem tamperSample_ram (r : TamperReading) (s : State) (hW : s.mem.wf = true) :
    (tamperSample r s).mem.wf = true := by
  unfold tamperSample; (repeat' (first | split | (dsimp only; split))) <;> simp (maxDischargeDepth := 8) [*]

@[simp] theorem comparatorTrip_ram (i : Nat) (refLost : Bool) (s : State) (hW : s.mem.wf = true) :
    (comparatorTrip i refLost s).mem.wf = true := by
  unfold comparatorTrip; (repeat' split) <;> simp [*]

@[simp] theorem writeLines_ram (m : Mem) (ls : List Nat) (b : Bytes) (h : m.wf = true) : (writeLines m ls b).wf = true := by
  induction ls generalizing m b with
  | nil => exact h
  | cons l r ih => exact ih _ _ (Mem.writeN_wf _ _ h)

@[simp] theorem installDraft_ram (s : State) (img : Bytes) (gen : Nat) (h : s.mem.wf = true) :
    (installDraft s img gen).mem.wf = true := by
  unfold installDraft
  dsimp only
  apply writeLines_ram
  simpa using h

@[simp] theorem applyDraft_ram (s : State) (body : Bytes) (hW : s.mem.wf = true) :
    (applyDraft s body).mem.wf = true := by
  unfold applyDraft; split <;> simp [*]

@[simp] theorem draftCommit_ram (s : State) (c : Cmd) (h : s.mem.wf = true) : (draftCommit s c).mem.wf = true := by
  unfold draftCommit
  dsimp only
  split
  · simpa
  · exact commitDone_ram _ _ _ _ _ _ _ _ h (installDraft_ram _ _ _ h)

@[simp] theorem draftLoad_ram (s : State) (c : Cmd) (h : s.mem.wf = true) : (draftLoad s c).mem.wf = true := by
  unfold draftLoad
  refine withImage_ram _ _ _ h (fun t ht => ?_)
  exact withQuorum_ram _ _ _ ht (draftCommit_ram _ _ ht)

@[simp] theorem commitPairRec_ram (s : State) (r : PairRec) (hW : s.mem.wf = true) :
    (commitPairRec s r).mem.wf = true := by
  unfold commitPairRec; (repeat' (first | split | (dsimp only; split))) <;> first | (simp [*]; done) | (have h9 := writeVersion_ram (by assumption) (by simp [*]); simp_all; done)

@[simp] theorem ceremonyCommit_ram (s : State) (h : Hello) (z : Bytes) (hW : s.mem.wf = true) :
    (ceremonyCommit s h z).mem.wf = true := by
  simp (maxDischargeDepth := 8) [ceremonyCommit, hW] <;> (repeat' (first | rfl | (split <;> simp [*])))

@[simp] theorem deriveKeys_ram (s : State) (h : Hello) (hW : s.mem.wf = true) :
    (deriveKeys s h).mem.wf = true := by
  unfold deriveKeys; (repeat' (first | split | (dsimp only; split))) <;> simp (maxDischargeDepth := 8) [*]

@[simp] theorem takeHello_ram (s : State) (h : Hello) (hW : s.mem.wf = true) : (takeHello s h).mem.wf = true := by
  unfold takeHello
  split
  · split <;> simpa
  · dsimp only
    generalize hs1 : (if s.lk.up then relink 2 s else s) = s1
    have h1 : s1.mem.wf = true := by rw [← hs1]; split <;> simp [hW]
    split
    · apply deriveKeys_ram
      simpa
    · apply drawOnce_ram
      · simpa
      · intro t b ht
        apply deriveKeys_ram
        simpa

@[simp] theorem helloTimer_ram (s : State) (hW : s.mem.wf = true) : (helloTimer s).mem.wf = true := by
  unfold helloTimer
  split
  · exact hW
  · split
    · simpa
    · apply drawOnce_ram _ _ _ hW
      intro t b ht
      dsimp only
      split
      · simpa
      · apply deriveKeys_ram
        simpa

@[simp] theorem luakaHello_ram (p : Bytes) (s : State) (hW : s.mem.wf = true) :
    (luakaHello p s).mem.wf = true := by
  unfold luakaHello; (repeat' (first | split | (dsimp only; split))) <;> simp (maxDischargeDepth := 8) [*]

theorem standbyVersion_ram {s : State} {h k : Nat} {b : Bytes} {o : Option Nat} {l : Bool} {r : State × Nat}
    (hr : standbyVersion s h k b o l = some r) (hs : s.mem.wf = true) : r.1.mem.wf = true := by
  unfold standbyVersion at hr
  split at hr
  · simp at hr
  · have h9 := writeVersion_ram (by assumption) (by simpa using hs)
    simp only [Option.some.injEq] at hr
    subst hr
    simp_all

@[simp] theorem applyObject_ram (s : State) (b : Bytes) (hW : s.mem.wf = true) :
    ((applyObject s b).getD s).mem.wf = true := by
  unfold applyObject; (repeat' (first | split | (dsimp only; split))) <;> first | (simp [*]; done) | (have h9 := standbyVersion_ram (by assumption) (by simp [*]); simp_all; done)

@[simp] theorem applyTombstone_ram (s : State) (b : Bytes) (hW : s.mem.wf = true) :
    ((applyTombstone s b).getD s).mem.wf = true := by
  unfold applyTombstone; (repeat' (first | split | (dsimp only; split))) <;> first | (simp [*]; done) | (have h9 := writeVersion_ram (by assumption) (by simp [*]); simp_all; done)

@[simp] theorem applyDomain_ram (s : State) (b : Bytes) (hW : s.mem.wf = true) : ((applyDomain s b).getD s).mem.wf = true := by
  unfold applyDomain
  split
  · exact hW
  · cases h : standbyVersion s domainHandle 3 (sl b 0 96) none false with
    | none => exact hW
    | some r => simpa using standbyVersion_ram h hW

theorem getD_ite_ram {p : Prop} [Decidable p] {a b : Option State} {s : State} (ha : (a.getD s).mem.wf = true)
    (hb : (b.getD s).mem.wf = true) : ((if p then a else b).getD s).mem.wf = true := by split <;> assumption

@[simp] theorem applyRec_ram (both : Bool) (s : State) (r : BeatRec) (hW : s.mem.wf = true) :
    ((applyRec both s r).getD s).mem.wf = true := by
  unfold applyRec
  dsimp only
  repeat' with_reducible refine getD_ite_ram ?_ ?_
  all_goals first | exact hW | (simp [hW]; done)

@[simp] theorem beginSnapshot_ram (s : State) (hW : s.mem.wf = true) :
    (beginSnapshot s).mem.wf = true := by
  simp (maxDischargeDepth := 8) [beginSnapshot, hW] <;> (repeat' (first | rfl | (split <;> simp [*])))

theorem foldBind_ram {α : Type} (g : State → α → Option State)
    (h : ∀ t x u, g t x = some u → t.mem.wf = true → u.mem.wf = true) (l : List α) (s u : State)
    (hu : l.foldl (fun (o : Option State) r => o.bind (fun t => g t r)) (some s) = some u) (hs : s.mem.wf = true) :
    u.mem.wf = true := by
  induction l generalizing s with
  | nil => simp only [List.foldl_nil, Option.some.injEq] at hu; rw [← hu]; exact hs
  | cons x l ih =>
    rw [List.foldl_cons, Option.bind_some] at hu
    cases hg : g s x with
    | none =>
      rw [hg] at hu
      exfalso
      have : ∀ l : List α, l.foldl (fun (o : Option State) r => o.bind (fun t => g t r)) none = none := by
        intro l; induction l with
        | nil => rfl
        | cons y l ih2 => rw [List.foldl_cons]; exact ih2
      rw [this] at hu
      cases hu
    | some t =>
      rw [hg] at hu
      exact ih t hu (h s x t hg hs)

theorem applySnap_ram {rs : List BeatRec} {s u : State} (h : applySnap rs s = some u) (hs : s.mem.wf = true) :
    u.mem.wf = true := by
  refine foldBind_ram (fun (t : State) (r : BeatRec) => (applyRec true t r).map (fun u : State => u.modLk (fun l : Link => l.seen (itemOf r))))
    ?_ rs s u h hs
  intro t x v hv ht
  rw [Option.map_eq_some_iff] at hv
  obtain ⟨w, hw, rfl⟩ := hv
  simpa using getD_ram (applyRec_ram true t x ht) hw

@[simp] theorem snapData_ram (f : Frame) (s0 : State) (h0 : s0.mem.wf = true) : (snapData f s0).mem.wf = true := by
  unfold snapData
  dsimp only
  generalize hs : (if s0.lk.role = 3 ∧ s0.lk.pstate = 2 then s0 else rejoin s0) = s
  have h1 : s.mem.wf = true := by rw [← hs]; split <;> simpa
  generalize hs1 : (if s.lk.snapRx.isSome ∨ !snapFirst f.payload then s else beginSnapshot s) = s1
  have h2 : s1.mem.wf = true := by rw [← hs1]; split <;> simp [h1]
  split
  · exact h2
  · split
    · simpa using h2
    · split
      · simpa using h2
      · have h9 := applySnap_ram (by assumption) h2
        simp [h9, h2]

theorem applyBeat_ram {rs : List (BeatRec × Bool)} {s u : State} (h : applyBeat rs s = some u) (hs : s.mem.wf = true) :
    u.mem.wf = true := by
  refine foldBind_ram (fun t (r : BeatRec × Bool) => if r.2 then applyRec false t r.1 else some t) ?_ rs s u h hs
  intro t x v hv ht
  split at hv
  · exact getD_ram (applyRec_ram false t x.1 ht) hv
  · simp only [Option.some.injEq] at hv; rw [← hv]; exact ht

@[simp] theorem finishBeat_ram (num : Nat) (rs : List (BeatRec × Bool)) (s : State) (h : s.mem.wf = true) :
    (finishBeat num rs s).mem.wf = true := by
  unfold finishBeat
  split
  · simpa
  · have h9 := applyBeat_ram (by assumption) h
    simpa

@[simp] theorem beatEnd_ram (f : Frame) (s0 : State) (hW : s0.mem.wf = true) :
    (beatEnd f s0).mem.wf = true := by
  unfold beatEnd; (repeat' (first | split | (dsimp only; split))) <;> simp (maxDischargeDepth := 8) [*]

@[simp] theorem applyWaiting_ram (x : Nat) (s : State) (h : s.mem.wf = true) : (applyWaiting x s).mem.wf = true := by
  induction x generalizing s with
  | zero => exact h
  | succ k ih =>
    unfold applyWaiting
    split
    · exact h
    · exact ih _ (finishBeat_ram _ _ _ (by simpa using h))

@[simp] theorem dropPairRec_ram (s : State) (hW : s.mem.wf = true) :
    (dropPairRec s).mem.wf = true := by
  unfold dropPairRec; (repeat' (first | split | (dsimp only; split))) <;> first | (simp [*]; done) | (have h9 := writeVersion_ram (by assumption) (by simp [*]); simp_all; done)

@[simp] theorem dissolveActive_ram (s : State) (hW : s.mem.wf = true) :
    (dissolveActive s).mem.wf = true := by
  unfold dissolveActive; split <;> simp [*]

@[simp] theorem pairDissolve_ram (s : State) (c : Cmd) (hW : s.mem.wf = true) :
    (pairDissolve s c).mem.wf = true := by
  unfold pairDissolve; (repeat' (first | split | (dsimp only; split))) <;> simp (maxDischargeDepth := 8) [*]

@[simp] theorem switchOn_ram (d : Nat) (s : State) (h : s.mem.wf = true) : (switchOn d s).mem.wf = true := by
  have h1 : Mem.wf (s.mem.filter (fun x => !volatileOf d x.1)) = true := Mem.filter_wfFrom _ h
  unfold switchOn
  dsimp only
  (repeat' split) <;> simpa using h1

@[simp] theorem switchOff_ram (d : Nat) (s : State) (hW : s.mem.wf = true) :
    (switchOff d s).mem.wf = true := by
  unfold switchOff; (repeat' split) <;> simp [*]

@[simp] theorem stepFirmware_ram (s : State) (hW : s.mem.wf = true) :
    (stepFirmware s).mem.wf = true := by
  simp [stepFirmware, hW]

@[simp] theorem startupStep_ram (s : State) (hW : s.mem.wf = true) :
    ((startupStep s).getD s).mem.wf = true := by
  unfold startupStep; (repeat' split) <;> simp [*]

@[simp] theorem startupAdvance_ram (x : Nat) (s : State) (h : s.mem.wf = true) : (startupAdvance x s).mem.wf = true := by
  induction x generalizing s with
  | zero => exact h
  | succ k ih =>
    unfold startupAdvance
    split
    · exact h
    · rename_i t ht
      exact ih t (getD_ram (startupStep_ram s h) ht)

@[simp] theorem State.advance_ram (s : State) (hW : s.mem.wf = true) :
    (State.advance s).mem.wf = true := by
  simp [State.advance, hW]

@[simp] theorem resetRelease_ram (s : State) (hW : s.mem.wf = true) :
    (resetRelease s).mem.wf = true := by
  unfold resetRelease; (repeat' (first | split | (dsimp only; split))) <;> simp (maxDischargeDepth := 8) [*]

@[simp] theorem railsConfirmed_ram (s : State) (hW : s.mem.wf = true) :
    (railsConfirmed s).mem.wf = true := by
  unfold railsConfirmed; split <;> simp [*]

@[simp] theorem pllLocked_ram (external : Bool) (s : State) (hW : s.mem.wf = true) :
    (pllLocked external s).mem.wf = true := by
  unfold pllLocked; split <;> simp [*]

@[simp] theorem lbistComplete_ram (failing : Option Nat) (s : State) (hW : s.mem.wf = true) :
    (lbistComplete failing s).mem.wf = true := by
  unfold lbistComplete; (repeat' split) <;> simp [*]

@[simp] theorem runImage_ram (i : Nat) (fallback : Bool) (img : Image) (s : State) (hW : s.mem.wf = true) :
    (runImage i fallback img s).mem.wf = true := by
  simp [runImage, hW]

@[simp] theorem bootVerified_ram (a b : SlotRead) (s : State) (hW : s.mem.wf = true) :
    (bootVerified a b s).mem.wf = true := by
  unfold bootVerified; (repeat' (first | split | (dsimp only; split))) <;> simp (maxDischargeDepth := 8) [*]

@[simp] theorem domainSwitched_ram (s : State) (hW : s.mem.wf = true) :
    (domainSwitched s).mem.wf = true := by
  unfold domainSwitched; (repeat' split) <;> simp [*]

@[simp] theorem loomOff_ram (n : Nat) (s : State) (hW : s.mem.wf = true) :
    (loomOff n s).mem.wf = true := by
  unfold loomOff; dsimp only; split <;> simp [*]

@[simp] theorem drainDone_ram (n : Nat) (s : State) (hW : s.mem.wf = true) :
    (drainDone n s).mem.wf = true := by
  unfold drainDone; split <;> simp [*]

@[simp] theorem drainOver_ram (n : Nat) (s : State) (hW : s.mem.wf = true) :
    (drainOver n s).mem.wf = true := by
  unfold drainOver; (repeat' (first | split | (dsimp only; split))) <;> simp (maxDischargeDepth := 8) [*]

@[simp] theorem holdRelease_ram (s : State) (hW : s.mem.wf = true) :
    (holdRelease s).mem.wf = true := by
  unfold holdRelease; split <;> simp [*]

@[simp] theorem warningClear_ram (us : Nat) (s : State) (hW : s.mem.wf = true) :
    (warningClear us s).mem.wf = true := by
  unfold warningClear; split <;> simp [*]

@[simp] theorem transitionDone_ram (s : State) (x : Session) (hW : s.mem.wf = true) :
    (transitionDone s x).mem.wf = true := by
  unfold transitionDone; (repeat' (first | split | (dsimp only; split))) <;> simp (maxDischargeDepth := 8) [*]

@[simp] theorem sessionDone_ram (s : State) (x : Session) (hW : s.mem.wf = true) :
    (sessionDone s x).mem.wf = true := by
  unfold sessionDone; (repeat' (first | split | (dsimp only; split))) <;> simp (maxDischargeDepth := 8) [*]

@[simp] theorem programNext_ram (s : State) (x : Session) (hW : s.mem.wf = true) :
    (programNext s x).mem.wf = true := by
  unfold programNext; (repeat' split) <;> simp [*]

@[simp] theorem otpWord_ram (s : State) (h : s.mem.wf = true) : (otpWord s).mem.wf = true := by
  unfold otpWord
  split
  · exact h
  · split
    · exact h
    · split
      · split
        · exact h
        · split
          · have h9 := beginWords__error_mem (by assumption)
            rw [h9]; exact h
          · have h9 := beginWords__ok_mem (by assumption)
            apply programNext_ram
            rw [h9]; exact h
      · exact programNext_ram _ _ h

@[simp] theorem transitionReset_ram (s : State) (hW : s.mem.wf = true) :
    (transitionReset s).mem.wf = true := by
  unfold transitionReset; split <;> simp [*]

@[simp] theorem loadInstr_ram (i : TapInstr) (s : State) (hW : s.mem.wf = true) :
    (loadInstr i s).mem.wf = true := by
  unfold loadInstr; split <;> simp [*]

@[simp] theorem scanInstruction_ram (i : TapInstr) (s : State) (hW : s.mem.wf = true) :
    (scanInstruction i s).mem.wf = true := by
  unfold scanInstruction; split <;> simp [*]

@[simp] theorem sysWrite_ram (w : Writer) (o v : Nat) (s : State) (hW : s.mem.wf = true) :
    (sysWrite w o v s).mem.wf = true := by
  unfold sysWrite; split <;> simp [*]

@[simp] theorem regWrite_ram (w : Writer) (a v0 mask : Nat) (s : State) (hW : s.mem.wf = true) :
    (regWrite w a v0 mask s).mem.wf = true := by
  unfold regWrite; (repeat' (first | split | (dsimp only; split))) <;> simp (maxDischargeDepth := 8) [*]

@[simp] theorem writeRegs_ram (w : Writer) (addr size value : Nat) (s : State) (hW : s.mem.wf = true) :
    (writeRegs w addr size value s).mem.wf = true := by
  unfold writeRegs; (repeat' (first | split | (dsimp only; split))) <;> simp_all (maxDischargeDepth := 8)

@[simp] theorem registerWrite_ram (w : Writer) (addr size value : Nat) (s : State) (hW : s.mem.wf = true) :
    (registerWrite w addr size value s).mem.wf = true := by
  unfold registerWrite; (repeat' split) <;> simp [*]

@[simp] theorem memPut_ram (s : State) (a : Nat) (b : Byte) (h : s.mem.wf = true) : (memPut s a b).mem.wf = true := by
  unfold memPut
  split
  · exact h
  · split
    · simpa using h
    · split
      · exact h
      · exact Mem.write_wf a b h

@[simp] theorem accessPass_ram (unit : Nat) (kind : AccKind) (user : Bool) (addr size : Nat) (data : Bytes) (s : State) (hW : s.mem.wf = true) :
    (accessPass unit kind user addr size data s).mem.wf = true := by
  unfold accessPass; (repeat' (first | split | (dsimp only; split))) <;> simp_all (maxDischargeDepth := 8)

@[simp] theorem masterAccess_ram (unit : Nat) (kind : AccKind) (user : Bool) (addr size : Nat) (data : Bytes) (s : State) (hW : s.mem.wf = true) :
    (masterAccess unit kind user addr size data s).mem.wf = true := by
  unfold masterAccess; (repeat' (first | split | (dsimp only; split))) <;> simp (maxDischargeDepth := 8) [*]

theorem luakaFrame_ram (typ : Nat) (w : Wire) (s : State) (g : Frame → State → State) (hs : s.mem.wf = true)
    (h : ∀ f t, t.mem.wf = true → (g f t).mem.wf = true) : (luakaFrame typ w s g).mem.wf = true := by
  unfold luakaFrame receive
  (repeat' (first | split | (dsimp only; split))) <;> first | (simp [*]; done) | (apply h; simp [*])

theorem next_ram {u t : State} (hu : u.mem.wf = true) (h : (Host.Outcome.next u : Outcome) = .next t) :
    t.mem.wf = true := by
  cases h; exact hu
set_option maxRecDepth 4000
theorem exec_ram {i : Instr} {s t : State} (hs : s.mem.wf = true) (h : exec i s = .next t) : t.mem.wf = true := by
  cases i <;> exact next_ram (by first | (with_reducible refine stewardRow_ram _ _ _ _ hs (fun t c ht => ?_); simp [ht]; done) | (with_reducible refine luakaFrame_ram _ _ _ _ hs (fun f t ht => ?_); simp [ht]; done) | (simp (maxDischargeDepth := 8) [hs]; done) | ((repeat' (first | split | (dsimp only; split))) <;> simp (maxDischargeDepth := 8) [*]; done) | ((repeat' (first | split | (dsimp only; split))) <;> simp_all (maxDischargeDepth := 8); done) | (simp (maxDischargeDepth := 8) [hs, apply_ite State.mem]; done) | (unfold trdWrite; split <;> simp; split <;> simp [hs]; done) | skip) h

theorem next_pending {u s t : State} (hu : u.pending = s.pending) (h : (Host.Outcome.next u : Outcome) = .next t) :
    t.pending = s.pending := by
  cases h; exact hu
theorem exec_pending {i : Instr} {s t : State} (h : exec i s = .next t) : t.pending = s.pending := by
  cases i <;> exact next_pending (by first | (simp (maxDischargeDepth := 8); done) | ((repeat' (first | split | (dsimp only; split))) <;> simp (maxDischargeDepth := 8) [*]; done) | ((repeat' (first | split | (dsimp only; split))) <;> simp_all (maxDischargeDepth := 8); done) | (simp (maxDischargeDepth := 8) [apply_ite State.pending]; done) | (apply luakaFrame_pending; intro z; (repeat' (first | split | (dsimp only; split))) <;> simp; done) | (unfold trdWrite; split <;> simp; split <;> simp; done) | skip) h

end Sys2Proof.Machine
end

