-- ==== Sys2Proof/WellFormed.lean ====
section
/-! DEFINITION. Well-formed commands: every operand is a number that exists on the device or its interfaces. A draft step's
fields are as wide as their encoding, so every value of them is well-formed; reserved ones fault when the step runs. -/

namespace Sys2Proof

/-- Functions 0 to 255 (R44). -/
def fnOk (fn : Nat) : Bool := decide (fn < 256)
/-- Queue IDs 0 to 16,383 (R44). -/
def queueOk (q : Nat) : Bool := decide (q < 16384)
/-- Partition IDs 0 to 4,095. -/
def partOk (p : Nat) : Bool := decide (p < 4096)
/-- A value of `size` bytes. -/
def valOk (size value : Nat) : Bool := decide (1 ≤ size ∧ value < 256 ^ size)
/-- A host address (R60). -/
def hostOk (addr : Nat) : Bool := decide (addr < 2 ^ 64)
/-- An address of the 40-bit internal map, or an offset in BAR0 (R8). -/
def internalOk (addr : Nat) : Bool := decide (addr < 2 ^ 40)
/-- Loom n and shed k (R90). -/
def shedOk (n k : Nat) : Bool := decide (n < 16 ∧ k < 32)
/-- A shed, or one of the 16 steward contexts (R88). -/
def placeOk : Place → Bool
  | .shed n k => shedOk n k
  | .ctx i => decide (i < 16)
def pathOk : Path → Bool
  | .queue q => queueOk q
  | .mailbox fn => fnOk fn
def targetOk : ReadTarget → Bool
  | .ring q => queueOk q
  | .cmd p => placeOk p
/-- A function, one of the four stewards, the debug master, or one of the 12 protection units (Table 15.1). -/
def writerOk : Writer → Bool
  | .host fn => fnOk fn
  | .hostPoisoned fn => fnOk fn
  | .steward i _ => decide (i < 4)
  | .debug => true
  | .master u => decide (u < 12)

def Instr.wf : Instr → Bool
  | .doorbellSqTail fn _ size value => fnOk fn && valOk size value
  | .doorbellCqHead fn _ size value => fnOk fn && valOk size value
  | .sqEntryFetched q entries => queueOk q && entries != [] && entries.all (fun e => e.length == 128)
  | .sqFetchFailed q => queueOk q
  | .hostReadError p addr => placeOk p && hostOk addr
  | .hostReadTimeout t addr => targetOk t && hostOk addr
  | .hostWriteRefused p addr => pathOk p && hostOk addr
  | .schedAdmit => true
  | .extDataFetched p _ => placeOk p
  | .keyBlockPointerRead p ref _ => placeOk p && decide (ref < 8)
  | .mbxGo fn value => fnOk fn && valOk 4 value
  | .mbxAck fn value => fnOk fn && valOk 4 value
  | .mbxStatusRead fn => fnOk fn
  | .functionD3hotEntry fn => fnOk fn
  | .functionD0Return fn => fnOk fn
  | .vfFlr fn => fnOk fn && fn != 0
  | .vfEnableClear => true
  | .pcieReset => true
  | .registerWrite w addr size value => writerOk w && internalOk addr && valOk size value
  | .moveCopy n k _ => shedOk n k
  | .moveXor n k _ => shedOk n k
  | .moveAnd n k _ => shedOk n k
  | .moveFill n k _ => shedOk n k
  | .moveLoadv n k _ => shedOk n k
  | .moveGetv n k _ => shedOk n k
  | .movePutv n k _ => shedOk n k
  | .moveAddv n k _ => shedOk n k
  | .moveSetf n k _ => shedOk n k
  | .cmpEqCt n k _ => shedOk n k
  | .cmpMag n k _ => shedOk n k
  | .cmpTestv n k _ => shedOk n k
  | .cmpCmpv n k _ => shedOk n k
  | .cmpRangev n k _ => shedOk n k
  | .symEcbEnc n k _ => shedOk n k
  | .symEcbDec n k _ => shedOk n k
  | .symCbcEnc n k _ => shedOk n k
  | .symCbcDec n k _ => shedOk n k
  | .symCtr n k _ => shedOk n k
  | .symCodeEcb n k _ => shedOk n k
  | .symCodeCbc n k _ => shedOk n k
  | .symMacGen n k _ => shedOk n k
  | .symMacVerify n k _ => shedOk n k
  | .symHmac n k _ => shedOk n k
  | .symHmacVerify n k _ => shedOk n k
  | .symSha256 n k _ => shedOk n k
  | .symSha512 n k _ => shedOk n k
  | .keyGet n k _ => shedOk n k
  | .keyUnwrap n k _ => shedOk n k
  | .keyWrap n k _ => shedOk n k
  | .keyDerive n k _ => shedOk n k
  | .keyDukpt n k _ => shedOk n k
  | .keyGenerate n k _ => shedOk n k
  | .keyStore n k _ => shedOk n k
  | .keyRelease n k _ => shedOk n k
  | .routePanLookup n k _ => shedOk n k
  | .routePolicyLookup n k _ => shedOk n k
  | .fmtPanField n k _ => shedOk n k
  | .fmtPinDecode n k _ => shedOk n k
  | .fmtPinEncode n k _ => shedOk n k
  | .fmtDecimalise n k _ => shedOk n k
  | .fmtBcdPack n k _ => shedOk n k
  | .fmtBcdUnpack n k _ => shedOk n k
  | .fmtPad n k _ => shedOk n k
  | .fmtTlvFind n k _ => shedOk n k
  | .randGen n k _ => shedOk n k
  | .bnEdSign n k _ => shedOk n k
  | .bnEdVerify n k _ => shedOk n k
  | .bnX25519 n k _ => shedOk n k
  | .bnEcSign n k _ => shedOk n k
  | .bnEcVerify n k _ => shedOk n k
  | .bnRsaSign n k _ => shedOk n k
  | .bnRsaVerify n k _ => shedOk n k
  | .bnPublic n k _ => shedOk n k
  | .bnGenerate n k _ => shedOk n k
  | .doneRetire n k _ => shedOk n k
  | .excService n k _ => shedOk n k
  | .stepCacheLineFilled n k _ => shedOk n k
  | .trdExcpop w n value => writerOk w && decide (n < 16) && valOk 4 value
  | .trdResume w n value => writerOk w && decide (n < 16) && valOk 4 value
  | .bnJobPlace => true
  | .bnYieldPoint _ => true
  | .bnJobResume _ => true
  | .bnJobEnd _ _ ecc => (ecc.map (fun c => decide (c < 32))).getD true
  | .bnContextScrubbed core ctx _ => decide (core < 32 ∧ ctx < 4)
  | .bnStarvePromote _ => true
  | .bnKeygenLimit _ _ => true
  | .kcFillDone bank bucket way => decide (bank < 5 ∧ bucket < 16384 ∧ way < 4)
  | .kcSweepPassStart => true
  | .kcSweepVisit => true
  | .kcWalkDone => true
  | .journalCommitDone => true
  | .sequenceReservationDurable => true
  | .journalRelocate => true
  | .rtUpdateSettled _ => true
  | .rtParityCopy _ => true
  | .teardownAbortPoint part => partOk part
  | .admissionDrainTimeout => true
  | .nonceExpiry part value => partOk part && valOk 8 value
  | .quorumVerifyDone p => placeOk p
  | .resetPowerOn => true
  | .resetSag rail _ => decide (rail < 4)
  | .rstreqWarm w value => writerOk w && valOk 4 value
  | .wdtKick w i value => writerOk w && decide (i < 4) && valOk 4 value
  | .watchdogExpiry i => decide (i < 4)
  | .perstInAssert => true
  | .resetRelease => true
  | .startupRailsOk => true
  | .rootPllLock _ => true
  | .lbistComplete _ => true
  | .bootImageVerified _ _ => true
  | .loomEnterService n _ => decide (n < 16)
  | .hstReadySet => true
  | .pdctlWrite w reg value => writerOk w && decide (reg < 2) && valOk 4 value
  | .powerDomainSwitched => true
  | .loomDrainDone n => decide (n < 16)
  | .loomDrainTimeout n => decide (n < 16)
  | .tamperSample _ => true
  | .tamperComparatorTrip input _ => decide (input < 15)
  | .zeroiseHoldRelease => true
  | .batPowerOn => true
  | .batSupplySwitch _ => true
  | .vbatMeasure _ => true
  | .sagWarning _ => true
  | .pfailAssert => true
  | .sagWarningClear _ => true
  | .thermWarnChange _ => true
  | .actInChange _ => true
  | .claimGuardExpiry => true
  | .claimReread => true
  | .claimCheck => true
  | .contentionHigh10us => true
  | .contentionTimeout => true
  | .activeInterlockLow => true
  | .soloWaitExpiry => true
  | .heartbeatLoss => true
  | .beatClose => true
  | .helloTimer => true
  | .luakaLaneTimeout => true
  | .luakaHello _ => true
  | .luakaBeatData _ => true
  | .luakaBeatEnd _ => true
  | .luakaBeatAck _ => true
  | .luakaSnapData _ => true
  | .luakaSnapEnd _ => true
  | .luakaInSync _ => true
  | .luakaTime _ _ => true
  | .luakaHandover _ => true
  | .luakaLeave _ => true
  | .pairBeginTimeout => true
  | .ceremonyInterlockTimeout => true
  | .timeCounterTick => true
  | .ptTimeCapture => true
  | .ptpAnnounce _ => true
  | .ptpSync _ => true
  | .ptpFollowUp _ => true
  | .ptpDelayResp _ => true
  | .ptpIgnoredMessage => true
  | .ppsInEdge ns => decide (ns < 1000000000)
  | .ppsInLoss => true
  | .timeSourceTimeout => true
  | .holdoverLimit => true
  | .standbyTimeExchange => true
  | .rngBlockConditioned samples => samples.length == 8
  | .rngHealthFailure source _ _ => decide (source < 8)
  | .rngTestPassDone samples _ _ => samples.length == 8
  | .rngEstimateBlock source _ => decide (source < 8)
  | .rngReseedWaitTimeout i => decide (i < 17)
  | .rngRawTimeout => true
  | .dbgChallengeRead => true
  | .dbgSubmit w value => writerOk w && valOk 4 value
  | .dbgCtrlEnd w value => writerOk w && valOk 4 value
  | .dbgGrantExpiry => true
  | .stewardHalt i _ => decide (i < 4)
  | .bscanInstruction _ => true
  | .tapReset => true
  | .lcGo w value => writerOk w && valOk 4 value
  | .lcProg w value => writerOk w && valOk 4 value
  | .otpWordProgrammed => true
  | .lcTransitionResetTimer => true
  | .masterAccess unit _ _ addr size _ => decide (unit < 12) && internalOk addr && decide (1 ≤ size)
  | .mpuSwap w i => writerOk w && decide (i < 12)
  | .mpuLock w i => writerOk w && decide (i < 12)
  | .mpuRegionWrite w addr value => writerOk w && internalOk addr && valOk 4 value
  | .bistSlotPeriod slot => decide (slot < 2)
  | .bistReq w value => writerOk w && valOk 4 value
  | .bistUnitIdle slot => decide (slot < 2)
  | .bistIsolateTimeout slot => decide (slot < 2)
  | .bistPatternsDone slot _ => decide (slot < 2)
  | .bistUnitRestored slot _ => decide (slot < 2)
  | .eventRecord => true
  | .optimeStore => true
  | .smbReceiveByte => true
  | .smbStatus => true
  | .smbTemp => true
  | .smbVbat => true
  | .smbLcState => true
  | .smbId => true
  | .smbVpd => true
  | .smbAlertResponse => true
  | .smbSclTimeout => true
  | .partCreate i => decide (i < 16)
  | .partModify i => decide (i < 16)
  | .partTeardown i => decide (i < 16)
  | .partQuery i => decide (i < 16)
  | .partSetAccessKey i => decide (i < 16)
  | .partEnableOpcodes i => decide (i < 16)
  | .partSetCachePolicy i => decide (i < 16)
  | .rtRouteUpdate i => decide (i < 16)
  | .rtPolicyUpdate i => decide (i < 16)
  | .rtRouteLayout i => decide (i < 16)
  | .rtQuery i => decide (i < 16)
  | .rtSetLimits i => decide (i < 16)
  | .qCreate i => decide (i < 16)
  | .qDelete i => decide (i < 16)
  | .qBind i => decide (i < 16)
  | .qUnbind i => decide (i < 16)
  | .qQuery i => decide (i < 16)
  | .cmdCancel i => decide (i < 16)
  | .pairBegin i => decide (i < 16)
  | .pairSetPolicy i => decide (i < 16)
  | .pairQuery i => decide (i < 16)
  | .pairSwitchover i => decide (i < 16)
  | .pairDissolve i => decide (i < 16)
  | .draftLoad i => decide (i < 16)
  | .draftUnload i => decide (i < 16)
  | .draftSignerSet i => decide (i < 16)
  | .draftQuery i => decide (i < 16)
  | .kcLoad n k => shedOk n k
  | .kcFlush i => decide (i < 16)
  | .kcQuery i => decide (i < 16)
  | .qrNonce i => decide (i < 16)
  | .custSet i => decide (i < 16)
  | .custQuery i => decide (i < 16)
  | .tmpConfig i => decide (i < 16)
  | .tmpQuery i => decide (i < 16)
  | .tmpAck i => decide (i < 16)
  | .iomSet i => decide (i < 16)
  | .kbImport n k => shedOk n k
  | .kbExport n k => shedOk n k
  | .kbGenerate n k => shedOk n k
  | .kbTranslate n k => shedOk n k
  | .objQuery n k => shedOk n k
  | .objDelete n k => shedOk n k
  | .pinTranslate n k => shedOk n k
  | .pinVerifyOffset n k => shedOk n k
  | .pinVerifyPvv n k => shedOk n k
  | .pinOffsetGenerate n k => shedOk n k
  | .pvvGenerate n k => shedOk n k
  | .cvcGenerate n k => shedOk n k
  | .cvcVerify n k => shedOk n k
  | .emvArqcVerify n k => shedOk n k
  | .dukptPinTranslate n k => shedOk n k
  | .dukptDecrypt n k => shedOk n k
  | .dukptMacVerify n k => shedOk n k
  | .macGenerate n k => shedOk n k
  | .macVerify n k => shedOk n k
  | .ed25519Sign n k => shedOk n k
  | .ed25519Verify n k => shedOk n k
  | .x25519Agree n k => shedOk n k
  | .asymPublic n k => shedOk n k
  | .ecdsaSignP256 n k => shedOk n k
  | .ecdsaSignP384 n k => shedOk n k
  | .ecdsaVerifyP256 n k => shedOk n k
  | .ecdsaVerifyP384 n k => shedOk n k
  | .rsaSign2048 n k => shedOk n k
  | .rsaSign3072 n k => shedOk n k
  | .rsaSign4096 n k => shedOk n k
  | .rsaVerify2048 n k => shedOk n k
  | .rsaVerify3072 n k => shedOk n k
  | .rsaVerify4096 n k => shedOk n k
  | .rsaKeyWrap2048 n k => shedOk n k
  | .rsaKeyWrap3072 n k => shedOk n k
  | .rsaKeyWrap4096 n k => shedOk n k
  | .rsaKeyUnwrap2048 n k => shedOk n k
  | .rsaKeyUnwrap3072 n k => shedOk n k
  | .rsaKeyUnwrap4096 n k => shedOk n k
  | .asymGenerate n k => shedOk n k
  | .rsaGenerate2048 n k => shedOk n k
  | .rsaGenerate3072 n k => shedOk n k
  | .rsaGenerate4096 n k => shedOk n k
  | .rngGenerate n k => shedOk n k
  | .hash n k => shedOk n k
  | .ptSetConfig i => decide (i < 16)
  | .ptQuery i => decide (i < 16)
  | .bistQuery i => decide (i < 16)
  | .bistPick i => decide (i < 16)
  | .bistSetPace i => decide (i < 16)
  | .evrSetExport i => decide (i < 16)
  | .rngRawEnter i => decide (i < 16)
  | .rngRawRead i => decide (i < 16)
  | .rngRawExit i => decide (i < 16)
  | .rngHealthQuery i => decide (i < 16)
  | .evrRead i => decide (i < 16)
  | .evrClear i => decide (i < 16)
  | .bbRead i => decide (i < 16)
  | .bbRelease i => decide (i < 16)
  | .attestDevice i => decide (i < 16)
  | .attestPartition i => decide (i < 16)
  | .lcTransition i => decide (i < 16)
  | .lcQuery i => decide (i < 16)
  | .dbgAuthorise i => decide (i < 16)
  | .dbgEnd i => decide (i < 16)
  | .lcEndorse i => decide (i < 16)
  | .fwStage i => decide (i < 16)
  | .lcRollbackAdvance i => decide (i < 16)
  | .customerDraftCommand n k => shedOk n k
  | .luakaLaneLoss lane => decide (lane < 4)
  | .luakaPeerViolation _ => true
  | .smbControllerViolation command _ => decide (command < 256)
  | .pcieConfigurationRequest _ => true
  | .pcieLinkUp => true

end Sys2Proof
end

