-- ==== Sys2Proof/Tests/Slice0.lean ====
section
/-! SUPPORT. Tests: the ill-formed commands that WellFormed refuses, single steps with results worked out from the
manual, and for each statement states and operands that meet what its clauses suppose. -/

set_option Elab.async false

namespace Sys2Proof.Tests

open Sys2Proof Sys2Proof.Machine

/-! ## Lookups that succeed, with what they give -/

def gotS : Got → State
  | .got s _ _ _ => s
  | .hard s _ _ => s
  | .filling s _ _ _ _ => s
  | .wait s _ _ => s
  | .later => State.reset

def gotC : Got → Cmd → Cmd
  | .got _ c _ _, _ => c
  | .hard _ c _, _ => c
  | .filling _ c _ _ _, _ => c
  | .wait _ c _, _ => c
  | .later, c => c

def gotM : Got → Bool
  | .got _ _ m _ => m
  | _ => false

def gotL : Got → Bool
  | .got _ _ _ l => l
  | _ => false

def isGot : Got → Bool
  | .got _ _ _ _ => true
  | _ => false

/-! ## A device in operation, and commands in it -/

/-- Fields of a draft step: four bytes from A and B to D, both at the start of the extended data. -/
def tA : StepArgs :=
  { br := 0, bflag := 0, target := 0, fsel := 0, aOff := 0x100, bOff := 0x110, dOff := 0x100, len := 4, kreg := 0,
    param := 0, imm := 0, rsv := false }

/-- A directory entry of a customer draft that may commit. -/
def tDir (op : Nat) : DirEnt :=
  { opcode := op, state := 1, steward := false, gen := 1, steps := 4, lines := [1], extMin := 0, extMax := 3072,
    replyMax := 3072, krefMax := 8, lcMask := 3, standbyOk := true, commits := true, version := 1, cost := 1 }

/-- A command in place `p`, with the entry and data of `m`. -/
def tP (p : Place) (op : Nat) (ph : Phase) (m : Mem) : Cmd :=
  { place := p, path := .mailbox 0, fn := 0, part := 0, opcode := op, order := 1, mem := m, extLen := 0,
    idx := 0, phase := ph, kregs := [], rgen := 0, pgen := 1, dgen := 1, dir := none, asked := 0, abort := false, stored := false, stamp := 0,
    keyLoaded := false, ptrs := [], quorum := none, pend := none, discard := false, mirror := false }

def tC (op : Nat) (ph : Phase) (m : Mem) : Cmd := { tP (.shed 0 0) op ph m with dir := some (tDir op) }

/-- A command of steward context 0, its quorum passed. -/
def tW (op : Nat) (m : Mem) : Cmd := { tP (.ctx 0) op .ready m with quorum := some (0, 3) }

/-- The extended data of a command, `m` at its front. -/
def tExt (c : Cmd) (m : Bytes) : Cmd :=
  { c with mem := Mem.writeN (Mem.writeN c.mem 24 (toLe 4 m.length)) 0x100 m, extLen := m.length }

/-- A key of usage `u` and algorithm `a`, of 32 bytes. -/
def tKey (u a : Nat) : KeyInfo :=
  { usage := u, alg := a, mat := zeros 32, name := 0, version := 0, notAfter := 0, exportable := true, limited := false,
    level := 0, rsaPriv := true, transport := false }

/-- It in a key register, from a reference of type 1. -/
def tReg (u a : Nat) : KReg := { loc := .shadow, key := tKey u a, named := true, tag := zeros 16, source := 1 }

/-- A device in state OPERATIONAL, READY, active alone, every domain on and its random source seeded. -/
def tOn : State :=
  { State.reset with
    sys := { Sys.reset with pllLock := true, refOk := true, monitored := true, pdctl := BitVec.ofNat 36 (2 ^ 36 - 1),
                            pdstat := BitVec.ofNat 36 (2 ^ 36 - 1), step := 13, inReset := false, rstoutLow := false,
                            pending := 0, cold := false, causes := 0 }
    host := { HostIf.reset with ready := true, linkUp := true, bme := [0] }
    drafts := { Drafts.reset with dir := [tDir 0x200, tDir 0x40] }
    trd := List.replicate 16 { Treadle.reset with inService := true }
    ks := { KeyStore.reset with recovered := true, hold := false, domainKey := some (zeros 32), reservation := 1000,
                                cfgStone := 3, stone := 3 }
    kc := { KCache.reset with salt := some (zeros 16) }
    rt := { RtTables.reset RtTables.defaultLayout with
              salt := some (zeros 16)
              rules0 := [{ part := 0, len := 0, pfx := 0, body := List.replicate 12 0xFF, index := 0 }]
              rules1 := [{ part := 0, len := 0, pfx := 0, body := List.replicate 12 0xFF, index := 0 }] }
    bn := { Bignum.reset with cores := List.replicate 32 { Core.reset with ok := true } }
    rng := { Rng.reset with srcReady := true, inUse := 0xFF, pool := List.replicate 8 (zeros 64),
                            drbgs := List.replicate 17 { Drbg.reset with seeded := true } }
    lc := { LifeCycle.reset with state := 0x40 }
    tmp := { Tamper.reset with secret := some (zeros 32) }
    sag := { Sag.reset with pgood := 0xF }
    lk := { Link.reset with role := 2 }
    board := { Board.reset with railsOk := true } }

/-- The line of a step cache that holds a command's next step. -/
def tLine (c : Cmd) (data : Bytes) : CacheLine := { tag := (c.opcode, c.idx / 16, c.dgen), data := data, bad := false }

/-- That device with a command in shed 0 of loom 0 and its line in the step cache. -/
def tS (c : Cmd) : State :=
  { tOn with cmds := [c], trd := tOn.trd.set 0 { Treadle.reset with inService := true, lines := [tLine c []] } }

/-- A command of a customer draft with keys in its registers. -/
def tK (l : List (Nat × KReg)) : Cmd := { tC 0x200 .ready [] with kregs := l }

/-- That device with a command in a steward context. -/
def tT (c : Cmd) : State := { tOn with cmds := [c] }

/-- A valid way of the cache, in bank 0, bucket 0. -/
def tWay (u a : Nat) : Way :=
  { bank := 0, bucket := 0, way := 0, tag := zeros 16, inc := 1, valid := true, hit := false, seen := false,
    handled := false, cont := false, invalidated := false, filling := false, part := 0, source := 1, age := 0, uses := 0,
    pins := 0, handle := 0, ecc := false, key := tKey u a }

/-- A bound queue with 16 slots. -/
def tQ : Queue :=
  { id := 0, fn := 0, localIdx := 0, log2 := 4, vec := 0, intEn := false, sq := 0x10000, cq := 0x20000, bound := true,
    part := 0, sqHead := 0, sqTail := 0, cqHead := 0, cqTail := 0, phase := true, reading := 0, stopped := false,
    errDue := false, deleting := false }

/-- An idle mailbox of the physical function. -/
def tMbx : Mbx :=
  { fn := 0, entry := zeros 128, data := [], ie := false, state := 0, refused := false, readcnt := 0, result := zeros 32,
    waiting := false }

/-- A completion that waits for beat 1. -/
def tHeld : Held :=
  { beat := 1, path := .mailbox 0, fn := 0, entry := zeros 128, status := 0, flags := 0, stamp := 16, inline := [],
    reply := [], part := 0 }

/-- A job on two cores, of an Ed25519 signature. -/
def tJob : Job :=
  { id := 1, who := .shed 0 0,
    req := { op := 1, size := 0, pss := false, alg := 7, key := [], operand := [], record := [] },
    kind := 2, level := 0, rank := 0, keygen := false, order := 1, state := 0, cores := [(0, 0), (1, 0)], abort := false,
    noRng := false, since := 0, asks := none, rnd := [] }

def tJobs (l : List Job) : State := { tOn with bn := { tOn.bn with jobs := l } }

/-- A fill in bank 0, bucket 0, way 0. -/
def tFill : Fill :=
  { bank := 0, bucket := 0, way := 0, who := .shed 0 0, order := 1, kreg := 0, key := none, status := 0x3001, note := none,
    named := true, source := 1, tag := zeros 16, handle := 0, u := 0, reserving := false }

/-- The device with one commit at the journal. -/
def tCommit (k : CommitKind) : Commit := { kind := k, who := none, started := false }
def tJournal (k : CommitKind) : State := { tOn with ks := { tOn.ks with queue := [tCommit k] } }

/-- Start-up at a step, out of reset. -/
def tAt (step : Nat) : State :=
  { tOn with sys := { tOn.sys with step := step } }

/-- A member of a pair, its link established. -/
def tRec : PairRec := { secret := zeros 32, partnerKey := zeros 32, partnerSerial := 1, strap := false }
def tPair (pstate role : Nat) : State :=
  tOn.modLk (fun l => { l with pairRec := some tRec, pstate := pstate, role := role, up := true, lanes := 4,
                               sessTx := zeros 16, sessRx := zeros 16, complete := true, eph := zeros 32, rxSeq := 1,
                               beat := 1 })

/-- A frame in sequence, in clear. -/
def tFrame (typ : Nat) (payload : Bytes) : Frame :=
  { typ := typ, last := false, seq := 1, beat := 1, payload := payload }

/-- A payload sealed for the receiver under the header `h` (R277). -/
def tSeal (s : State) (h p : Bytes) : Wire :=
  let x := frameNonce (!s.lk.strap) (fieldLe h 8 8)
  { header := h, body := gcmCipher s.lk.sessRx x p, tag := gcmTag s.lk.sessRx x h (gcmCipher s.lk.sessRx x p) }

/-- That frame on the lanes. -/
def tWire (s : State) (typ : Nat) (p : Bytes) : Wire := tSeal s (frameHeader typ false p.length 1 1) p

/-- `n` samples of each source, alternating. -/
def tSamples (n : Nat) : List (List Bool) := List.replicate 8 ((List.range n).map (fun i => i % 2 == 0))

/-- A PTP message of clock 5, of 64 octets. -/
def tMsg : PtpMsg :=
  { version := 2, length := 64, octets := 64, malformed := false, domain := 0, mapping := 1, clockId := 5, seqId := 1,
    reqPortOk := true, twoStep := false, originNs := 0, cf := 0, rxNs := 0, logInterval := 0, priority1 := 128,
    clockClass := 6, accuracy := 0x21, variance := 0x4E5D, priority2 := 128, grandmaster := 5, stepsRemoved := 0,
    ptpTimescale := true, utcOffset := 37 }

/-- The device with its time as given. -/
def tTime (f : TimeKeep → TimeKeep) : State := { tOn with pt := f TimeKeep.reset }

/-- The device in a life-cycle state. -/
def tLc (n : Nat) : State := { tOn with lc := { LifeCycle.reset with state := n } }

def tQuiet : TamperReading := { loopBitWrong := 0, measured := none, switches := 0, tempLow := false }
def tTmp (f : Tamper → Tamper) : State := { tOn with tmp := f Tamper.reset }

/-- A child of the owner's partition, with nothing guaranteed. -/
def tChild : Part :=
  { Part.owner with id := 1, depth := 2, minRate := 0, cacheMin := 0, cacheMax := 0, inflightMax := 1, queueQuota := 0,
                    objQuota := 0 }

/-- The record of PART_CREATE and PART_MODIFY for it, of 64 bytes. -/
def tChildRec : Bytes := [0, 0, 1, 0, 1, 0, 1, 0] ++ zeros 16 ++ [1, 0] ++ zeros 38

/-- A command of an opcode of the vendor's, with keys in its registers. -/
def tL (op : Nat) (m : Mem) (l : List (Nat × KReg)) : Cmd := { tC op .ready m with kregs := l }

/-- A wrapping RSA key of which the public half alone is held. -/
def tPub (a : Nat) : KReg := { tReg 3 a with key := { tKey 3 a with rsaPriv := false } }

/-- A key block's header. -/
def tBlk : KBlock :=
  { version := chr 'D', usage := ascii "D0", alg := chr 'A', mode := chr 'E', kver := 0, exp := chr 'E', opts := [],
    clear := 16, algs := [], usages := [] }

/-- A device whose cache has no way to give: a miss goes to a shadow entry (R157). -/
def tFull (s : State) : State := { s with parts := [{ Part.owner with cacheMax := 0, oldest := true }] }

theorem got_eta {g : Got} (h : isGot g = true) : g = .got (gotS g) (gotC g (tC 0 .ready [])) (gotM g) (gotL g) := by
  cases g <;> first | rfl | simp [isGot] at h

def readyS : Keys → State
  | .ready s _ => s
  | .stop s => s

def readyC : Keys → Cmd
  | .ready _ c => c
  | .stop _ => tC 0 .ready []

def isReady : Keys → Bool
  | .ready _ _ => true
  | .stop _ => false

theorem ready_eta {k : Keys} (h : isReady k = true) : k = .ready (readyS k) (readyC k) := by
  cases k <;> first | rfl | simp [isReady] at h

def bytesS : Drawn → State
  | .bytes s _ => s
  | .waits s => s
  | .off => State.reset

def bytesB : Drawn → Bytes
  | .bytes _ b => b
  | _ => []

def isBytes : Drawn → Bool
  | .bytes _ _ => true
  | _ => false

theorem bytes_eta {d : Drawn} (h : isBytes d = true) : d = .bytes (bytesS d) (bytesB d) := by
  cases d <;> first | rfl | simp [isBytes] at h

def nextS : Outcome → State
  | .next s => s
  | _ => State.reset

def isNext : Outcome → Bool
  | .next _ => true
  | _ => false

theorem next_eta {o : Outcome} (h : isNext o = true) : o = .next (nextS o) := by
  cases o <;> first | rfl | simp [isNext] at h

theorem some_eta {α : Type} {o : Option α} (h : o.isSome = true) : o = some (o.get h) := (Option.some_get h).symm

theorem some2_eta {α β : Type} {o : Option (α × β)} (h : o.isSome = true) : o = some ((o.get h).1, (o.get h).2) :=
  (Option.some_get h).symm

def okOr {α β : Type} (x : β) : Except α β → β
  | .ok y => y
  | .error _ => x

def isOk {α β : Type} : Except α β → Bool
  | .ok _ => true
  | .error _ => false

theorem ok_eta {α β : Type} {e : Except α β} (x : β) (h : isOk e = true) : e = .ok (okOr x e) := by
  cases e <;> first | rfl | simp [isOk] at h

theorem ok2_eta {α β γ : Type} {e : Except α (β × γ)} (x : β × γ) (h : isOk e = true) :
    e = .ok ((okOr x e).1, (okOr x e).2) := by
  cases e <;> first | rfl | simp [isOk] at h

theorem mapOk_eta {o : Option (Except Nat KBlock)} (x : KBlock) (h : (o.map isOk) = some true) :
    o = some (.ok (okOr x (o.getD (.ok x)))) := by
  cases o with
  | none => simp at h
  | some e => cases e <;> first | rfl | simp [isOk] at h

/-! ## Lengths of a key block, and a hit on its wrapped key -/

theorem sl_length (b : Bytes) (o n : Nat) : (sl b o n).length = n := by
  simp [sl, zeros]

theorem nibbles_length (b : Bytes) : (nibbles b).length = 2 * b.length := by
  induction b with
  | nil => rfl
  | cons x r ih => simp [nibbles, ih]; omega

theorem hexText_length (b : Bytes) : (hexText b).length = 2 * b.length := by
  simp [hexText, nibbles_length]

theorem cbcEncBlocks_length (alg : Nat) (key iv : Bytes) (l : List Bytes) :
    (cbcEncBlocks alg key iv l).length = l.length * blockLen alg := by
  induction l generalizing iv with
  | nil => simp [cbcEncBlocks]
  | cons x r ih => simp [cbcEncBlocks, ih, encBlock, sl_length, Nat.add_mul, Nat.add_comm]

/-- A block of a key of the MAC verification usage under an AES key has 144 characters. -/
theorem exportBlock_length (e : Byte) (pad : Bytes) :
    (exportBlock (tKey 3 3) (tKey 6 3) (ascii "M6") e pad).length ≤ 3072 := by
  have h1 : padBlock 16 16 = [] := by decide
  have h2 : keyOpts 0 0 3 = [] := by decide
  have h3 : fieldLen (chr 'D') 3 (zeros 32) = 48 := by decide
  have h4 : versionOf 3 = chr 'D' := by decide
  have h5 : versionBlock (chr 'D') = 16 := by decide
  simp [exportBlock, kbBuild, tKey, h1, h2, h3, h4, h5, optsLen, hexText_length, sl_length, kbMac, cbcEnc,
    cbcEncBlocks_length, blocksOf, decText, ascii, blockLen, isAes, kbCipher]

/-- A lookup of a wrapped key that the cache holds is a hit (R150, R151). -/
theorem getBlock_hit (s : State) (c : Cmd) (w : KReg) (reg usage mask ref : Nat) (b salt : Bytes) (x : Way)
    (hu : w.key.usage = 3) (hs : s.kc.salt = some salt) (hw : s.kc.ways = [x])
    (ht : x.tag = cacheTag salt c.part usage 2 (sha32 (w.tag ++ b)))
    (hx : x.cont = false ∧ x.invalidated = false ∧ x.valid = true ∧ x.filling = false ∧ x.ecc = false) :
    getBlock s c w reg b usage mask ref false false =
      hitWay s c { reg := reg, usage := usage, mask := mask, source := 2, ident := sha32 (w.tag ++ b),
                   roles := roleUse + roleImport, named := true, handle := 0, cacheOnly := false, isRef := false,
                   fill := unwrapKey s c b w.key.alg w.key.mat usage mask ref } x := by
  obtain ⟨h1, h2, h3, h4, h5⟩ := hx
  have he : s.keyEcc x = false := by simp [State.keyEcc, hw, h5]
  simp [getBlock, cacheGet, State.eccHeads, he, hu, hs, hw, ht, h1, h2, h3, h4]

/-- A cache that holds the key of a block of four zero bytes under `tReg 3 3`. -/
def tHit (c : Cmd) : State :=
  { tS c with kc := { tOn.kc with
      ways := [{ tWay 1 3 with tag := cacheTag (zeros 16) 0 1 2 (sha32 (zeros 16 ++ zeros 4)), source := 2 }] } }

/-! ## A customer draft whose step cannot be issued yet: a lookup while its loom has four fills under way (R154) -/

/-- KEY.GET of reference 0, an object of the key store, of usage 1 and algorithm 3. -/
def tStillC : Cmd := tC 0x200 .ready [(7, 1), (40, 1), (44, 5)]

def tStillW : Nat := 0x13 + 2 ^ 84 + 8 * 2 ^ 96

def tStill : State :=
  { tS tStillC with
    trd := tOn.trd.set 0 { Treadle.reset with inService := true, lines := [tLine tStillC (toLe 16 tStillW ++ zeros 240)] }
    ks := { tOn.ks with objs := [{ handle := 5, slot := 0, seq := 1, keySeq := 1, limitLogged := false, resBeat := none }] }
    kc := { tOn.kc with fills := [tFill, tFill, tFill, tFill] }
    tmp := Tamper.reset }

theorem cacheGet_later (s : State) (c : Cmd) (q : Ask) (salt : Bytes) (hs : s.kc.salt = some salt) (hw : s.kc.ways = [])
    (hf : 4 ≤ loomFills s c.place) : cacheGet s c q = .later := by
  have h : ∀ t, missKey s c q t = .later := fun t => if_pos (.inr hf)
  simp [cacheGet, State.eccHeads, hs, hw, h]

theorem draftStep_still : draftStep tStill 0 0 tStillC = tStill.modTreadle 0 (fun t => { t with last := 0 }) := by
  have hw : stepWord tStill 0 tStillC = some tStillW := by decide +kernel
  have hr : tStill.readyCmd 0 0 = some tStillC := by decide +kernel
  have hl : tStill.lineHeld 0 tStillC = true := by decide +kernel
  have hs : tStill.lineSound 0 tStillC = true := by decide +kernel
  have hc : ¬ (8192 ≤ tStillC.count) := by decide +kernel
  have ha : ¬ ((stepArgs tStillW).rsv = true ∨ 3 < (stepArgs tStillW).br.toNat) := by decide +kernel
  have hb : tStillC.abort = false := by decide +kernel
  have hu : ∀ f, (unitOp (stepUnit tStillW) (stepOp tStillW)).getD f = keyGetOp := by
    intro f
    rw [show stepUnit tStillW = 3 by decide +kernel, show stepOp tStillW = 1 by decide +kernel]
    rfl
  have ho : tStill.liveObj 0 5 = some { handle := 5, slot := 0, seq := 1, keySeq := 1, limitLogged := false, resBeat := none } := by
    decide +kernel
  have hg : keyGetOp tStill tStillC (stepArgs tStillW) = .notYet := by
    have h : getRef tStill tStillC 0 0 1 8 false = .later := by
      have k : tStillC.kref 0 = { typ := 1, sub := 0, len := 0, word := 5, long := 0 } := by decide +kernel
      have n : ¬ (tStillC.krefs ≤ 0) := by decide +kernel
      have o : tStill.liveObj tStillC.part 5 = some { handle := 5, slot := 0, seq := 1, keySeq := 1, limitLogged := false, resBeat := none } := ho
      simp only [getRef, k, n, getSimple, getObject, o, if_false, if_true, or_self, Nat.reduceEqDiff]
      exact cacheGet_later _ _ _ (zeros 16) rfl rfl (by decide +kernel)
    simp only [keyGetOp]
    rw [show bits (stepArgs tStillW).param.toNat 6 4 = 0 by decide +kernel,
      show (stepArgs tStillW).kreg.toNat = 0 by decide +kernel,
      show bits (stepArgs tStillW).param.toNat 3 0 = 1 by decide +kernel,
      show (stepArgs tStillW).imm.toNat = 8 by decide +kernel,
      show bit (stepArgs tStillW).param.toNat 7 = false by decide +kernel]
    rw [h]
    rfl
  unfold draftStep
  simp only [hw, Option.getD_some, hu]
  unfold State.step1
  simp only [hr, hb, hl, hs, hc, ha, gt_iff_lt, hg, State.settle, Bool.not_true, Bool.false_eq_true, if_false]

theorem xorBytes_twice : ∀ (a k : Bytes), a.length ≤ k.length → xorBytes (xorBytes a k) k = a
  | [], _, _ => by simp [xorBytes]
  | _ :: _, [], h => by simp at h
  | x :: a, y :: k, h => by
    have ih := xorBytes_twice a k (by simpa using h)
    simp only [xorBytes, List.zipWith_cons_cons] at ih ⊢
    rw [ih, BitVec.xor_assoc, BitVec.xor_self, BitVec.xor_zero]

/-! ## A stored object of which one use is left -/

def tBody : Bytes := zeros 32 ++ [1, 0, 0, 0] ++ zeros 60

/-- That device with `tBody` in slot 0 of the journal, as the body of object 5. -/
def tUse (f : Fill) : State :=
  { tOn with
    mem := Mem.writeN [] 0x02000000 (xorBytes tBody (slotStream (tOn.ksEnc.getD []) 0 0))
    ks := { tOn.ks with objs := [{ handle := 5, slot := 0, seq := 1, keySeq := 1, limitLogged := false, resBeat := none }] }
    kc := { tOn.kc with fills := [f] } }

theorem slotStream_length (k : Bytes) (q n : Nat) : (slotStream k q n).length = 96 := by
  simp [slotStream, ctrStream, sl_length]

theorem tUse_left (f : Fill) : (tUse f).spent 5 = false := by
  have hl : (xorBytes tBody (slotStream (tOn.ksEnc.getD []) 0 0)).length = 96 := by
    simp [xorBytes, slotStream_length, tBody, zeros]
  have he : (tUse f).ksEnc = some (tOn.ksEnc.getD []) := rfl
  have hw : (tUse f).slotWord 0 = zeros 32 := by
    have h := Mem.readN_writeN_of_disjoint (m := []) (xorBytes tBody (slotStream (tOn.ksEnc.getD []) 0 0)) 0x02000000
      (0x02000000 + 96) 32 rfl (.inr (by rw [hl]))
    exact h.trans (by decide +kernel)
  have hc : (tUse f).slotCipher 0 = xorBytes tBody (slotStream (tOn.ksEnc.getD []) 0 0) := by
    have h := Mem.readN_writeN (m := []) (xorBytes tBody (slotStream (tOn.ksEnc.getD []) 0 0)) 0x02000000 rfl
    rw [hl] at h
    exact h
  have hb : (tUse f).slotBody 0 = tBody := by
    unfold State.slotBody
    rw [he, hw, hc]
    exact xorBytes_twice _ _ (by rw [slotStream_length]; decide)
  have ho : (tUse f).liveObjs = [{ handle := 5, slot := 0, seq := 1, keySeq := 1, limitLogged := false, resBeat := none }] := rfl
  unfold State.spent
  rw [ho]
  show bodySpent ((tUse f).slotBody 0) = false
  rw [hb]
  decide +kernel

/-! ## 65,540 samples that are all ones -/

def tOnes : List Bool := List.replicate 65540 true

theorem tOnes_length : tOnes.length = 65540 := List.length_replicate

theorem tOnes_bias : ((tOnes.take 65536).count true : Nat) = 65536 := by
  rw [tOnes, List.take_replicate, List.count_replicate_self]
  decide

/-! ## A frame sealed for the receiver opens to what was sealed (R277) -/

theorem gcmCipher_keystream (k n : Bytes) (m : Nat) :
    ((List.range m).flatMap (fun i => aesBlock k (n ++ toBe 4 (i + 2)))).length = 16 * m := by
  induction m with
  | zero => rfl
  | succ m ih => rw [List.range_succ, List.flatMap_append, List.length_append, ih]; simp [aesBlock, sl_length]; omega

theorem gcmCipher_length (k n x : Bytes) : (gcmCipher k n x).length = x.length := by
  simp only [gcmCipher, xorBytes, List.length_zipWith, gcmCipher_keystream]; omega

theorem gcmCipher_twice (k n x : Bytes) : gcmCipher k n (gcmCipher k n x) = x := by
  have h := gcmCipher_length k n x
  unfold gcmCipher at h ⊢
  rw [h]
  exact xorBytes_twice _ _ (by rw [gcmCipher_keystream]; omega)

theorem opened_tSeal (s : State) (h p : Bytes) :
    s.opened (tSeal s h p) = { typ := byteAt h 0, last := bit (byteAt h 1) 0, seq := fieldLe h 8 8,
                               beat := fieldLe h 16 6, payload := p } := by
  simp [State.opened, tSeal, gcmCipher_twice]

/-- The fields of the header stand for a payload of `n` bytes (R276). -/
def tHeaderOk (h : Bytes) (n : Nat) : Bool :=
  decide (2 ≤ byteAt h 0 ∧ byteAt h 0 ≤ 10) && h.length == 24 && decide (byteAt h 1 < 2) && allZero (sl h 4 4) &&
    allZero (sl h 22 2) && decide (fieldLe h 2 2 ≤ 4096) && n == fieldLe h 2 2

theorem frameSound_tSeal (s : State) (h p : Bytes) : frameSound s (tSeal s h p) = tHeaderOk h p.length := by
  simp only [frameSound, tSeal, gcmCipher_length, tHeaderOk, beq_self_eq_true, Bool.and_true]
  rfl

theorem ready_tWire (s : State) (typ : Nat) (p : Bytes) (hr : s.receiving = true)
    (hs : tHeaderOk (frameHeader typ false p.length 1 1) p.length = true)
    (ho : (s.opened (tWire s typ p)).typ = typ ∧ (s.opened (tWire s typ p)).last = false ∧
      (s.opened (tWire s typ p)).seq = 1 ∧ (s.opened (tWire s typ p)).beat = 1)
    (hq : s.lk.rxSeq = 1) (hu : s.lk.up = true) (hp : permitted s (tFrame typ p) = true) :
    FrameReady s typ (tWire s typ p) (tFrame typ p) := by
  obtain ⟨h1, h2, h3, h4⟩ := ho
  have e : s.opened (tWire s typ p) = tFrame typ p := by
    rw [tWire, opened_tSeal] at h1 h2 h3 h4 ⊢
    simp only at h1 h2 h3 h4
    simp [h1, h2, h3, h4, tFrame]
  exact ⟨e, hr, by rw [tWire, frameSound_tSeal]; exact hs, rfl, hq.symm, hu, hp⟩

/-- Start-up while the boot ROM reads the flash. -/
def tRead : State := { tAt 9 with sys := { (tAt 9).sys with reading := true } }

/-- What the clause of `Obligations.StartupAndPowerComplete` on a signed firmware image supposes can be met, given an image
that passes the checks of its slot and whose signature verifies: the verification equation has no value in this model. -/
theorem witness_StartupAndPowerComplete_signed (g : SlotRead) (hc : slotCheck tRead g = 0)
    (hg : (SlotRead.image g).signed = true) :
    ∃ (s s1 : State) (a b : SlotRead) (i : Nat), s.sys.inReset = false ∧ s.sys.failed = false ∧ s.sys.reading = true ∧
      (s.sys.step = 9 ∨ (s.sys.step = 8 ∧ s.sys.warm = true)) ∧
      (slotOrder s a b).find? (fun i => (SlotRead.image (slotRead a b i)).signed) = some i ∧
      s1 = slotEvents (slotEvents s a 0 (slotRefused s a b 0)) b 1 (slotRefused s a b 1) := by
  refine ⟨tRead, _, g, { ok := false, cause := 0, header := [], body := [] }, 0, rfl, rfl, rfl, .inl rfl, ?_, rfl⟩
  have hb : slotCheck tRead { ok := false, cause := 0, header := [], body := [] } = 1 := rfl
  have ho : slotOrder tRead g { ok := false, cause := 0, header := [], body := [] } = [0] := by
    simp [slotOrder, hc, hb]
  simp [ho, slotRead, hg]


/-! ## Ill-formed commands: one for each kind of operand that WellFormed refuses -/

theorem wf_function : Instr.wf (.mbxStatusRead 256) = false := by decide
theorem wf_queue : Instr.wf (.sqFetchFailed 16384) = false := by decide
theorem wf_entry_count : Instr.wf (.sqEntryFetched 0 []) = false := by decide
theorem wf_entry_size : Instr.wf (.sqEntryFetched 0 [zeros 64]) = false := by decide +kernel
theorem wf_access_size : Instr.wf (.doorbellSqTail 0 0x8000 0 0) = false := by decide
theorem wf_access_value : Instr.wf (.mbxGo 0 0x100000000) = false := by decide
theorem wf_host_address : Instr.wf (.hostReadError (.shed 0 0) 0x10000000000000000) = false := by decide
theorem wf_internal_address : Instr.wf (.registerWrite .debug 0x10000000000 4 0) = false := by decide
theorem wf_loom : Instr.wf (.doneRetire 16 0 tA) = false := by decide
theorem wf_shed : Instr.wf (.moveCopy 0 32 tA) = false := by decide
theorem wf_steward_row : Instr.wf (.partCreate 16) = false := by decide
theorem wf_loom_row : Instr.wf (.pinTranslate 0 32) = false := by decide
theorem wf_context : Instr.wf (.quorumVerifyDone (.ctx 16)) = false := by decide
theorem wf_reference : Instr.wf (.keyBlockPointerRead (.shed 0 0) 8 []) = false := by decide
theorem wf_steward : Instr.wf (.trdResume (.steward 4 true) 0 0) = false := by decide
theorem wf_master_writer : Instr.wf (.mpuSwap (.master 12) 0) = false := by decide
theorem wf_vf_reset : Instr.wf (.vfFlr 0) = false := by decide
theorem wf_service_loom : Instr.wf (.loomEnterService 16 none) = false := by decide
theorem wf_core : Instr.wf (.bnContextScrubbed 32 0 true) = false := by decide
theorem wf_core_context : Instr.wf (.bnContextScrubbed 0 4 true) = false := by decide
theorem wf_cache_bank : Instr.wf (.kcFillDone 5 0 0) = false := by decide
theorem wf_cache_bucket : Instr.wf (.kcFillDone 0 16384 0) = false := by decide
theorem wf_cache_way : Instr.wf (.kcFillDone 0 0 4) = false := by decide
theorem wf_partition : Instr.wf (.teardownAbortPoint 4096) = false := by decide
theorem wf_rail : Instr.wf (.resetSag 4 0) = false := by decide
theorem wf_watchdog : Instr.wf (.watchdogExpiry 4) = false := by decide
theorem wf_domain_register : Instr.wf (.pdctlWrite .debug 2 0) = false := by decide
theorem wf_tamper_input : Instr.wf (.tamperComparatorTrip 15 false) = false := by decide
theorem wf_pps_phase : Instr.wf (.ppsInEdge 1000000000) = false := by decide
theorem wf_samples : Instr.wf (.rngBlockConditioned []) = false := by decide
theorem wf_pass_samples : Instr.wf (.rngTestPassDone [] true 0) = false := by decide
theorem wf_poisoned_writer : Instr.wf (.dbgSubmit (.hostPoisoned 256) 0) = false := by decide
theorem wf_source : Instr.wf (.rngHealthFailure 8 0 []) = false := by decide
theorem wf_instance : Instr.wf (.rngReseedWaitTimeout 17) = false := by decide
theorem wf_unit : Instr.wf (.masterAccess 12 .read false 0 4 []) = false := by decide
theorem wf_no_bytes : Instr.wf (.masterAccess 0 .read false 0 0 []) = false := by decide
theorem wf_slot : Instr.wf (.bistUnitIdle 2) = false := by decide
theorem wf_lane : Instr.wf (.luakaLaneLoss 4) = false := by decide
theorem wf_bus_command : Instr.wf (.smbControllerViolation 256 .write) = false := by decide
theorem wf_last_function : Instr.wf (.mbxStatusRead 255) = true := by decide
theorem wf_last_shed : Instr.wf (.moveCopy 15 31 tA) = true := by decide

/-! ## Worked examples of the manual -/

/-- Step 5 of the worked draft, as the 128-bit value printed under Table 04.15: UNIT 5, OP 0x02, and every field. -/
theorem test_step_word :
    stepUnit 0x8D30D00D2000C01025 = 5 ∧ stepOp 0x8D30D00D2000C01025 = 2 ∧
      stepArgs 0x8D30D00D2000C01025 =
        { br := 1, bflag := 0, target := 12, fsel := 0, aOff := 0xD20, bOff := 0xD00, dOff := 0xD30, len := 8, kreg := 0,
          param := 0, imm := 0, rsv := false } := by decide +kernel

/-- It as the bytes the text prints. -/
theorem test_step_bytes :
    leNat (List.map byte [0x25, 0x10, 0xC0, 0x00, 0x20, 0x0D, 0xD0, 0x30, 0x8D, 0, 0, 0, 0, 0, 0, 0]) = 0x8D30D00D2000C01025 := by
  decide +kernel

/-- Bytes `b` at offset `off` of the command in shed 0, then a step: what stands at offset `o` after it, and flag F0. -/
def tStep (l : List (Nat × Bytes)) (f : StepArgs → Instr) (a : StepArgs) (o n : Nat) : Option (Bytes × Bool) :=
  let c := l.foldl (fun c x => c.wr x.1 x.2) (tC 0x200 .ready [])
  match exec (f a) (tS c) with
  | .next t => (t.cmd? (.shed 0 0)).map (fun d => (d.rd o n, d.f.getLsbD 0))
  | _ => none

def tPan : Bytes := List.map byte [0x10, 0x52, 0x12, 0x34, 0x56, 0x78, 0x90, 0x12, 0x34, 0xFF, 0xFF]

/-- Step 2 of the worked draft. -/
theorem test_pan_field_0 :
    tStep [(0x050, tPan)] (.fmtPanField 0 0) { tA with aOff := 0x050, dOff := 0xD00 } 0xD00 8 =
      some (List.map byte [0x00, 0x00, 0x23, 0x45, 0x67, 0x89, 0x01, 0x23], false) := by decide +kernel

/-- Step 3 of the worked draft. -/
theorem test_pan_field_4 :
    tStep [(0x050, tPan)] (.fmtPanField 0 0) { tA with aOff := 0x050, dOff := 0xD10, param := 4 } 0xD10 16 =
      some (List.map byte [0x45, 0x21, 0x23, 0x45, 0x67, 0x89, 0x01, 0x23, 0x40, 0, 0, 0, 0, 0, 0, 0], false) := by
  decide +kernel

/-- Step 5 of the worked draft: the PIN record of PIN 1234. -/
theorem test_pin_decode :
    tStep [(0xD20, List.map byte [0x04, 0x12, 0x17, 0xBA, 0x98, 0x76, 0xFE, 0xDC]),
           (0xD00, List.map byte [0x00, 0x00, 0x23, 0x45, 0x67, 0x89, 0x01, 0x23])]
        (.fmtPinDecode 0 0) (stepArgs 0x8D30D00D2000C01025) 0xD30 8 =
      some (List.map byte [0x04, 0x12, 0x34, 0xFF, 0xFF, 0xFF, 0xFF, 0x00], false) := by decide +kernel

/-- Unequal data sets U0, and the branch of IFSET F0 is taken in the same step (Table 04.7). -/
theorem test_compare_branches :
    (match exec (.cmpEqCt 0 0 { tA with br := 1, target := 12 }) (tS ((tC 0x200 .ready []).wr 0x110 [byte 7])) with
     | .next t => (t.cmd? (.shed 0 0)).map (fun d => (d.f.getLsbD 0, d.idx))
     | _ => none) = some (true, 12) := by decide +kernel

/-- Step 7 of the worked draft. -/
theorem test_pin_encode :
    tStep [(0xD30, List.map byte [0x04, 0x12, 0x34, 0xFF, 0xFF, 0xFF, 0xFF, 0x00]),
           (0xD40, List.map byte [0x3C, 0x91, 0x07, 0xE2, 0x5B, 0x6D, 0x18, 0xF4])]
        (.fmtPinEncode 0 0) { tA with aOff := 0xD30, bOff := 0xD40, dOff := 0xD50, param := 4 } 0xD50 16 =
      some (List.map byte [0x44, 0x12, 0x34, 0xAA, 0xAA, 0xAA, 0xAA, 0xAA, 0x3C, 0x91, 0x07, 0xE2, 0x5B, 0x6D, 0x18, 0xF4],
        false) := by decide +kernel

/-- XOR onto itself: D may be A (step 9 of the worked draft). -/
theorem test_xor_in_place :
    tStep [(0xD60, List.map byte [0xF0, 0x0F]), (0xD10, List.map byte [0x33, 0x33])]
        (.moveXor 0 0) { tA with aOff := 0xD60, bOff := 0xD10, dOff := 0xD60, len := 2 } 0xD60 2 =
      some (List.map byte [0xC3, 0x3C], false) := by decide +kernel

/-- The natural PIN of the offset example of chapter 08: 3F 08 decimalises to 3508. -/
theorem test_decimalise :
    tStep [(0xD00, List.map byte [0x3F, 0x08]), (0xD10, List.map byte [0x01, 0x23, 0x45, 0x67, 0x89, 0x01, 0x23, 0x45])]
        (.fmtDecimalise 0 0) { tA with aOff := 0xD00, bOff := 0xD10, dOff := 0xD20, len := 2 } 0xD20 2 =
      some (List.map byte [0x35, 0x08], false) := by decide +kernel

/-- The PVV of the example of chapter 08: decimal nibbles first, so 7209. -/
theorem test_pvv_digits :
    (decimalDigits (List.map byte [0x7C, 0x2E, 0x09, 0xB4, 0x1F, 0x8A, 0xD3, 0x55])).take 4 = [7, 2, 0, 9] := by
  decide +kernel

/-- The PRF input of the derivation example of chapter 05. -/
theorem test_kdf_input :
    kdfInput 1 (ascii "SLK KEY DERIVE  ") 2 5 1 0x0012 3 0x1100000000000042 1 (zeros 15 ++ [7]) 0x80 =
      List.map byte
        ([0x00, 0x00, 0x00, 0x01, 0x53, 0x4C, 0x4B, 0x20, 0x4B, 0x45, 0x59, 0x20, 0x44, 0x45, 0x52, 0x49, 0x56, 0x45, 0x20,
          0x20, 0x00, 0x02, 0x05, 0x01, 0x00, 0x00, 0x12, 0x00, 0x00, 0x00, 0x03, 0x11] ++
         [0x00, 0x00, 0x00, 0x00, 0x00, 0x00, 0x42, 0x00, 0x00, 0x00, 0x01, 0x00, 0x00, 0x00, 0x00, 0x00, 0x00, 0x00, 0x00,
          0x00, 0x00, 0x00, 0x00, 0x00, 0x00, 0x00, 0x07, 0x00, 0x00, 0x00, 0x00, 0x80]) := by decide +kernel

/-- Header and optional blocks of the export example of chapter 08: 48 characters. -/
theorem test_export_header :
    (exportBlock { tKey 3 3 with mat := zeros 32 } { tKey 2 1 with mat := zeros 16, name := 0x3300000000000007 }
        (ascii "P0") (chr 'N') (zeros 30)).take 48 =
      ascii "D0176P0AD00N02000N143300000000000007PB0C00000000" := by decide +kernel

/-- The lookup key of the prefix example of chapter 07. -/
theorem test_prefix_key :
    prefixKey 0x0021 11 [4, 7, 1, 2, 3, 0, 9, 8, 6, 5, 4] =
      List.map byte [0x21, 0x00, 0x0B, 0x00, 0x47, 0x12, 0x30, 0x98, 0x65, 0x4F, 0xFF, 0xFF, 0xFF, 0xFF, 0x00, 0x00] := by
  decide +kernel

/-- Rules A and B of the policy example of chapter 07: the longer prefix decides. -/
theorem test_policy_longest :
    (policyLookup
      [{ part := 0x21, len := 8, pfx := 0x1100000000000000, body := [], index := 0 },
       { part := 0x21, len := 58, pfx := 0x1100000000000040, body := [], index := 1 }] 0x21 0x1100000000000042).map
      (fun r => r.len) = some 58 := by decide +kernel

/-- The patterns that R319 prints. -/
theorem test_stroke_patterns :
    [1, 15, 16, 17, 18].map pattern = [0xFE01, 0xF00F, 0xEF10, 0xEE11, 0xED12] := by decide +kernel

/-- The SLK9216-M example of chapter 14: copies of 0x0000_403F are TEST_LOCKED_2 with the fused MFG bit. -/
theorem test_progress_marks : pattern 0x12 = 0xED12 ∧ pattern 0x40 = 0xBF40 := by decide +kernel

/-! ## Single steps -/

/-- A violation of the doorbell page: the example of chapter 03, with an index that function 1 does not own. -/
theorem test_doorbell_not_owned :
    (match exec (.doorbellSqTail 1 0x8010 8 0) tOn with
     | .next t => (t.host.violCode, t.host.violFn, t.host.violCnt)
     | _ => (0, 0, 0)) = (1, 1, 1) := by decide +kernel

/-- The reset state: READY clear, no command, partition 0 alone, an empty queue. -/
theorem test_reset :
    State.reset.host.ready = false ∧ State.reset.cmds = [] ∧ State.reset.parts = [Part.owner] ∧ State.reset.pending = [] := by
  decide +kernel

/-- An empty queue lets one interval of operating time pass. -/
theorem test_idle : step tOn = .next tOn.tick := by rfl

/-- The front command runs and leaves the queue. -/
theorem test_front :
    (match step { tOn with pending := [.pcieLinkUp, .luakaLaneLoss 0] } with
     | .next t => decide (t.pending = [Instr.luakaLaneLoss 0])
     | _ => false) = true := by decide +kernel

/-- R38, R229: an access key of 32 zero bytes is the point of order 4 and is rejected. -/
theorem test_zero_access_key : edPointBad (zeros 32) = true := by decide +kernel

/-- R229: the base point of Ed25519 is accepted: its y is 4/5. -/
theorem test_base_point : edPointBad (0x58#8 :: List.replicate 31 0x66#8) = false := by decide +kernel

/-- R276: TYPE 3 with LAST, LENGTH 16, SEQUENCE 2, BEAT 1: 24 bytes, little-endian. -/
theorem test_frame_header : frameHeader 3 true 16 2 1 =
    [3, 1, 16, 0] ++ zeros 4 ++ [2, 0, 0, 0, 0, 0, 0, 0] ++ [1, 0, 0, 0, 0, 0] ++ zeros 2 := by decide +kernel

/-- R245: the cutoffs are 81 identical samples in a row and 840 in a window of 1,024. -/
theorem test_repetition_cutoff : rctFails (false :: List.replicate 80 true) = false ∧
    rctFails (false :: List.replicate 81 true) = true := by decide +kernel
theorem test_proportion_cutoff :
    aptFails (List.replicate 839 true ++ List.replicate 185 false) = false ∧
    aptFails (List.replicate 840 true ++ List.replicate 184 false) = true := by decide +kernel

/-- R28: a watchdog that has not counted to its TIMEOUT resets nothing; one that has resets the device. -/
theorem test_watchdog_early : wdtExpired tOn 0 = false := by decide +kernel
theorem test_watchdog_late :
    wdtExpired { tOn with sys := { tOn.sys with wdtCount := [1000, 0, 0, 0] } } 0 = true := by decide +kernel

/-- What each clause of `Obligations.MoveAndCompareStepsComplete` supposes can be met. -/
theorem witness_MoveAndCompareStepsComplete :
    (∃ (s : State) (n : Nat) (k : Nat) (c : Cmd) (a : StepArgs) (l : _), StepReady s n k c a ∧ stepLen c a = some l ∧ rangeFault false [(a.aOff.toNat, l)] (a.dOff.toNat, l) = none) ∧
    (∃ (s : State) (n : Nat) (k : Nat) (c : Cmd) (a : StepArgs) (l : _), StepReady s n k c a ∧ stepLen c a = some l ∧ rangeFault false [(a.aOff.toNat, l), (a.bOff.toNat, l)] (a.dOff.toNat, l) = none) ∧
    (∃ (s : State) (n : Nat) (k : Nat) (c : Cmd) (a : StepArgs) (l : _), StepReady s n k c a ∧ stepLen c a = some l ∧ rangeFault false [] (a.dOff.toNat, l) = none) ∧
    (∃ (s : State) (n : Nat) (k : Nat) (c : Cmd) (a : StepArgs), StepReady s n k c a) ∧
    (∃ (s : State) (n : Nat) (k : Nat) (c : Cmd) (a : StepArgs) (l : _), StepReady s n k c a ∧ stepLen c a = some l ∧ 1 ≤ l ∧ l ≤ 4 ∧ srcOk a.aOff.toNat l = true) ∧
    (∃ (s : State) (n : Nat) (k : Nat) (c : Cmd) (a : StepArgs) (l : _), StepReady s n k c a ∧ stepLen c a = some l ∧ 1 ≤ l ∧ l ≤ 4 ∧ dstOk a.dOff.toNat l = true) ∧
    (∃ (s : State) (n : Nat) (k : Nat) (c : Cmd) (a : StepArgs) (l : _), StepReady s n k c a ∧ stepLen c a = some l ∧ rangeFault false [(a.aOff.toNat, l), (a.bOff.toNat, l)] (0x100, 0) = none) :=
  ⟨⟨tS (tC 0x200 .ready []), 0, 0, tC 0x200 .ready [], { tA with len := 0xC00, aOff := 0x100, dOff := 0x100 }, 0xC00, (by decide +kernel), (by decide +kernel), (by decide +kernel)⟩,
   ⟨tS (tC 0x200 .ready []), 0, 0, tC 0x200 .ready [], tA, 4, (by decide +kernel), (by decide +kernel), (by decide +kernel)⟩,
   ⟨tS (tC 0x200 .ready []), 0, 0, tC 0x200 .ready [], { tA with dOff := 0xC0, len := 16 }, 16, (by decide +kernel), (by decide +kernel), (by decide +kernel)⟩,
   ⟨tS (tC 0x200 .ready []), 0, 0, tC 0x200 .ready [], tA, (by decide +kernel)⟩,
   ⟨tS (tC 0x200 .ready []), 0, 0, tC 0x200 .ready [], { tA with aOff := 0xFFC }, 4, (by decide +kernel), (by decide +kernel), (by decide +kernel), (by decide +kernel), (by decide +kernel)⟩,
   ⟨tS (tC 0x200 .ready []), 0, 0, tC 0x200 .ready [], { tA with dOff := 0xFFC }, 4, (by decide +kernel), (by decide +kernel), (by decide +kernel), (by decide +kernel), (by decide +kernel)⟩,
   ⟨tS (tC 0x200 .ready []), 0, 0, tC 0x200 .ready [], tA, 4, (by decide +kernel), (by decide +kernel), (by decide +kernel)⟩⟩

/-- What each clause of `Obligations.CipherStepsComplete` supposes can be met. -/
theorem witness_CipherStepsComplete :
    (∃ (s : State) (n : Nat) (k : Nat) (c : Cmd) (a : StepArgs) (l : Nat) (r : KReg), StepReady s n k c a ∧ stepLen c a = some l ∧ CoreReady s c ∧ KeyReady s c a.kreg.toNat 1 symAlgs r ∧ rangeFault true [(a.aOff.toNat, l)] (a.dOff.toNat, l) = none ∧ l % blockLen r.key.alg = 0) ∧
    (∃ (s : State) (n : Nat) (k : Nat) (c : Cmd) (a : StepArgs) (l : Nat) (r : KReg), StepReady s n k c a ∧ stepLen c a = some l ∧ CoreReady s c ∧ KeyReady s c a.kreg.toNat 2 symAlgs r ∧ rangeFault true [(a.aOff.toNat, l)] (a.dOff.toNat, l) = none ∧ l % blockLen r.key.alg = 0) ∧
    (∃ (s : State) (n : Nat) (k : Nat) (c : Cmd) (a : StepArgs) (l : Nat) (r : KReg), StepReady s n k c a ∧ stepLen c a = some l ∧ CoreReady s c ∧ KeyReady s c a.kreg.toNat 9 symAlgs r ∧ rangeFault true [(a.aOff.toNat, l)] (a.dOff.toNat, l) = none ∧ l % blockLen r.key.alg = 0) ∧
    (∃ (s : State) (n : Nat) (k : Nat) (c : Cmd) (a : StepArgs) (l : Nat) (r : KReg), StepReady s n k c a ∧ stepLen c a = some l ∧ CoreReady s c ∧ KeyReady s c a.kreg.toNat 1 symAlgs r ∧ rangeFault true [(a.aOff.toNat, l), (a.bOff.toNat, blockLen r.key.alg)] (a.dOff.toNat, l) = none ∧ l % blockLen r.key.alg = 0) ∧
    (∃ (s : State) (n : Nat) (k : Nat) (c : Cmd) (a : StepArgs) (l : Nat) (r : KReg), StepReady s n k c a ∧ stepLen c a = some l ∧ CoreReady s c ∧ KeyReady s c a.kreg.toNat 2 symAlgs r ∧ rangeFault true [(a.aOff.toNat, l), (a.bOff.toNat, blockLen r.key.alg)] (a.dOff.toNat, l) = none ∧ l % blockLen r.key.alg = 0) ∧
    (∃ (s : State) (n : Nat) (k : Nat) (c : Cmd) (a : StepArgs) (l : Nat) (r : KReg) (u : _), StepReady s n k c a ∧ stepLen c a = some l ∧ CoreReady s c ∧ (u = 1 ∨ u = 2) ∧ KeyReady s c a.kreg.toNat u symAlgs r ∧ rangeFault true [(a.aOff.toNat, l), (a.bOff.toNat, blockLen r.key.alg)] (a.dOff.toNat, l) = none) ∧
    (∃ (s : State) (n : Nat) (k : Nat) (c : Cmd) (a : StepArgs) (l : Nat) (r : KReg), StepReady s n k c a ∧ stepLen c a = some l ∧ CoreReady s c ∧ KeyReady s c a.kreg.toNat 9 symAlgs r ∧ bits a.param.toNat 1 0 = 0 ∧ rangeFault true [(a.aOff.toNat, l), (a.bOff.toNat, blockLen r.key.alg)] (a.dOff.toNat, l) = none ∧ l % blockLen r.key.alg = 0) ∧
    (∃ (s : State) (n : Nat) (k : Nat) (c : Cmd) (a : StepArgs) (l : Nat) (r : KReg), StepReady s n k c a ∧ stepLen c a = some l ∧ CoreReady s c ∧ KeyReady s c a.kreg.toNat 9 [4] r ∧ bits a.param.toNat 1 0 = 1 ∧ rangeFault true [(a.aOff.toNat, l)] (a.dOff.toNat, 8) = none ∧ l % blockLen 4 = 0) :=
  ⟨⟨tS { tC 0x200 .ready [] with kregs := [(0, tReg 1 3)] }, 0, 0, { tC 0x200 .ready [] with kregs := [(0, tReg 1 3)] }, { tA with len := 16, bOff := 0x120 }, 16, tReg 1 3, (by decide +kernel), (by decide +kernel), (by decide +kernel), (by decide +kernel), (by decide +kernel), (by decide +kernel)⟩,
   ⟨tS { tC 0x200 .ready [] with kregs := [(0, tReg 2 3)] }, 0, 0, { tC 0x200 .ready [] with kregs := [(0, tReg 2 3)] }, { tA with len := 16, bOff := 0x120 }, 16, tReg 2 3, (by decide +kernel), (by decide +kernel), (by decide +kernel), (by decide +kernel), (by decide +kernel), (by decide +kernel)⟩,
   ⟨tS { tC 0x200 .ready [] with kregs := [(0, tReg 9 4)] }, 0, 0, { tC 0x200 .ready [] with kregs := [(0, tReg 9 4)] }, { tA with len := 16, bOff := 0x120 }, 16, tReg 9 4, (by decide +kernel), (by decide +kernel), (by decide +kernel), (by decide +kernel), (by decide +kernel), (by decide +kernel)⟩,
   ⟨tS { tC 0x200 .ready [] with kregs := [(0, tReg 1 1)] }, 0, 0, { tC 0x200 .ready [] with kregs := [(0, tReg 1 1)] }, { tA with len := 16, bOff := 0x120 }, 16, tReg 1 1, (by decide +kernel), (by decide +kernel), (by decide +kernel), (by decide +kernel), (by decide +kernel), (by decide +kernel)⟩,
   ⟨tS { tC 0x200 .ready [] with kregs := [(0, tReg 2 5)] }, 0, 0, { tC 0x200 .ready [] with kregs := [(0, tReg 2 5)] }, { tA with len := 16, bOff := 0x120 }, 16, tReg 2 5, (by decide +kernel), (by decide +kernel), (by decide +kernel), (by decide +kernel), (by decide +kernel), (by decide +kernel)⟩,
   ⟨tS { tC 0x200 .ready [] with kregs := [(0, tReg 2 3)] }, 0, 0, { tC 0x200 .ready [] with kregs := [(0, tReg 2 3)] }, { tA with len := 5, bOff := 0x120 }, 5, tReg 2 3, 2, (by decide +kernel), (by decide +kernel), (by decide +kernel), (by decide +kernel), (by decide +kernel), (by decide +kernel)⟩,
   ⟨tS { tC 0x200 .ready [] with kregs := [(0, tReg 9 3)] }, 0, 0, { tC 0x200 .ready [] with kregs := [(0, tReg 9 3)] }, { tA with len := 16, bOff := 0x120 }, 16, tReg 9 3, (by decide +kernel), (by decide +kernel), (by decide +kernel), (by decide +kernel), (by decide +kernel), (by decide +kernel), (by decide +kernel)⟩,
   ⟨tS { tC 0x200 .ready [] with kregs := [(0, tReg 9 4)] }, 0, 0, { tC 0x200 .ready [] with kregs := [(0, tReg 9 4)] }, { tA with len := 16, param := 1 }, 16, tReg 9 4, (by decide +kernel), (by decide +kernel), (by decide +kernel), (by decide +kernel), (by decide +kernel), (by decide +kernel), (by decide +kernel)⟩⟩

/-- What each clause of `Obligations.MacAndHashStepsComplete` supposes can be met. -/
theorem witness_MacAndHashStepsComplete :
    (∃ (s : State) (n : Nat) (k : Nat) (c : Cmd) (a : StepArgs) (l : Nat) (r : KReg), StepReady s n k c a ∧ stepLen c a = some l ∧ CoreReady s c ∧ KeyReady s c a.kreg.toNat 5 symAlgs r ∧ bits a.param.toNat 1 0 = 0 ∧ 4 ≤ bits a.imm.toNat 4 0 ∧ bits a.imm.toNat 4 0 ≤ blockLen r.key.alg ∧ rangeFault true [(a.aOff.toNat, l)] (a.dOff.toNat, bits a.imm.toNat 4 0) = none) ∧
    (∃ (s : State) (n : Nat) (k : Nat) (c : Cmd) (a : StepArgs) (l : Nat) (r : KReg), StepReady s n k c a ∧ stepLen c a = some l ∧ CoreReady s c ∧ KeyReady s c a.kreg.toNat 5 [4] r ∧ bits a.param.toNat 1 0 = 1 ∧ 4 ≤ bits a.imm.toNat 4 0 ∧ bits a.imm.toNat 4 0 ≤ 8 ∧ l % blockLen 4 = 0 ∧ rangeFault true [(a.aOff.toNat, l)] (a.dOff.toNat, bits a.imm.toNat 4 0) = none) ∧
    (∃ (s : State) (n : Nat) (k : Nat) (c : Cmd) (a : StepArgs) (l : Nat) (r : KReg), StepReady s n k c a ∧ stepLen c a = some l ∧ CoreReady s c ∧ KeyReady s c a.kreg.toNat 5 [1, 2, 3, 4] r ∧ bits a.param.toNat 1 0 = 2 ∧ bits a.param.toNat 3 2 ≠ 3 ∧ emvLenOk (bits a.param.toNat 3 2) l = true ∧ rangeFault true [(a.aOff.toNat, l), (a.bOff.toNat, 16)] (a.dOff.toNat, if bits a.param.toNat 3 2 = 2 then 4 else 8) = none) ∧
    (∃ (s : State) (n : Nat) (k : Nat) (c : Cmd) (a : StepArgs) (l : Nat) (r : KReg), StepReady s n k c a ∧ stepLen c a = some l ∧ CoreReady s c ∧ KeyReady s c a.kreg.toNat 6 symAlgs r ∧ bits a.param.toNat 1 0 = 0 ∧ 4 ≤ bits a.imm.toNat 4 0 ∧ bits a.imm.toNat 4 0 ≤ blockLen r.key.alg ∧ rangeFault true [(a.aOff.toNat, l), (a.bOff.toNat, bits a.imm.toNat 4 0)] (a.dOff.toNat, 0) = none) ∧
    (∃ (s : State) (n : Nat) (k : Nat) (c : Cmd) (a : StepArgs) (l : Nat) (r : KReg), StepReady s n k c a ∧ stepLen c a = some l ∧ CoreReady s c ∧ KeyReady s c a.kreg.toNat 6 [4] r ∧ bits a.param.toNat 1 0 = 1 ∧ 4 ≤ bits a.imm.toNat 4 0 ∧ bits a.imm.toNat 4 0 ≤ 8 ∧ l % blockLen 4 = 0 ∧ rangeFault true [(a.aOff.toNat, l), (a.bOff.toNat, bits a.imm.toNat 4 0)] (a.dOff.toNat, 0) = none) ∧
    (∃ (s : State) (n : Nat) (k : Nat) (c : Cmd) (a : StepArgs) (l : Nat) (r : KReg), StepReady s n k c a ∧ stepLen c a = some l ∧ CoreReady s c ∧ KeyReady s c a.kreg.toNat 5 [6] r ∧ rangeFault true [(a.aOff.toNat, l)] (a.dOff.toNat, 64) = none) ∧
    (∃ (s : State) (n : Nat) (k : Nat) (c : Cmd) (a : StepArgs) (l : Nat) (r : KReg), StepReady s n k c a ∧ stepLen c a = some l ∧ CoreReady s c ∧ KeyReady s c a.kreg.toNat 6 [6] r ∧ 16 ≤ bits a.imm.toNat 6 0 ∧ bits a.imm.toNat 6 0 ≤ 64 ∧ rangeFault true [(a.aOff.toNat, l), (a.bOff.toNat, bits a.imm.toNat 6 0)] (0x100, 0) = none) ∧
    (∃ (s : State) (n : Nat) (k : Nat) (c : Cmd) (a : StepArgs) (l : Nat), StepReady s n k c a ∧ stepLen c a = some l ∧ CoreReady s c ∧ rangeFault true [(a.aOff.toNat, l)] (a.dOff.toNat, 32) = none) ∧
    (∃ (s : State) (n : Nat) (k : Nat) (c : Cmd) (a : StepArgs) (l : Nat), StepReady s n k c a ∧ stepLen c a = some l ∧ CoreReady s c ∧ bit a.param.toNat 0 = false ∧ rangeFault true [(a.aOff.toNat, l)] (a.dOff.toNat, 64) = none) ∧
    (∃ (s : State) (n : Nat) (k : Nat) (c : Cmd) (a : StepArgs) (l : Nat), StepReady s n k c a ∧ stepLen c a = some l ∧ CoreReady s c ∧ bit a.param.toNat 0 = true ∧ rangeFault true [(a.aOff.toNat, l)] (a.dOff.toNat, 48) = none) :=
  ⟨⟨tS { tC 0x200 .ready [] with kregs := [(0, tReg 5 3)] }, 0, 0, { tC 0x200 .ready [] with kregs := [(0, tReg 5 3)] }, { tA with len := 16, imm := 16 }, 16, tReg 5 3, (by decide +kernel), (by decide +kernel), (by decide +kernel), (by decide +kernel), (by decide +kernel), (by decide +kernel), (by decide +kernel), (by decide +kernel)⟩,
   ⟨tS { tC 0x200 .ready [] with kregs := [(0, tReg 5 4)] }, 0, 0, { tC 0x200 .ready [] with kregs := [(0, tReg 5 4)] }, { tA with len := 16, imm := 8, param := 1 }, 16, tReg 5 4, (by decide +kernel), (by decide +kernel), (by decide +kernel), (by decide +kernel), (by decide +kernel), (by decide +kernel), (by decide +kernel), (by decide +kernel), (by decide +kernel)⟩,
   ⟨tS { tC 0x200 .ready [] with kregs := [(0, tReg 5 4)] }, 0, 0, { tC 0x200 .ready [] with kregs := [(0, tReg 5 4)] }, { tA with len := 16, imm := 8, param := 2, bOff := 0x120 }, 16, tReg 5 4, (by decide +kernel), (by decide +kernel), (by decide +kernel), (by decide +kernel), (by decide +kernel), (by decide +kernel), (by decide +kernel), (by decide +kernel)⟩,
   ⟨tS { tC 0x200 .ready [] with kregs := [(0, tReg 6 3)] }, 0, 0, { tC 0x200 .ready [] with kregs := [(0, tReg 6 3)] }, { tA with len := 16, imm := 8, bOff := 0x120 }, 16, tReg 6 3, (by decide +kernel), (by decide +kernel), (by decide +kernel), (by decide +kernel), (by decide +kernel), (by decide +kernel), (by decide +kernel), (by decide +kernel)⟩,
   ⟨tS { tC 0x200 .ready [] with kregs := [(0, tReg 6 4)] }, 0, 0, { tC 0x200 .ready [] with kregs := [(0, tReg 6 4)] }, { tA with len := 16, imm := 8, param := 1, bOff := 0x120 }, 16, tReg 6 4, (by decide +kernel), (by decide +kernel), (by decide +kernel), (by decide +kernel), (by decide +kernel), (by decide +kernel), (by decide +kernel), (by decide +kernel), (by decide +kernel)⟩,
   ⟨tS { tC 0x200 .ready [] with kregs := [(0, tReg 5 6)] }, 0, 0, { tC 0x200 .ready [] with kregs := [(0, tReg 5 6)] }, { tA with len := 16, imm := 8, bOff := 0x120 }, 16, tReg 5 6, (by decide +kernel), (by decide +kernel), (by decide +kernel), (by decide +kernel), (by decide +kernel)⟩,
   ⟨tS { tC 0x200 .ready [] with kregs := [(0, tReg 6 6)] }, 0, 0, { tC 0x200 .ready [] with kregs := [(0, tReg 6 6)] }, { tA with len := 16, imm := 64, bOff := 0x120 }, 16, tReg 6 6, (by decide +kernel), (by decide +kernel), (by decide +kernel), (by decide +kernel), (by decide +kernel), (by decide +kernel), (by decide +kernel)⟩,
   ⟨tS (tC 0x200 .ready []), 0, 0, tC 0x200 .ready [], { tA with len := 16, imm := 8, bOff := 0x120 }, 16, (by decide +kernel), (by decide +kernel), (by decide +kernel), (by decide +kernel)⟩,
   ⟨tS (tC 0x200 .ready []), 0, 0, tC 0x200 .ready [], { tA with len := 16, imm := 8, bOff := 0x120 }, 16, (by decide +kernel), (by decide +kernel), (by decide +kernel), (by decide +kernel), (by decide +kernel)⟩,
   ⟨tS (tC 0x200 .ready []), 0, 0, tC 0x200 .ready [], { tA with len := 16, param := 1 }, 16, (by decide +kernel), (by decide +kernel), (by decide +kernel), (by decide +kernel), (by decide +kernel)⟩⟩

/-- What each clause of `Obligations.KeyLookupStepsComplete` supposes can be met. -/
theorem witness_KeyLookupStepsComplete :
    (∃ (s : State) (n : Nat) (k : Nat) (c : Cmd) (a : StepArgs) (s1 : _) (c1 : _) (m : _) (l : _), StepReady s n k c a ∧ getRef s c (bits a.param.toNat 6 4) a.kreg.toNat (bits a.param.toNat 3 0) a.imm.toNat (bit a.param.toNat 7) = .got s1 c1 m l) ∧
    (∃ (s : State) (n : Nat) (k : Nat) (c : Cmd) (a : StepArgs) (l : _) (w : _) (s1 : _) (c1 : _) (m : _) (x : _), StepReady s n k c a ∧ stepLen c a = some l ∧ rangeFault false [(a.aOff.toNat, l)] (0x100, 0) = none ∧ KeyReady s c (bits a.param.toNat 7 4) 3 [1, 2, 3, 4, 5, 11, 12, 13] w ∧ isRsa w.key.alg = false ∧ getBlock s c w a.kreg.toNat (c.rd a.aOff.toNat l) (bits a.param.toNat 3 0) a.imm.toNat 0xFF false false = .got s1 c1 m x) ∧
    (∃ (s : State) (n : Nat) (k : Nat) (c : Cmd) (a : StepArgs) (l : _) (p : _) (s1 : _) (c1 : _) (m : _) (x : _), StepReady s n k c a ∧ stepLen c a = some l ∧ rangeFault false [(a.aOff.toNat, l)] (0x100, 0) = none ∧ KeyReady s c (bits a.param.toNat 7 4) 4 [3] p ∧ getDerived s c p a.kreg.toNat (c.rd a.aOff.toNat l) (bits a.param.toNat 3 0) a.imm.toNat false false = .got s1 c1 m x) ∧
    (∃ (s : State) (n : Nat) (k : Nat) (c : Cmd) (a : StepArgs) (l : _) (i : _), StepReady s n k c a ∧ stepLen c a = some l ∧ rangeFault false [(a.aOff.toNat, l)] (0x100, 0) = none ∧ KeyReady s c (bits a.param.toNat 7 4) 4 [1, 2, 3, 4] i ∧ bits a.param.toNat 11 8 ≤ 2 ∧ l = ksnLen i.key.alg ∧ bits a.param.toNat 3 0 = wktUsage (bits a.param.toNat 11 8) ∧ bit a.imm.toNat i.key.alg = true ∧ ksnOk i.key.alg (c.rd a.aOff.toNat l) = false) ∧
    (∃ (s : State) (n : Nat) (k : Nat) (c : Cmd) (a : StepArgs) (l : _) (i : _) (s1 : _) (c1 : _) (m : _) (x : _), StepReady s n k c a ∧ stepLen c a = some l ∧ rangeFault false [(a.aOff.toNat, l)] (0x100, 0) = none ∧ KeyReady s c (bits a.param.toNat 7 4) 4 [1, 2, 3, 4] i ∧ bits a.param.toNat 11 8 ≤ 2 ∧ l = ksnLen i.key.alg ∧ bits a.param.toNat 3 0 = wktUsage (bits a.param.toNat 11 8) ∧ bit a.imm.toNat i.key.alg = true ∧ ksnOk i.key.alg (c.rd a.aOff.toNat l) = true ∧ getDukpt s c i a.kreg.toNat (bits a.param.toNat 11 8) (c.rd a.aOff.toNat l) = .got s1 c1 m x) :=
  ⟨⟨{ tS (tC 0x200 .ready [(7, 1), (40, 5), (52, 1)]) with kc := { tOn.kc with ways := [tWay 1 3] } }, 0, 0, tC 0x200 .ready [(7, 1), (40, 5), (52, 1)], { tA with param := 1, imm := 8 }, _, _, _, _, (by decide +kernel), (got_eta (by decide +kernel))⟩,
   ⟨tHit (tK [(0, tReg 3 3)]), 0, 0, tK [(0, tReg 3 3)], { tA with param := 1, imm := 8, kreg := 1 }, 4, tReg 3 3, _, _, _, _, (by decide +kernel), (by decide +kernel), (by decide +kernel), (by decide +kernel), (by decide +kernel), (got_eta (by rw [getBlock_hit _ _ _ _ _ _ _ _ (zeros 16) _ rfl rfl rfl (by rfl) (by decide)]; decide +kernel))⟩,
   ⟨tFull (tS ({ tK [(0, tReg 4 3)] with mem := [(0x100, 1), (0x101, 1), (0x102, 3)] })), 0, 0, { tK [(0, tReg 4 3)] with mem := [(0x100, 1), (0x101, 1), (0x102, 3)] }, { tA with len := 32, param := 1, imm := 8, kreg := 1 }, 32, tReg 4 3, _, _, _, _, (by decide +kernel), (by decide +kernel), (by decide +kernel), (by decide +kernel), (got_eta (by decide +kernel))⟩,
   ⟨tS (tK [(0, tReg 4 3)]), 0, 0, tK [(0, tReg 4 3)], { tA with len := 12, param := 2, imm := 8, kreg := 1 }, 12, tReg 4 3, (by decide +kernel), (by decide +kernel), (by decide +kernel), (by decide +kernel), (by decide +kernel), (by decide +kernel), (by decide +kernel), (by decide +kernel), (by decide +kernel)⟩,
   ⟨tFull (tS ({ tK [(0, tReg 4 3)] with mem := [(0x10B, 1)] })), 0, 0, { tK [(0, tReg 4 3)] with mem := [(0x10B, 1)] }, { tA with len := 12, param := 2, imm := 8, kreg := 1 }, 12, tReg 4 3, _, _, _, _, (by decide +kernel), (by decide +kernel), (by decide +kernel), (by decide +kernel), (by decide +kernel), (by decide +kernel), (by decide +kernel), (by decide +kernel), (by decide +kernel), (got_eta (by decide +kernel))⟩⟩

/-- What each clause of `Obligations.KeyStoreStepsComplete` supposes can be met. -/
theorem witness_KeyStoreStepsComplete :
    (∃ (s : State) (n : Nat) (k : Nat) (c : Cmd) (a : StepArgs) (l : _) (w : _) (x : _) (s1 : _) (pad : _) (ku : _) (e : _), StepReady s n k c a ∧ stepLen c a = some l ∧ dstOk a.dOff.toNat l = true ∧ RegReady s c a.kreg.toNat x ∧ KeyReady s c (bits a.param.toNat 7 4) 3 [1, 2, 3, 4, 5, 11, 12, 13] w ∧ exportOk s c x = true ∧ isRsa w.key.alg = false ∧ x.key.version ≤ 99 ∧ (pairedUsages x.key)[Config.freeNat s.draw % (pairedUsages x.key).length]? = some ku ∧ [chr 'E', chr 'N', chr 'S'][Config.freeNat (s.draw + 1) % 3]? = some e ∧ ((countPolicy s).drawn 2).random (drbgOf c.place) (exportPad w.key x.key) = .bytes s1 pad ∧ (exportBlock w.key x.key ku e pad).length ≤ l) ∧
    (∃ (s : State) (n : Nat) (k : Nat) (c : Cmd) (a : StepArgs) (alg : _) (s1 : _) (b : _), StepReady s n k c a ∧ oneAlg a.imm.toNat = some alg ∧ 1 ≤ alg ∧ alg ≤ 6 ∧ (usagesOf alg).contains (bits a.param.toNat 3 0) = true ∧ s.random (drbgOf c.place) (matLen alg) = .bytes s1 b) ∧
    (∃ (s : State) (n : Nat) (k : Nat) (c : Cmd) (a : StepArgs) (l : _) (x : _), StepReady s n k c a ∧ stepLen c a = some l ∧ c.stored = false ∧ c.dir.map (fun d => d.commits) = some true ∧ rangeFault false [(a.aOff.toNat, l)] (a.dOff.toNat, 4) = none ∧ RegReady s c a.kreg.toNat x ∧ attrOk x.key (c.rd a.aOff.toNat l) = true ∧ policyOk (countPolicy s) c (fieldLe (c.rd a.aOff.toNat l) 4 8) x.key.usage x.key.alg roleStore = true ∧ commitHold (countPolicy s) = none) ∧
    (∃ (s : State) (n : Nat) (k : Nat) (c : Cmd) (a : StepArgs), StepReady s n k c a) :=
  ⟨⟨tS (tK [(0, tReg 6 3), (1, tReg 3 3)]), 0, 0, tK [(0, tReg 6 3), (1, tReg 3 3)], { tA with len := 3072, param := 0x10 }, 3072, tReg 3 3, tReg 6 3, _, _, ascii "M6", [chr 'E', chr 'N', chr 'S'][Config.freeNat ((tS (tK [(0, tReg 6 3), (1, tReg 3 3)])).draw + 1) % 3]'(Nat.mod_lt _ (by decide)), (by decide +kernel), (by decide +kernel), (by decide +kernel), (by decide +kernel), (by decide +kernel), (by decide +kernel), (by decide +kernel), (by decide +kernel), (by rw [show pairedUsages (tReg 6 3).key = [ascii "M6"] by decide +kernel]; simp [Nat.mod_one]), (List.getElem?_eq_getElem _), (bytes_eta (by decide +kernel)), (exportBlock_length _ _)⟩,
   ⟨tS (tK [(0, tReg 1 3)]), 0, 0, tK [(0, tReg 1 3)], { tA with imm := 8, param := 1 }, 3, _, _, (by decide +kernel), (by decide +kernel), (by decide +kernel), (by decide +kernel), (by decide +kernel), (bytes_eta (by decide +kernel))⟩,
   ⟨tS (tK [(0, tReg 1 3)]), 0, 0, tK [(0, tReg 1 3)], { tA with len := 32 }, 32, tReg 1 3, (by decide +kernel), (by decide +kernel), (by decide +kernel), (by decide +kernel), (by decide +kernel), (by decide +kernel), (by decide +kernel), (by decide +kernel), (by decide +kernel)⟩,
   ⟨tS (tK [(0, tReg 1 3)]), 0, 0, tK [(0, tReg 1 3)], tA, (by decide +kernel)⟩⟩

/-- What each clause of `Obligations.RouteStepsComplete` supposes can be met. -/
theorem witness_RouteStepsComplete :
    (∃ (s : State) (n : Nat) (k : Nat) (c : Cmd) (a : StepArgs) (ds : _), StepReady s n k c a ∧ rangeFault false [(a.aOff.toNat, 11)] (a.dOff.toNat, 16) = none ∧ ds = (if byteAt (c.rd a.aOff.toNat 11) 0 > 19 then [] else digitString (c.rd a.aOff.toNat 11))) ∧
    (∃ (s : State) (n : Nat) (k : Nat) (c : Cmd) (a : StepArgs) (r : _), StepReady s n k c a ∧ rangeFault false [(a.aOff.toNat, 8)] (a.dOff.toNat, 16) = none ∧ r = policyLookup (s.rt.rules c.pgen) c.part (leNat (c.rd a.aOff.toNat 8))) :=
  ⟨⟨tS (tC 0x200 .ready []), 0, 0, tC 0x200 .ready [], tA, _, (by decide +kernel), (by decide +kernel), rfl⟩,
   ⟨tS (tC 0x200 .ready []), 0, 0, tC 0x200 .ready [], tA, _, (by decide +kernel), (by decide +kernel), rfl⟩⟩

/-- What each clause of `Obligations.FormatStepsComplete` supposes can be met. -/
theorem witness_FormatStepsComplete :
    (∃ (s : State) (n : Nat) (k : Nat) (c : Cmd) (a : StepArgs) (f : Nat) (w : Nat) (ds : _), StepReady s n k c a ∧ f = bits a.param.toNat 2 0 ∧ w = (if f = 4 then 16 else 8) ∧ (f = 0 ∨ f = 3 ∨ f = 4) ∧ rangeFault false [(a.aOff.toNat, 11)] (a.dOff.toNat, w) = none ∧ panDigits (c.rd a.aOff.toNat 11) = some ds) ∧
    (∃ (s : State) (n : Nat) (k : Nat) (c : Cmd) (a : StepArgs) (f : Nat) (w : Nat), StepReady s n k c a ∧ f = bits a.param.toNat 2 0 ∧ w = (if f = 4 then 16 else 8) ∧ (f = 0 ∨ f = 3 ∨ f = 4) ∧ rangeFault false [(a.aOff.toNat, 11)] (a.dOff.toNat, w) = none ∧ panDigits (c.rd a.aOff.toNat 11) = none) ∧
    (∃ (s : State) (n : Nat) (k : Nat) (c : Cmd) (a : StepArgs) (f : Nat) (w : Nat) (x : _) (pin : _), StepReady s n k c a ∧ f = bits a.param.toNat 2 0 ∧ w = (if f = 4 then 16 else 8) ∧ pinFormats.contains f = true ∧ rangeFault false ((a.aOff.toNat, w) :: (if f = 1 then [] else [(a.bOff.toNat, w)])) (a.dOff.toNat, 8) = none ∧ (x = (if f = 0 ∨ f = 3 then xorBytes (c.rd a.aOff.toNat w) (c.rd a.bOff.toNat 8) else c.rd a.aOff.toNat w)) ∧ pinOfField f x = some pin) ∧
    (∃ (s : State) (n : Nat) (k : Nat) (c : Cmd) (a : StepArgs) (f : Nat) (w : Nat) (x : _), StepReady s n k c a ∧ f = bits a.param.toNat 2 0 ∧ w = (if f = 4 then 16 else 8) ∧ pinFormats.contains f = true ∧ rangeFault false ((a.aOff.toNat, w) :: (if f = 1 then [] else [(a.bOff.toNat, w)])) (a.dOff.toNat, 8) = none ∧ (x = (if f = 0 ∨ f = 3 then xorBytes (c.rd a.aOff.toNat w) (c.rd a.bOff.toNat 8) else c.rd a.aOff.toNat w)) ∧ pinOfField f x = none) ∧
    (∃ (s : State) (n : Nat) (k : Nat) (c : Cmd) (a : StepArgs) (f : Nat) (w : Nat), StepReady s n k c a ∧ f = bits a.param.toNat 2 0 ∧ w = (if f = 4 then 16 else 8) ∧ pinFormats.contains f = true ∧ rangeFault false ((a.aOff.toNat, 8) :: (if f = 0 then [] else [(a.bOff.toNat, 8)])) (a.dOff.toNat, w) = none ∧ 4 ≤ byteAt (c.rd a.aOff.toNat 8) 0 ∧ byteAt (c.rd a.aOff.toNat 8) 0 ≤ 12 ∧ (recordPin (c.rd a.aOff.toNat 8)).all (fun x => decide (x ≤ 9)) = true) ∧
    (∃ (s : State) (n : Nat) (k : Nat) (c : Cmd) (a : StepArgs) (l : Nat), StepReady s n k c a ∧ stepLen c a = some l ∧ rangeFault false [(a.aOff.toNat, l), (a.bOff.toNat, 8)] (a.dOff.toNat, l) = none) ∧
    (∃ (s : State) (n : Nat) (k : Nat) (c : Cmd) (a : StepArgs) (l : Nat) (b : _), StepReady s n k c a ∧ stepLen c a = some l ∧ rangeFault false [(a.aOff.toNat, l)] (a.dOff.toNat, (l + 1) / 2) = none ∧ bcdPack (c.rd a.aOff.toNat l) = some b) ∧
    (∃ (s : State) (n : Nat) (k : Nat) (c : Cmd) (a : StepArgs) (l : Nat), StepReady s n k c a ∧ stepLen c a = some l ∧ rangeFault false [(a.aOff.toNat, l)] (a.dOff.toNat, (l + 1) / 2) = none ∧ bcdPack (c.rd a.aOff.toNat l) = none) ∧
    (∃ (s : State) (n : Nat) (k : Nat) (c : Cmd) (a : StepArgs) (l : Nat) (b : _), StepReady s n k c a ∧ stepLen c a = some l ∧ rangeFault false [(a.aOff.toNat, l)] (a.dOff.toNat, 2 * l) = none ∧ bcdUnpack (c.rd a.aOff.toNat l) = some b) ∧
    (∃ (s : State) (n : Nat) (k : Nat) (c : Cmd) (a : StepArgs) (l : Nat), StepReady s n k c a ∧ stepLen c a = some l ∧ rangeFault false [(a.aOff.toNat, l)] (a.dOff.toNat, 2 * l) = none ∧ bcdUnpack (c.rd a.aOff.toNat l) = none) ∧
    (∃ (s : State) (n : Nat) (k : Nat) (c : Cmd) (a : StepArgs) (l : Nat) (m : _) (b : _), StepReady s n k c a ∧ stepLen c a = some l ∧ m = bits a.param.toNat 1 0 ∧ (m = 1 ∨ m = 2) ∧ b = padMsg m (if bit a.param.toNat 4 then 8 else 16) (c.rd a.aOff.toNat l) ∧ rangeFault false [(a.aOff.toNat, l)] (a.dOff.toNat, b.length) = none) ∧
    (∃ (s : State) (n : Nat) (k : Nat) (c : Cmd) (a : StepArgs) (l : Nat) (o : _) (m : _), StepReady s n k c a ∧ stepLen c a = some l ∧ rangeFault false [(a.aOff.toNat, l)] (0x100, 0) = none ∧ tlvFind (c.rd a.aOff.toNat l) (a.imm.toNat % 65536) (l + 1) 0 = .found o m) ∧
    (∃ (s : State) (n : Nat) (k : Nat) (c : Cmd) (a : StepArgs) (l : Nat), StepReady s n k c a ∧ stepLen c a = some l ∧ rangeFault false [(a.aOff.toNat, l)] (0x100, 0) = none ∧ tlvFind (c.rd a.aOff.toNat l) (a.imm.toNat % 65536) (l + 1) 0 = .absent) ∧
    (∃ (s : State) (n : Nat) (k : Nat) (c : Cmd) (a : StepArgs) (l : Nat), StepReady s n k c a ∧ stepLen c a = some l ∧ rangeFault false [(a.aOff.toNat, l)] (0x100, 0) = none ∧ tlvFind (c.rd a.aOff.toNat l) (a.imm.toNat % 65536) (l + 1) 0 = .malformed) ∧
    (∃ (s : State) (n : Nat) (k : Nat) (c : Cmd) (a : StepArgs) (l : Nat) (s1 : _) (b : _), StepReady s n k c a ∧ stepLen c a = some l ∧ 1 ≤ l ∧ l ≤ 256 ∧ rangeFault true [] (a.dOff.toNat, l) = none ∧ s.random (drbgOf c.place) l = .bytes s1 b) :=
  ⟨⟨tS (tC 0x200 .ready [(0x100, 16)]), 0, 0, tC 0x200 .ready [(0x100, 16)], { tA with bOff := 0x120 }, 0, 8, _, (by decide +kernel), (by decide +kernel), (by decide +kernel), (by decide +kernel), (by decide +kernel), (some_eta (by decide +kernel))⟩,
   ⟨tS (tC 0x200 .ready []), 0, 0, tC 0x200 .ready [], { tA with param := 4 }, 4, 16, (by decide +kernel), (by decide +kernel), (by decide +kernel), (by decide +kernel), (by decide +kernel), (by decide +kernel)⟩,
   ⟨tS (tC 0x200 .ready [(0x100, 4), (0x101, 0x12), (0x102, 0x34), (0x103, 0xFF), (0x104, 0xFF), (0x105, 0xFF), (0x106, 0xFF), (0x107, 0xFF)]), 0, 0, tC 0x200 .ready [(0x100, 4), (0x101, 0x12), (0x102, 0x34), (0x103, 0xFF), (0x104, 0xFF), (0x105, 0xFF), (0x106, 0xFF), (0x107, 0xFF)], { tA with bOff := 0x120 }, 0, 8, _, _, (by decide +kernel), (by decide +kernel), (by decide +kernel), (by decide +kernel), (by decide +kernel), rfl, (some_eta (by decide +kernel))⟩,
   ⟨tS (tC 0x200 .ready []), 0, 0, tC 0x200 .ready [], { tA with param := 1 }, 1, 8, _, (by decide +kernel), (by decide +kernel), (by decide +kernel), (by decide +kernel), (by decide +kernel), rfl, (by decide +kernel)⟩,
   ⟨tS (tC 0x200 .ready [(0x100, 12)]), 0, 0, tC 0x200 .ready [(0x100, 12)], { tA with bOff := 0x120 }, 0, 8, (by decide +kernel), (by decide +kernel), (by decide +kernel), (by decide +kernel), (by decide +kernel), (by decide +kernel), (by decide +kernel), (by decide +kernel)⟩,
   ⟨tS (tC 0x200 .ready []), 0, 0, tC 0x200 .ready [], { tA with bOff := 0x120 }, 4, (by decide +kernel), (by decide +kernel), (by decide +kernel)⟩,
   ⟨tS (tC 0x200 .ready [(0x100, 0x31), (0x101, 0x32), (0x102, 0x33), (0x103, 0x39)]), 0, 0, tC 0x200 .ready [(0x100, 0x31), (0x101, 0x32), (0x102, 0x33), (0x103, 0x39)], { tA with bOff := 0x120 }, 4, _, (by decide +kernel), (by decide +kernel), (by decide +kernel), (some_eta (by decide +kernel))⟩,
   ⟨tS (tC 0x200 .ready [(0x100, 10)]), 0, 0, tC 0x200 .ready [(0x100, 10)], { tA with bOff := 0x120 }, 4, (by decide +kernel), (by decide +kernel), (by decide +kernel), (by decide +kernel)⟩,
   ⟨tS (tC 0x200 .ready []), 0, 0, tC 0x200 .ready [], { tA with bOff := 0x120 }, 4, _, (by decide +kernel), (by decide +kernel), (by decide +kernel), (some_eta (by decide +kernel))⟩,
   ⟨tS (tC 0x200 .ready [(0x100, 0xF0)]), 0, 0, tC 0x200 .ready [(0x100, 0xF0)], { tA with bOff := 0x120 }, 4, (by decide +kernel), (by decide +kernel), (by decide +kernel), (by decide +kernel)⟩,
   ⟨tS (tC 0x200 .ready []), 0, 0, tC 0x200 .ready [], { tA with param := 2 }, 4, 2, _, (by decide +kernel), (by decide +kernel), (by decide +kernel), (by decide +kernel), rfl, (by decide +kernel)⟩,
   ⟨tS (tC 0x200 .ready [(0x100, 0x9F), (0x101, 0x10), (0x102, 1)]), 0, 0, tC 0x200 .ready [(0x100, 0x9F), (0x101, 0x10), (0x102, 1)], { tA with imm := 0x9F10 }, 4, 3, 1, (by decide +kernel), (by decide +kernel), (by decide +kernel), (by decide +kernel)⟩,
   ⟨tS (tC 0x200 .ready [(0x100, 0x9F), (0x101, 0x10), (0x102, 1)]), 0, 0, tC 0x200 .ready [(0x100, 0x9F), (0x101, 0x10), (0x102, 1)], { tA with imm := 0x9F11 }, 4, (by decide +kernel), (by decide +kernel), (by decide +kernel), (by decide +kernel)⟩,
   ⟨tS (tC 0x200 .ready [(0x100, 0x9F), (0x101, 0x10), (0x102, 2)]), 0, 0, tC 0x200 .ready [(0x100, 0x9F), (0x101, 0x10), (0x102, 2)], { tA with imm := 0x9F10 }, 4, (by decide +kernel), (by decide +kernel), (by decide +kernel), (by decide +kernel)⟩,
   ⟨tS (tC 0x200 .ready []), 0, 0, tC 0x200 .ready [], { tA with len := 256 }, 256, _, _, (by decide +kernel), (by decide +kernel), (by decide +kernel), (by decide +kernel), (by decide +kernel), (bytes_eta (by decide +kernel))⟩⟩

/-- What each clause of `Obligations.BignumStepsComplete` supposes can be met. -/
theorem witness_BignumStepsComplete :
    (∃ (s : State) (n : Nat) (k : Nat) (c : Cmd) (a : StepArgs) (l : _) (r : _) (q : _), StepReady s n k c a ∧ stepLen c a = some l ∧ l ≤ 3072 ∧ rangeFault true [(a.aOff.toNat, l)] (a.dOff.toNat, 64) = none ∧ KeyReady s c a.kreg.toNat 7 [7] r ∧ q = { op := 1, size := 0, pss := false, alg := 7, key := r.key.mat, operand := c.rd a.aOff.toNat l, record := [] } ∧ BnReady s q) ∧
    (∃ (s : State) (n : Nat) (k : Nat) (c : Cmd) (a : StepArgs) (l : _) (r : _) (q : _), StepReady s n k c a ∧ stepLen c a = some l ∧ 64 ≤ l ∧ l ≤ 3072 ∧ bit a.param.toNat 8 = false ∧ rangeFault true [(a.aOff.toNat, l)] (0x100, 0) = none ∧ KeyReady s c a.kreg.toNat 8 [7] r ∧ q = { op := 2, size := 0, pss := false, alg := 7, key := r.key.mat, operand := c.rd a.aOff.toNat l, record := [] } ∧ BnReady s q) ∧
    (∃ (s : State) (n : Nat) (k : Nat) (c : Cmd) (a : StepArgs) (l : _) (q : _), StepReady s n k c a ∧ stepLen c a = some l ∧ 64 ≤ l ∧ l ≤ 3072 ∧ bit a.param.toNat 8 = true ∧ rangeFault true [(a.aOff.toNat, l), (a.bOff.toNat, 32)] (0x100, 0) = none ∧ q = { op := 2, size := 0, pss := false, alg := 7, key := c.rd a.bOff.toNat 32, operand := c.rd a.aOff.toNat l, record := [] } ∧ BnReady s q) ∧
    (∃ (s : State) (n : Nat) (k : Nat) (c : Cmd) (a : StepArgs) (r : _) (x : _) (q : _), StepReady s n k c a ∧ stepLen c a = some 32 ∧ rangeFault true [(a.aOff.toNat, 32), (a.bOff.toNat, 32)] (0x100, 0) = none ∧ KeyReady s c a.kreg.toNat 4 [8] r ∧ deriveKey s c.part { r.key with level := 1 } (c.rd a.bOff.toNat 32) = some x ∧ policyOk s c x.name x.usage x.alg (roleUse + roleImport) = true ∧ q = { op := 3, size := 0, pss := false, alg := 8, key := r.key.mat, operand := peerU (c.rd a.aOff.toNat 32), record := c.rd a.bOff.toNat 32 } ∧ BnReady (countPolicy s) q) ∧
    (∃ (s : State) (n : Nat) (k : Nat) (c : Cmd) (a : StepArgs) (l : _) (z : _) (r : _) (q : _), StepReady s n k c a ∧ stepLen c a = some l ∧ z = bits a.param.toNat 1 0 ∧ z ≤ 1 ∧ (l = 32 ∨ l = 48 ∨ l = 64) ∧ rangeFault true [(a.aOff.toNat, l)] (a.dOff.toNat, if z = 1 then 96 else 64) = none ∧ KeyReady s c a.kreg.toNat 7 [9 + z] r ∧ q = { op := 4, size := z, pss := false, alg := 9 + z, key := r.key.mat, operand := c.rd a.aOff.toNat l, record := [] } ∧ BnReady s q) ∧
    (∃ (s : State) (n : Nat) (k : Nat) (c : Cmd) (a : StepArgs) (l : _) (z : _) (w : _) (r : _) (q : _), StepReady s n k c a ∧ stepLen c a = some l ∧ z = bits a.param.toNat 1 0 ∧ z ≤ 1 ∧ w = (if z = 1 then 96 else 64) ∧ (l = 32 + w ∨ l = 48 + w ∨ l = 64 + w) ∧ bit a.param.toNat 8 = false ∧ rangeFault true [(a.aOff.toNat, l)] (0x100, 0) = none ∧ KeyReady s c a.kreg.toNat 8 [9 + z] r ∧ q = { op := 5, size := z, pss := false, alg := 9 + z, key := r.key.mat, operand := c.rd a.aOff.toNat l, record := [] } ∧ BnReady s q) ∧
    (∃ (s : State) (n : Nat) (k : Nat) (c : Cmd) (a : StepArgs) (l : _) (z : _) (w : _) (p : _) (q : _), StepReady s n k c a ∧ stepLen c a = some l ∧ z = bits a.param.toNat 1 0 ∧ z ≤ 1 ∧ w = (if z = 1 then 96 else 64) ∧ (l = 32 + w ∨ l = 48 + w ∨ l = 64 + w) ∧ bit a.param.toNat 8 = true ∧ p = pointLen (byteAt (c.rd a.bOff.toNat 1) 0) z ∧ rangeFault true [(a.aOff.toNat, l), (a.bOff.toNat, p)] (0x100, 0) = none ∧ q = { op := 5, size := z, pss := false, alg := 9 + z, key := c.rd a.bOff.toNat p, operand := c.rd a.aOff.toNat l, record := [] } ∧ BnReady s q) ∧
    (∃ (s : State) (n : Nat) (k : Nat) (c : Cmd) (a : StepArgs) (l : _) (z : _) (r : _) (q : _), StepReady s n k c a ∧ stepLen c a = some l ∧ z = bits a.param.toNat 1 0 ∧ z ≤ 2 ∧ (l = 32 ∨ l = 48 ∨ l = 64) ∧ rangeFault true [(a.aOff.toNat, l)] (a.dOff.toNat, sigBytes z) = none ∧ KeyReady s c a.kreg.toNat 7 [11 + z] r ∧ q = { op := 6, size := z, pss := bit a.param.toNat 4, alg := 11 + z, key := r.key.mat, operand := c.rd a.aOff.toNat l, record := [] } ∧ BnReady s q) ∧
    (∃ (s : State) (n : Nat) (k : Nat) (c : Cmd) (a : StepArgs) (l : _) (z : _) (r : _) (q : _), StepReady s n k c a ∧ stepLen c a = some l ∧ z = bits a.param.toNat 1 0 ∧ z ≤ 2 ∧ (l = 32 + sigBytes z ∨ l = 48 + sigBytes z ∨ l = 64 + sigBytes z) ∧ bit a.param.toNat 8 = false ∧ rangeFault true [(a.aOff.toNat, l)] (0x100, 0) = none ∧ KeyReady s c a.kreg.toNat 8 [11 + z] r ∧ q = { op := 7, size := z, pss := bit a.param.toNat 4, alg := 11 + z, key := r.key.mat, operand := c.rd a.aOff.toNat l, record := [] } ∧ BnReady s q) ∧
    (∃ (s : State) (n : Nat) (k : Nat) (c : Cmd) (a : StepArgs) (l : _) (z : _) (q : _), StepReady s n k c a ∧ stepLen c a = some l ∧ z = bits a.param.toNat 1 0 ∧ z ≤ 2 ∧ (l = 32 + sigBytes z ∨ l = 48 + sigBytes z ∨ l = 64 + sigBytes z) ∧ bit a.param.toNat 8 = true ∧ rangeFault true [(a.aOff.toNat, l), (a.bOff.toNat, 4 + sigBytes z)] (0x100, 0) = none ∧ q = { op := 7, size := z, pss := bit a.param.toNat 4, alg := 11 + z, key := c.rd a.bOff.toNat (4 + sigBytes z), operand := c.rd a.aOff.toNat l, record := [] } ∧ BnReady s q) ∧
    (∃ (s : State) (n : Nat) (k : Nat) (c : Cmd) (a : StepArgs) (r : _) (q : _), StepReady s n k c a ∧ KeyReady s c a.kreg.toNat r.key.usage [r.key.alg] r ∧ publicOk r.key = true ∧ r.key.usage ≠ 3 ∧ rangeFault true [] (a.dOff.toNat, publicLen r.key.alg) = none ∧ q = { op := 8, size := if r.key.alg = 10 then 1 else rsaSizeOf r.key.alg, pss := false, alg := r.key.alg, key := r.key.mat, operand := [], record := [] } ∧ BnReady s q) ∧
    (∃ (s : State) (n : Nat) (k : Nat) (c : Cmd) (a : StepArgs) (q : _), StepReady s n k c a ∧ 7 ≤ a.imm.toNat ∧ a.imm.toNat ≤ 10 ∧ generateUsage a.imm.toNat (bits a.param.toNat 3 0) = true ∧ q = { op := 9, size := 0, pss := false, alg := a.imm.toNat, key := [], operand := [], record := [] } ∧ BnReady s q) ∧
    (∃ (s : State) (n : Nat) (k : Nat) (c : Cmd) (a : StepArgs) (w : _) (q : _), StepReady s n k c a ∧ 11 ≤ a.imm.toNat ∧ a.imm.toNat ≤ 13 ∧ rangeFault true [(a.bOff.toNat, 21)] (0x100, 0) = none ∧ KeyReady s c (bits a.param.toNat 7 4) 3 [1, 2, 3, 4, 5] w ∧ q = { op := 9, size := rsaSizeOf a.imm.toNat, pss := false, alg := a.imm.toNat, key := [], operand := [], record := c.rd a.bOff.toNat 21 } ∧ BnReady s q) :=
  ⟨⟨tS (tK [(0, (tReg 7 7))]), 0, 0, tK [(0, (tReg 7 7))], { tA with len := 32, bOff := 0x140 }, 32, tReg 7 7, _, (by decide +kernel), (by decide +kernel), (by decide +kernel), (by decide +kernel), (by decide +kernel), rfl, (by decide +kernel)⟩,
   ⟨tS (tK [(0, (tReg 8 7))]), 0, 0, tK [(0, (tReg 8 7))], { tA with len := 64 }, 64, tReg 8 7, _, (by decide +kernel), (by decide +kernel), (by decide +kernel), (by decide +kernel), (by decide +kernel), (by decide +kernel), (by decide +kernel), rfl, (by decide +kernel)⟩,
   ⟨tS (tK []), 0, 0, tK [], { tA with len := 3072, param := 0x100, bOff := 0xD00 }, 3072, _, (by decide +kernel), (by decide +kernel), (by decide +kernel), (by decide +kernel), (by decide +kernel), (by decide +kernel), rfl, (by decide +kernel)⟩,
   ⟨tS ({ tK [(0, tReg 4 8)] with mem := [(0x140, 1), (0x141, 1), (0x142, 3)] }), 0, 0, { tK [(0, tReg 4 8)] with mem := [(0x140, 1), (0x141, 1), (0x142, 3)] }, { tA with len := 32, bOff := 0x140 }, tReg 4 8, _, _, (by decide +kernel), (by decide +kernel), (by decide +kernel), (by decide +kernel), (some_eta (by decide +kernel)), (by decide +kernel), rfl, (by decide +kernel)⟩,
   ⟨tS (tK [(0, (tReg 7 10))]), 0, 0, tK [(0, (tReg 7 10))], { tA with len := 48, param := 1 }, 48, 1, tReg 7 10, _, (by decide +kernel), (by decide +kernel), (by decide +kernel), (by decide +kernel), (by decide +kernel), (by decide +kernel), (by decide +kernel), rfl, (by decide +kernel)⟩,
   ⟨tS (tK [(0, (tReg 8 9))]), 0, 0, tK [(0, (tReg 8 9))], { tA with len := 128 }, 128, 0, _, tReg 8 9, _, (by decide +kernel), (by decide +kernel), (by decide +kernel), (by decide +kernel), rfl, (by decide +kernel), (by decide +kernel), (by decide +kernel), (by decide +kernel), rfl, (by decide +kernel)⟩,
   ⟨tS (tK []), 0, 0, tK [], { tA with len := 96, param := 0x100, bOff := 0x200 }, 96, 0, _, _, _, (by decide +kernel), (by decide +kernel), (by decide +kernel), (by decide +kernel), rfl, (by decide +kernel), (by decide +kernel), rfl, (by decide +kernel), rfl, (by decide +kernel)⟩,
   ⟨tS (tK [(0, (tReg 7 13))]), 0, 0, tK [(0, (tReg 7 13))], { tA with len := 32, param := 2 }, 32, 2, tReg 7 13, _, (by decide +kernel), (by decide +kernel), (by decide +kernel), (by decide +kernel), (by decide +kernel), (by decide +kernel), (by decide +kernel), rfl, (by decide +kernel)⟩,
   ⟨tS (tK [(0, (tReg 8 11))]), 0, 0, tK [(0, (tReg 8 11))], { tA with len := 288 }, 288, 0, tReg 8 11, _, (by decide +kernel), (by decide +kernel), (by decide +kernel), (by decide +kernel), (by decide +kernel), (by decide +kernel), (by decide +kernel), (by decide +kernel), rfl, (by decide +kernel)⟩,
   ⟨tS (tK []), 0, 0, tK [], { tA with len := 320, param := 0x100, bOff := 0x400 }, 320, 0, _, (by decide +kernel), (by decide +kernel), (by decide +kernel), (by decide +kernel), (by decide +kernel), (by decide +kernel), (by decide +kernel), rfl, (by decide +kernel)⟩,
   ⟨tS (tK [(0, (tReg 7 7))]), 0, 0, tK [(0, (tReg 7 7))], { tA with len := 32, bOff := 0x140 }, tReg 7 7, _, (by decide +kernel), (by decide +kernel), (by decide +kernel), (by decide +kernel), (by decide +kernel), rfl, (by decide +kernel)⟩,
   ⟨tS (tK []), 0, 0, tK [], { tA with imm := 7, param := 7 }, _, (by decide +kernel), (by decide +kernel), (by decide +kernel), (by decide +kernel), rfl, (by decide +kernel)⟩,
   ⟨tS (tK [(0, tReg 3 3)]), 0, 0, tK [(0, tReg 3 3)], { tA with imm := 13 }, tReg 3 3, _, (by decide +kernel), (by decide +kernel), (by decide +kernel), (by decide +kernel), (by decide +kernel), rfl, (by decide +kernel)⟩⟩

/-- What each clause of `Obligations.DraftEndsAndTreadleComplete` supposes can be met. -/
theorem witness_DraftEndsAndTreadleComplete :
    (∃ (s : State) (n : Nat) (k : Nat) (c : Cmd) (a : StepArgs) (l : Nat) (d : DirEnt), StepReady s n k c a ∧ stepLen c a = some l ∧ c.dir = some d ∧ l ≤ d.replyMax ∧ srcOk a.aOff.toNat l = true ∧ (doneStatuses (decide (c.opcode ≥ 0x200))).contains (a.imm.toNat % 65536) = true) ∧
    (∃ (s : State) (n : Nat) (k : Nat) (c : Cmd) (a : StepArgs), StepReady s n k c a ∧ c.opcode < 0x200) ∧
    (∃ (s : State) (n : Nat) (k : Nat) (c : Cmd) (a : StepArgs), StepReady s n k c a ∧ 0x200 ≤ c.opcode) ∧
    (∃ (s : State) (n : Nat) (k : Nat) (line : Nat) (c : Cmd), s.cmd? (.shed n k) = some c ∧ c.phase = .waitLine line ∧ c.abort = false) ∧
    (∃ (s : State) (n : Nat) (value : Nat), s.powered (n + 1) = true ∧ bit value 0 = true) ∧
    (∃ (s : State) (n : Nat) (value : Nat) (kind : Nat) (code : Nat) (c : Cmd) (a : StepArgs), s.powered (n + 1) = true ∧ bit value 5 = false ∧ s.cmd? (.shed n (bits value 4 0)) = some c ∧ c.phase = .parked kind code ∧ kind ≠ 8 ∧ c.pend = some a) ∧
    (∃ (s : State) (n : Nat) (value : Nat) (code : Nat) (c : Cmd) (c1 : Cmd) (a : StepArgs), s.powered (n + 1) = true ∧ bit value 5 = false ∧ s.cmd? (.shed n (bits value 4 0)) = some c ∧ c.phase = .parked 8 code ∧ c.pend = some a ∧ c1 = c.setF (saveFlags c.f (BitVec.ofNat 4 (bits value 18 15)) a.fsel)) ∧
    (∃ (s : State) (n : Nat) (value : Nat) (kind : Nat) (code : Nat) (c : Cmd), s.powered (n + 1) = true ∧ bit value 5 = true ∧ s.cmd? (.shed n (bits value 4 0)) = some c ∧ c.phase = .parked kind code ∧ kind ≠ 8) ∧
    (∃ (s : State) (n : Nat) (value : Nat) (code : Nat) (c : Cmd), s.powered (n + 1) = true ∧ bit value 5 = true ∧ s.cmd? (.shed n (bits value 4 0)) = some c ∧ c.phase = .parked 8 code) ∧
    (∃ (s : State) (n : Nat) (value : Nat), s.powered (n + 1) = true ∧ s.parkedCmd n (bits value 4 0) = none) :=
  ⟨⟨tS (tC 0x200 .ready []), 0, 0, tC 0x200 .ready [], { tA with len := 3072, imm := 0x2001 }, 3072, tDir 0x200, (by decide +kernel), (by decide +kernel), (by decide +kernel), (by decide +kernel), (by decide +kernel), (by decide +kernel)⟩,
   ⟨tS (tC 0x40 .ready []), 0, 0, tC 0x40 .ready [], tA, (by decide +kernel), (by decide +kernel)⟩,
   ⟨tS (tC 0x200 .ready []), 0, 0, tC 0x200 .ready [], tA, (by decide +kernel), (by decide +kernel)⟩,
   ⟨tS (tC 0x200 (.waitLine 0) []), 0, 0, 0, tC 0x200 (.waitLine 0) [], (by decide +kernel), (by decide +kernel), (by decide +kernel)⟩,
   ⟨tS (tC 0x200 .ready []), 0, 1, (by decide +kernel), (by decide +kernel)⟩,
   ⟨tS ({ tC 0x200 (.parked 1 0) [] with pend := some tA }), 0, 0, 1, 0, { tC 0x200 (.parked 1 0) [] with pend := some tA }, tA, (by decide +kernel), (by decide +kernel), (by decide +kernel), (by decide +kernel), (by decide +kernel), (by decide +kernel)⟩,
   ⟨tS ({ tC 0x200 (.parked 8 0) [] with pend := some tA }), 0, 0, 0, { tC 0x200 (.parked 8 0) [] with pend := some tA }, _, tA, (by decide +kernel), (by decide +kernel), (by decide +kernel), (by decide +kernel), (by decide +kernel), rfl⟩,
   ⟨tS (tC 0x200 (.parked 1 0) []), 0, 32, 1, 0, tC 0x200 (.parked 1 0) [], (by decide +kernel), (by decide +kernel), (by decide +kernel), (by decide +kernel), (by decide +kernel)⟩,
   ⟨tS (tC 0x200 (.parked 8 0) []), 0, 32, 0, tC 0x200 (.parked 8 0) [], (by decide +kernel), (by decide +kernel), (by decide +kernel), (by decide +kernel)⟩,
   ⟨tOn, 0, 0, (by decide +kernel), (by decide +kernel)⟩⟩

/-- What each clause of `Obligations.EveryStepIsGated` supposes can be met. -/
theorem witness_EveryStepIsGated :
    (∃ (i : Instr) (s : State) (n : Nat) (k : Nat) (a : StepArgs), stepRow i = some (n, k, a) ∧ s.readyCmd n k = none) ∧
    (∃ (i : Instr) (s : State) (n : Nat) (k : Nat) (a : StepArgs) (c : _), stepRow i = some (n, k, a) ∧ s.readyCmd n k = some c ∧ c.abort = true) ∧
    (∃ (i : Instr) (s : State) (n : Nat) (k : Nat) (a : StepArgs) (c : _), stepRow i = some (n, k, a) ∧ s.readyCmd n k = some c ∧ c.abort = false ∧ s.lineHeld n c = false) ∧
    (∃ (i : Instr) (s : State) (n : Nat) (k : Nat) (a : StepArgs) (c : _), stepRow i = some (n, k, a) ∧ s.readyCmd n k = some c ∧ c.abort = false ∧ s.lineHeld n c = true ∧ s.lineSound n c = false) ∧
    (∃ (i : Instr) (s : State) (n : Nat) (k : Nat) (a : StepArgs) (c : _), stepRow i = some (n, k, a) ∧ s.readyCmd n k = some c ∧ c.abort = false ∧ s.lineSound n c = true ∧ 8192 ≤ c.count) ∧
    (∃ (i : Instr) (s : State) (n : Nat) (k : Nat) (a : StepArgs) (c : _), stepRow i = some (n, k, a) ∧ s.readyCmd n k = some c ∧ c.abort = false ∧ s.lineSound n c = true ∧ c.count < 8192 ∧ (a.rsv = true ∨ 3 < a.br.toNat)) :=
  ⟨⟨.moveCopy 0 0 (tA), tOn, 0, 0, tA, (by decide +kernel), (by decide +kernel)⟩,
   ⟨.moveCopy 0 0 (tA), tS ({ tC 0x200 .ready [] with abort := true }), 0, 0, tA, { tC 0x200 .ready [] with abort := true }, (by decide +kernel), (by decide +kernel), (by decide +kernel)⟩,
   ⟨.moveCopy 0 0 (tA), tT (tC 0x200 .ready []), 0, 0, tA, tC 0x200 .ready [], (by decide +kernel), (by decide +kernel), (by decide +kernel), (by decide +kernel)⟩,
   ⟨.moveCopy 0 0 (tA), { tS (tC 0x200 .ready []) with trd := tOn.trd.set 0 { Treadle.reset with inService := true, lines := [{ tLine (tC 0x200 .ready []) [] with bad := true }] } }, 0, 0, tA, tC 0x200 .ready [], (by decide +kernel), (by decide +kernel), (by decide +kernel), (by decide +kernel), (by decide +kernel)⟩,
   ⟨.moveCopy 0 0 (tA), tS ({ tC 0x200 .ready [] with mem := [(0xA3, 0x20)] }), 0, 0, tA, { tC 0x200 .ready [] with mem := [(0xA3, 0x20)] }, (by decide +kernel), (by decide +kernel), (by decide +kernel), (by decide +kernel), (by decide +kernel)⟩,
   ⟨.moveCopy 0 0 ({ tA with br := 4 }), tS (tC 0x200 .ready []), 0, 0, { tA with br := 4 }, tC 0x200 .ready [], (by decide +kernel), (by decide +kernel), (by decide +kernel), (by decide +kernel), (by decide +kernel), (by decide +kernel)⟩⟩

/-- What each clause of `Obligations.HostInterfaceComplete` supposes can be met. -/
theorem witness_HostInterfaceComplete :
    (∃ (s : State) (fn : Nat) (off : Nat) (v : Nat) (q : Queue), pairQueue s fn off = some q ∧ q.bound = true ∧ s.active = true ∧ off % 8 = 0 ∧ v < 2 ^ 32 ∧ v < 2 ^ q.log2 ∧ q.ready ≤ (v + 2 ^ q.log2 - q.sqHead) % 2 ^ q.log2 ∧ v ≠ q.sqTail) ∧
    (∃ (s : State) (fn : Nat) (off : Nat) (v : Nat) (q : Queue), pairQueue s fn off = some q ∧ q.bound = true ∧ s.active = true ∧ off % 8 = 0 ∧ v < 2 ^ 32 ∧ (2 ^ q.log2 ≤ v ∨ (v + 2 ^ q.log2 - q.sqHead) % 2 ^ q.log2 < q.ready)) ∧
    (∃ (s : State) (fn : Nat) (off : Nat) (v : Nat) (q : Queue), pairQueue s fn off = some q ∧ q.bound = true ∧ s.active = true ∧ off % 8 = 4 ∧ v < 2 ^ 32 ∧ v < 2 ^ q.log2 ∧ (v + 2 ^ q.log2 - q.cqHead) % 2 ^ q.log2 ≤ (q.cqTail + 2 ^ q.log2 - q.cqHead) % 2 ^ q.log2) ∧
    (∃ (s : State) (fn : Nat) (off : Nat) (v : Nat) (q : Queue), pairQueue s fn off = some q ∧ q.bound = true ∧ s.active = true ∧ off % 8 = 4 ∧ v < 2 ^ 32 ∧ (2 ^ q.log2 ≤ v ∨ (q.cqTail + 2 ^ q.log2 - q.cqHead) % 2 ^ q.log2 < (v + 2 ^ q.log2 - q.cqHead) % 2 ^ q.log2)) ∧
    (∃ (s : State) (fn : Nat) (off : Nat) (v : Nat) (q : Queue) (y : Queue), pairQueue s fn off = some q ∧ q.bound = true ∧ s.active = true ∧ off % 8 = 0 ∧ (writeSqTail s q fn off (v % 2 ^ 32) (v % 2 ^ 32)).queue? q.id = some y) ∧
    (∃ (fn : Nat) (off : Nat) (size : Nat) (i : Nat), pairIndex fn off = some i ∧ (size = 4 → off % 4 ≠ 0) ∧ (size = 8 → off % 8 ≠ 0)) ∧
    (∃ (s : State) (fn : Nat) (off : Nat) (i : Nat), pairIndex fn off = some i ∧ pairQueue s fn off = none ∧ off % 4 = 0) ∧
    (∃ (s : State) (fn : Nat) (off : Nat) (q : Queue), pairQueue s fn off = some q ∧ (q.bound = false ∨ s.active = false) ∧ off % 4 = 0) ∧
    (∃ (s : State) (qid : Nat) (q : Queue), s.queue? qid = some q ∧ q.bound = true ∧ q.stopped = false ∧ q.reading = 0 ∧ q.ready ≠ 0 ∧ q.sqHead < 2 ^ q.log2 ∧ s.host.d3.contains q.fn = false ∧ s.active = true ∧ queueLoad s q + b2n q.errDue < 2 ^ q.log2 - 1) ∧
    (∃ (s : State) (qid : Nat) (es : List Bytes) (q : Queue), s.queue? qid = some q ∧ q.reading ≠ 0 ∧ q.reading ≤ es.length) ∧
    (∃ (s : State) (qid : Nat) (q : Queue), s.queue? qid = some q ∧ q.reading ≠ 0) ∧
    (∃ (s : State) (p : Place) (c : Cmd), s.cmd? p = some c ∧ c.phase = .waitExt ∧ c.abort = false) ∧
    (∃ (s : State) (p : Place) (r : Nat) (c : Cmd), s.cmd? p = some c ∧ c.phase = .waitPtr r ∧ c.abort = false) ∧
    (∃ (s : State) (s1 : State) (qid : Nat) (addr : Nat) (q : Queue), s.queue? qid = some q ∧ s1 = (s.violation 0x0B07 q.fn (some qid) (addr % 2 ^ 32) (addr / 2 ^ 32)).unbind qid) ∧
    (∃ (s : State) (p : Place) (ref : Nat) (c : Cmd), s.cmd? p = some c ∧ c.phase = .waitPtr ref ∧ c.abort = false) ∧
    (∃ (s : State) (p : Place) (data : Bytes) (c : Cmd) (c1 : Cmd) (d : DirEnt), s.cmd? p = some c ∧ c.phase = .waitExt ∧ c.abort = false ∧ c.dir = some d ∧ c1 = { c with mem := Mem.writeN c.mem 0x100 (sl data 0 (Mem.num c.mem 24 4)), extLen := Mem.num c.mem 24 4 } ∧ refsStatus c1 d = none) ∧
    (∃ (s : State) (p : Place) (data : Bytes) (c : Cmd) (c1 : Cmd) (d : DirEnt) (st : Nat), s.cmd? p = some c ∧ c.phase = .waitExt ∧ c.abort = false ∧ c.dir = some d ∧ c1 = { c with mem := Mem.writeN c.mem 0x100 (sl data 0 (Mem.num c.mem 24 4)), extLen := Mem.num c.mem 24 4 } ∧ refsStatus c1 d = some st) ∧
    (∃ (s : State) (p : Place) (c : Cmd), s.cmd? p = some c ∧ c.phase = .waitImage ∧ c.abort = false) ∧
    (∃ (s : State) (p : Place) (c : Cmd), s.cmd? p = some c ∧ c.phase = .waitExt ∧ c.abort = true) :=
  ⟨⟨{ tOn with queues := [(tQ)] }, 0, 0x100000, 15, tQ, (by decide +kernel), (by decide +kernel), (by decide +kernel), (by decide +kernel), (by decide +kernel), (by decide +kernel), (by decide +kernel), (by decide +kernel)⟩,
   ⟨{ tOn with queues := [(tQ)] }, 0, 0x100000, 16, tQ, (by decide +kernel), (by decide +kernel), (by decide +kernel), (by decide +kernel), (by decide +kernel), (by decide +kernel)⟩,
   ⟨{ tOn with queues := [({ tQ with cqTail := 3 })] }, 0, 0x100004, 3, { tQ with cqTail := 3 }, (by decide +kernel), (by decide +kernel), (by decide +kernel), (by decide +kernel), (by decide +kernel), (by decide +kernel), (by decide +kernel)⟩,
   ⟨{ tOn with queues := [({ tQ with cqTail := 3 })] }, 0, 0x100004, 4, { tQ with cqTail := 3 }, (by decide +kernel), (by decide +kernel), (by decide +kernel), (by decide +kernel), (by decide +kernel), (by decide +kernel)⟩,
   ⟨{ tOn with queues := [(tQ)] }, 0, 0x100000, 15, tQ, _, (by decide +kernel), (by decide +kernel), (by decide +kernel), (by decide +kernel), (some_eta (by decide +kernel))⟩,
   ⟨0, 0x11FFFE, 8, _, (some_eta (by decide +kernel)), (by decide +kernel), (by decide +kernel)⟩,
   ⟨tOn, 0, 0x11FFF8, _, (some_eta (by decide +kernel)), (by decide +kernel), (by decide +kernel)⟩,
   ⟨{ tOn with queues := [({ tQ with bound := false })] }, 0, 0x100000, { tQ with bound := false }, (by decide +kernel), (by decide +kernel), (by decide +kernel)⟩,
   ⟨{ tOn with queues := [({ tQ with sqTail := 15 })] }, 0, { tQ with sqTail := 15 }, (by decide +kernel), (by decide +kernel), (by decide +kernel), (by decide +kernel), (by decide +kernel), (by decide +kernel), (by decide +kernel), (by decide +kernel), (by decide +kernel)⟩,
   ⟨{ tOn with queues := [({ tQ with reading := 1 })] }, 0, [[]], { tQ with reading := 1 }, (by decide +kernel), (by decide +kernel), (by decide +kernel)⟩,
   ⟨{ tOn with queues := [({ tQ with reading := 8 })] }, 0, { tQ with reading := 8 }, (by decide +kernel), (by decide +kernel)⟩,
   ⟨tS (tC 0x40 .waitExt []), .shed 0 0, tC 0x40 .waitExt [], (by decide +kernel), (by decide +kernel), (by decide +kernel)⟩,
   ⟨tS (tC 0x40 (.waitPtr 7) []), .shed 0 0, 7, tC 0x40 (.waitPtr 7) [], (by decide +kernel), (by decide +kernel), (by decide +kernel)⟩,
   ⟨{ tOn with queues := [(tQ)] }, _, 0, 0x1000, tQ, (by decide +kernel), rfl⟩,
   ⟨tS (tC 0x40 (.waitPtr 0) []), .shed 0 0, 0, tC 0x40 (.waitPtr 0) [], (by decide +kernel), (by decide +kernel), (by decide +kernel)⟩,
   ⟨tS (tC 0x40 .waitExt []), .shed 0 0, [], tC 0x40 .waitExt [], _, tDir 0x40, (by decide +kernel), (by decide +kernel), (by decide +kernel), (by decide +kernel), rfl, (by decide +kernel)⟩,
   ⟨tS ({ tC 0x40 .waitExt [(24, 8)] with dir := some ({ tDir 0x40 with extMin := 9 }) }), .shed 0 0, [], { tC 0x40 .waitExt [(24, 8)] with dir := some ({ tDir 0x40 with extMin := 9 }) }, _, { tDir 0x40 with extMin := 9 }, _, (by decide +kernel), (by decide +kernel), (by decide +kernel), (by decide +kernel), rfl, (some_eta (by decide +kernel))⟩,
   ⟨tS (tC 0x40 .waitImage []), .shed 0 0, tC 0x40 .waitImage [], (by decide +kernel), (by decide +kernel), (by decide +kernel)⟩,
   ⟨tS ({ tC 0x40 .waitExt [] with abort := true }), .shed 0 0, { tC 0x40 .waitExt [] with abort := true }, (by decide +kernel), (by decide +kernel), (by decide +kernel)⟩⟩

/-- What each clause of `Obligations.MailboxAndAdmissionComplete` supposes can be met. -/
theorem witness_MailboxAndAdmissionComplete :
    (∃ (s : State) (s1 : State) (fn : Nat) (value : Nat) (m : Mbx), s.hostUp = true ∧ s.fnExists fn = true ∧ bit value 0 = true ∧ bit value 1 = false ∧ m = (if fn = 0 then s.mbx fn else { s.mbx fn with ie := bit value 2 }) ∧ m.state = 0 ∧ s1 = (s.setMbx m).setMbx { m with state := 1, waiting := true, readcnt := 0 } ∧ (admitOpen s1 = false ∨ waitingMbx s1 ≠ some (s1.mbx fn))) ∧
    (∃ (s : State) (s1 : State) (fn : Nat) (value : Nat) (m : Mbx), s.hostUp = true ∧ s.fnExists fn = true ∧ bit value 0 = true ∧ bit value 1 = false ∧ m = (if fn = 0 then s.mbx fn else { s.mbx fn with ie := bit value 2 }) ∧ m.state = 0 ∧ s1 = (s.setMbx m).setMbx { m with state := 1, waiting := true, readcnt := 0 } ∧ admitOpen s1 = true ∧ waitingMbx s1 = some (s1.mbx fn)) ∧
    (∃ (s : State) (fn : Nat) (value : Nat) (m : Mbx), s.hostUp = true ∧ s.fnExists fn = true ∧ bit value 0 = true ∧ bit value 1 = false ∧ m = (if fn = 0 then s.mbx fn else { s.mbx fn with ie := bit value 2 }) ∧ m.state ≠ 0) ∧
    (∃ (s : State) (fn : Nat) (value : Nat) (m : Mbx), s.hostUp = true ∧ s.fnExists fn = true ∧ bit value 0 = false ∧ bit value 1 = true ∧ m = (if fn = 0 then s.mbx fn else { s.mbx fn with ie := bit value 2 }) ∧ m.state = 2 ∧ m.fn = fn) ∧
    (∃ (s : State) (fn : Nat) (value : Nat) (m : Mbx), s.hostUp = true ∧ s.fnExists fn = true ∧ bit value 0 = false ∧ bit value 1 = true ∧ m = (if fn = 0 then s.mbx fn else { s.mbx fn with ie := bit value 2 }) ∧ m.state ≠ 2) ∧
    (∃ (s : State) (fn : Nat), s.hostUp = true ∧ s.fnExists fn = true) ∧
    (∃ (s : State) (m : Mbx) (p : Place), mbxServable s m = true ∧ noLoom s (fieldLe m.entry 4 2 % 1024) = false ∧ freePlace s (fieldLe m.entry 4 2 % 1024) = some p) ∧
    (∃ (s : State) (m : Mbx) (c : Cmd), mbxServable s m = true ∧ noLoom s (fieldLe m.entry 4 2 % 1024) = true ∧ c = freshCmd s (.ctx 0) (.mailbox m.fn) m.fn 0 m.entry ∧ entryStatus s c = none ∧ reservedBits c = false) ∧
    (∃ (s : State) (s1 : State), s1 = { s with parts := s.parts.map (fillTokens s.looms) } ∧ admitOpen s1 = false) ∧
    (∃ (s : State) (s1 : State) (m : _), s1 = { s with parts := s.parts.map (fillTokens s.looms) } ∧ admitOpen s1 = true ∧ waitingMbx s1 = some m) ∧
    (∃ (s : State) (s1 : State) (e : _), s1 = { s with parts := s.parts.map (fillTokens s.looms) } ∧ admitOpen s1 = true ∧ waitingMbx s1 = none ∧ guaranteed s1 = some e) ∧
    (∃ (s : State) (s1 : State) (e : _) (ps : _), s1 = { s with parts := s.parts.map (fillTokens s.looms) } ∧ admitOpen s1 = true ∧ waitingMbx s1 = none ∧ guaranteed s1 = none ∧ weighted s1 = some (e, ps)) ∧
    (∃ (s : State) (s1 : State), s1 = { s with parts := s.parts.map (fillTokens s.looms) } ∧ admitOpen s1 = true ∧ waitingMbx s1 = none ∧ guaranteed s1 = none ∧ weighted s1 = none) ∧
    (∃ (s : State) (e : Fetched) (q : Queue) (p : Place), s.queue? e.q = some q ∧ freePlace s (fieldLe e.entry 4 2 % 1024) = some p) :=
  ⟨⟨{ tOn with sys := { tOn.sys with drainStop := true } }, _, 0, 1, _, (by decide +kernel), (by decide +kernel), (by decide +kernel), (by decide +kernel), rfl, (by decide +kernel), rfl, (by decide +kernel)⟩,
   ⟨tOn, _, 0, 1, _, (by decide +kernel), (by decide +kernel), (by decide +kernel), (by decide +kernel), rfl, (by decide +kernel), rfl, (by decide +kernel), (by decide +kernel)⟩,
   ⟨{ tOn with host := { tOn.host with mbx := [{ tMbx with state := 1 }] } }, 0, 1, _, (by decide +kernel), (by decide +kernel), (by decide +kernel), (by decide +kernel), rfl, (by decide +kernel)⟩,
   ⟨{ tOn with host := { tOn.host with mbx := [{ tMbx with state := 2 }] } }, 0, 2, _, (by decide +kernel), (by decide +kernel), (by decide +kernel), (by decide +kernel), rfl, (by decide +kernel), (by decide +kernel)⟩,
   ⟨tOn, 0, 2, _, (by decide +kernel), (by decide +kernel), (by decide +kernel), (by decide +kernel), rfl, (by decide +kernel)⟩,
   ⟨{ tOn with host := { tOn.host with vfEnable := true, numVfs := 255 } }, 255, (by decide +kernel), (by decide +kernel)⟩,
   ⟨tOn, { tMbx with state := 1, waiting := true }, _, (by decide +kernel), (by decide +kernel), (some_eta (by decide +kernel))⟩,
   ⟨{ tOn with trd := List.replicate 16 Treadle.reset, drafts := { tOn.drafts with dir := [{ tDir 0x40 with replyMax := 0 }] } }, { tMbx with state := 1, waiting := true, entry := [0, 0, 0, 0, 0x40] ++ zeros 123 }, _, (by decide +kernel), (by decide +kernel), rfl, (by decide +kernel), (by decide +kernel)⟩,
   ⟨{ tOn with sys := { tOn.sys with drainStop := true } }, _, rfl, (by decide +kernel)⟩,
   ⟨{ tOn with host := { tOn.host with mbx := [{ tMbx with state := 1, waiting := true }] } }, _, _, rfl, (by decide +kernel), (some_eta (by decide +kernel))⟩,
   ⟨{ tOn with queues := [tQ], fetched := [{ q := 0, part := 0, entry := zeros 128, cancelled := false }], parts := [{ Part.owner with minTok := 2 ^ 40 }] }, _, _, rfl, (by decide +kernel), (by decide +kernel), (some_eta (by decide +kernel))⟩,
   ⟨{ tOn with queues := [tQ], fetched := [{ q := 0, part := 0, entry := [0, 0, 0, 0, 0, 0, 4], cancelled := false }] }, _, _, _, rfl, (by decide +kernel), (by decide +kernel), (by decide +kernel), (some2_eta (by decide +kernel))⟩,
   ⟨tOn, _, rfl, (by decide +kernel), (by decide +kernel), (by decide +kernel), (by decide +kernel)⟩,
   ⟨{ tOn with queues := [tQ] }, { q := 0, part := 0, entry := zeros 128, cancelled := false }, tQ, _, (by decide +kernel), (some_eta (by decide +kernel))⟩⟩

/-- What each clause of `Obligations.FunctionsAndLinkComplete` supposes can be met. -/
theorem witness_FunctionsAndLinkComplete :
    (∃ (s : State) (fn : Nat), s.fnExists fn = true ∧ s.host.d3.contains fn = false) ∧
    (∃ (s : State) (fn : Nat), s.host.d3.contains fn = true ∧ (∀ h ∈ s.d3held, h.fn ≠ fn) ∧ (∀ q ∈ s.queues, q.fn ≠ fn)) ∧
    (∃ (s : State) (s1 : State) (fn : Nat), s.host.d3.contains fn = true ∧ s1 = ({ s with host := { s.host with d3 := s.host.d3.filter (fun f => f != fn) }, d3held := s.d3held.filter (fun h => h.fn != fn) } : State).deliverAll (s.d3held.filter (fun h => h.fn == fn))) ∧
    (∃ (s : State) (fn : Nat), fn ≠ 0 ∧ s.fnExists fn = true) ∧
    (∃ (s : State) (fn : Nat), (∀ q ∈ s.queues, q.fn ≠ fn) ∧ (∀ c ∈ s.cmds, c.fn ≠ fn) ∧ (∀ h ∈ s.lk.held, h.fn ≠ fn) ∧ (∀ h ∈ s.d3held, h.fn ≠ fn)) ∧
    (∃ (s : State) (s1 : State), s.host.vfEnable = true ∧ s1 = ((List.range s.host.numVfs).map (fun i => i + 1)).foldl (fun (t : State) fn => t.resetVf fn) s) ∧
    (∃ (s : State), s.host.training = true) ∧
    (∃ (s : State), s.host.training = false ∧ s.host.linkUp = false) ∧
    (∃ (s : State), (s.host.training = true ∨ s.host.linkUp = true) ∧ s.sys.step < 11) ∧
    (∃ (s : State) (n : _), (s.host.training = true ∨ s.host.linkUp = true) ∧ 11 ≤ s.sys.step ∧ n ≤ 255 ∧ s.host.vfEnable = false) ∧
    (∃ (s : State), (s.host.training = true ∨ s.host.linkUp = true) ∧ 11 ≤ s.sys.step) ∧
    (∃ (s : State), (s.host.training = true ∨ s.host.linkUp = true) ∧ 11 ≤ s.sys.step) ∧
    (∃ (s : State), (s.host.training = true ∨ s.host.linkUp = true) ∧ 11 ≤ s.sys.step) ∧
    (∃ (s : State), (s.host.training = true ∨ s.host.linkUp = true) ∧ 11 ≤ s.sys.step) :=
  ⟨⟨tOn, 0, (by decide +kernel), (by decide +kernel)⟩,
   ⟨{ tOn with host := { tOn.host with d3 := [1] } }, 1, (by decide +kernel), (by decide +kernel), (by decide +kernel)⟩,
   ⟨{ tOn with host := { tOn.host with d3 := [0] }, d3held := [tHeld] }, _, 0, (by decide +kernel), rfl⟩,
   ⟨{ tOn with host := { tOn.host with vfEnable := true, numVfs := 255 } }, 255, (by decide +kernel), (by decide +kernel)⟩,
   ⟨tOn, 1, (by decide +kernel), (by decide +kernel), (by decide +kernel), (by decide +kernel)⟩,
   ⟨{ tOn with host := { tOn.host with vfEnable := true, numVfs := 2 } }, _, (by decide +kernel), rfl⟩,
   ⟨{ tOn with host := { tOn.host with training := true } }, (by decide +kernel)⟩,
   ⟨{ tOn with host := { tOn.host with linkUp := false } }, (by decide +kernel), (by decide +kernel)⟩,
   ⟨{ tOn with sys := { tOn.sys with step := 10 } }, (by decide +kernel), (by decide +kernel)⟩,
   ⟨tOn, 255, (by decide +kernel), (by decide +kernel), (by decide +kernel), (by decide +kernel)⟩,
   ⟨tOn, (by decide +kernel), (by decide +kernel)⟩,
   ⟨tOn, (by decide +kernel), (by decide +kernel)⟩,
   ⟨tOn, (by decide +kernel), (by decide +kernel)⟩,
   ⟨tOn, (by decide +kernel), (by decide +kernel)⟩⟩

/-- What each clause of `Obligations.BignumJobsComplete` supposes can be met. -/
theorem witness_BignumJobsComplete :
    (∃ (s : State) (s1 : State) (j : Job) (st : _), s1 = promoteAged s ∧ (sortJobs s1.bn.jobs).find? (fun x => (stopsNew s1 x).isSome || (placeable s1 x).isSome) = some j ∧ stopsNew s1 j = some st) ∧
    (∃ (s : State) (s1 : State) (j : Job) (cs : _) (t : _) (b : _), s1 = promoteAged s ∧ (sortJobs s1.bn.jobs).find? (fun x => (stopsNew s1 x).isSome || (placeable s1 x).isSome) = some j ∧ stopsNew s1 j = none ∧ placeable s1 j = some cs ∧ blind s1 j.kind (blindAsks j cs) [] = .ok (t, b)) ∧
    (∃ (s : State) (s1 : State) (j : Job) (cs : _) (t : _) (i : _), s1 = promoteAged s ∧ (sortJobs s1.bn.jobs).find? (fun x => (stopsNew s1 x).isSome || (placeable s1 x).isSome) = some j ∧ stopsNew s1 j = none ∧ placeable s1 j = some cs ∧ blind s1 j.kind (blindAsks j cs) [] = .error (t, i)) ∧
    (∃ (s : State) (s1 : State) (n : Nat) (j : Job), s1 = promoteAged s ∧ s1.job? n = some j ∧ j.state = 1 ∧ j.level ≠ 0 ∧ j.abort = false ∧ j.noRng = false ∧ rival s1 j = none) ∧
    (∃ (s : State) (s1 : State) (n : Nat) (j : Job) (x : _) (t : _), s1 = promoteAged s ∧ s1.job? n = some j ∧ j.state = 1 ∧ j.level ≠ 0 ∧ j.abort = false ∧ j.noRng = false ∧ rival s1 j = some x ∧ t = (s1.runCores j false).modJob j.id (fun y => { y with state := 2, since := s.evr.optime })) ∧
    (∃ (s : State) (s1 : State) (n : Nat) (j : Job), s1 = promoteAged s ∧ s1.job? n = some j ∧ j.state = 1 ∧ j.level ≠ 0 ∧ j.abort = true) ∧
    (∃ (s : State) (s1 : State) (n : Nat) (j : Job), s1 = promoteAged s ∧ s1.job? n = some j ∧ j.state = 1 ∧ j.level ≠ 0 ∧ j.abort = false ∧ j.noRng = true) ∧
    (∃ (s : State) (s1 : State) (n : Nat) (j : Job) (cs : List Nat), s1 = promoteAged s ∧ (claims s1).find? (fun x => x.1.id == n && x.1.state == 2 && idleCores s1 x.2) = some (j, cs)) ∧
    (∃ (s : State) (n : Nat) (differ : Bool) (j : Job) (c : Cmd) (a : StepArgs), s.job? n = some j ∧ j.state = 1 ∧ j.abort = false ∧ j.noRng = false ∧ (j.kind = 1 ∨ differ = false) ∧ jobCmd s j = some c ∧ c.pend = some a) ∧
    (∃ (s : State) (n : Nat) (j : Job), s.job? n = some j ∧ j.state = 1 ∧ j.abort = true) ∧
    (∃ (s : State) (n : Nat) (j : Job), s.job? n = some j ∧ j.state = 1 ∧ j.abort = false ∧ j.noRng = true) ∧
    (∃ (s : State) (s1 : State) (n : Nat) (j : Job) (c : Cmd), s.job? n = some j ∧ j.state = 1 ∧ j.abort = false ∧ j.noRng = false ∧ j.kind ≠ 1 ∧ jobCmd s j = some c ∧ s1 = (failJob s j 0x7001).raise 0x0C01 c.opcode (((j.cores.head?.map (fun x => x.1)).getD 0) + 256 * (((j.cores[j.cores.length / 2]?).map (fun x => x.1)).getD 0)) c.part (bnClass j.req)) ∧
    (∃ (s : State) (n : Nat) (core : Nat) (j : Job) (c : Cmd) (x : Nat × Nat), s.job? n = some j ∧ j.state = 1 ∧ j.abort = false ∧ j.noRng = false ∧ jobCmd s j = some c ∧ j.cores.find? (fun y => y.1 == core) = some x) ∧
    (∃ (s : State) (s1 : State) (core : Nat) (ctx : Nat) (order : Nat) (p : Place), (s.core core).scrub.find? (fun x => x.1 == ctx) = some (ctx, p, order) ∧ s1 = s.modCore core (fun k => { k with scrub := k.scrub.filter (fun y => y.1 != ctx) })) ∧
    (∃ (s : State) (n : Nat) (j : Job), s.job? n = some j ∧ j.level = 2 ∧ j.state ≠ 1) ∧
    (∃ (s : State) (n : Nat) (j : Job), s.job? n = some j ∧ (j.level ≠ 2 ∨ j.state = 1)) ∧
    (∃ (s : State) (n : Nat) (j : Job) (c : Cmd), s.job? n = some j ∧ j.keygen = true ∧ j.state = 1 ∧ jobCmd s j = some c) :=
  ⟨⟨tJobs [({ tJob with abort := true, cores := [] })], _, { tJob with abort := true, cores := [] }, 0x7002, rfl, (by decide +kernel), (by decide +kernel)⟩,
   ⟨tJobs [({ tJob with cores := [] })], _, { tJob with cores := [] }, _, _, _, rfl, (by decide +kernel), (by decide +kernel), (some_eta (by decide +kernel)), rfl⟩,
   ⟨{ tJobs [({ tJob with cores := [] })] with rng := { tOn.rng with drbgs := Rng.reset.drbgs } }, _, { tJob with cores := [] }, _, _, _, rfl, (by decide +kernel), (by decide +kernel), (some_eta (by decide +kernel)), rfl⟩,
   ⟨tJobs [({ tJob with state := 1, level := 1, rank := 1 })], _, 1, { tJob with state := 1, level := 1, rank := 1 }, rfl, (by decide +kernel), (by decide +kernel), (by decide +kernel), (by decide +kernel), (by decide +kernel), (by decide +kernel)⟩,
   ⟨{ tOn with bn := { tOn.bn with jobs := [{ tJob with id := 2, cores := [] }, ({ tJob with state := 1, level := 2, rank := 2, cores := [(0, 0), (2, 0)] })], cores := [{ Core.reset with ok := true, held := [0], running := true }, Core.reset, { Core.reset with ok := true, held := [0], running := true }] ++ List.replicate 29 Core.reset } }, _, 1, { tJob with state := 1, level := 2, rank := 2, cores := [(0, 0), (2, 0)] }, _, _, rfl, (by decide +kernel), (by decide +kernel), (by decide +kernel), (by decide +kernel), (by decide +kernel), (some_eta (by decide +kernel)), rfl⟩,
   ⟨tJobs [({ tJob with state := 1, level := 1, abort := true })], _, 1, { tJob with state := 1, level := 1, abort := true }, rfl, (by decide +kernel), (by decide +kernel), (by decide +kernel), (by decide +kernel)⟩,
   ⟨tJobs [({ tJob with state := 1, level := 1, noRng := true })], _, 1, { tJob with state := 1, level := 1, noRng := true }, rfl, (by decide +kernel), (by decide +kernel), (by decide +kernel), (by decide +kernel), (by decide +kernel)⟩,
   ⟨tJobs [({ tJob with state := 2 })], _, 1, { tJob with state := 2 }, [0, 1], rfl, (by decide +kernel)⟩,
   ⟨{ tS ({ tC 0x200 (.waitBn 1) [] with pend := some tA }) with bn := { tOn.bn with jobs := [({ tJob with state := 1, kind := 1 })] } }, 1, true, { tJob with state := 1, kind := 1 }, { tC 0x200 (.waitBn 1) [] with pend := some tA }, tA, (by decide +kernel), (by decide +kernel), (by decide +kernel), (by decide +kernel), (by decide +kernel), (by decide +kernel), (by decide +kernel)⟩,
   ⟨tJobs [({ tJob with state := 1, abort := true })], 1, { tJob with state := 1, abort := true }, (by decide +kernel), (by decide +kernel), (by decide +kernel)⟩,
   ⟨tJobs [({ tJob with state := 1, noRng := true })], 1, { tJob with state := 1, noRng := true }, (by decide +kernel), (by decide +kernel), (by decide +kernel), (by decide +kernel)⟩,
   ⟨{ tS ({ tC 0x200 (.waitBn 1) [] with pend := some tA }) with bn := { tOn.bn with jobs := [({ tJob with state := 1 })] } }, _, 1, { tJob with state := 1 }, { tC 0x200 (.waitBn 1) [] with pend := some tA }, (by decide +kernel), (by decide +kernel), (by decide +kernel), (by decide +kernel), (by decide +kernel), (by decide +kernel), rfl⟩,
   ⟨{ tS ({ tC 0x200 (.waitBn 1) [] with pend := some tA }) with bn := { tOn.bn with jobs := [({ tJob with state := 1 })] } }, 1, 1, { tJob with state := 1 }, { tC 0x200 (.waitBn 1) [] with pend := some tA }, (1, 0), (by decide +kernel), (by decide +kernel), (by decide +kernel), (by decide +kernel), (by decide +kernel), (by decide +kernel)⟩,
   ⟨{ tOn with bn := { tOn.bn with cores := tOn.bn.cores.set 31 { Core.reset with scrub := [(3, .shed 0 0, 1)] } } }, _, 31, 3, 1, .shed 0 0, (by decide +kernel), rfl⟩,
   ⟨tJobs [({ tJob with level := 2, rank := 2 })], 1, { tJob with level := 2, rank := 2 }, (by decide +kernel), (by decide +kernel), (by decide +kernel)⟩,
   ⟨tJobs [(tJob)], 1, tJob, (by decide +kernel), (by decide +kernel)⟩,
   ⟨{ tS ({ tC 0x200 (.waitBn 1) [] with pend := some tA }) with bn := { tOn.bn with jobs := [({ tJob with state := 1, keygen := true })] } }, 1, { tJob with state := 1, keygen := true }, { tC 0x200 (.waitBn 1) [] with pend := some tA }, (by decide +kernel), (by decide +kernel), (by decide +kernel), (by decide +kernel)⟩⟩

/-- What each clause of `Obligations.CacheJournalAndTableEventsComplete` supposes can be met. -/
theorem witness_CacheJournalAndTableEventsComplete :
    (∃ (s : State) (b : Nat) (u : Nat) (w : Nat) (f : Fill), s.kc.fills.find? (fun x => x.bank == b && x.bucket == u && x.way == w) = some f ∧ f.reserving = false ∧ f.key = none) ∧
    (∃ (s : State) (b : Nat) (u : Nat) (w : Nat) (f : Fill) (k : KeyInfo), s.kc.fills.find? (fun x => x.bank == b && x.bucket == u && x.way == w) = some f ∧ f.reserving = false ∧ f.key = some k ∧ (k.limited = false ∨ f.handle = 0)) ∧
    (∃ (s : State) (b : Nat) (u : Nat) (w : Nat) (f : Fill) (k : KeyInfo), s.kc.fills.find? (fun x => x.bank == b && x.bucket == u && x.way == w) = some f ∧ f.reserving = false ∧ f.key = some k ∧ k.limited = true ∧ f.handle ≠ 0 ∧ s.spent f.handle = false) ∧
    (∃ (s : State) (salt : Bytes), s.kc.sweeping = false ∧ s.active = true ∧ s.kc.salt = some salt) ∧
    (∃ (s : State), s.active = false) ∧
    (∃ (s : State) (s1 : State) (gone : List Way), s.kc.sweeping = true ∧ (∀ w ∈ s.kc.ways, w.ecc = false) ∧ gone = s.kc.ways.filter (fun w => (w.bucket == s.kc.bucket && w.valid && !w.cont && !w.filling) && sweepGone s w) ∧ s.active = true ∧ s1 = (gone.foldl (fun (t : State) w => (t.dropKey w).mirrorRemovals [w]) s).modWays (fun w => w.bucket == s.kc.bucket && w.valid && !w.cont && !w.filling) sweepKeep) ∧
    (∃ (s : State) (w : Walk) (rest : List Walk) (p : Place) (c : Cmd), s.kc.walks = w :: rest ∧ w.teardown = none ∧ w.who = some p ∧ (∀ x ∈ s.kc.ways, x.ecc = false) ∧ (({ s with kc := { s.kc with walks := rest } } : State).walk w.parts).cmd? p = some c ∧ c.phase = .waitWalk) ∧
    (∃ (s : State) (w : Walk) (rest : List Walk) (p : Nat) (t : Tear), s.kc.walks = w :: rest ∧ w.teardown = some p ∧ s.tears.find? (fun x => x.root == p) = some t ∧ partBusy s t.cur t.who = false ∧ (∀ x ∈ s.kc.ways, x.ecc = false)) ∧
    (∃ (s : State) (s1 : State), s1 = (teardownAdvance (journalCommit s)).promoteEnd ∧ s1.sys.hwResetDue = false) ∧
    (∃ (s : State) (s1 : State), s1 = (teardownAdvance (journalCommit s)).promoteEnd ∧ s1.sys.hwResetDue = true) ∧
    (∃ (s : State) (t : State) (h : Commit) (p : _) (a : _) (k : _) (g : _), s.headCommit = some h ∧ journalOpen s h.started = true ∧ t = { s with ks := { s.ks with queue := s.ks.queue.erase h } } ∧ h.kind = .store p a k g ∧ storeRefused s = false) ∧
    (∃ (s : State) (t : State) (h : Commit) (p : _) (a : _) (k : _) (g : _), s.headCommit = some h ∧ journalOpen s h.started = true ∧ t = { s with ks := { s.ks with queue := s.ks.queue.erase h } } ∧ h.kind = .store p a k g ∧ storeRefused s = true) ∧
    (∃ (s : State) (t : State) (h : Commit) (o : _) (b : _) (u : _) (w : _), s.headCommit = some h ∧ journalOpen s h.started = true ∧ t = { s with ks := { s.ks with queue := s.ks.queue.erase h } } ∧ h.kind = .reserve o b u w) ∧
    (∃ (s : State) (t : State) (h : Commit) (o : _), s.headCommit = some h ∧ journalOpen s h.started = true ∧ t = { s with ks := { s.ks with queue := s.ks.queue.erase h } } ∧ h.kind = .tombstone o) ∧
    (∃ (s : State) (t : State) (h : Commit) (o : _), s.headCommit = some h ∧ journalOpen s h.started = true ∧ t = { s with ks := { s.ks with queue := s.ks.queue.erase h } } ∧ h.kind = .relocate o) ∧
    (∃ (s : State) (t : State) (h : Commit) (k : _), s.headCommit = some h ∧ journalOpen s h.started = true ∧ t = { s with ks := { s.ks with queue := s.ks.queue.erase h } } ∧ h.kind = .domain k) ∧
    (∃ (s : State) (t : State) (h : Commit) (o : _), s.headCommit = some h ∧ journalOpen s h.started = true ∧ t = { s with ks := { s.ks with queue := s.ks.queue.erase h } } ∧ h.kind = .raise o) ∧
    (∃ (s : State) (h : Commit), s.headCommit = some h ∧ journalOpen s h.started = false) ∧
    (∃ (s : State), s.headCommit = none) ∧
    (∃ (s : State), 64 ≤ s.ks.sinceReloc) ∧
    (∃ (s : State), s.ks.hold = false ∧ s.sag.warning = false ∧ s.ks.reservation ≤ s.ks.nextSeq) ∧
    (∃ (s : State) (c : Cmd), nextUpdate false s = some c ∧ s.rt.rSettled = true ∧ s.canCommit = true ∧ s.rt.rWait.contains c.place = true ∧ (∀ t ∈ s.tears, t.who ≠ some c.place)) ∧
    (∃ (s : State) (c : Cmd), nextUpdate true s = some c ∧ s.rt.pSettled = true ∧ s.canCommit = true ∧ s.rt.pWait.contains c.place = true ∧ (∀ t ∈ s.tears, t.who ≠ some c.place)) ∧
    (∃ (s : State) (policy : Bool) (c : Cmd) (k : Nat) (t : Tear), nextUpdate policy s = some c ∧ (if policy then s.rt.pSettled else s.rt.rSettled) = true ∧ s.canCommit = true ∧ (if policy then s.rt.pWait else s.rt.rWait).contains c.place = true ∧ c.phase = .waitTeardown k ∧ s.tears.find? (fun t => t.who == some c.place) = some t) ∧
    (∃ (s : State) (s1 : State) (p : Place) (c : Cmd) (c1 : Cmd) (part : Machine.Part) (l : List Route), s.cmd? p = some c ∧ c.phase = .waitTable ∧ headerFault s c (c.own (looksForQuorum c.opcode)) 24 = none ∧ s.part? (fieldLe (c.own (looksForQuorum c.opcode)) 0 2) = some part ∧ applyAll (applyRoute s.rt (s.rt.routes s.rt.rgen) part) 0 (batchRecords (c.own (looksForQuorum c.opcode)) 24) (s.rt.routes s.rt.rgen) = .ok l ∧ s1 = { s with rt := { s.rt with rWait := s.rt.rWait.filter (fun x => x != p) } } ∧ c1 = (s.stamped c).setInline 0 (zeros 4 ++ toLe 4 ((s.rt.rgen + 1) % 2 ^ 32) ++ zeros 8)) ∧
    (∃ (s : State) (s1 : State) (p : Place) (c : Cmd) (c1 : Cmd) (part : Machine.Part) (l : List Rule), s.cmd? p = some c ∧ c.phase = .waitTable ∧ headerFault s c (c.own (looksForQuorum c.opcode)) 32 = none ∧ s.part? (fieldLe (c.own (looksForQuorum c.opcode)) 0 2) = some part ∧ applyAll (applyRule (s.rt.rules s.rt.pgen) part) 0 (batchRecords (c.own (looksForQuorum c.opcode)) 32) (s.rt.rules s.rt.pgen) = .ok l ∧ s1 = { s with rt := { s.rt with pWait := s.rt.pWait.filter (fun x => x != p) } } ∧ c1 = (s.stamped c).setInline 0 (zeros 4 ++ toLe 4 ((s.rt.pgen + 1) % 2 ^ 32) ++ zeros 8)) ∧
    (∃ (s : State) (p : Place) (c : Cmd) (d : Nat), s.cmd? p = some c ∧ c.phase = .waitTable ∧ headerFault s c (c.own (looksForQuorum c.opcode)) 24 = some d) ∧
    (∃ (s : State), oldLoom s false = false ∧ s.rt.rSettled = false) ∧
    (∃ (s : State), oldLoom s true = false ∧ s.rt.pSettled = false) :=
  ⟨⟨{ tOn with kc := { tOn.kc with fills := [({ tFill with key := none })] } }, 0, 0, 0, { tFill with key := none }, (by decide +kernel), (by decide +kernel), (by decide +kernel)⟩,
   ⟨{ tOn with kc := { tOn.kc with fills := [({ tFill with key := some (tKey 1 3) })] } }, 0, 0, 0, { tFill with key := some (tKey 1 3) }, tKey 1 3, (by decide +kernel), (by decide +kernel), (by decide +kernel), (by decide +kernel)⟩,
   ⟨tUse ({ tFill with key := some { tKey 1 3 with limited := true }, handle := 5 }), 0, 0, 0, { tFill with key := some { tKey 1 3 with limited := true }, handle := 5 }, { tKey 1 3 with limited := true }, (by decide +kernel), (by decide +kernel), (by decide +kernel), (by decide +kernel), (by decide +kernel), (tUse_left _)⟩,
   ⟨tOn, zeros 16, (by decide +kernel), (by decide +kernel), (by decide +kernel)⟩,
   ⟨{ tOn with lk := { tOn.lk with role := 3 } }, (by decide +kernel)⟩,
   ⟨{ tOn with kc := { tOn.kc with sweeping := true, ways := [{ tWay 1 3 with seen := true }] } }, _, _, (by decide +kernel), (by decide +kernel), rfl, (by decide +kernel), rfl⟩,
   ⟨{ tT (tP (.ctx 0) 0x35 .waitWalk []) with kc := { tOn.kc with walks := [({ parts := [0], who := some (.ctx 0), teardown := none })], ways := [tWay 1 3] } }, { parts := [0], who := some (.ctx 0), teardown := none }, [], .ctx 0, tP (.ctx 0) 0x35 .waitWalk [], (by decide +kernel), (by decide +kernel), (by decide +kernel), (by decide +kernel), (by decide +kernel), (by decide +kernel)⟩,
   ⟨{ tOn with tears := [({ root := 1, cur := 1, step := 3, who := none })], kc := { tOn.kc with walks := [({ parts := [1], who := none, teardown := some 1 })] } }, { parts := [1], who := none, teardown := some 1 }, [], 1, { root := 1, cur := 1, step := 3, who := none }, (by decide +kernel), (by decide +kernel), (by decide +kernel), (by decide +kernel), (by decide +kernel)⟩,
   ⟨tOn, _, rfl, (by decide +kernel)⟩,
   ⟨{ tOn with sys := { tOn.sys with hwResetDue := true } }, _, rfl, (by decide +kernel)⟩,
   ⟨tJournal (.store 0 (zeros 32) (tKey 1 3) false), _, tCommit (.store 0 (zeros 32) (tKey 1 3) false), 0, zeros 32, tKey 1 3, false, (by decide +kernel), (by decide +kernel), rfl, (by decide +kernel), (by decide +kernel)⟩,
   ⟨(tJournal (.store 0 (zeros 32) (tKey 1 3) false)).modLk (fun l => { l with pstate := 4, lossAction := true }), _, tCommit (.store 0 (zeros 32) (tKey 1 3) false), 0, zeros 32, tKey 1 3, false, (by decide +kernel), (by decide +kernel), rfl, (by decide +kernel), (by decide +kernel)⟩,
   ⟨tJournal (.reserve 1 0 0 0), _, tCommit (.reserve 1 0 0 0), 1, 0, 0, 0, (by decide +kernel), (by decide +kernel), rfl, (by decide +kernel)⟩,
   ⟨tJournal (.tombstone 1), _, tCommit (.tombstone 1), 1, (by decide +kernel), (by decide +kernel), rfl, (by decide +kernel)⟩,
   ⟨tJournal (.relocate 1), _, tCommit (.relocate 1), 1, (by decide +kernel), (by decide +kernel), rfl, (by decide +kernel)⟩,
   ⟨tJournal (.domain (zeros 32)), _, tCommit (.domain (zeros 32)), zeros 32, (by decide +kernel), (by decide +kernel), rfl, (by decide +kernel)⟩,
   ⟨tJournal (.raise 1), _, tCommit (.raise 1), 1, (by decide +kernel), (by decide +kernel), rfl, (by decide +kernel)⟩,
   ⟨{ tJournal (.raise 1) with sag := { tOn.sag with warning := true } }, tCommit (.raise 1), (by decide +kernel), (by decide +kernel)⟩,
   ⟨tOn, (by decide +kernel)⟩,
   ⟨{ tOn with ks := { tOn.ks with sinceReloc := 64 } }, (by decide +kernel)⟩,
   ⟨{ tOn with ks := { tOn.ks with nextSeq := 1000 } }, (by decide +kernel), (by decide +kernel), (by decide +kernel)⟩,
   ⟨{ tT (tP (.ctx 0) 0x17 .waitTable []) with rt := { tOn.rt with rWait := [.ctx 0] } }, tP (.ctx 0) 0x17 .waitTable [], (by decide +kernel), (by decide +kernel), (by decide +kernel), (by decide +kernel), (by decide +kernel)⟩,
   ⟨{ tT (tP (.ctx 0) 0x18 .waitTable []) with rt := { tOn.rt with pWait := [.ctx 0] } }, tP (.ctx 0) 0x18 .waitTable [], (by decide +kernel), (by decide +kernel), (by decide +kernel), (by decide +kernel), (by decide +kernel)⟩,
   ⟨{ tT (tP (.ctx 0) 0x12 (.waitTeardown 1) []) with rt := { tOn.rt with pWait := [.ctx 0] }, tears := [({ root := 1, cur := 1, step := 5, who := some (.ctx 0) })] }, true, tP (.ctx 0) 0x12 (.waitTeardown 1) [], 1, { root := 1, cur := 1, step := 5, who := some (.ctx 0) }, (by decide +kernel), (by decide +kernel), (by decide +kernel), (by decide +kernel), (by decide +kernel), (by decide +kernel)⟩,
   ⟨{ tT (tExt (tP (.ctx 0) 0x17 .waitTable []) ([0, 0, 1, 0, 0, 0, 0, 0, 1, 1, 0x1F] ++ List.replicate 9 0xFF ++ zeros 12)) with rt := { tOn.rt with rWait := [.ctx 0] } }, _, .ctx 0, tExt (tP (.ctx 0) 0x17 .waitTable []) ([0, 0, 1, 0, 0, 0, 0, 0, 1, 1, 0x1F] ++ List.replicate 9 0xFF ++ zeros 12), _, Part.owner, _, (by decide +kernel), (by decide +kernel), (by decide +kernel), (by decide +kernel), (ok_eta [] (by decide +kernel)), rfl, rfl⟩,
   ⟨{ tT (tExt (tP (.ctx 0) 0x18 .waitTable []) ([0, 0, 1, 0, 0, 0, 0, 0, 1, 1] ++ zeros 30)) with rt := { tOn.rt with pWait := [.ctx 0] } }, _, .ctx 0, tExt (tP (.ctx 0) 0x18 .waitTable []) ([0, 0, 1, 0, 0, 0, 0, 0, 1, 1] ++ zeros 30), _, Part.owner, _, (by decide +kernel), (by decide +kernel), (by decide +kernel), (by decide +kernel), (ok_eta [] (by decide +kernel)), rfl, rfl⟩,
   ⟨tT (tP (.ctx 0) 0x17 .waitTable []), .ctx 0, tP (.ctx 0) 0x17 .waitTable [], 1, (by decide +kernel), (by decide +kernel), (by decide +kernel)⟩,
   ⟨{ tOn with rt := { tOn.rt with rSettled := false } }, (by decide +kernel), (by decide +kernel)⟩,
   ⟨{ tOn with rt := { tOn.rt with pSettled := false } }, (by decide +kernel), (by decide +kernel)⟩⟩

/-- What each clause of `Obligations.TeardownAndQuorumEventsComplete` supposes can be met. -/
theorem witness_TeardownAndQuorumEventsComplete :
    (∃ (s : State) (s1 : State) (p : Nat) (t : Tear), s.tears.find? (fun x => x.cur == p && x.step == 3) = some t ∧ s1 = s.abortWhere (fun c => some c.place != t.who && c.part == p)) ∧
    (∃ (s : State), s.sys.drainStop = true) ∧
    (∃ (s : State), s.sys.drainStop = false) ∧
    (∃ (s : State) (p : Nat) (v : Nat) (n : Nonce), s.qr.nonces.find? (fun n => n.part == p && n.value == v) = some n) ∧
    (∃ (s : State) (r1 : State) (p : Place) (c : Cmd) (v : Except (Nat × Nat) (Nat × Nat)), s.cmd? p = some c ∧ quorumNext s = some p ∧ (s.qr.verifying = some p ∨ custSetOpen s c (demandOf s c) = false ∧ partGone s c = false) ∧ c.abort = false ∧ verifyQuorum s c (demandOf s c) = (r1, v)) ∧
    (∃ (s : State) (p : Place) (c : Cmd), s.cmd? p = some c ∧ quorumNext s = some p ∧ s.qr.verifying ≠ some p ∧ custSetOpen s c (demandOf s c) = false ∧ partGone s c = true) ∧
    (∃ (s : State) (d : Demand), d.sets.any (setMeets s d) = false) :=
  ⟨⟨{ tOn with tears := [({ root := 0, cur := 0, step := 3, who := none })] }, _, 0, { root := 0, cur := 0, step := 3, who := none }, (by decide +kernel), rfl⟩,
   ⟨{ tOn with sys := { tOn.sys with drainStop := true } }, (by decide +kernel)⟩,
   ⟨tOn, (by decide +kernel)⟩,
   ⟨{ tOn with qr := { Dual.reset with nonces := [({ part := 0, value := 5, time := 0 })] } }, 0, 5, { part := 0, value := 5, time := 0 }, (by decide +kernel)⟩,
   ⟨{ tT (tP (.ctx 0) 0x10 .waitQuorum []) with qr := { Dual.reset with waiting := [.ctx 0] } }, _, .ctx 0, tP (.ctx 0) 0x10 .waitQuorum [], _, (by decide +kernel), (by decide +kernel), (by decide +kernel), (by decide +kernel), rfl⟩,
   ⟨{ tT (tP (.ctx 0) 0x12 .waitQuorum [(72, 5)]) with qr := { Dual.reset with waiting := [.ctx 0] } }, .ctx 0, tP (.ctx 0) 0x12 .waitQuorum [(72, 5)], (by decide +kernel), (by decide +kernel), (by decide +kernel), (by decide +kernel), (by decide +kernel)⟩,
   ⟨tOn, { sets := [7], count := none, accessKey := false }, (by decide +kernel)⟩⟩

/-- What each clause of `Obligations.ResetCausesComplete` supposes can be met. -/
theorem witness_ResetCausesComplete :
    (∃ (s : State) (s1 : State) (rail : Nat), rail ≤ 3 ∧ s1 = assertReset kS 2 4 s) ∧
    (∃ (s : State), commitWriting s = false) ∧
    (∃ (s : State), commitWriting s = true ∧ s.sys.hwResetDue = false ∧ inSequence s = false) ∧
    (∃ (s : State), commitWriting s = true ∧ (s.sys.hwResetDue = true ∨ inSequence s = true)) ∧
    (∃ (w : Writer) (v : Nat), Machine.Writer.internal w = true ∧ bit v 0 = true ∧ v / 65536 % 65536 = 0x9216) ∧
    (∃ (v : Nat), (bit v 0 = false ∨ v / 65536 % 65536 ≠ 0x9216)) ∧
    (∃ (w : Writer) (i : Nat), i < 4 ∧ Machine.Writer.internal w = true) ∧
    (∃ (s : State) (i : Nat), wdtExpired s i = true) ∧
    (∃ (s : State) (i : Nat), wdtExpired s i = false) ∧
    (∃ (s : State), (s.host.linkUp = true ∨ s.host.training = true)) ∧
    (∃ (s : State) (p : Pin), p ∈ s.iom.pins ∧ p.granted = 4) :=
  ⟨⟨tOn, _, 3, (by decide +kernel), rfl⟩,
   ⟨tOn, (by decide +kernel)⟩,
   ⟨tJournal (.raise 1), (by decide +kernel), (by decide +kernel), (by decide +kernel)⟩,
   ⟨{ tJournal (.raise 1) with sys := { tOn.sys with hwResetDue := true } }, (by decide +kernel), (by decide +kernel)⟩,
   ⟨.steward 3 true, 0x92160001, (by decide +kernel), (by decide +kernel), (by decide +kernel)⟩,
   ⟨1, (by decide +kernel)⟩,
   ⟨.debug, 3, (by decide +kernel), (by decide +kernel)⟩,
   ⟨{ tOn with sys := { tOn.sys with wdtTimeout := List.replicate 4 1000, wdtCount := List.replicate 4 1000 } }, 3, (by decide +kernel)⟩,
   ⟨tOn, 3, (by decide +kernel)⟩,
   ⟨tOn, (by decide +kernel)⟩,
   ⟨{ tOn with iom := { Iom.reset with pins := [({ req := 4, granted := 4, preempted := false, refused := false, kept := 0 })] } }, { req := 4, granted := 4, preempted := false, refused := false, kept := 0 }, (by decide +kernel), (by decide +kernel)⟩⟩

/-- What each clause of `Obligations.ResetClears` supposes can be met. -/
theorem witness_ResetClears :
    (∃ (s : State), commitWriting s = false) ∧
    (∃ (s : State) (a : _), s.Inv ∧ 0x02000000 ≤ a ∧ a < 0x02C00000 ∧ (∀ i, freeSlot s = some i → a < slotAddr i ∨ slotAddr i + 128 ≤ a)) ∧
    (∃ (a : _), (a < 0x02000000 ∨ 0x02C00000 ≤ a)) ∧
    (∃ (k : BitVec 4), k = kZ) :=
  ⟨⟨tOn, (by decide +kernel)⟩,
   ⟨tOn, 0x02000080, (by unfold State.Inv; decide +kernel), (by decide +kernel), (by decide +kernel), (by decide +kernel)⟩,
   ⟨0x01FFFFFF, (by decide +kernel)⟩,
   ⟨kZ, (by decide +kernel)⟩⟩

/-- What each clause of `Obligations.StartupAndPowerComplete` supposes can be met. -/
theorem witness_StartupAndPowerComplete :
    (∃ (s : State) (s1 : State), s.sys.inReset = true ∧ s.sys.cold = false ∧ s.sys.failed = false ∧ s1 = { s with sys := { s.sys with inReset := false, warm := true, step := 0, rstcause := s.sys.rstcause ||| (if s.sys.pending.getLsbD 0 then 1 else 0) }, lc := { s.lc with octal := s.lc.bootMode } }) ∧
    (∃ (s : State) (s1 : State), s.sys.inReset = true ∧ s.sys.cold = true ∧ s.sys.failed = false ∧ s1 = { s with sys := { s.sys with inReset := false, warm := false, step := 0, rstcause := s.sys.rstcause ||| (if s.sys.pending.getLsbD 0 then 1 else 0) }, lk := { s.lk with strap := s.board.roleStrap }, lc := { s.lc with bootMode := s.board.bootStrap, octal := s.board.bootStrap }, board := { s.board with smbAddr := s.board.smbStrap } }) ∧
    (∃ (s : State) (s1 : State), s.sys.inReset = false ∧ s.sys.step ≤ 1 ∧ s1 = { s with board := { s.board with railsOk := true } }) ∧
    (∃ (s : State) (s1 : State) (ext : Bool), s.sys.inReset = false ∧ s.sys.failed = false ∧ s.sys.step = 4 ∧ s.sys.pllLock = false ∧ s1 = { s with sys := { s.sys with pllLock := true, monitored := true, refOk := true, pcieExt := ext, step := 5 }, tmp := { s.tmp with live := s.tmp.live &&& ~~~(1#15 <<< 11) } }) ∧
    (∃ (s : State), s.sys.inReset = false ∧ s.sys.failed = false ∧ s.sys.step = 8 ∧ s.sys.warm = false ∧ s.powered 22 = true) ∧
    (∃ (s : State), s.sys.inReset = false ∧ s.sys.failed = false ∧ s.sys.step = 8 ∧ s.sys.warm = false ∧ s.powered 22 = true) ∧
    (∃ (s : State) (s1 : State) (a : SlotRead) (b : SlotRead), s.sys.inReset = false ∧ s.sys.failed = false ∧ s.sys.reading = true ∧ (s.sys.step = 9 ∨ (s.sys.step = 8 ∧ s.sys.warm = true)) ∧ (slotOrder s a b).find? (fun i => (SlotRead.image (slotRead a b i)).signed) = none ∧ s1 = slotEvents (slotEvents s a 0 (slotRefused s a b 0)) b 1 (slotRefused s a b 1)) ∧
    (∃ (s : State), readyOk s = true) ∧
    (∃ (s : State), readyOk s = false) ∧
    (∃ (s : State) (n : Nat) (s1 : State), n < 16 ∧ s.powered (n + 1) = true ∧ (s.treadle n).inService = false ∧ (s.treadle n).draining = false ∧ (s.treadle n).katFailed = false ∧ (s.bunit (160 + n)).st = 0 ∧ s1 = feed (s.modTreadle n (fun x => { x with katPassed := true })) ∧ s1.rngOff = false ∧ (s1.drbg n).seeded = true) ∧
    (∃ (s : State) (n : Nat) (s1 : State), n < 16 ∧ s.powered (n + 1) = true ∧ (s.treadle n).inService = false ∧ (s.treadle n).draining = false ∧ (s.treadle n).katFailed = false ∧ (s.bunit (160 + n)).st = 0 ∧ s1 = feed (s.modTreadle n (fun x => { x with katPassed := true })) ∧ (s1.rngOff = true ∨ (s1.drbg n).seeded = false)) ∧
    (∃ (s : State) (n : Nat), n < 16 ∧ s.powered (n + 1) = true ∧ (s.treadle n).inService = false ∧ (s.treadle n).draining = false ∧ (s.treadle n).katFailed = false ∧ (s.bunit (160 + n)).st = 0) ∧
    (∃ (s : State) (reg : Nat), reg ≤ 1 ∧ s.sys.inReset = false ∧ 10 ≤ s.sys.step) ∧
    (∃ (s : State) (d : Nat) (on : Bool), s.wanted d ≠ on ∧ switchable s d on = true) ∧
    (∃ (s : State) (d : Nat) (on : Bool), s.wanted d ≠ on ∧ switchable s d on = false) ∧
    (∃ (reg : Nat), reg ≤ 1) ∧
    (∃ (s : State) (d : Nat) (x : Nat × Bool) (rest : List (Nat × Bool)), s.sys.inReset = false ∧ s.sys.failed = false ∧ s.sys.seqQueue = (d, true) :: x :: rest) ∧
    (∃ (s : State) (d : Nat), s.sys.inReset = false ∧ s.sys.failed = false ∧ s.sys.seqQueue = [(d, true)]) ∧
    (∃ (s : State) (d : Nat), s.sys.inReset = false ∧ s.sys.failed = false ∧ s.sys.seqQueue = [] ∧ nextRequest s = some d) ∧
    (∃ (s : State) (n : Nat), n < 16 ∧ s.powered (n + 1) = true ∧ (s.treadle n).draining = true ∧ loomIdle s n = true) ∧
    (∃ (s : State) (n : Nat), loomIdle s n = false) ∧
    (∃ (s : State) (s1 : State) (n : Nat) (late : Cmd → Bool), n < 16 ∧ s.powered (n + 1) = true ∧ (s.treadle n).draining = true ∧ loomIdle s n = false ∧ (∀ c, late c = ((commitWriting s && (s.headCommit.bind (fun x => x.who)) == some c.place) || (match c.phase with | .waitBn _ => true | _ => false))) ∧ s1 = (((s.cmds.filter (fun c => onLoom s n c)).filter (fun c => !late c)).foldl (fun t c => t.retire c 0x7002) (((s.cmds.filter (fun c => onLoom s n c)).filter late).foldl (fun t c => t.abort c) s)) ∧ loomIdle { s1 with sys := { s1.sys with drainTimeout := true } } n = true) ∧
    (∃ (s : State) (s1 : State) (n : Nat) (late : Cmd → Bool), n < 16 ∧ s.powered (n + 1) = true ∧ (s.treadle n).draining = true ∧ loomIdle s n = false ∧ (∀ c, late c = ((commitWriting s && (s.headCommit.bind (fun x => x.who)) == some c.place) || (match c.phase with | .waitBn _ => true | _ => false))) ∧ s1 = (((s.cmds.filter (fun c => onLoom s n c)).filter (fun c => !late c)).foldl (fun t c => t.retire c 0x7002) (((s.cmds.filter (fun c => onLoom s n c)).filter late).foldl (fun t c => t.abort c) s)) ∧ loomIdle { s1 with sys := { s1.sys with drainTimeout := true } } n = false) :=
  ⟨⟨{ State.reset with sys := { Sys.reset with cold := false } }, _, (by decide +kernel), (by decide +kernel), (by decide +kernel), rfl⟩,
   ⟨State.reset, _, (by decide +kernel), (by decide +kernel), (by decide +kernel), rfl⟩,
   ⟨tAt 1, _, (by decide +kernel), (by decide +kernel), rfl⟩,
   ⟨{ tAt 4 with sys := { (tAt 4).sys with pllLock := false } }, _, false, (by decide +kernel), (by decide +kernel), (by decide +kernel), (by decide +kernel), rfl⟩,
   ⟨tAt 8, (by decide +kernel), (by decide +kernel), (by decide +kernel), (by decide +kernel), (by decide +kernel)⟩,
   ⟨tAt 8, (by decide +kernel), (by decide +kernel), (by decide +kernel), (by decide +kernel), (by decide +kernel)⟩,
   ⟨tRead, _, { ok := false, cause := 0, header := [], body := [] }, { ok := false, cause := 0, header := [], body := [] }, (by decide +kernel), (by decide +kernel), (by decide +kernel), (by decide +kernel), (by decide +kernel), rfl⟩,
   ⟨{ tOn with rng := { tOn.rng with drbgs := tOn.rng.drbgs } }, (by decide +kernel)⟩,
   ⟨tAt 11, (by decide +kernel)⟩,
   ⟨{ tOn with trd := List.replicate 16 Treadle.reset }, 15, _, (by decide +kernel), (by decide +kernel), (by decide +kernel), (by decide +kernel), (by decide +kernel), (by decide +kernel), rfl, (by decide +kernel), (by decide +kernel)⟩,
   ⟨{ tOn with trd := List.replicate 16 Treadle.reset, rng := { tOn.rng with latched := true } }, 15, _, (by decide +kernel), (by decide +kernel), (by decide +kernel), (by decide +kernel), (by decide +kernel), (by decide +kernel), rfl, (by decide +kernel)⟩,
   ⟨{ tOn with trd := List.replicate 16 Treadle.reset }, 15, (by decide +kernel), (by decide +kernel), (by decide +kernel), (by decide +kernel), (by decide +kernel), (by decide +kernel)⟩,
   ⟨tOn, 1, (by decide +kernel), (by decide +kernel), (by decide +kernel)⟩,
   ⟨tOn, 36, false, (by decide +kernel), (by decide +kernel)⟩,
   ⟨tOn, 17, false, (by decide +kernel), (by decide +kernel)⟩,
   ⟨0, (by decide +kernel)⟩,
   ⟨{ tOn with sys := { tOn.sys with seqQueue := [(1, true), (2, true)] } }, 1, (2, true), [], (by decide +kernel), (by decide +kernel), (by decide +kernel)⟩,
   ⟨{ tOn with sys := { tOn.sys with seqQueue := [(1, true)] } }, 1, (by decide +kernel), (by decide +kernel), (by decide +kernel)⟩,
   ⟨{ tOn with sys := { tOn.sys with pdstat := tOn.sys.pdstat &&& ~~~(1#36 <<< 25) } }, 26, (by decide +kernel), (by decide +kernel), (by decide +kernel), (by decide +kernel)⟩,
   ⟨{ tOn with trd := tOn.trd.set 0 { Treadle.reset with draining := true } }, 0, (by decide +kernel), (by decide +kernel), (by decide +kernel), (by decide +kernel)⟩,
   ⟨tS (tC 0x40 .ready []), 0, (by decide +kernel)⟩,
   ⟨{ tT (tC 0x40 .ready []) with trd := tOn.trd.set 0 { Treadle.reset with draining := true } }, _, 0, (fun x => (commitWriting ({ tT (tC 0x40 .ready []) with trd := tOn.trd.set 0 { Treadle.reset with draining := true } }) && ((State.headCommit ({ tT (tC 0x40 .ready []) with trd := tOn.trd.set 0 { Treadle.reset with draining := true } })).bind (fun x => x.who)) == some x.place) || (match x.phase with | .waitBn _ => true | _ => false)), (by decide +kernel), (by decide +kernel), (by decide +kernel), (by decide +kernel), (fun _ => rfl), rfl, (by decide +kernel)⟩,
   ⟨{ tT (tC 0x40 .ready []) with trd := tOn.trd.set 0 { Treadle.reset with draining := true }, bist := { Bist.reset with slots := [{ Slot.reset with phase := 2 }, Slot.reset] } }, _, 0, (fun x => (commitWriting ({ tT (tC 0x40 .ready []) with trd := tOn.trd.set 0 { Treadle.reset with draining := true }, bist := { Bist.reset with slots := [{ Slot.reset with phase := 2 }, Slot.reset] } }) && ((State.headCommit ({ tT (tC 0x40 .ready []) with trd := tOn.trd.set 0 { Treadle.reset with draining := true }, bist := { Bist.reset with slots := [{ Slot.reset with phase := 2 }, Slot.reset] } })).bind (fun x => x.who)) == some x.place) || (match x.phase with | .waitBn _ => true | _ => false)), (by decide +kernel), (by decide +kernel), (by decide +kernel), (by decide +kernel), (fun _ => rfl), rfl, (by decide +kernel)⟩⟩

/-- What each clause of `Obligations.TamperAndSupplyComplete` supposes can be met. -/
theorem witness_TamperAndSupplyComplete :
    (∃ (s : State) (s1 : State) (r : TamperReading), s1 = { s with tmp := { sampleCounts s.tmp r with live := sampleLive (sampleCounts s.tmp r) } } ∧ respond s1 (s1.tmp.live &&& ~~~s.tmp.live) false = [] ∧ respond s1 (s1.tmp.live &&& ~~~s.tmp.live) true = [] ∧ zeroiseLive s1 = false) ∧
    (∃ (s : State) (s1 : State) (r : TamperReading), s1 = { s with tmp := { sampleCounts s.tmp r with live := sampleLive (sampleCounts s.tmp r) } } ∧ respond s1 (s1.tmp.live &&& ~~~s.tmp.live) false = [] ∧ respond s1 (s1.tmp.live &&& ~~~s.tmp.live) true = [] ∧ zeroiseLive s1 = true) ∧
    (∃ (s : State) (s1 : State) (s3 : State) (r : TamperReading), s1 = { s with tmp := { sampleCounts s.tmp r with live := sampleLive (sampleCounts s.tmp r) } } ∧ respond s1 (s1.tmp.live &&& ~~~s.tmp.live) false = [] ∧ respond s1 (s1.tmp.live &&& ~~~s.tmp.live) true ≠ [] ∧ s3 = zeroise (maskOf (respond s1 (s1.tmp.live &&& ~~~s.tmp.live) true)) s1) ∧
    (∃ (s : State) (i : Nat), comparatorOn s i = true ∧ s.tmp.live.getLsbD i = false ∧ i ≠ 11) ∧
    (∃ (s : State) (s1 : State) (lost : Bool), comparatorOn s 11 = true ∧ s.tmp.live.getLsbD 11 = false ∧ s1 = clockFault s lost) ∧
    (∃ (s : State), s.tmp.onVbat = true) ∧
    (∃ (s : State), sampledLive s = false) ∧
    (∃ (s : State), sampledLive s = true) ∧
    (∃ (s : State) (mv : Nat), s.tmp.onVbat = false ∧ mv < 1800 ∧ s.tmp.batLow = false) ∧
    (∃ (s : State) (mv : Nat), s.tmp.onVbat = false ∧ 1850 < mv) ∧
    (∃ (s : State) (mv : Nat), s.tmp.onVbat = false ∧ 1800 ≤ mv ∧ mv ≤ 1850) ∧
    (∃ (s : State) (r : BitVec 3), r ≠ 0 ∧ s.sag.warning = true) ∧
    (∃ (s : State) (r : BitVec 3), r ≠ 0 ∧ s.sag.warning = false) ∧
    (∃ (s : State) (p : Pin), s.sag.pfailEn = true ∧ p ∈ s.iom.pins ∧ p.granted = 3 ∧ s.sag.warning = false) ∧
    (∃ (s : State) (s1 : State) (us : Nat), s.sag.warning = true ∧ s1 = (({ s with sag := { s.sag with warn := 0, pfail := false, warning := false, lastWarn := min us 0xFFFFFFFF } } : State).raise 0x0302 (min us 0xFFFFFFFF) (s.sag.warn.toNat + 8 * b2n s.sag.pfail) 0 0)) ∧
    (∃ (s : State), s.sag.warning = false) :=
  ⟨⟨tOn, _, tQuiet, rfl, (by decide +kernel), (by decide +kernel), (by decide +kernel)⟩,
   ⟨tTmp (fun t => { t with live := 0x100 }), _, tQuiet, rfl, (by decide +kernel), (by decide +kernel), (by decide +kernel)⟩,
   ⟨tTmp (fun t => { t with coldCount := 1 }), _, _, { tQuiet with tempLow := true }, rfl, (by decide +kernel), (by decide +kernel), rfl⟩,
   ⟨tOn, 8, (by decide +kernel), (by decide +kernel), (by decide +kernel)⟩,
   ⟨tOn, _, true, (by decide +kernel), (by decide +kernel), rfl⟩,
   ⟨tTmp (fun t => { t with onVbat := true }), (by decide +kernel)⟩,
   ⟨tOn, (by decide +kernel)⟩,
   ⟨tTmp (fun t => { t with live := 0x200 }), (by decide +kernel)⟩,
   ⟨tOn, 1799, (by decide +kernel), (by decide +kernel), (by decide +kernel)⟩,
   ⟨tOn, 1851, (by decide +kernel), (by decide +kernel)⟩,
   ⟨tOn, 1800, (by decide +kernel), (by decide +kernel), (by decide +kernel)⟩,
   ⟨{ tOn with sag := { tOn.sag with warning := true } }, 7, (by decide +kernel), (by decide +kernel)⟩,
   ⟨tOn, 1, (by decide +kernel), (by decide +kernel)⟩,
   ⟨{ tOn with iom := { Iom.reset with pins := [({ req := 3, granted := 3, preempted := false, refused := false, kept := 0 })] }, sag := { tOn.sag with pfailEn := true } }, { req := 3, granted := 3, preempted := false, refused := false, kept := 0 }, (by decide +kernel), (by decide +kernel), (by decide +kernel), (by decide +kernel)⟩,
   ⟨{ tOn with sag := { tOn.sag with warning := true } }, _, 0, (by decide +kernel), rfl⟩,
   ⟨tOn, (by decide +kernel)⟩⟩

/-- What each clause of `Obligations.ClaimComplete` supposes can be met. -/
theorem witness_ClaimComplete :
    (∃ (s : State), s.lk.actIn = false ∧ claimCond s = true ∧ s.lk.strap = true) ∧
    (∃ (s : State), s.lk.actIn = false ∧ claimCond s = true ∧ s.lk.strap = false) ∧
    (∃ (s : State), (s.lk.actIn = true ∨ claimCond s = false)) ∧
    (∃ (s : State), s.lk.claim = .reread ∧ s.lk.actIn = false ∧ claimCond s = true) ∧
    (∃ (s : State), s.lk.claim = .reread ∧ (s.lk.actIn = true ∨ claimCond s = false)) ∧
    (∃ (s : State), s.lk.claim = .drive ∧ s.lk.actIn = false) ∧
    (∃ (s : State) (s1 : State), s.lk.claim = .drive ∧ s.lk.actIn = true ∧ s1 = (s.drawn 4).raise 0x0706 (b2n s.lk.strap) s.lk.role (leNat (s.draws 4)) 0 ∧ s.lk.strap = true) ∧
    (∃ (s : State) (s1 : State), s.lk.claim = .drive ∧ s.lk.actIn = true ∧ s1 = (s.drawn 4).raise 0x0706 (b2n s.lk.strap) s.lk.role (leNat (s.draws 4)) 0 ∧ s.lk.strap = false) ∧
    (∃ (s : State), s.lk.actIn = false ∧ s.lk.claim = .contention) ∧
    (∃ (s : State), s.lk.actIn = false ∧ s.lk.claim = .suspended) ∧
    (∃ (s : State), s.lk.actIn = true ∧ s.lk.claim = .contention) ∧
    (∃ (s : State), s.lk.actIn = true ∧ s.lk.claim = .suspended) ∧
    (∃ (s : State) (s1 : State), s.isPaired = true ∧ s.lk.role = 2 ∧ s.lk.actIn = true ∧ s.lk.source = false ∧ s1 = s.raise 0x0706 (b2n s.lk.strap) 2 1 0 ∧ s.lk.strap = false) ∧
    (∃ (s : State) (s1 : State), s.isPaired = true ∧ s.lk.role = 2 ∧ s.lk.actIn = true ∧ s.lk.source = false ∧ s1 = s.raise 0x0706 (b2n s.lk.strap) 2 1 0 ∧ s.lk.strap = true) ∧
    (∃ (s : State), (s.lk.role ≠ 2 ∨ s.lk.actIn = false ∨ s.lk.source = true)) ∧
    (∃ (s : State), s.isPaired = true ∧ s.lk.up = false) ∧
    (∃ (s : State) (s1 : State), s.lk.source = true ∧ s.lk.ceremony = false ∧ s1 = { s with lk := { s.lk with source := false } } ∧ s.lk.actIn = true) ∧
    (∃ (s : State) (s1 : State), s.lk.source = true ∧ s.lk.ceremony = false ∧ s1 = { s with lk := { s.lk with source := false } } ∧ s.lk.actIn = false) ∧
    (∃ (s : State) (c : Cmd), s.lk.ceremony = true ∧ s.lk.pairRec = none ∧ s.lk.beginBy = some c.place ∧ s.cmd? c.place = some c) ∧
    (∃ (s : State), s.lk.ceremony = false) :=
  ⟨⟨(tPair 3 3).modLk (fun l => { l with strap := true, solo := true }), (by decide +kernel), (by decide +kernel), (by decide +kernel)⟩,
   ⟨(tPair 3 3).modLk (fun l => { l with solo := true }), (by decide +kernel), (by decide +kernel), (by decide +kernel)⟩,
   ⟨tOn, (by decide +kernel)⟩,
   ⟨(tPair 3 3).modLk (fun l => { l with solo := true, claim := .reread }), (by decide +kernel), (by decide +kernel), (by decide +kernel)⟩,
   ⟨(tPair 3 3).modLk (fun l => { l with claim := .reread, actIn := true }), (by decide +kernel), (by decide +kernel)⟩,
   ⟨(tPair 3 3).modLk (fun l => { l with claim := .drive }), (by decide +kernel), (by decide +kernel)⟩,
   ⟨(tPair 3 3).modLk (fun l => { l with claim := .drive, actIn := true, strap := true }), _, (by decide +kernel), (by decide +kernel), rfl, (by decide +kernel)⟩,
   ⟨(tPair 3 3).modLk (fun l => { l with claim := .drive, actIn := true }), _, (by decide +kernel), (by decide +kernel), rfl, (by decide +kernel)⟩,
   ⟨tOn.modLk (fun l => { l with claim := .contention }), (by decide +kernel), (by decide +kernel)⟩,
   ⟨tOn.modLk (fun l => { l with claim := .suspended }), (by decide +kernel), (by decide +kernel)⟩,
   ⟨tOn.modLk (fun l => { l with actIn := true, claim := .contention }), (by decide +kernel), (by decide +kernel)⟩,
   ⟨tOn.modLk (fun l => { l with actIn := true, claim := .suspended }), (by decide +kernel), (by decide +kernel)⟩,
   ⟨(tPair 3 2).modLk (fun l => { l with actIn := true }), _, (by decide +kernel), (by decide +kernel), (by decide +kernel), (by decide +kernel), rfl, (by decide +kernel)⟩,
   ⟨(tPair 3 2).modLk (fun l => { l with actIn := true, strap := true }), _, (by decide +kernel), (by decide +kernel), (by decide +kernel), (by decide +kernel), rfl, (by decide +kernel)⟩,
   ⟨tOn, (by decide +kernel)⟩,
   ⟨(tPair 3 2).modLk (fun l => { l with up := false }), (by decide +kernel), (by decide +kernel)⟩,
   ⟨tOn.modLk (fun l => { l with source := true, actIn := true }), _, (by decide +kernel), (by decide +kernel), rfl, (by decide +kernel)⟩,
   ⟨tOn.modLk (fun l => { l with source := true }), _, (by decide +kernel), (by decide +kernel), rfl, (by decide +kernel)⟩,
   ⟨(tT (tW 0x28 [])).modLk (fun l => { l with ceremony := true, beginBy := some (.ctx 0) }), tW 0x28 [], (by decide +kernel), (by decide +kernel), (by decide +kernel), (by decide +kernel)⟩,
   ⟨tOn, (by decide +kernel)⟩⟩

/-- What each clause of `Obligations.LinkTimersComplete` supposes can be met. -/
theorem witness_LinkTimersComplete :
    (∃ (s : State), s.linkWanted = true ∧ s.lk.lanes ≠ 0 ∧ s.lk.up = false ∧ (s.lk.hello = none ∨ s.lk.helloDue = true) ∧ s.lk.eph ≠ []) ∧
    (∃ (s : State) (t : State) (u : State) (b : Bytes), s.linkWanted = true ∧ s.lk.lanes ≠ 0 ∧ s.lk.up = false ∧ s.lk.hello = none ∧ s.lk.eph = [] ∧ s.random 16 64 = .bytes t b ∧ u = { t with lk := { t.lk with ownNonce := sl b 0 32, eph := sl b 32 32 } } ∧ u.lk.hello = none) ∧
    (∃ (s : State), (s.linkWanted = false ∨ s.lk.lanes = 0 ∨ s.lk.up = true)) ∧
    (∃ (s : State), s.linkWanted = true ∧ s.lk.up = false) ∧
    (∃ (s : State) (lane : Nat), s.linkWanted = true ∧ lane < s.lk.lanes) ∧
    (∃ (s : State) (s1 : State), 11 ≤ s.sys.step ∧ s.lk.role ≠ 3 ∧ switching s = none ∧ s1 = { s with lk := { s.lk with viol := 0 } } ∧ s1.beatOpen = true) ∧
    (∃ (s : State) (s1 : State), 11 ≤ s.sys.step ∧ s.lk.role ≠ 3 ∧ switching s = none ∧ s1 = { s with lk := { s.lk with viol := 0 } } ∧ s1.beatOpen = false) ∧
    (∃ (s : State), (s.sys.step < 11 ∨ s.lk.role = 3)) ∧
    (∃ (s : State) (s0 : State) (s1 : State) (s2 : State), s.isPaired = true ∧ (s.lk.up = true ∨ s.mirroring = true ∨ (s.lk.role = 3 ∧ s.lk.pstate = 3 ∧ s.lk.heartbeat = false)) ∧ s0 = s.raise 0x0703 s.lk.role (s.lk.done % 2 ^ 32) (s.lk.done / 2 ^ 32) 0 ∧ (s.lk.up = true → s1 = relink 3 s0) ∧ (s.lk.up = false → s1 = s0) ∧ s2 = { s1 with lk := { s1.lk with heartbeat := s1.lk.role == 3 && s1.lk.pstate == 3 } } ∧ s.mirroring = true) ∧
    (∃ (s : State) (s0 : State) (s1 : State) (s2 : State), s.isPaired = true ∧ (s.lk.up = true ∨ s.mirroring = true ∨ (s.lk.role = 3 ∧ s.lk.pstate = 3 ∧ s.lk.heartbeat = false)) ∧ s0 = s.raise 0x0703 s.lk.role (s.lk.done % 2 ^ 32) (s.lk.done / 2 ^ 32) 0 ∧ (s.lk.up = true → s1 = relink 3 s0) ∧ (s.lk.up = false → s1 = s0) ∧ s2 = { s1 with lk := { s1.lk with heartbeat := s1.lk.role == 3 && s1.lk.pstate == 3 } } ∧ s.mirroring = false) ∧
    (∃ (s : State), (s.isPaired = false ∨ (s.lk.up = false ∧ s.mirroring = false ∧ s.lk.role ≠ 3))) :=
  ⟨⟨(tPair 3 2).modLk (fun l => { l with up := false }), (by decide +kernel), (by decide +kernel), (by decide +kernel), (by decide +kernel), (by decide +kernel)⟩,
   ⟨(tPair 3 2).modLk (fun l => { l with up := false, eph := [] }), _, _, _, (by decide +kernel), (by decide +kernel), (by decide +kernel), (by decide +kernel), (by decide +kernel), (bytes_eta (by decide +kernel)), rfl, (by decide +kernel)⟩,
   ⟨tOn, (by decide +kernel)⟩,
   ⟨(tPair 3 2).modLk (fun l => { l with up := false }), (by decide +kernel), (by decide +kernel)⟩,
   ⟨tPair 3 2, 3, (by decide +kernel), (by decide +kernel)⟩,
   ⟨tOn, _, (by decide +kernel), (by decide +kernel), (by decide +kernel), rfl, (by decide +kernel)⟩,
   ⟨tPair 3 2, _, (by decide +kernel), (by decide +kernel), (by decide +kernel), rfl, (by decide +kernel)⟩,
   ⟨tPair 3 3, (by decide +kernel)⟩,
   ⟨tPair 3 2, _, _, _, (by decide +kernel), (by decide +kernel), rfl, (fun _ => rfl), (fun h => absurd h (by decide +kernel)), rfl, (by decide +kernel)⟩,
   ⟨tPair 3 3, _, _, _, (by decide +kernel), (by decide +kernel), rfl, (fun _ => rfl), (fun h => absurd h (by decide +kernel)), rfl, (by decide +kernel)⟩,
   ⟨tOn, (by decide +kernel)⟩⟩

/-- What each clause of `Obligations.LinkTimedEventsRun` supposes can be met. -/
theorem witness_LinkTimedEventsRun :
    (∃ (s : State), s.linkWanted = true ∧ s.lk.lanes ≠ 0 ∧ s.lk.up = false ∧ s.lk.hello = none ∧ s.lk.eph ≠ []) ∧
    (∃ (s : State), s.linkWanted = true ∧ s.lk.up = false) ∧
    (∃ (s : State), s.linkWanted = true ∧ s.lk.up = false ∧ s.lk.lanes = 4) ∧
    (∃ (s : State), s.linkWanted = true ∧ s.lk.up = false ∧ s.lk.lanes ≠ 4 ∧ s.lk.lanes ≤ 2 ∧ 1 ≤ s.lk.lanes) ∧
    (∃ (s : State) (lane : Nat), s.linkWanted = true ∧ lane < s.lk.lanes) ∧
    (∃ (s : State), 11 ≤ s.sys.step ∧ s.lk.role ≠ 3 ∧ switching s = none ∧ s.mirroring = false) ∧
    (∃ (s : State), s.isPaired = true ∧ s.lk.role = 3 ∧ s.lk.pstate = 3 ∧ s.lk.up = true) :=
  ⟨⟨(tPair 3 2).modLk (fun l => { l with up := false }), (by decide +kernel), (by decide +kernel), (by decide +kernel), (by decide +kernel), (by decide +kernel)⟩,
   ⟨(tPair 3 2).modLk (fun l => { l with up := false }), (by decide +kernel), (by decide +kernel)⟩,
   ⟨(tPair 3 2).modLk (fun l => { l with up := false }), (by decide +kernel), (by decide +kernel), (by decide +kernel)⟩,
   ⟨(tPair 3 2).modLk (fun l => { l with up := false, lanes := 2 }), (by decide +kernel), (by decide +kernel), (by decide +kernel), (by decide +kernel), (by decide +kernel)⟩,
   ⟨tPair 3 2, 3, (by decide +kernel), (by decide +kernel)⟩,
   ⟨tOn, (by decide +kernel), (by decide +kernel), (by decide +kernel), (by decide +kernel)⟩,
   ⟨tPair 3 3, (by decide +kernel), (by decide +kernel), (by decide +kernel), (by decide +kernel)⟩⟩

/-- What each clause of `Obligations.EveryFrameIsChecked` supposes can be met. -/
theorem witness_EveryFrameIsChecked :
    (∃ (i : Instr) (s : State) (typ : Nat) (w : Wire) (f : Frame), frameRow i = some (typ, w) ∧ s.opened w = f ∧ (f.typ ≠ typ ∨ s.receiving = false)) ∧
    (∃ (i : Instr) (s : State) (typ : Nat) (w : Wire) (f : Frame), frameRow i = some (typ, w) ∧ s.opened w = f ∧ f.typ = typ ∧ s.receiving = true ∧ frameSound s w = false) ∧
    (∃ (i : Instr) (s : State) (typ : Nat) (w : Wire) (f : Frame), frameRow i = some (typ, w) ∧ s.opened w = f ∧ f.typ = typ ∧ s.receiving = true ∧ frameSound s w = true ∧ f.seq < s.lk.rxSeq) ∧
    (∃ (i : Instr) (s : State) (typ : Nat) (w : Wire) (f : Frame), frameRow i = some (typ, w) ∧ s.opened w = f ∧ f.typ = typ ∧ s.receiving = true ∧ frameSound s w = true ∧ s.lk.rxSeq < f.seq) ∧
    (∃ (i : Instr) (s : State) (typ : Nat) (w : Wire) (f : Frame), frameRow i = some (typ, w) ∧ s.opened w = f ∧ f.typ = typ ∧ s.receiving = true ∧ frameSound s w = true ∧ f.seq = s.lk.rxSeq ∧ s.lk.up = true ∧ permitted s f = false) :=
  ⟨⟨.luakaBeatData (tWire (tPair 3 3) 3 []), tPair 3 3, 2, tWire (tPair 3 3) 3 [], tFrame 3 [], rfl, (opened_tSeal _ _ _), (by decide +kernel)⟩,
   ⟨.luakaBeatData ({ tWire (tPair 3 3) 2 [] with body := [0] }), tPair 3 3, 2, { tWire (tPair 3 3) 2 [] with body := [0] }, (tPair 3 3).opened ({ tWire (tPair 3 3) 2 [] with body := [0] }), rfl, rfl, (by decide +kernel), (by decide +kernel), (by decide +kernel)⟩,
   ⟨.luakaBeatData (tSeal (tPair 3 3) (frameHeader 2 false 0 0 1) []), tPair 3 3, 2, tSeal (tPair 3 3) (frameHeader 2 false 0 0 1) [], { tFrame 2 [] with seq := 0 }, rfl, (opened_tSeal _ _ _), (by decide +kernel), (by decide +kernel), (by rw [frameSound_tSeal]; decide +kernel), (by decide +kernel)⟩,
   ⟨.luakaBeatData (tSeal (tPair 3 3) (frameHeader 2 false 0 2 1) []), tPair 3 3, 2, tSeal (tPair 3 3) (frameHeader 2 false 0 2 1) [], { tFrame 2 [] with seq := 2 }, rfl, (opened_tSeal _ _ _), (by decide +kernel), (by decide +kernel), (by rw [frameSound_tSeal]; decide +kernel), (by decide +kernel)⟩,
   ⟨.luakaBeatData (tWire (tPair 3 2) 2 []), tPair 3 2, 2, tWire (tPair 3 2) 2 [], tFrame 2 [], rfl, (opened_tSeal _ _ _), (by decide +kernel), (by decide +kernel), (by rw [tWire, frameSound_tSeal]; decide +kernel), (by decide +kernel), (by decide +kernel), (by decide +kernel)⟩⟩

/-- What each clause of `Obligations.FramesComplete` supposes can be met. -/
theorem witness_FramesComplete :
    (∃ (s : State) (w : Wire) (f : Frame) (rs : List BeatRec) (rest : Bytes), FrameReady s 0x02 w f ∧ s.lk.role = 3 ∧ 2 ≤ s.lk.pstate ∧ beatExpected s f.beat = true ∧ takeRecs recTypes ((s.lk.rxBuf ++ f.payload).length + 1) (s.lk.rxBuf ++ f.payload) = some (rs, rest)) ∧
    (∃ (s : State) (w : Wire) (f : Frame), FrameReady s 0x03 w f ∧ s.lk.role = 3 ∧ 2 ≤ s.lk.pstate ∧ beatExpected s f.beat = true ∧ s.lk.rxBuf = [] ∧ f.payload.length = 16 ∧ fieldLe f.payload 0 4 = s.lk.partial_.length ∧ fieldLe f.payload 4 4 = ((s.lk.partial_.map (fun r => r.1)).map (fun r => r.bytes.length)).sum ∧ fieldLe f.payload 8 8 = ((((s.lk.partial_.map (fun r => r.1)).filter (fun r => r.stamp != 0)).getLast?.map (fun r => r.stamp)).getD 0) ∧ stampsOk f.beat (s.lk.partial_.map (fun r => r.1)) = true ∧ s.sag.warning = false) ∧
    (∃ (s : State) (w : Wire) (f : Frame), FrameReady s 0x03 w f ∧ s.lk.role = 3 ∧ 2 ≤ s.lk.pstate ∧ beatExpected s f.beat = true ∧ s.lk.rxBuf = [] ∧ f.payload.length = 16 ∧ fieldLe f.payload 0 4 = s.lk.partial_.length ∧ fieldLe f.payload 4 4 = ((s.lk.partial_.map (fun r => r.1)).map (fun r => r.bytes.length)).sum ∧ fieldLe f.payload 8 8 = ((((s.lk.partial_.map (fun r => r.1)).filter (fun r => r.stamp != 0)).getLast?.map (fun r => r.stamp)).getD 0) ∧ stampsOk f.beat (s.lk.partial_.map (fun r => r.1)) = true ∧ s.sag.warning = true) ∧
    (∃ (s : State) (t : State) (rs : List (BeatRec × Bool)), applyBeat rs s = some t) ∧
    (∃ (s : State) (rs : List (BeatRec × Bool)), applyBeat rs s = none) ∧
    (∃ (s : State) (s1 : State) (w : Wire) (f : Frame), FrameReady s 0x04 w f ∧ s1 = ({ s with lk := { s.frameTaken.lk with done := f.beat, beats := s.lk.beats.drop 1, held := s.lk.held.filter (fun h => h.beat != f.beat % 2 ^ 44) } } : State).deliverAll (s.lk.held.filter (fun h => h.beat == f.beat % 2 ^ 44)) ∧ s1.lk.beats.any (fun b => b.num == s1.lk.beat) = true) ∧
    (∃ (s : State) (s1 : State) (w : Wire) (f : Frame), FrameReady s 0x04 w f ∧ s1 = ({ s with lk := { s.frameTaken.lk with done := f.beat, beats := s.lk.beats.drop 1, held := s.lk.held.filter (fun h => h.beat != f.beat % 2 ^ 44) } } : State).deliverAll (s.lk.held.filter (fun h => h.beat == f.beat % 2 ^ 44)) ∧ s1.lk.beats.any (fun b => b.num == s1.lk.beat) = false) ∧
    (∃ (s : State) (t : State) (w : Wire) (f : Frame) (n : Nat) (rs : List BeatRec) (rest : Bytes), FrameReady s 0x05 w f ∧ s.lk.role = 3 ∧ s.lk.pstate = 2 ∧ s.lk.snapRx = some n ∧ takeRecs ([0x20, 0x21] ++ recTypes) ((s.lk.snapBuf ++ f.payload).length + 1) (s.lk.snapBuf ++ f.payload) = some (rs, rest) ∧ applySnap rs s.frameTaken = some t) ∧
    (∃ (s : State) (s1 : State) (w : Wire) (f : Frame) (n : Nat), FrameReady s 0x06 w f ∧ s.lk.snapRx = some n ∧ s.lk.snapBuf = [] ∧ f.payload.length = 4 ∧ fieldLe f.payload 0 4 = n ∧ s1 = (({ s with lk := { s.frameTaken.lk with complete := true, snapRx := none, snapPos := (0, 0), snapSeen := [] } } : State).frame 0x07 false s.lk.beat []).setPair 3 3) ∧
    (∃ (s : State) (s1 : State) (w : Wire) (f : Frame), FrameReady s 0x07 w f ∧ s1 = ({ s with lk := { s.frameTaken.lk with snapTx := none } } : State).setPair 3 2) ∧
    (∃ (s : State) (w : Wire) (f : Frame), FrameReady s 0x08 w f ∧ byteAt f.payload 0 = 1 ∧ s.lk.role = 2) ∧
    (∃ (s : State) (w : Wire) (f : Frame), FrameReady s 0x08 w f ∧ byteAt f.payload 0 = 2) ∧
    (∃ (s : State) (w : Wire) (f : Frame), FrameReady s 0x09 w f) ∧
    (∃ (s : State) (w : Wire) (f : Frame), FrameReady s 0x0A w f) :=
  ⟨⟨tPair 3 3, tWire (tPair 3 3) 2 [], tFrame 2 [], _, _, (ready_tWire _ _ _ (by decide +kernel) (by decide +kernel) (by rw [tWire, opened_tSeal]; decide +kernel) (by decide +kernel) (by decide +kernel) (by decide +kernel)), (by decide +kernel), (by decide +kernel), (by decide +kernel), (some2_eta (by decide +kernel))⟩,
   ⟨tPair 2 3, tWire (tPair 2 3) 3 (zeros 16), tFrame 3 (zeros 16), (ready_tWire _ _ _ (by decide +kernel) (by decide +kernel) (by rw [tWire, opened_tSeal]; decide +kernel) (by decide +kernel) (by decide +kernel) (by decide +kernel)), (by decide +kernel), (by decide +kernel), (by decide +kernel), (by decide +kernel), (by decide +kernel), (by decide +kernel), (by decide +kernel), (by decide +kernel), (by decide +kernel), (by decide +kernel)⟩,
   ⟨{ tPair 2 3 with sag := { tOn.sag with warning := true } }, tWire ({ tPair 2 3 with sag := { tOn.sag with warning := true } }) 3 (zeros 16), tFrame 3 (zeros 16), (ready_tWire _ _ _ (by decide +kernel) (by decide +kernel) (by rw [tWire, opened_tSeal]; decide +kernel) (by decide +kernel) (by decide +kernel) (by decide +kernel)), (by decide +kernel), (by decide +kernel), (by decide +kernel), (by decide +kernel), (by decide +kernel), (by decide +kernel), (by decide +kernel), (by decide +kernel), (by decide +kernel), (by decide +kernel)⟩,
   ⟨tPair 3 3, _, [], (some_eta (by decide +kernel))⟩,
   ⟨tPair 3 3, [({ stamp := 0, typ := 6, part := 0, body := [1] }, true)], (by decide +kernel)⟩,
   ⟨(tPair 3 2).modLk (fun l => { l with beat := 2, beats := [{ num := 1, closed := true, recs := [], bytes := 0 }, { num := 2, closed := false, recs := [], bytes := 0 }] }), _, tWire ((tPair 3 2).modLk (fun l => { l with beat := 2, beats := [{ num := 1, closed := true, recs := [], bytes := 0 }, { num := 2, closed := false, recs := [], bytes := 0 }] })) 4 [], tFrame 4 [], (ready_tWire _ _ _ (by decide +kernel) (by decide +kernel) (by rw [tWire, opened_tSeal]; decide +kernel) (by decide +kernel) (by decide +kernel) (by decide +kernel)), rfl, (by decide +kernel)⟩,
   ⟨(tPair 3 2).modLk (fun l => { l with beat := 2, beats := [{ num := 1, closed := true, recs := [], bytes := 0 }] }), _, tWire ((tPair 3 2).modLk (fun l => { l with beat := 2, beats := [{ num := 1, closed := true, recs := [], bytes := 0 }] })) 4 [], tFrame 4 [], (ready_tWire _ _ _ (by decide +kernel) (by decide +kernel) (by rw [tWire, opened_tSeal]; decide +kernel) (by decide +kernel) (by decide +kernel) (by decide +kernel)), rfl, (by decide +kernel)⟩,
   ⟨(tPair 2 3).modLk (fun l => { l with snapRx := some 0 }), _, tWire ((tPair 2 3).modLk (fun l => { l with snapRx := some 0 })) 5 [], tFrame 5 [], 0, _, _, (ready_tWire _ _ _ (by decide +kernel) (by decide +kernel) (by rw [tWire, opened_tSeal]; decide +kernel) (by decide +kernel) (by decide +kernel) (by decide +kernel)), (by decide +kernel), (by decide +kernel), (by decide +kernel), (some2_eta (by decide +kernel)), (some_eta (by decide +kernel))⟩,
   ⟨(tPair 2 3).modLk (fun l => { l with snapRx := some 0 }), _, tWire ((tPair 2 3).modLk (fun l => { l with snapRx := some 0 })) 6 (zeros 4), tFrame 6 (zeros 4), 0, (ready_tWire _ _ _ (by decide +kernel) (by decide +kernel) (by rw [tWire, opened_tSeal]; decide +kernel) (by decide +kernel) (by decide +kernel) (by decide +kernel)), (by decide +kernel), (by decide +kernel), (by decide +kernel), (by decide +kernel), rfl⟩,
   ⟨(tPair 2 2).modLk (fun l => { l with snapTx := some 0 }), _, tWire ((tPair 2 2).modLk (fun l => { l with snapTx := some 0 })) 7 [], tFrame 7 [], (ready_tWire _ _ _ (by decide +kernel) (by decide +kernel) (by rw [tWire, opened_tSeal]; decide +kernel) (by decide +kernel) (by decide +kernel) (by decide +kernel)), rfl⟩,
   ⟨tPair 3 2, tWire (tPair 3 2) 8 [1], tFrame 8 [1], (ready_tWire _ _ _ (by decide +kernel) (by decide +kernel) (by rw [tWire, opened_tSeal]; decide +kernel) (by decide +kernel) (by decide +kernel) (by decide +kernel)), (by decide +kernel), (by decide +kernel)⟩,
   ⟨tPair 3 3, tWire (tPair 3 3) 8 [2], tFrame 8 [2], (ready_tWire _ _ _ (by decide +kernel) (by decide +kernel) (by rw [tWire, opened_tSeal]; decide +kernel) (by decide +kernel) (by decide +kernel) (by decide +kernel)), (by decide +kernel)⟩,
   ⟨tPair 3 3, tWire (tPair 3 3) 9 [], tFrame 9 [], (ready_tWire _ _ _ (by decide +kernel) (by decide +kernel) (by rw [tWire, opened_tSeal]; decide +kernel) (by decide +kernel) (by decide +kernel) (by decide +kernel))⟩,
   ⟨tPair 3 3, tWire (tPair 3 3) 10 [], tFrame 10 [], (ready_tWire _ _ _ (by decide +kernel) (by decide +kernel) (by rw [tWire, opened_tSeal]; decide +kernel) (by decide +kernel) (by decide +kernel) (by decide +kernel))⟩⟩

/-- What each clause of `Obligations.HelloAndViolationsComplete` supposes can be met. -/
theorem witness_HelloAndViolationsComplete :
    (∃ (s : State) (r : PairRec), s.linkWanted = true ∧ s.lk.lanes ≠ 0 ∧ s.lk.pairRec = some r ∧ s.lk.ceremony = false) ∧
    (∃ (s : State), s.lk.hello = none ∧ s.lk.up = false ∧ s.lk.eph ≠ []) ∧
    (∃ (s : State) (r : PairRec), s.lk.eph ≠ [] ∧ s.lk.pairRec = some r) ∧
    (∃ (s : State), (s.linkWanted = false ∨ s.lk.lanes = 0)) ∧
    (∃ (s : State) (w : Wire), s.receiving = true ∧ frameSound s w = false) ∧
    (∃ (s : State) (w : Wire) (f : Frame), s.opened w = f ∧ s.receiving = true ∧ frameSound s w = true ∧ f.seq < s.lk.rxSeq) ∧
    (∃ (s : State) (w : Wire) (f : Frame), s.opened w = f ∧ s.receiving = true ∧ frameSound s w = true ∧ s.lk.rxSeq < f.seq) ∧
    (∃ (s : State) (w : Wire) (f : Frame), s.opened w = f ∧ s.receiving = true ∧ frameSound s w = true ∧ f.seq = s.lk.rxSeq ∧ s.lk.up = true ∧ permitted s f = false) :=
  ⟨⟨tPair 3 3, tRec, (by decide +kernel), (by decide +kernel), (by decide +kernel), (by decide +kernel)⟩,
   ⟨(tPair 3 3).modLk (fun l => { l with up := false }), (by decide +kernel), (by decide +kernel), (by decide +kernel)⟩,
   ⟨tPair 3 3, tRec, (by decide +kernel), (by decide +kernel)⟩,
   ⟨tOn, (by decide +kernel)⟩,
   ⟨tPair 3 3, { tWire (tPair 3 3) 2 [] with body := [0] }, (by decide +kernel), (by decide +kernel)⟩,
   ⟨tPair 3 3, tSeal (tPair 3 3) (frameHeader 2 false 0 0 1) [], { tFrame 2 [] with seq := 0 }, (opened_tSeal _ _ _), (by decide +kernel), (by rw [frameSound_tSeal]; decide +kernel), (by decide +kernel)⟩,
   ⟨tPair 3 3, tSeal (tPair 3 3) (frameHeader 2 false 0 2 1) [], { tFrame 2 [] with seq := 2 }, (opened_tSeal _ _ _), (by decide +kernel), (by rw [frameSound_tSeal]; decide +kernel), (by decide +kernel)⟩,
   ⟨tPair 3 2, tWire (tPair 3 2) 2 [], tFrame 2 [], (opened_tSeal _ _ _), (by decide +kernel), (by rw [tWire, frameSound_tSeal]; decide +kernel), (by decide +kernel), (by decide +kernel), (by decide +kernel)⟩⟩

/-- What each clause of `Obligations.TimeComplete` supposes can be met. -/
theorem witness_TimeComplete :
    (∃ (s : State), s.sys.pllLock = true) ∧
    (∃ (s : State), s.sys.pllLock = false) ∧
    (∃ (s : State) (s1 : State) (s2 : State) (m : PtpMsg), ptpHeard s m = true ∧ s1 = ptpSecond s ∧ ptpWhole m 64 = true ∧ s1.pt.announces < 16 ∧ m.clockClass ≠ 255 ∧ m.stepsRemoved < 255 ∧ m.ptpTimescale = true ∧ s1.pt.masters.find? (fun x => x.msg.clockId == m.clockId) = none ∧ s1.pt.gmid ≠ m.clockId ∧ s2 = { s1 with pt := { s1.pt with announces := s1.pt.announces + 1, masters := { msg := m, heard := [s1.evr.optime] } :: s1.pt.masters.filter (fun y => y.msg.clockId != m.clockId) } } ∧ bestMaster s2 = none) ∧
    (∃ (s : State) (s1 : State) (s2 : State) (m : PtpMsg) (x : _), ptpHeard s m = true ∧ s1 = ptpSecond s ∧ ptpWhole m 64 = true ∧ s1.pt.announces < 16 ∧ m.clockClass ≠ 255 ∧ m.stepsRemoved < 255 ∧ m.ptpTimescale = true ∧ s1.pt.masters.find? (fun x => x.msg.clockId == m.clockId) = none ∧ s1.pt.gmid ≠ m.clockId ∧ s2 = { s1 with pt := { s1.pt with announces := s1.pt.announces + 1, masters := { msg := m, heard := [s1.evr.optime] } :: s1.pt.masters.filter (fun y => y.msg.clockId != m.clockId) } } ∧ bestMaster s2 = some x ∧ x.msg.clockId = s1.pt.gmid) ∧
    (∃ (s : State) (s1 : State) (s2 : State) (m : PtpMsg) (x : _), ptpHeard s m = true ∧ s1 = ptpSecond s ∧ ptpWhole m 64 = true ∧ s1.pt.announces < 16 ∧ m.clockClass ≠ 255 ∧ m.stepsRemoved < 255 ∧ m.ptpTimescale = true ∧ s1.pt.masters.find? (fun x => x.msg.clockId == m.clockId) = none ∧ s1.pt.gmid ≠ m.clockId ∧ s2 = { s1 with pt := { s1.pt with announces := s1.pt.announces + 1, masters := { msg := m, heard := [s1.evr.optime] } :: s1.pt.masters.filter (fun y => y.msg.clockId != m.clockId) } } ∧ bestMaster s2 = some x ∧ x.msg.clockId ≠ s1.pt.gmid) ∧
    (∃ (s : State) (m : PtpMsg), ptpHeard s m = true ∧ ptpWhole m 64 = false) ∧
    (∃ (s : State) (m : PtpMsg), ptpHeard s m = true ∧ ptpWhole m 44 = false) ∧
    (∃ (s : State) (m : PtpMsg), ptpHeard s m = true ∧ ptpWhole m 54 = false) ∧
    (∃ (s : State) (m : PtpMsg), ptpHeard s m = false) ∧
    (∃ (s : State) (s1 : State) (s2 : State) (m : PtpMsg), ptpHeard s m = true ∧ s1 = ptpSecond s ∧ ptpWhole m 44 = true ∧ fromMaster s1 m = true ∧ s1.pt.syncs < 16 ∧ s2 = { s1 with pt := { s1.pt with syncs := s1.pt.syncs + 1, syncSeq := some m.seqId, t2 := m.rxNs - Config.pathIn, cfSync := m.cf, t1 := if m.twoStep then none else some m.originNs, req := none, resp := none } } ∧ delayDue s2 = true) ∧
    (∃ (s : State) (s1 : State) (s2 : State) (m : PtpMsg), ptpHeard s m = true ∧ s1 = ptpSecond s ∧ ptpWhole m 44 = true ∧ fromMaster s1 m = true ∧ s1.pt.syncs < 16 ∧ s2 = { s1 with pt := { s1.pt with syncs := s1.pt.syncs + 1, syncSeq := some m.seqId, t2 := m.rxNs - Config.pathIn, cfSync := m.cf, t1 := if m.twoStep then none else some m.originNs, req := none, resp := none } } ∧ delayDue s2 = false) ∧
    (∃ (s : State) (s1 : State) (m : PtpMsg), ptpHeard s m = true ∧ ptpWhole m 44 = true ∧ fromMaster s m = true ∧ s.pt.syncSeq = some m.seqId ∧ s.pt.t1 = none ∧ s1 = { s with pt := { s.pt with t1 := some m.originNs, cfSync := s.pt.cfSync + m.cf } } ∧ (s.pt.req = none ∨ s.pt.resp = none)) ∧
    (∃ (s : State) (s1 : State) (m : PtpMsg) (r : _) (a : _), ptpHeard s m = true ∧ ptpWhole m 44 = true ∧ fromMaster s m = true ∧ s.pt.syncSeq = some m.seqId ∧ s.pt.t1 = none ∧ s1 = { s with pt := { s.pt with t1 := some m.originNs, cfSync := s.pt.cfSync + m.cf } } ∧ s.pt.req = some r ∧ s.pt.resp = some a) ∧
    (∃ (s : State) (s1 : State) (m : PtpMsg) (q : Nat × Int), ptpHeard s m = true ∧ ptpWhole m 54 = true ∧ fromMaster s m = true ∧ m.reqPortOk = true ∧ s.pt.req = some q ∧ q.1 = m.seqId ∧ s.pt.resp = none ∧ s1 = { s with pt := { s.pt with resp := some (m.originNs, m.cf), minReq := m.logInterval } } ∧ s.pt.t1 = none) ∧
    (∃ (s : State) (s1 : State) (m : PtpMsg) (q : Nat × Int) (t1 : _), ptpHeard s m = true ∧ ptpWhole m 54 = true ∧ fromMaster s m = true ∧ m.reqPortOk = true ∧ s.pt.req = some q ∧ q.1 = m.seqId ∧ s.pt.resp = none ∧ s1 = { s with pt := { s.pt with resp := some (m.originNs, m.cf), minReq := m.logInterval } } ∧ s.pt.t1 = some t1) ∧
    (∃ (s : State) (m : PtpMsg), ptpHeard s m = true ∧ s.pt.req = none) ∧
    (∃ (s : State) (off : Int), isOutlier s off = false ∧ 1000000 ≤ off.natAbs ∧ s.pt.state ≠ 2) ∧
    (∃ (s : State) (off : Int), isOutlier s off = true) ∧
    (∃ (s : State) (ns : Nat), s.pt.ppsIn = true ∧ s.lk.role ≠ 3 ∧ s.pt.gmid ≠ 0 ∧ (foldPhase ns + s.pt.asym).natAbs ≤ 1000000) ∧
    (∃ (s : State) (ns : Nat), s.pt.ppsIn = true ∧ s.lk.role ≠ 3 ∧ s.pt.gmid ≠ 0 ∧ 1000000 < (foldPhase ns + s.pt.asym).natAbs) ∧
    (∃ (s : State), (s.pt.ppsIn = false ∨ s.lk.role = 3 ∨ s.pt.gmid = 0)) ∧
    (∃ (s : State), s.pt.ppsLock = true) ∧
    (∃ (s : State), s.pt.state = 1) ∧
    (∃ (s : State), s.pt.state = 2) ∧
    (∃ (s : State), s.pt.state ≠ 1 ∧ s.pt.state ≠ 2) ∧
    (∃ (s : State), holdOver s = true) ∧
    (∃ (s : State), holdOver s = false) ∧
    (∃ (s : State), s.pt.state = 3) ∧
    (∃ (s : State), s.lk.role = 3 ∧ s.lk.pstate ≠ 0 ∧ s.lk.sessTx ≠ []) ∧
    (∃ (s : State) (n : Nat), s.pt.state ≠ n) :=
  ⟨⟨tOn, (by decide +kernel)⟩,
   ⟨{ tOn with sys := { tOn.sys with pllLock := false } }, (by decide +kernel)⟩,
   ⟨tOn, _, _, tMsg, (by decide +kernel), rfl, (by decide +kernel), (by decide +kernel), (by decide +kernel), (by decide +kernel), (by decide +kernel), (by decide +kernel), (by decide +kernel), rfl, (by decide +kernel)⟩,
   ⟨tTime (fun t => { t with gmid := 7, masters := [{ msg := { tMsg with clockId := 7 }, heard := [0, 0] }] }), _, _, tMsg, { msg := { tMsg with clockId := 7 }, heard := [0, 0] }, (by decide +kernel), rfl, (by decide +kernel), (by decide +kernel), (by decide +kernel), (by decide +kernel), (by decide +kernel), (by decide +kernel), (by decide +kernel), rfl, (by decide +kernel), (by decide +kernel)⟩,
   ⟨tTime (fun t => { t with masters := [{ msg := { tMsg with clockId := 7 }, heard := [0, 0] }] }), _, _, tMsg, { msg := { tMsg with clockId := 7 }, heard := [0, 0] }, (by decide +kernel), rfl, (by decide +kernel), (by decide +kernel), (by decide +kernel), (by decide +kernel), (by decide +kernel), (by decide +kernel), (by decide +kernel), rfl, (by decide +kernel), (by decide +kernel)⟩,
   ⟨tOn, { tMsg with version := 1 }, (by decide +kernel), (by decide +kernel)⟩,
   ⟨tOn, { tMsg with version := 1 }, (by decide +kernel), (by decide +kernel)⟩,
   ⟨tOn, { tMsg with version := 1 }, (by decide +kernel), (by decide +kernel)⟩,
   ⟨tOn, { tMsg with domain := 1 }, (by decide +kernel)⟩,
   ⟨tTime (fun t => { t with gmid := 5, syncs := 15 }), _, _, tMsg, (by decide +kernel), rfl, (by decide +kernel), (by decide +kernel), (by decide +kernel), rfl, (by decide +kernel)⟩,
   ⟨tTime (fun t => { t with gmid := 5, lastReq := some 0 }), _, _, tMsg, (by decide +kernel), rfl, (by decide +kernel), (by decide +kernel), (by decide +kernel), rfl, (by decide +kernel)⟩,
   ⟨tTime (fun t => { t with gmid := 5, syncSeq := some 1 }), _, tMsg, (by decide +kernel), (by decide +kernel), (by decide +kernel), (by decide +kernel), (by decide +kernel), rfl, (by decide +kernel)⟩,
   ⟨tTime (fun t => { t with gmid := 5, syncSeq := some 1, req := some (0, 0), resp := some (0, 0) }), _, tMsg, (0, 0), (0, 0), (by decide +kernel), (by decide +kernel), (by decide +kernel), (by decide +kernel), (by decide +kernel), rfl, (by decide +kernel), (by decide +kernel)⟩,
   ⟨tTime (fun t => { t with gmid := 5, syncSeq := some 1, req := some (1, 0) }), _, tMsg, (1, 0), (by decide +kernel), (by decide +kernel), (by decide +kernel), (by decide +kernel), (by decide +kernel), (by decide +kernel), (by decide +kernel), rfl, (by decide +kernel)⟩,
   ⟨tTime (fun t => { t with gmid := 5, syncSeq := some 1, t1 := some 0, req := some (1, 0) }), _, tMsg, (1, 0), 0, (by decide +kernel), (by decide +kernel), (by decide +kernel), (by decide +kernel), (by decide +kernel), (by decide +kernel), (by decide +kernel), rfl, (by decide +kernel)⟩,
   ⟨tOn, tMsg, (by decide +kernel), (by decide +kernel)⟩,
   ⟨tOn, 1000000, (by decide +kernel), (by decide +kernel), (by decide +kernel)⟩,
   ⟨tTime (fun t => { t with state := 2 }), -100001, (by decide +kernel)⟩,
   ⟨tTime (fun t => { t with ppsIn := true, gmid := 5 }), 1000000, (by decide +kernel), (by decide +kernel), (by decide +kernel), (by decide +kernel)⟩,
   ⟨tTime (fun t => { t with ppsIn := true, gmid := 5 }), 1000001, (by decide +kernel), (by decide +kernel), (by decide +kernel), (by decide +kernel)⟩,
   ⟨tOn, (by decide +kernel)⟩,
   ⟨tTime (fun t => { t with ppsLock := true }), (by decide +kernel)⟩,
   ⟨tTime (fun t => { t with state := 1 }), (by decide +kernel)⟩,
   ⟨tTime (fun t => { t with state := 2 }), (by decide +kernel)⟩,
   ⟨tOn, (by decide +kernel), (by decide +kernel)⟩,
   ⟨tTime (fun t => { t with state := 3, limitH := 1, sec := 3600 }), (by decide +kernel)⟩,
   ⟨tTime (fun t => { t with state := 3, limitH := 1, sec := 3599 }), (by decide +kernel)⟩,
   ⟨tTime (fun t => { t with state := 3 }), (by decide +kernel)⟩,
   ⟨tPair 3 3, (by decide +kernel), (by decide +kernel), (by decide +kernel)⟩,
   ⟨tOn, 2, (by decide +kernel)⟩⟩

/-- What each clause of `Obligations.TimeCounterRule` supposes can be met. -/
theorem witness_TimeCounterRule :
    (∃ (t : TimeKeep), t.acc + t.addend < secUnits) ∧
    (∃ (t : TimeKeep), secUnits ≤ t.acc + t.addend) ∧
    (∃ (t : TimeKeep), t.acc < secUnits ∧ t.addend ≤ secUnits) :=
  ⟨⟨TimeKeep.reset, (by decide +kernel)⟩,
   ⟨{ TimeKeep.reset with acc := secUnits - 1 }, (by decide +kernel)⟩,
   ⟨{ TimeKeep.reset with acc := secUnits - 1 }, (by decide +kernel), (by decide +kernel)⟩⟩

/-- What each clause of `Obligations.RandomSourceComplete` supposes can be met. -/
theorem witness_RandomSourceComplete :
    (∃ (s : State) (i : Nat) (l : List (List Bool)) (b : Bytes), s.rng.srcReady = true ∧ s.rngOff = false ∧ blockAt (usedSources s.rng.inUse) l 0 = some b ∧ nextInstance (wantAll s) = some i) ∧
    (∃ (s : State) (s1 : State) (l : List (List Bool)) (b : Bytes), s.rng.srcReady = true ∧ s.rngOff = false ∧ blockAt (usedSources s.rng.inUse) l 0 = some b ∧ s1 = wantAll s ∧ nextInstance s1 = none ∧ s1.rng.pool.length < 8) ∧
    (∃ (s : State) (s1 : State) (l : List (List Bool)) (b : Bytes), s.rng.srcReady = true ∧ s.rngOff = false ∧ blockAt (usedSources s.rng.inUse) l 0 = some b ∧ s1 = wantAll s ∧ nextInstance s1 = none ∧ 8 ≤ s1.rng.pool.length) ∧
    (∃ (s : State) (i : Nat), i ≠ 16 ∧ (s.drbg i).seeded = false) ∧
    (∃ (s : State) (src : Nat) (test : Nat) (l : List Bool), src < 8 ∧ (test = 1 ∨ test = 2) ∧ showsFailure test l = true ∧ s.rng.raw = true) ∧
    (∃ (s : State) (src : Nat) (test : Nat) (l : List Bool), src < 8 ∧ (test = 1 ∨ test = 2) ∧ showsFailure test l = true ∧ s.rng.raw = false ∧ s.rng.srcReady = true ∧ s.rng.inUse.getLsbD src = true) ∧
    (∃ (test : Nat) (l : List Bool), showsFailure test l = false) ∧
    (∃ (s : State) (s1 : State) (l : List (List Bool)) (passed : BitVec 8) (out : List Nat), s.rng.testing = true ∧ passed = passMask l ∧ out = (List.range 8).filter (fun i => !passed.getLsbD i) ∧ s1 = out.foldl (fun t i => t.raise 0x0408 i 0 0 0) s ∧ out.length ≤ 4) ∧
    (∃ (s : State) (s1 : State) (l : List (List Bool)) (passed : BitVec 8) (out : List Nat), s.rng.testing = true ∧ passed = passMask l ∧ out = (List.range 8).filter (fun i => !passed.getLsbD i) ∧ s1 = out.foldl (fun t i => t.raise 0x0408 i 0 0 0) s ∧ 4 < out.length) ∧
    (∃ (s : State), 2 ≤ (recentFails s).length) ∧
    (∃ (s : State), (recentFails s).length < 2) ∧
    (∃ (s : State) (s1 : State) (src : Nat) (l : List Bool) (b : Int) (l1 : Int) (l2 : Int) (l3 : Int) (l4 : Int) (v : Health) (old : Health), src < 8 ∧ s.powered 32 = true ∧ 65540 ≤ l.length ∧ estimates l = [b, l1, l2, l3, l4] ∧ old = (s.rng.health[src]?).getD Health.reset ∧ v = { bias := sat16 b, lag1 := sat16 l1, lag2 := sat16 l2, lag3 := sat16 l3, lag4 := sat16 l4, warnBias := s.rng.warnBias, warnLag := s.rng.warnLag } ∧ s1 = { s with rng := { s.rng with health := s.rng.health.set src v } } ∧ old.warnBias = 0 ∧ old.warnLag = 0) ∧
    (∃ (s : State) (s1 : State) (src : Nat) (l : List Bool) (b : Int) (l1 : Int) (l2 : Int) (l3 : Int) (l4 : Int) (v : Health) (old : Health), src < 8 ∧ s.powered 32 = true ∧ 65540 ≤ l.length ∧ estimates l = [b, l1, l2, l3, l4] ∧ old = (s.rng.health[src]?).getD Health.reset ∧ v = { bias := sat16 b, lag1 := sat16 l1, lag2 := sat16 l2, lag3 := sat16 l3, lag4 := sat16 l4, warnBias := s.rng.warnBias, warnLag := s.rng.warnLag } ∧ s1 = { s with rng := { s.rng with health := s.rng.health.set src v } } ∧ old.warnBias ≠ 0 ∧ old.warnBias < (sat16 b).natAbs) ∧
    (∃ (s : State) (s1 : State) (s2 : State) (i : Nat) (w : Nat), (s.drbg i).wait = 2 ∧ oldestWait s i = some w ∧ s1 = (s.timeAtLeast (w + 50)).raise 0x0404 i s.rng.pool.length 0 0 ∧ s2 = ((waiters s1 i).filter (fun c => waitedOut s1 c.asked)).foldl (fun t c => t.retire c (if c.abort then 0x7002 else 0x9001)) s1 ∧ jobWaiters s2 i = []) ∧
    (∃ (s : State) (i : Nat), ((s.drbg i).wait ≠ 2 ∨ oldestWait s i = none)) ∧
    (∃ (s : State), s.rng.raw = true) ∧
    (∃ (s : State), readyOk s = true) ∧
    (∃ (s : State), readyOk s = false) :=
  ⟨⟨{ tOn with trd := List.replicate 16 { Treadle.reset with katPassed := true }, rng := { tOn.rng with drbgs := Rng.reset.drbgs } }, _, tSamples 160, _, (by decide +kernel), (by decide +kernel), (some_eta (by decide +kernel)), (some_eta (by decide +kernel))⟩,
   ⟨{ tOn with rng := { tOn.rng with pool := List.replicate 7 (zeros 64) } }, _, tSamples 160, _, (by decide +kernel), (by decide +kernel), (some_eta (by decide +kernel)), rfl, (by decide +kernel), (by decide +kernel)⟩,
   ⟨tOn, _, tSamples 160, _, (by decide +kernel), (by decide +kernel), (some_eta (by decide +kernel)), rfl, (by decide +kernel), (by decide +kernel)⟩,
   ⟨{ tOn with rng := { tOn.rng with drbgs := Rng.reset.drbgs } }, 15, (by decide +kernel), (by decide +kernel)⟩,
   ⟨{ tOn with rng := { tOn.rng with raw := true } }, 7, 2, List.replicate 1024 true, (by decide +kernel), (by decide +kernel), (by decide +kernel), (by decide +kernel)⟩,
   ⟨tOn, 7, 1, List.replicate 81 true, (by decide +kernel), (by decide +kernel), (by decide +kernel), (by decide +kernel), (by decide +kernel), (by decide +kernel)⟩,
   ⟨1, List.replicate 80 true, (by decide +kernel)⟩,
   ⟨{ tOn with rng := { tOn.rng with testing := true } }, _, (tSamples 5120).take 4 ++ List.replicate 4 [], _, _, (by decide +kernel), rfl, rfl, rfl, (by decide +kernel)⟩,
   ⟨{ tOn with rng := { tOn.rng with testing := true } }, _, (tSamples 5120).take 3 ++ List.replicate 5 [], _, _, (by decide +kernel), rfl, rfl, rfl, (by decide +kernel)⟩,
   ⟨{ tOn with rng := { tOn.rng with fails := [0, 0] } }, (by decide +kernel)⟩,
   ⟨{ tOn with rng := { tOn.rng with fails := [0] } }, (by decide +kernel)⟩,
   ⟨{ tOn with rng := { tOn.rng with health := List.replicate 8 { Health.reset with warnBias := 0, warnLag := 0 } } }, _, 7, tOnes, _, _, _, _, _, _, _, (by decide +kernel), (by decide +kernel), (by rw [tOnes_length]), rfl, rfl, rfl, rfl, (by decide +kernel), (by decide +kernel)⟩,
   ⟨tOn, _, 0, tOnes, (((tOnes.take 65536).count true : Nat) : Int) - 32768, _, _, _, _, _, _, (by decide +kernel), (by decide +kernel), (by rw [tOnes_length]), rfl, rfl, rfl, rfl, (by decide +kernel), (by rw [tOnes_bias]; decide +kernel)⟩,
   ⟨{ tT { tP (.ctx 0) 0x1A8 .waitRng [] with asked := 5 } with rng := { tOn.rng with drbgs := tOn.rng.drbgs.set 16 { Drbg.reset with seeded := true, requests := 4096, wait := 2 } } }, _, _, 16, _, (by decide +kernel), (some_eta (by decide +kernel)), rfl, rfl, (by decide +kernel)⟩,
   ⟨tOn, 0, (by decide +kernel)⟩,
   ⟨{ tOn with rng := { tOn.rng with raw := true } }, (by decide +kernel)⟩,
   ⟨tOn, (by decide +kernel)⟩,
   ⟨State.reset, (by decide +kernel)⟩⟩

/-- What each clause of `Obligations.DebugComplete` supposes can be met. -/
theorem witness_DebugComplete :
    (∃ (s : State) (s1 : State) (v : Nat), bit v 0 = true ∧ s1 = { s with dbg := { s.dbg with token := zeros 128, challenge := 0 } }) ∧
    (∃ (w : Writer), w ≠ .debug) ∧
    (∃ (s : State) (t : State) (b : Bytes), s.random 16 8 = .bytes t b) ∧
    (∃ (s : State), s.random 16 8 = .off) ∧
    (∃ (v : Nat), bit v 1 = true) ∧
    (∃ (s : State), s.dbg.active = true) ∧
    (∃ (s : State) (i : Nat), i < 4 ∧ bit s.grantBits 0 = true ∧ s.powered (27 + i) = true ∧ s.sys.inReset = false ∧ haltRefused s i = false) ∧
    (∃ (s : State) (i : Nat), i < 4 ∧ bit s.grantBits 0 = true ∧ s.powered (27 + i) = true ∧ s.sys.inReset = false ∧ haltRefused s i = true) ∧
    (∃ (s : State) (i : Nat), i < 4 ∧ bit s.grantBits 0 = true ∧ s.powered (27 + i) = true ∧ s.sys.inReset = false) ∧
    (∃ (s : State) (i : TapInstr), tapDrives s.dbg.tap = false ∧ tapDrives i = false) ∧
    (∃ (s : State), tapDrives s.dbg.tap = false ∧ scanOpen s = true) ∧
    (∃ (s : State) (i : TapInstr), tapDrives s.dbg.tap = false ∧ tapDrives i = true ∧ scanOpen s = false) ∧
    (∃ (s : State), tapDrives s.dbg.tap = false) ∧
    (∃ (s : State) (t : State), tapDrives s.dbg.tap = true ∧ t = warmReset 0 s) :=
  ⟨⟨tOn, _, 1, (by decide +kernel), rfl⟩,
   ⟨.steward 0 true, (by decide +kernel)⟩,
   ⟨tOn, _, _, (bytes_eta (by decide +kernel))⟩,
   ⟨{ tOn with rng := { tOn.rng with latched := true } }, rfl⟩,
   ⟨2, (by decide +kernel)⟩,
   ⟨{ tOn with dbg := { Debug.reset with active := true } }, (by decide +kernel)⟩,
   ⟨tLc 0x10, 0, (by decide +kernel), (by decide +kernel), (by decide +kernel), (by decide +kernel), (by decide +kernel)⟩,
   ⟨{ tLc 0x10 with pt := { TimeKeep.reset with state := 1 } }, 0, (by decide +kernel), (by decide +kernel), (by decide +kernel), (by decide +kernel), (by decide +kernel)⟩,
   ⟨tLc 0x10, 3, (by decide +kernel), (by decide +kernel), (by decide +kernel), (by decide +kernel)⟩,
   ⟨tOn, .bypass, (by decide +kernel), (by decide +kernel)⟩,
   ⟨tLc 0x10, (by decide +kernel), (by decide +kernel)⟩,
   ⟨tOn, .extest, (by decide +kernel), (by decide +kernel), (by decide +kernel)⟩,
   ⟨tOn, (by decide +kernel)⟩,
   ⟨{ tOn with dbg := { Debug.reset with tap := .extest } }, _, (by decide +kernel), rfl⟩⟩

/-- What each clause of `Obligations.LifeCycleSessionsComplete` supposes can be met. -/
theorem witness_LifeCycleSessionsComplete :
    (∃ (s : State) (w : Writer), lcWriter s w = false) ∧
    (∃ (s : State) (w : Writer) (v : Nat), lcWriter s w = true ∧ bit v 8 = false) ∧
    (∃ (s : State) (s1 : State) (v : Nat) (r : Nat), lcWriter s .debug = true ∧ bit v 8 = true ∧ s1 = { s with lc := { s.lc with target := v % 256 } } ∧ goFault s1 (v % 256) 0 = some r ∧ pathPermitted s.lc.state (v % 256) 0 = false) ∧
    (∃ (s : State) (s1 : State) (s2 : State) (v : Nat), lcWriter s .debug = true ∧ bit v 8 = true ∧ s1 = { s with lc := { s.lc with target := v % 256 } } ∧ goFault s1 (v % 256) 0 = none ∧ s2 = endGrant 5 (({ s1 with lc := { s1.lc with token := zeros 16 } } : State).raise 0x0101 s.lc.state (v % 256) 0 0) ∧ secretBase s.lc.state (v % 256) = none) ∧
    (∃ (s : State) (w : Writer), (w ≠ .debug ∨ s.lc.state ≠ 0)) ∧
    (∃ (s : State) (v : Nat) (a : Nat) (n : Nat), s.lc.state = 0 ∧ bit v 4 = true ∧ progField (v % 16) = some (a, n) ∧ s.lc.session = none ∧ s.sag.warning = false ∧ allZero (s.lc.otpBytes a n) = true) ∧
    (∃ (s : State) (x : Session), s.lc.session = some x ∧ (s.sag.warning = true ∨ s.sys.inReset = true)) ∧
    (∃ (s : State) (x : Session) (w : Nat) (v : BitVec 32) (y : OtpStep) (rest : List OtpStep), s.lc.session = some x ∧ s.sag.warning = false ∧ s.sys.inReset = false ∧ x.left = .word w v :: y :: rest) ∧
    (∃ (s : State) (x : Session) (y : Session) (w : Nat) (v : BitVec 32), s.lc.session = some x ∧ s.sag.warning = false ∧ s.sys.inReset = false ∧ x.left = [.word w v] ∧ y = { x with left := [], words := x.words + 1 }) ∧
    (∃ (s : State) (x : Session), s.lc.session = some x ∧ s.sag.warning = false ∧ s.sys.inReset = false ∧ x.words = 0 ∧ x.left = [] ∧ (∃ c ∈ s.cmds, some c.place ≠ x.who)) ∧
    (∃ (s : State), s.sys.lcResetDue = true) ∧
    (∃ (s : State), s.sys.lcResetDue = false) :=
  ⟨⟨tLc 0x50, .host 0, (by decide +kernel)⟩,
   ⟨tLc 0x50, .debug, 0x60, (by decide +kernel), (by decide +kernel)⟩,
   ⟨tLc 0x50, _, 0x140, _, (by decide +kernel), (by decide +kernel), rfl, (some_eta (by decide +kernel)), (by decide +kernel)⟩,
   ⟨tLc 0x50, _, _, 0x160, (by decide +kernel), (by decide +kernel), rfl, (by decide +kernel), rfl, (by decide +kernel)⟩,
   ⟨tLc 0x50, .steward 0 true, (by decide +kernel)⟩,
   ⟨{ tLc 0 with lc := { LifeCycle.reset with otp := [] } }, 0x18, 129, 1, (by decide +kernel), (by decide +kernel), (by decide +kernel), (by decide +kernel), (by decide +kernel), (by decide +kernel)⟩,
   ⟨{ tLc 0x50 with lc := { (tLc 0x50).lc with session := some ({ left := [], target := 0x60, origin := 0x50, path := 0, who := none, words := 1 }) }, sag := { tOn.sag with warning := true } }, { left := [], target := 0x60, origin := 0x50, path := 0, who := none, words := 1 }, (by decide +kernel), (by decide +kernel)⟩,
   ⟨{ tLc 0x50 with lc := { (tLc 0x50).lc with session := some ({ left := [.word 1 1, .word 2 1], target := 0x60, origin := 0x50, path := 0, who := none, words := 1 }) } }, { left := [.word 1 1, .word 2 1], target := 0x60, origin := 0x50, path := 0, who := none, words := 1 }, 1, 1, .word 2 1, [], (by decide +kernel), (by decide +kernel), (by decide +kernel), (by decide +kernel)⟩,
   ⟨{ tLc 0x50 with lc := { (tLc 0x50).lc with session := some ({ left := [.word 1 1], target := 0x60, origin := 0x50, path := 0, who := none, words := 1 }) } }, { left := [.word 1 1], target := 0x60, origin := 0x50, path := 0, who := none, words := 1 }, _, 1, 1, (by decide +kernel), (by decide +kernel), (by decide +kernel), (by decide +kernel), rfl⟩,
   ⟨{ tT (tC 0x40 .ready []) with lc := { (tLc 0x50).lc with session := some ({ left := [], target := 0x60, origin := 0x50, path := 0, who := none, words := 0 }) } }, { left := [], target := 0x60, origin := 0x50, path := 0, who := none, words := 0 }, (by decide +kernel), (by decide +kernel), (by decide +kernel), (by decide +kernel), (by decide +kernel), (by decide +kernel)⟩,
   ⟨{ tOn with sys := { tOn.sys with lcResetDue := true } }, (by decide +kernel)⟩,
   ⟨tLc 0x50, (by decide +kernel)⟩⟩

/-- What each clause of `Obligations.MasterAccessComplete` supposes can be met. -/
theorem witness_MasterAccessComplete :
    (∃ (s : State) (u : Nat) (k : AccKind) (us : Bool) (a : Nat) (n : Nat) (c : Nat) (r : Nat), unitOn s u = true ∧ u ≤ 11 ∧ 1 ≤ n ∧ n ≤ 4096 ∧ mpuCheck s u k (us && decide (u ≤ 3)) a n = some (c, r)) ∧
    (∃ (s : State) (u : Nat) (us : Bool) (a : Nat) (n : Nat), unitOn s u = true ∧ u ≤ 11 ∧ 1 ≤ n ∧ n ≤ 4096 ∧ 0x01000000 ≤ a ∧ a + n ≤ 0x01800000 ∧ s.powered 31 = true ∧ mpuCheck s u .write (us && decide (u ≤ 3)) a n = none) ∧
    (∃ (s : State) (u : Nat) (us : Bool) (a : Nat) (n : Nat), unitOn s u = true ∧ u ≤ 11 ∧ 1 ≤ n ∧ n ≤ 4096 ∧ 0x01000000 ≤ a ∧ a + n ≤ 0x01800000 ∧ s.powered 31 = true ∧ mpuCheck s u .read (us && decide (u ≤ 3)) a n = none) ∧
    (∃ (s : State) (u : Nat) (us : Bool) (a : Nat) (n : Nat) (k : AccKind), unitOn s u = true ∧ u ≤ 11 ∧ 1 ≤ n ∧ n ≤ 4096 ∧ 0x01000000 ≤ a ∧ a + n ≤ 0x01800000 ∧ s.powered 31 = false ∧ mpuCheck s u k (us && decide (u ≤ 3)) a n = none) ∧
    (∃ (s : State) (u : Nat) (us : Bool) (a : Nat), unitOn s u = true ∧ u ≤ 11 ∧ 0x10000000 ≤ a ∧ a + 4 ≤ 0x10150000 ∧ mpuCheck s u .write (us && decide (u ≤ 3)) a 4 = none) ∧
    (∃ (s : State) (u : Nat), unitOn s u = false) :=
  ⟨⟨tOn, 11, .read, false, 0x90000000, 4, _, _, (by decide +kernel), (by decide +kernel), (by decide +kernel), (by decide +kernel), (some2_eta (by decide +kernel))⟩,
   ⟨tOn, 0, false, 0x017FFFFC, 4, (by decide +kernel), (by decide +kernel), (by decide +kernel), (by decide +kernel), (by decide +kernel), (by decide +kernel), (by decide +kernel), (by decide +kernel)⟩,
   ⟨tOn, 0, false, 0x01000000, 1, (by decide +kernel), (by decide +kernel), (by decide +kernel), (by decide +kernel), (by decide +kernel), (by decide +kernel), (by decide +kernel), (by decide +kernel)⟩,
   ⟨{ tOn with sys := { tOn.sys with pdstat := 0xFFFFFFFFF &&& ~~~(1#36 <<< 30) } }, 0, false, 0x01000000, 4, .read, (by decide +kernel), (by decide +kernel), (by decide +kernel), (by decide +kernel), (by decide +kernel), (by decide +kernel), (by decide +kernel), (by decide +kernel)⟩,
   ⟨tOn, 0, false, 0x10000000, (by decide +kernel), (by decide +kernel), (by decide +kernel), (by decide +kernel), (by decide +kernel)⟩,
   ⟨{ tOn with sys := { tOn.sys with pdstat := 0 } }, 10, (by decide +kernel)⟩⟩

/-- What each clause of `Obligations.ProtectionUnitCheck` supposes can be met. -/
theorem witness_ProtectionUnitCheck :
    (∃ (a : Nat) (n : Nat), touches mapped a n = true ∧ touches inKeyStore a n = true) ∧
    (∃ (a : Nat) (n : Nat), touches mapped a n = true ∧ touches inKeyStore a n = false ∧ touches (fun x => inRecords x || inStepCache x) a n = true) ∧
    (∃ (a : Nat) (n : Nat), touches mapped a n = true ∧ touches inMram a n = true) ∧
    (∃ (a : Nat) (n : Nat), touches mapped a n = false) ∧
    (∃ (s : State) (u : Nat) (us : Bool) (a : Nat) (n : Nat), touches mapped a n = true ∧ (∀ i < 16, ((s.unit u).region (s.unit u).active i).en = false) ∧ us = true ∧ u ≤ 3) ∧
    (∃ (s : State) (u : Nat) (us : Bool) (a : Nat) (n : Nat), touches mapped a n = true ∧ (∀ i < 16, ((s.unit u).region (s.unit u).active i).en = false) ∧ us = false ∧ entryAt (defaultMap s u) a = none) ∧
    (∃ (s : State) (u : Nat) (us : Bool) (a : Nat) (n : Nat) (e : _), touches mapped a n = true ∧ (∀ i < 16, ((s.unit u).region (s.unit u).active i).en = false) ∧ us = false ∧ entryAt (defaultMap s u) a = some e ∧ within (a + n - 1) e.1 e.2.1 = true ∧ e.2.2.r = true) ∧
    (∃ (s : State) (u : Nat), u ≤ 9 ∧ s.lc.state = 0x60) :=
  ⟨⟨0x027FFFFC, 4, (by decide +kernel), (by decide +kernel)⟩,
   ⟨0x02800000, 4, (by decide +kernel), (by decide +kernel), (by decide +kernel)⟩,
   ⟨0x02000000, 4, (by decide +kernel), (by decide +kernel)⟩,
   ⟨0x90000000, 4, (by decide +kernel)⟩,
   ⟨tOn, 3, true, 0x01000000, 4, (by decide +kernel), (by decide +kernel), (by decide +kernel), (by decide +kernel)⟩,
   ⟨tOn, 9, false, 0x10000000, 4, (by decide +kernel), (by decide +kernel), (by decide +kernel), (by decide +kernel)⟩,
   ⟨tOn, 0, false, 0x01000000, 4, _, (by decide +kernel), (by decide +kernel), (by decide +kernel), (some_eta (by decide +kernel)), (by decide +kernel), (by decide +kernel)⟩,
   ⟨tLc 0x60, 9, (by decide +kernel), (by decide +kernel)⟩⟩

/-- What each clause of `Obligations.ProtectionUnitRegistersComplete` supposes can be met. -/
theorem witness_ProtectionUnitRegistersComplete :
    (∃ (s : State) (i : Nat), i ≤ 11 ∧ (s.unit i).lock = false) ∧
    (∃ (s : State) (i : Nat), i ≤ 11 ∧ (s.unit i).lock = true) ∧
    (∃ (i : Nat), i ≤ 11) ∧
    (∃ (w : Writer), Writer.priv w = false) ∧
    (∃ (s : State) (a : Nat) (i : Nat) (set : Nat) (r : Nat) (field : Nat), regionOf a = some (i, set, r, field) ∧ (s.unit i).lock = false ∧ set ≠ (s.unit i).active) ∧
    (∃ (s : State) (a : Nat) (i : Nat) (set : Nat) (r : Nat) (field : Nat), regionOf a = some (i, set, r, field) ∧ (s.unit i).lock = true) ∧
    (∃ (s : State) (a : Nat) (i : Nat) (set : Nat) (r : Nat) (field : Nat), regionOf a = some (i, set, r, field) ∧ set = (s.unit i).active) :=
  ⟨⟨tOn, 11, (by decide +kernel), (by decide +kernel)⟩,
   ⟨{ tOn with mpu := List.replicate 12 { Mpu.reset with lock := true } }, 11, (by decide +kernel), (by decide +kernel)⟩,
   ⟨11, (by decide +kernel)⟩,
   ⟨.debug, (by decide +kernel)⟩,
   ⟨tOn, 0x10110A00, 0, 1, 0, 0, (by decide +kernel), (by decide +kernel), (by decide +kernel)⟩,
   ⟨{ tOn with mpu := List.replicate 12 { Mpu.reset with lock := true } }, 0x101109FC, 0, 0, 15, 3, (by decide +kernel), (by decide +kernel)⟩,
   ⟨tOn, 0x10110900, 0, 0, 0, 0, (by decide +kernel), (by decide +kernel)⟩⟩

/-- What each clause of `Obligations.RegisterWriteComplete` supposes can be met. -/
theorem witness_RegisterWriteComplete :
    (∃ (s : State) (w : Writer) (a : Nat), (∀ fn, w ≠ .host fn ∧ w ≠ .hostPoisoned fn) ∧ 0x10000000 ≤ a ∧ a + 4 ≤ 0x10150000 ∧ a % 4 = 0 ∧ s.regOn a = false) ∧
    (∃ (s : State) (w : Writer) (a : Nat), (∀ fn, w ≠ .host fn ∧ w ≠ .hostPoisoned fn) ∧ 0x10000000 ≤ a ∧ a + 4 ≤ 0x10150000 ∧ a % 4 = 0 ∧ s.regOn a = true ∧ regAdmits s w a = false) ∧
    (∃ (s : State) (w : Writer) (a : Nat), (∀ fn, w ≠ .host fn ∧ w ≠ .hostPoisoned fn) ∧ 0x10000000 ≤ a ∧ a + 4 ≤ 0x10150000 ∧ a % 4 = 0 ∧ s.regOn a = true ∧ regAdmits s w a = true) ∧
    (∃ (s : State), (s.hostUp && s.fnExists 0) = true ∧ s.host.d3.contains 0 = false) ∧
    (∃ (s : State) (fn : Nat) (off : Nat) (size : Nat), (s.hostUp && s.fnExists fn) = true ∧ s.host.d3.contains fn = false ∧ 1 ≤ size ∧ size ≤ 4096 ∧ 0x1000 ≤ off ∧ off < 0x1080 ∧ (pairIndex fn off).isSome = false ∧ (s.mbx fn).state = 1) ∧
    (∃ (s : State) (fn : Nat) (off : Nat) (size : Nat), (s.hostUp && s.fnExists fn) = true ∧ s.host.d3.contains fn = false ∧ 1 ≤ size ∧ size ≤ 4096 ∧ 0x1000 ≤ off ∧ off < 0x1080 ∧ (pairIndex fn off).isSome = false ∧ (s.mbx fn).state ≠ 1) ∧
    (∃ (s : State) (fn : Nat) (off : Nat) (size : Nat), (s.hostUp && s.fnExists fn) = true ∧ s.host.d3.contains fn = false ∧ 1 ≤ size ∧ size ≤ 4096 ∧ (pairIndex fn off).isSome = true) ∧
    (∃ (s : State) (fn : Nat), (s.hostUp && s.fnExists fn) = false) ∧
    (∃ (s : State) (s1 : State) (fn : Nat) (off : Nat), (s.hostUp && s.fnExists fn) = true ∧ s.host.d3.contains fn = false ∧ s1 = { s with host := { s.host with aer := s.host.aer ||| aerPoisoned } } ∧ ((pairIndex fn off).isSome ∨ (0x1000 ≤ off ∧ off < 0x2000))) ∧
    (∃ (s : State) (s1 : State) (fn : Nat) (off : Nat), (s.hostUp && s.fnExists fn) = true ∧ s.host.d3.contains fn = false ∧ s1 = { s with host := { s.host with aer := s.host.aer ||| aerPoisoned } } ∧ (¬ ((pairIndex fn off).isSome ∨ (0x1000 ≤ off ∧ off < 0x2000)))) :=
  ⟨⟨{ tOn with sys := { tOn.sys with pdstat := 0 } }, .debug, 0x10040000, (by simp), (by decide +kernel), (by decide +kernel), (by decide +kernel), (by decide +kernel)⟩,
   ⟨tOn, .debug, 0x10000020, (by simp), (by decide +kernel), (by decide +kernel), (by decide +kernel), (by decide +kernel), (by decide +kernel)⟩,
   ⟨tOn, .debug, 0x10000000, (by simp), (by decide +kernel), (by decide +kernel), (by decide +kernel), (by decide +kernel), (by decide +kernel)⟩,
   ⟨tOn, (by decide +kernel), (by decide +kernel)⟩,
   ⟨{ tOn with host := { tOn.host with mbx := [{ tMbx with state := 1 }] } }, 0, 0x107C, 4, (by decide +kernel), (by decide +kernel), (by decide +kernel), (by decide +kernel), (by decide +kernel), (by decide +kernel), (by decide +kernel), (by decide +kernel)⟩,
   ⟨tOn, 0, 0x1000, 4, (by decide +kernel), (by decide +kernel), (by decide +kernel), (by decide +kernel), (by decide +kernel), (by decide +kernel), (by decide +kernel), (by decide +kernel)⟩,
   ⟨tOn, 0, 0x11FFF8, 8, (by decide +kernel), (by decide +kernel), (by decide +kernel), (by decide +kernel), (by decide +kernel)⟩,
   ⟨tOn, 1, (by decide +kernel)⟩,
   ⟨tOn, _, 0, 0x1000, (by decide +kernel), (by decide +kernel), rfl, (by decide +kernel)⟩,
   ⟨tOn, _, 0, 0, (by decide +kernel), (by decide +kernel), rfl, (by decide +kernel)⟩⟩

/-- What each clause of `Obligations.SelfTestComplete` supposes can be met. -/
theorem witness_SelfTestComplete :
    (∃ (s : State) (s1 : State) (i : Nat) (u : _) (p : _) (k : _) (who : _) (rest : _), i < 2 ∧ 13 ≤ s.sys.step ∧ s.sys.inReset = false ∧ s.bist.enable = true ∧ (s.slot i).phase = 0 ∧ picksHeld s = false ∧ s1 = dropRequests s i ((s.slot i).reqs.length) ∧ (s1.slot i).reqs = (u, p, k, who) :: rest) ∧
    (∃ (s : State) (s1 : State) (i : Nat) (p : _) (u : _), i < 2 ∧ 13 ≤ s.sys.step ∧ s.sys.inReset = false ∧ s.bist.enable = true ∧ (s.slot i).phase = 0 ∧ picksHeld s = false ∧ s1 = dropRequests s i ((s.slot i).reqs.length) ∧ (s1.slot i).reqs = [] ∧ walkFrom s1 i = some (p, u)) ∧
    (∃ (s : State), picksHeld s = true) ∧
    (∃ (s : State) (v : Nat), bit v 12 = true ∧ v % 256 ≤ 175 ∧ (s.slot (slotOf (v % 256))).reqs.length < 8) ∧
    (∃ (w : Writer), Writer.priv w = false) ∧
    (∃ (s : State) (i : Nat), i < 2 ∧ (s.slot i).phase = 1 ∧ unitIdle s (s.slot i).unit = true ∧ unitKind (s.slot i).unit ≠ 2) ∧
    (∃ (s : State) (i : Nat), i < 2 ∧ (s.slot i).phase = 1 ∧ unitIdle s (s.slot i).unit = true ∧ unitKind (s.slot i).unit = 2) ∧
    (∃ (s : State) (s1 : State) (s2 : State) (i : Nat) (x : Slot), i < 2 ∧ x = s.slot i ∧ x.phase = 1 ∧ unitIdle s x.unit = false ∧ x.requested = false ∧ x.repeat_ = false ∧ s1 = (giveUnit s x.unit 0).raise 0x0506 x.unit x.pick s.bist.isolate 0 ∧ s2 = s1.modSlot i (fun y => { y with phase := 0, who := none, requested := false, repeat_ := false, bnCause := false })) ∧
    (∃ (s : State) (i : Nat) (m : Nat), i < 2 ∧ (s.slot i).phase = 2 ∧ m = Config.bistSignature (unitKind (s.slot i).unit) (s.slot i).pick) ∧
    (∃ (s : State) (i : Nat) (m : Nat), i < 2 ∧ (s.slot i).phase = 2 ∧ m ≠ Config.bistSignature (unitKind (s.slot i).unit) (s.slot i).pick) ∧
    (∃ (s : State) (i : Nat), i < 2 ∧ (s.slot i).phase = 3) :=
  ⟨⟨{ tOn with bist := { Bist.reset with slots := [{ Slot.reset with reqs := [(0, 3, 0, none)] }, Slot.reset] } }, _, 0, 0, 3, 0, none, [], (by decide +kernel), (by decide +kernel), (by decide +kernel), (by decide +kernel), (by decide +kernel), (by decide +kernel), rfl, (by decide +kernel)⟩,
   ⟨tOn, _, 1, _, _, (by decide +kernel), (by decide +kernel), (by decide +kernel), (by decide +kernel), (by decide +kernel), (by decide +kernel), rfl, (by decide +kernel), (some2_eta (by decide +kernel))⟩,
   ⟨{ tOn with sag := { tOn.sag with warning := true } }, (by decide +kernel)⟩,
   ⟨tOn, 0x10AF, (by decide +kernel), (by decide +kernel), (by decide +kernel)⟩,
   ⟨.debug, (by decide +kernel)⟩,
   ⟨{ tOn with bist := { Bist.reset with slots := [{ Slot.reset with phase := 1 }, Slot.reset] } }, 0, (by decide +kernel), (by decide +kernel), (by decide +kernel), (by decide +kernel)⟩,
   ⟨{ tOn with bist := { Bist.reset with slots := [{ Slot.reset with phase := 1, unit := 160 }, Slot.reset] } }, 0, (by decide +kernel), (by decide +kernel), (by decide +kernel), (by decide +kernel)⟩,
   ⟨{ tT (tC 0x40 .ready []) with bist := { Bist.reset with slots := [{ Slot.reset with phase := 1, unit := 160 }, Slot.reset] } }, _, _, 0, _, (by decide +kernel), rfl, (by decide +kernel), (by decide +kernel), (by decide +kernel), (by decide +kernel), rfl, rfl⟩,
   ⟨{ tOn with bist := { Bist.reset with slots := [{ Slot.reset with phase := 2 }, Slot.reset] } }, 0, _, (by decide +kernel), (by decide +kernel), rfl⟩,
   ⟨{ tOn with bist := { Bist.reset with slots := [{ Slot.reset with phase := 2 }, Slot.reset] } }, 0, Config.bistSignature 0 0 + 1, (by decide +kernel), (by decide +kernel), (Nat.succ_ne_self _)⟩,
   ⟨{ tOn with bist := { Bist.reset with slots := [Slot.reset, { Slot.reset with phase := 3 }] } }, 1, (by decide +kernel), (by decide +kernel)⟩⟩

/-- What each clause of `Obligations.RecorderAndManagementBusComplete` supposes can be met. -/
theorem witness_RecorderAndManagementBusComplete :
    (∃ (s : State) (s1 : State) (e : Ev) (rest : List Ev), s.evr.buffer = e :: rest ∧ recorderOn s = true ∧ s1 = writeEvent { s with evr := { s.evr with buffer := rest, waiting := s.evr.waiting - 1 } } e ∧ s1.evr.lostNow = 0) ∧
    (∃ (s : State), s.evr.buffer = []) ∧
    (∃ (s : State) (e : Ev), s.evr.full = false ∧ s.evr.log.length < 65535 ∧ (takeToken s e.code).2 = true) ∧
    (∃ (s : State) (e : Ev), s.evr.full = false ∧ (takeToken s e.code).2 = false) ∧
    (∃ (s : State), s.evr.full = true) ∧
    (∃ (s : State) (s1 : State), s.sys.inReset = false ∧ s1 = s.timeAtLeast (s.evr.stored + 1000) ∧ s1.powered 35 = true ∧ s1.powered 34 = true ∧ s1.sag.warning = false) ∧
    (∃ (s : State), smbUp s = true) ∧
    (∃ (s : State), smbUp s = true ∧ smbAlert s = true) ∧
    (∃ (s : State), smbUp s = true ∧ smbAlert s = false) ∧
    (∃ (s : State), smbUp s = false) ∧
    (∃ (s : State), 7 ≤ s.sys.step ∧ s.powered 35 = true) ∧
    (∃ (s : State) (cmd : Nat), smbUp s = true ∧ 7 ≤ s.sys.step ∧ s.powered 35 = true ∧ cmd ∉ smbCommands) ∧
    (∃ (s : State) (cmd : Nat), smbUp s = true ∧ 7 ≤ s.sys.step ∧ s.powered 35 = true ∧ cmd ∈ smbCommands) :=
  ⟨⟨{ tOn with evr := { Recorder.reset with buffer := [({ code := 0x0201, p1 := 0, p2 := 0, p3 := 0, p4 := 0, time := 0, deferred := false })] } }, _, { code := 0x0201, p1 := 0, p2 := 0, p3 := 0, p4 := 0, time := 0, deferred := false }, [], (by decide +kernel), (by decide +kernel), rfl, (by decide +kernel)⟩,
   ⟨tOn, (by decide +kernel)⟩,
   ⟨tOn, { code := 0x0201, p1 := 0, p2 := 0, p3 := 0, p4 := 0, time := 0, deferred := false }, (by decide +kernel), (by decide +kernel), (by decide +kernel)⟩,
   ⟨{ tOn with evr := { Recorder.reset with classes := [(1, 1, 0)], codemap := [(0x101, 1, 1)] } }, { code := 0x0101, p1 := 0, p2 := 0, p3 := 0, p4 := 0, time := 0, deferred := false }, (by decide +kernel), (by decide +kernel)⟩,
   ⟨{ tOn with evr := { Recorder.reset with full := true } }, (by decide +kernel)⟩,
   ⟨tOn, _, (by decide +kernel), rfl, (by decide +kernel), (by decide +kernel), (by decide +kernel)⟩,
   ⟨tOn, (by decide +kernel)⟩,
   ⟨{ tOn with board := { tOn.board with thermWarn := true } }, (by decide +kernel), (by decide +kernel)⟩,
   ⟨tOn, (by decide +kernel), (by decide +kernel)⟩,
   ⟨State.reset, (by decide +kernel)⟩,
   ⟨tOn, (by decide +kernel), (by decide +kernel)⟩,
   ⟨tOn, 5, (by decide +kernel), (by decide +kernel), (by decide +kernel), (by decide +kernel)⟩,
   ⟨tOn, 0x10, (by decide +kernel), (by decide +kernel), (by decide +kernel), (by decide +kernel)⟩⟩

/-- What each clause of `Obligations.PartitionOpcodesComplete` supposes can be met. -/
theorem witness_PartitionOpcodesComplete :
    (∃ (s : State) (i : Nat) (id : Nat) (c : Cmd) (par : Part) (p : Part) (r : Bytes), StewardReady s i 0x010 c ∧ c.quorum.isSome = true ∧ r = c.own true ∧ s.part? (fieldLe r 0 2) = some par ∧ par.tearing = false ∧ par.depth < 8 ∧ newId s (fieldLe r 2 2) = .ok id ∧ (Attrs.of r).rangeOk = true ∧ (Attrs.of r).under par (s.children par.id) = true ∧ p = newPart s id par r ∧ s.canCommit = true) ∧
    (∃ (s : State) (i : Nat) (c : Cmd) (p : Part) (r : Bytes), StewardReady s i 0x011 c ∧ c.quorum.isSome = true ∧ r = c.own true ∧ s.part? (fieldLe r 2 2) = some p ∧ p.tearing = false ∧ (Attrs.of r).rangeOk = true ∧ (p.id = 0 → ownerFixed (Attrs.of r) = true) ∧ (p.id ≠ 0 → fitsBelow s p (Attrs.of r) = true ∧ (Attrs.of r).under ((s.part? p.parent).getD p) ((s.children ((s.part? p.parent).getD p).id).filter (fun x => x.id != p.id)) = true) ∧ s.canCommit = true) ∧
    (∃ (s : State) (i : Nat) (c : Cmd) (p : Part) (q : Part), StewardReady s i 0x014 c ∧ c.quorum.isSome = true ∧ (c.admin = true ∨ c.part = c.inl 72 2) ∧ s.part? (c.inl 72 2) = some p ∧ q = { p with accessKey := c.inlB 80 32 } ∧ s.canCommit = true) ∧
    (∃ (s : State) (i : Nat) (c : Cmd) (p : Part) (q : Part), StewardReady s i 0x015 c ∧ c.quorum.isSome = true ∧ s.part? (c.inl 72 2) = some p ∧ p.tearing = false ∧ q = { p with enables := BitVec.ofNat 1024 (leNat (sl (c.own true) 0 128)) } ∧ s.canCommit = true) ∧
    (∃ (s : State) (i : Nat) (c : Cmd) (p : Part) (q : Part), StewardReady s i 0x016 c ∧ (c.admin = true ∨ c.part = c.inl 72 2) ∧ s.part? (c.inl 72 2) = some p ∧ p.tearing = false ∧ c.inl 74 1 ≤ 1 ∧ q = { p with oldest := c.inl 74 1 == 1 } ∧ s.canCommit = true) ∧
    (∃ (s : State) (i : Nat) (c : Cmd) (p : Part), StewardReady s i 0x013 c ∧ inReach s c (c.inl 72 2) = true ∧ s.part? (c.inl 72 2) = some p) ∧
    (∃ (s : State) (i : Nat) (c : Cmd), StewardReady s i 0x013 c ∧ inReach s c (c.inl 72 2) = false) ∧
    (∃ (s : State) (s1 : State) (s2 : State) (s3 : State) (i : Nat) (d : Nat) (c : Cmd) (p : Part) (ids : List Nat), StewardReady s i 0x012 c ∧ c.quorum.isSome = true ∧ (c.admin = true ∨ c.part = c.inl 72 2) ∧ s.part? (c.inl 72 2) = some p ∧ p.tearing = false ∧ c.inl 72 2 ≠ 0 ∧ s.canCommit = true ∧ ids = subtree s p.id ∧ s1 = { s with parts := updWhere (fun x => ids.contains x.id) (fun x => { x with tearing := true }) s.parts, qr := { s.qr with nonces := s.qr.nonces.filter (fun n => !ids.contains n.part) } } ∧ s2 = (s1.commit 0x04 p.id (p.body 2)).setCmd { c with phase := .waitTeardown p.id } ∧ d = ((deepest s2 p.id).map (fun x => x.id)).getD p.id ∧ s3 = (s2.queues.filter (fun q => q.bound && q.part == d)).foldl (fun t q => t.unbind q.id) s2) ∧
    (∃ (s : State) (i : Nat) (c : Cmd) (p : Part), StewardReady s i 0x012 c ∧ c.quorum.isSome = true ∧ c.admin = true ∧ s.part? 0 = some p ∧ p.tearing = false ∧ c.inl 72 2 = 0) :=
  ⟨⟨tT (tExt (tW 0x10 []) tChildRec), 0, 1, tExt (tW 0x10 []) tChildRec, Part.owner, newPart (tT (tExt (tW 0x10 []) tChildRec)) 1 Part.owner (Cmd.own (tExt (tW 0x10 []) tChildRec) true), _, (by decide +kernel), (by decide +kernel), rfl, (by decide +kernel), (by decide +kernel), (by decide +kernel), (by decide +kernel), (by decide +kernel), (by decide +kernel), (by decide +kernel), (by decide +kernel)⟩,
   ⟨{ tT (tExt (tW 0x11 []) tChildRec) with parts := [Part.owner, tChild] }, 0, tExt (tW 0x11 []) tChildRec, tChild, _, (by decide +kernel), (by decide +kernel), rfl, (by decide +kernel), (by decide +kernel), (by decide +kernel), (by decide +kernel), (by decide +kernel), (by decide +kernel)⟩,
   ⟨tT (tW 0x14 []), 0, tW 0x14 [], Part.owner, _, (by decide +kernel), (by decide +kernel), (by decide +kernel), (by decide +kernel), rfl, (by decide +kernel)⟩,
   ⟨tT (tExt (tW 0x15 []) (List.replicate 128 0xFF)), 0, tExt (tW 0x15 []) (List.replicate 128 0xFF), Part.owner, _, (by decide +kernel), (by decide +kernel), (by decide +kernel), (by decide +kernel), rfl, (by decide +kernel)⟩,
   ⟨tT (tW 0x16 [(74, 1)]), 0, tW 0x16 [(74, 1)], Part.owner, _, (by decide +kernel), (by decide +kernel), (by decide +kernel), (by decide +kernel), (by decide +kernel), rfl, (by decide +kernel)⟩,
   ⟨tT (tW 0x13 []), 0, tW 0x13 [], Part.owner, (by decide +kernel), (by decide +kernel), (by decide +kernel)⟩,
   ⟨tT ({ tW 0x13 [(72, 1)] with fn := 1 }), 0, { tW 0x13 [(72, 1)] with fn := 1 }, (by decide +kernel), (by decide +kernel)⟩,
   ⟨{ tT (tW 0x12 [(72, 1)]) with parts := [Part.owner, tChild] }, _, _, _, 0, _, tW 0x12 [(72, 1)], tChild, _, (by decide +kernel), (by decide +kernel), (by decide +kernel), (by decide +kernel), (by decide +kernel), (by decide +kernel), (by decide +kernel), rfl, rfl, rfl, rfl, rfl⟩,
   ⟨tT (tW 0x12 []), 0, tW 0x12 [], Part.owner, (by decide +kernel), (by decide +kernel), (by decide +kernel), (by decide +kernel), (by decide +kernel), (by decide +kernel)⟩⟩

/-- What each clause of `Obligations.QueueOpcodesComplete` supposes can be met. -/
theorem witness_QueueOpcodesComplete :
    (∃ (s : State) (i : Nat) (id : Nat) (k : Nat) (c : Cmd) (q : Queue), StewardReady s i 0x020 c ∧ queueTurn s c = true ∧ s.host.ready = true ∧ (c.inl 72 2 = 0xFFFF → firstFree (fun j => (s.queue? j).isNone) 16384 0 = some id) ∧ (c.inl 72 2 ≠ 0xFFFF → c.inl 72 2 = id ∧ id ≤ 16383 ∧ s.queue? id = none) ∧ firstFree (fun j => !(s.queues.filter (fun q => q.fn == c.inl 74 1)).any (fun q => q.localIdx == j)) 1024 0 = some k ∧ s.fnExists (c.inl 74 1) = true ∧ 1 ≤ c.inl 75 1 ∧ c.inl 75 1 ≤ 16 ∧ c.inl 76 2 < vectors (c.inl 74 1) ∧ c.inl 78 1 ≤ 1 ∧ allZero (c.inlB 79 1) = true ∧ allZero (c.inlB 96 32) = true ∧ c.inl 80 8 % 4096 = 0 ∧ c.inl 88 8 % 4096 = 0 ∧ c.inl 80 8 + 128 * 2 ^ c.inl 75 1 ≤ 2 ^ 64 ∧ c.inl 88 8 + 32 * 2 ^ c.inl 75 1 ≤ 2 ^ 64 ∧ q = { id := id, fn := c.inl 74 1, localIdx := k, log2 := c.inl 75 1, vec := c.inl 76 2, intEn := c.inl 78 1 == 1, sq := c.inl 80 8, cq := c.inl 88 8, bound := false, part := 0, sqHead := 0, sqTail := 0, cqHead := 0, cqTail := 0, phase := true, reading := 0, stopped := false, errDue := false, deleting := false }) ∧
    (∃ (s : State) (s1 : State) (i : Nat) (c : Cmd) (c1 : Cmd) (q : Queue), StewardReady s i 0x021 c ∧ s.queue? (c.inl 72 2) = some q ∧ c.idx = 0 ∧ queueTurn s c = true ∧ q.deleting = false ∧ c1 = { c with idx := 1 } ∧ s1 = ((s.modQueue (c.inl 72 2) (fun y => { y with deleting := true })).unbind (c.inl 72 2)).setCmd c1 ∧ queueBusy s1 c1 (c.inl 72 2) = false) ∧
    (∃ (s : State) (s1 : State) (i : Nat) (c : Cmd) (c1 : Cmd) (q : Queue), StewardReady s i 0x021 c ∧ s.queue? (c.inl 72 2) = some q ∧ c.idx = 0 ∧ queueTurn s c = true ∧ q.deleting = false ∧ c1 = { c with idx := 1 } ∧ s1 = ((s.modQueue (c.inl 72 2) (fun y => { y with deleting := true })).unbind (c.inl 72 2)).setCmd c1 ∧ queueBusy s1 c1 (c.inl 72 2) = true) ∧
    (∃ (s : State) (i : Nat) (c : Cmd) (q : Queue), StewardReady s i 0x021 c ∧ s.queue? (c.inl 72 2) = some q ∧ c.idx ≠ 0 ∧ queueBusy s c (c.inl 72 2) = false) ∧
    (∃ (s : State) (i : Nat) (c : Cmd), c.idx = 0 ∧ queueTurn s c = false ∧ StewardReady s i 0x020 c) ∧
    (∃ (s : State) (i : Nat) (c : Cmd), c.idx = 0 ∧ queueTurn s c = false ∧ StewardReady s i 0x021 c) ∧
    (∃ (s : State) (i : Nat) (c : Cmd), c.idx = 0 ∧ queueTurn s c = false ∧ StewardReady s i 0x022 c) ∧
    (∃ (s : State) (i : Nat) (c : Cmd), c.idx = 0 ∧ queueTurn s c = false ∧ StewardReady s i 0x023 c) ∧
    (∃ (s : State) (s1 : State) (i : Nat) (p : Nat) (c : Cmd) (q : Queue) (st : Bytes), StewardReady s i 0x022 c ∧ st = sl (c.own false) 0 32 ∧ p = fieldLe st 12 2 ∧ s.queue? (c.inl 72 2) = some q ∧ q.bound = false ∧ q.deleting = false ∧ queueTurn s c = true ∧ s1 = useNonce s p (fieldLe st 16 8) ∧ queueRoom s1 p = true) ∧
    (∃ (s : State) (s1 : State) (i : Nat) (c : Cmd) (c1 : Cmd) (q : Queue), StewardReady s i 0x023 c ∧ c.admin = true ∧ s.queue? (c.inl 72 2) = some q ∧ q.bound = true ∧ c.idx = 0 ∧ queueTurn s c = true ∧ c1 = { c with idx := 1 } ∧ s1 = (s.unbind (c.inl 72 2)).setCmd c1 ∧ queueBusy s1 c1 (c.inl 72 2) = false) ∧
    (∃ (s : State) (s1 : State) (i : Nat) (c : Cmd) (c1 : Cmd) (q : Queue), StewardReady s i 0x023 c ∧ c.admin = true ∧ s.queue? (c.inl 72 2) = some q ∧ q.bound = true ∧ c.idx = 0 ∧ queueTurn s c = true ∧ c1 = { c with idx := 1 } ∧ s1 = (s.unbind (c.inl 72 2)).setCmd c1 ∧ queueBusy s1 c1 (c.inl 72 2) = true) ∧
    (∃ (s : State) (i : Nat) (c : Cmd) (q : Queue), StewardReady s i 0x023 c ∧ c.admin = true ∧ s.queue? (c.inl 72 2) = some q ∧ c.idx ≠ 0 ∧ queueBusy s c (c.inl 72 2) = false) ∧
    (∃ (s : State) (i : Nat) (c : Cmd) (q : Queue), StewardReady s i 0x024 c ∧ c.admin = true ∧ c.inl 72 2 ≤ 16383 ∧ s.queue? (c.inl 72 2) = some q) ∧
    (∃ (s : State) (i : Nat) (c : Cmd), StewardReady s i 0x023 c ∧ queueTurn s c = true ∧ c.admin = false ∧ c.path ≠ .queue (c.inl 72 2)) ∧
    (∃ (s : State) (i : Nat) (c : Cmd), StewardReady s i 0x024 c ∧ c.admin = false ∧ c.path ≠ .queue (c.inl 72 2)) ∧
    (∃ (s : State) (i : Nat) (c : Cmd), StewardReady s i 0x026 c ∧ c.admin = false ∧ c.path ≠ .queue (c.inl 72 2)) ∧
    (∃ (s : State) (s1 : State) (s2 : State) (i : Nat) (c : Cmd) (cs : List Cmd) (hit : Fetched → Bool) (late : Bool), StewardReady s i 0x026 c ∧ (c.admin = true ∨ c.path = .queue (c.inl 72 2)) ∧ (∀ e, hit e = (e.q == c.inl 72 2 && fieldLe e.entry 0 4 == c.inl 76 4 && !e.cancelled)) ∧ cs = s.cmds.filter (fun x => x.place != c.place && x.path == Path.queue (c.inl 72 2) && x.tag == c.inl 76 4) ∧ late = ((s.lk.held ++ s.d3held).any (fun h => h.path == Path.queue (c.inl 72 2) && fieldLe h.entry 0 4 == c.inl 76 4) || cs.any (tooLate s)) ∧ s1 = { s with fetched := updWhere hit (fun e => { e with cancelled := true }) s.fetched } ∧ s2 = cs.foldl (fun t x => t.abort x) (s1.tryCancelled (c.inl 72 2) s.fetched.length) ∧ late = true) ∧
    (∃ (s : State) (s1 : State) (s2 : State) (i : Nat) (c : Cmd) (cs : List Cmd) (hit : Fetched → Bool) (late : Bool), StewardReady s i 0x026 c ∧ (c.admin = true ∨ c.path = .queue (c.inl 72 2)) ∧ (∀ e, hit e = (e.q == c.inl 72 2 && fieldLe e.entry 0 4 == c.inl 76 4 && !e.cancelled)) ∧ cs = s.cmds.filter (fun x => x.place != c.place && x.path == Path.queue (c.inl 72 2) && x.tag == c.inl 76 4) ∧ late = ((s.lk.held ++ s.d3held).any (fun h => h.path == Path.queue (c.inl 72 2) && fieldLe h.entry 0 4 == c.inl 76 4) || cs.any (tooLate s)) ∧ s1 = { s with fetched := updWhere hit (fun e => { e with cancelled := true }) s.fetched } ∧ s2 = cs.foldl (fun t x => t.abort x) (s1.tryCancelled (c.inl 72 2) s.fetched.length) ∧ late = false ∧ cs ≠ []) ∧
    (∃ (s : State) (s1 : State) (s2 : State) (i : Nat) (c : Cmd) (cs : List Cmd) (hit : Fetched → Bool) (late : Bool), StewardReady s i 0x026 c ∧ (c.admin = true ∨ c.path = .queue (c.inl 72 2)) ∧ (∀ e, hit e = (e.q == c.inl 72 2 && fieldLe e.entry 0 4 == c.inl 76 4 && !e.cancelled)) ∧ cs = s.cmds.filter (fun x => x.place != c.place && x.path == Path.queue (c.inl 72 2) && x.tag == c.inl 76 4) ∧ late = ((s.lk.held ++ s.d3held).any (fun h => h.path == Path.queue (c.inl 72 2) && fieldLe h.entry 0 4 == c.inl 76 4) || cs.any (tooLate s)) ∧ s1 = { s with fetched := updWhere hit (fun e => { e with cancelled := true }) s.fetched } ∧ s2 = cs.foldl (fun t x => t.abort x) (s1.tryCancelled (c.inl 72 2) s.fetched.length) ∧ late = false ∧ cs = [] ∧ s.fetched.any hit = true) ∧
    (∃ (s : State) (s1 : State) (s2 : State) (i : Nat) (c : Cmd) (cs : List Cmd) (hit : Fetched → Bool) (late : Bool), StewardReady s i 0x026 c ∧ (c.admin = true ∨ c.path = .queue (c.inl 72 2)) ∧ (∀ e, hit e = (e.q == c.inl 72 2 && fieldLe e.entry 0 4 == c.inl 76 4 && !e.cancelled)) ∧ cs = s.cmds.filter (fun x => x.place != c.place && x.path == Path.queue (c.inl 72 2) && x.tag == c.inl 76 4) ∧ late = ((s.lk.held ++ s.d3held).any (fun h => h.path == Path.queue (c.inl 72 2) && fieldLe h.entry 0 4 == c.inl 76 4) || cs.any (tooLate s)) ∧ s1 = { s with fetched := updWhere hit (fun e => { e with cancelled := true }) s.fetched } ∧ s2 = cs.foldl (fun t x => t.abort x) (s1.tryCancelled (c.inl 72 2) s.fetched.length) ∧ late = false ∧ cs = [] ∧ s.fetched.any hit = false) :=
  ⟨⟨tT (tW 0x20 [(72, 0xFF), (73, 0xFF), (75, 16), (76, 0xFF), (77, 0x07), (82, 1), (90, 2)]), 0, 0, 0, tW 0x20 [(72, 0xFF), (73, 0xFF), (75, 16), (76, 0xFF), (77, 0x07), (82, 1), (90, 2)], { id := 0, fn := 0, localIdx := 0, log2 := 16, vec := 2047, intEn := false, sq := 0x10000, cq := 0x20000, bound := false, part := 0, sqHead := 0, sqTail := 0, cqHead := 0, cqTail := 0, phase := true, reading := 0, stopped := false, errDue := false, deleting := false }, (by decide +kernel), (by decide +kernel), (by decide +kernel), (by decide +kernel), (by decide +kernel), (by decide +kernel), (by decide +kernel), (by decide +kernel), (by decide +kernel), (by decide +kernel), (by decide +kernel), (by decide +kernel), (by decide +kernel), (by decide +kernel), (by decide +kernel), (by decide +kernel), (by decide +kernel), (by decide +kernel)⟩,
   ⟨{ tT (tW 0x21 []) with queues := [(tQ)] }, _, 0, tW 0x21 [], _, tQ, (by decide +kernel), (by decide +kernel), (by decide +kernel), (by decide +kernel), (by decide +kernel), rfl, rfl, (by decide +kernel)⟩,
   ⟨{ tOn with cmds := [(tW 0x21 []), { tC 0x40 .ready [] with path := .queue 0 }], queues := [tQ] }, _, 0, tW 0x21 [], _, tQ, (by decide +kernel), (by decide +kernel), (by decide +kernel), (by decide +kernel), (by decide +kernel), rfl, rfl, (by decide +kernel)⟩,
   ⟨{ tT ({ tW 0x21 [] with idx := 1 }) with queues := [(tQ)] }, 0, { tW 0x21 [] with idx := 1 }, tQ, (by decide +kernel), (by decide +kernel), (by decide +kernel), (by decide +kernel)⟩,
   ⟨{ tOn with cmds := [({ tW 0x20 [] with order := 2 }), { tP (.ctx 1) 0x21 .ready [] with order := 1 }] }, 0, { tW 0x20 [] with order := 2 }, (by decide +kernel), (by decide +kernel), (by decide +kernel)⟩,
   ⟨{ tOn with cmds := [({ tW 0x21 [] with order := 2 }), { tP (.ctx 1) 0x21 .ready [] with order := 1 }] }, 0, { tW 0x21 [] with order := 2 }, (by decide +kernel), (by decide +kernel), (by decide +kernel)⟩,
   ⟨{ tOn with cmds := [({ tW 0x22 [] with order := 2 }), { tP (.ctx 1) 0x21 .ready [] with order := 1 }] }, 0, { tW 0x22 [] with order := 2 }, (by decide +kernel), (by decide +kernel), (by decide +kernel)⟩,
   ⟨{ tOn with cmds := [({ tW 0x23 [] with order := 2 }), { tP (.ctx 1) 0x21 .ready [] with order := 1 }] }, 0, { tW 0x23 [] with order := 2 }, (by decide +kernel), (by decide +kernel), (by decide +kernel)⟩,
   ⟨{ tT (tExt (tW 0x22 []) (zeros 32)) with queues := [({ tQ with bound := false })] }, _, 0, _, tExt (tW 0x22 []) (zeros 32), { tQ with bound := false }, _, (by decide +kernel), rfl, rfl, (by decide +kernel), (by decide +kernel), (by decide +kernel), (by decide +kernel), rfl, (by decide +kernel)⟩,
   ⟨{ tT (tW 0x23 []) with queues := [(tQ)] }, _, 0, tW 0x23 [], _, tQ, (by decide +kernel), (by decide +kernel), (by decide +kernel), (by decide +kernel), (by decide +kernel), (by decide +kernel), rfl, rfl, (by decide +kernel)⟩,
   ⟨{ tOn with cmds := [(tW 0x23 []), { tC 0x40 .ready [] with path := .queue 0 }], queues := [tQ] }, _, 0, tW 0x23 [], _, tQ, (by decide +kernel), (by decide +kernel), (by decide +kernel), (by decide +kernel), (by decide +kernel), (by decide +kernel), rfl, rfl, (by decide +kernel)⟩,
   ⟨{ tT ({ tW 0x23 [] with idx := 1 }) with queues := [(tQ)] }, 0, { tW 0x23 [] with idx := 1 }, tQ, (by decide +kernel), (by decide +kernel), (by decide +kernel), (by decide +kernel), (by decide +kernel)⟩,
   ⟨{ tT (tW 0x24 []) with queues := [(tQ)] }, 0, tW 0x24 [], tQ, (by decide +kernel), (by decide +kernel), (by decide +kernel), (by decide +kernel)⟩,
   ⟨{ tT ({ tW 0x23 [] with fn := 1 }) with queues := [(tQ)] }, 0, { tW 0x23 [] with fn := 1 }, (by decide +kernel), (by decide +kernel), (by decide +kernel), (by decide +kernel)⟩,
   ⟨{ tT ({ tW 0x24 [] with fn := 1 }) with queues := [(tQ)] }, 0, { tW 0x24 [] with fn := 1 }, (by decide +kernel), (by decide +kernel), (by decide +kernel)⟩,
   ⟨{ tT ({ tW 0x26 [] with fn := 1 }) with queues := [(tQ)] }, 0, { tW 0x26 [] with fn := 1 }, (by decide +kernel), (by decide +kernel), (by decide +kernel)⟩,
   ⟨{ tOn with cmds := [(tW 0x26 []), { tC 0x40 .ready [] with path := .queue 0, stamp := 1 }], queues := [tQ] }, _, _, 0, tW 0x26 [], _, (fun e => (e.q == ((tW 0x26 [])).inl 72 2 && fieldLe e.entry 0 4 == ((tW 0x26 [])).inl 76 4 && !e.cancelled)), _, (by decide +kernel), (by decide +kernel), (fun _ => rfl), rfl, rfl, rfl, rfl, (by decide +kernel)⟩,
   ⟨{ tOn with cmds := [(tW 0x26 []), { tC 0x40 .ready [] with path := .queue 0 }], queues := [tQ] }, _, _, 0, tW 0x26 [], _, (fun e => (e.q == ((tW 0x26 [])).inl 72 2 && fieldLe e.entry 0 4 == ((tW 0x26 [])).inl 76 4 && !e.cancelled)), _, (by decide +kernel), (by decide +kernel), (fun _ => rfl), rfl, rfl, rfl, rfl, (by decide +kernel), (by decide +kernel)⟩,
   ⟨{ tT (tW 0x26 []) with queues := [tQ], fetched := [{ q := 0, part := 0, entry := zeros 128, cancelled := false }] }, _, _, 0, tW 0x26 [], _, (fun e => (e.q == ((tW 0x26 [])).inl 72 2 && fieldLe e.entry 0 4 == ((tW 0x26 [])).inl 76 4 && !e.cancelled)), _, (by decide +kernel), (by decide +kernel), (fun _ => rfl), rfl, rfl, rfl, rfl, (by decide +kernel), (by decide +kernel), (by decide +kernel)⟩,
   ⟨{ tT (tW 0x26 []) with queues := [(tQ)] }, _, _, 0, tW 0x26 [], _, (fun e => (e.q == ((tW 0x26 [])).inl 72 2 && fieldLe e.entry 0 4 == ((tW 0x26 [])).inl 76 4 && !e.cancelled)), _, (by decide +kernel), (by decide +kernel), (fun _ => rfl), rfl, rfl, rfl, rfl, (by decide +kernel), (by decide +kernel), (by decide +kernel)⟩⟩

/-- What each clause of `Obligations.TableAndCacheOpcodesComplete` supposes can be met. -/
theorem witness_TableAndCacheOpcodesComplete :
    (∃ (s : State) (i : Nat) (c : Cmd), StewardReady s i 0x017 c ∧ allZero (c.inlB 72 56) = true) ∧
    (∃ (s : State) (i : Nat) (c : Cmd) (p : Part), StewardReady s i 0x018 c ∧ c.quorum.isSome = true ∧ s.part? (fieldLe (c.own true) 0 2) = some p ∧ p.tearing = false ∧ c.admin = true ∧ allZero (c.inlB 72 56) = true) ∧
    (∃ (s : State) (s1 : State) (i : Nat) (len : Nat) (k : Nat) (base : Nat) (c : Cmd), StewardReady s i 0x019 c ∧ len = c.inl 72 1 ∧ k = c.inl 73 1 ∧ base = c.inl 76 4 ∧ 1 ≤ len ∧ len ≤ 19 ∧ k ≤ 17 ∧ allZero (c.inlB 74 2) = true ∧ allZero (c.inlB 80 48) = true ∧ holds s.rt len = false ∧ base + 2 ^ k ≤ 163840 ∧ layoutClash s.rt len k base = false ∧ s1 = { s with rt := { s.rt with layout := s.rt.layout.set (len - 1) (k, base) } }) ∧
    (∃ (s : State) (i : Nat) (c : Cmd) (p : Part), StewardReady s i 0x01A c ∧ c.inl 72 1 = 0 ∧ allZero (c.inlB 73 1) = true ∧ allZero (c.inlB 76 4) = true ∧ allZero (c.inlB 91 37) = true ∧ s.part? (c.inl 74 2) = some p ∧ p.tearing = false ∧ c.admin = true ∧ byteAt (c.inlB 80 11) 0 ≤ 19) ∧
    (∃ (s : State) (i : Nat) (c : Cmd) (p : Part), StewardReady s i 0x01A c ∧ c.inl 72 1 = 1 ∧ allZero (c.inlB 73 1) = true ∧ allZero (c.inlB 76 4) = true ∧ allZero (c.inlB 88 40) = true ∧ s.part? (c.inl 74 2) = some p ∧ p.tearing = false ∧ c.admin = true) ∧
    (∃ (s : State) (i : Nat) (n : Nat) (c : Cmd) (p : Part), StewardReady s i 0x01B c ∧ c.quorum.isSome = true ∧ n = c.inl 72 2 ∧ s.part? n = some p ∧ p.tearing = false ∧ allZero (c.inlB 74 2) = true ∧ allZero (c.inlB 84 44) = true ∧ ((s.rt.routes s.rt.rgen).filter (fun r => r.part == n)).length ≤ c.inl 76 4 ∧ ((s.rt.rules s.rt.pgen).filter (fun r => r.part == n)).length ≤ c.inl 80 4) ∧
    (∃ (s : State) (i : Nat) (c : Cmd), StewardReady s i 0x035 c ∧ c.inl 72 8 = 0 ∧ bit (c.inl 80 1) 0 = false) ∧
    (∃ (s : State) (i : Nat) (c : Cmd), StewardReady s i 0x035 c ∧ c.inl 72 8 = 0 ∧ bit (c.inl 80 1) 0 = true) ∧
    (∃ (s : State) (i : Nat) (c : Cmd) (w : Way), StewardReady s i 0x035 c ∧ c.inl 72 8 ≠ 0 ∧ handleWay s c.part (c.inl 72 8) = some w) ∧
    (∃ (s : State) (i : Nat) (c : Cmd) (w : Way), StewardReady s i 0x036 c ∧ handleWay s c.part (c.inl 72 8) = some w) ∧
    (∃ (s : State) (i : Nat) (c : Cmd), StewardReady s i 0x036 c ∧ handleWay s c.part (c.inl 72 8) = none) :=
  ⟨⟨tT (tW 0x17 []), 0, tW 0x17 [], (by decide +kernel), (by decide +kernel)⟩,
   ⟨tT (tW 0x18 []), 0, tW 0x18 [], Part.owner, (by decide +kernel), (by decide +kernel), (by decide +kernel), (by decide +kernel), (by decide +kernel), (by decide +kernel)⟩,
   ⟨tT (tW 0x19 [(72, 19)]), _, 0, 19, 0, 0, tW 0x19 [(72, 19)], (by decide +kernel), (by decide +kernel), (by decide +kernel), (by decide +kernel), (by decide +kernel), (by decide +kernel), (by decide +kernel), (by decide +kernel), (by decide +kernel), (by decide +kernel), (by decide +kernel), (by decide +kernel), rfl⟩,
   ⟨tT (tW 0x1A [(80, 19)]), 0, tW 0x1A [(80, 19)], Part.owner, (by decide +kernel), (by decide +kernel), (by decide +kernel), (by decide +kernel), (by decide +kernel), (by decide +kernel), (by decide +kernel), (by decide +kernel), (by decide +kernel)⟩,
   ⟨tT (tW 0x1A [(72, 1)]), 0, tW 0x1A [(72, 1)], Part.owner, (by decide +kernel), (by decide +kernel), (by decide +kernel), (by decide +kernel), (by decide +kernel), (by decide +kernel), (by decide +kernel), (by decide +kernel)⟩,
   ⟨{ tT (tW 0x1B [(80, 1)]) with rt := tOn.rt, parts := [Part.owner] }, 0, 0, tW 0x1B [(80, 1)], Part.owner, (by decide +kernel), (by decide +kernel), (by decide +kernel), (by decide +kernel), (by decide +kernel), (by decide +kernel), (by decide +kernel), (by decide +kernel), (by decide +kernel)⟩,
   ⟨tT (tW 0x35 []), 0, tW 0x35 [], (by decide +kernel), (by decide +kernel), (by decide +kernel)⟩,
   ⟨tT (tW 0x35 [(80, 1)]), 0, tW 0x35 [(80, 1)], (by decide +kernel), (by decide +kernel), (by decide +kernel)⟩,
   ⟨{ tT (tW 0x35 [(76, 1)]) with kc := { tOn.kc with ways := [tWay 1 3] } }, 0, tW 0x35 [(76, 1)], tWay 1 3, (by decide +kernel), (by decide +kernel), (by decide +kernel)⟩,
   ⟨{ tT (tW 0x36 [(76, 1)]) with kc := { tOn.kc with ways := [tWay 1 3] } }, 0, tW 0x36 [(76, 1)], tWay 1 3, (by decide +kernel), (by decide +kernel)⟩,
   ⟨tT (tW 0x36 [(76, 1)]), 0, tW 0x36 [(76, 1)], (by decide +kernel), (by decide +kernel)⟩⟩

/-- What each clause of `Obligations.PairingOpcodesComplete` supposes can be met. -/
theorem witness_PairingOpcodesComplete :
    (∃ (s : State) (s1 : State) (i : Nat) (c : Cmd), StewardReady s i 0x028 c ∧ c.quorum.isSome = true ∧ c.inl 72 1 ≤ 1 ∧ allZero (c.inlB 73 7) = true ∧ allZero (c.inlB 120 8) = true ∧ s.lk.pstate = 0 ∧ s.lk.pairRec = none ∧ s.lk.ceremony = false ∧ (bit (c.inl 72 1) 0 = false → s.queues = []) ∧ s1 = s.setCmd { c with phase := .waitPair }) ∧
    (∃ (s : State) (i : Nat) (b : Nat) (w : Nat) (c : Cmd) (p : Bool) (l : Bool), StewardReady s i 0x029 c ∧ c.inl 72 1 = b2n p ∧ c.inl 73 1 = b2n l ∧ b = c.inl 74 2 ∧ w = c.inl 76 2 ∧ 10 ≤ b ∧ b ≤ 1000 ∧ 1 ≤ w ∧ w ≤ 60000 ∧ allZero (c.inlB 78 50) = true ∧ s.canCommit = true) ∧
    (∃ (s : State) (i : Nat) (c : Cmd), StewardReady s i 0x02A c ∧ allZero (c.inlB 72 56) = true) ∧
    (∃ (s : State) (s1 : State) (i : Nat) (c : Cmd), StewardReady s i 0x02B c ∧ allZero (c.inlB 72 56) = true ∧ s.lk.pstate = 3 ∧ s.lk.role = 2 ∧ switching s = none ∧ s1 = s.setCmd { c with phase := .waitSwitch, idx := 0 }) ∧
    (∃ (s : State) (i : Nat) (c : Cmd), StewardReady s i 0x02B c ∧ allZero (c.inlB 72 56) = true ∧ (s.lk.pstate ≠ 3 ∨ s.lk.role ≠ 2)) ∧
    (∃ (s : State) (i : Nat) (c : Cmd), StewardReady s i 0x02C c ∧ allZero (c.inlB 72 56) = true ∧ s.isPaired = false) ∧
    (∃ (s : State) (i : Nat) (c : Cmd), StewardReady s i 0x02C c ∧ allZero (c.inlB 72 56) = true ∧ s.isPaired = true ∧ s.lk.role = 2 ∧ journalOpen (ensureReservation s) false = true) ∧
    (∃ (s : State) (i : Nat) (c : Cmd) (x : _), StewardReady s i 0x02C c ∧ allZero (c.inlB 72 56) = true ∧ s.isPaired = true ∧ s.lk.role ≠ 2 ∧ (leavePair s).cmd? c.place = some x) :=
  ⟨⟨tT (tW 0x28 []), _, 0, tW 0x28 [], (by decide +kernel), (by decide +kernel), (by decide +kernel), (by decide +kernel), (by decide +kernel), (by decide +kernel), (by decide +kernel), (by decide +kernel), (by decide +kernel), rfl⟩,
   ⟨tT (tW 0x29 [(72, 1), (74, 10), (76, 0x60), (77, 0xEA)]), 0, 10, 60000, tW 0x29 [(72, 1), (74, 10), (76, 0x60), (77, 0xEA)], true, false, (by decide +kernel), (by decide +kernel), (by decide +kernel), (by decide +kernel), (by decide +kernel), (by decide +kernel), (by decide +kernel), (by decide +kernel), (by decide +kernel), (by decide +kernel), (by decide +kernel)⟩,
   ⟨tT (tW 0x2A []), 0, tW 0x2A [], (by decide +kernel), (by decide +kernel)⟩,
   ⟨{ tPair 3 2 with cmds := [(tW 0x2B [])] }, _, 0, tW 0x2B [], (by decide +kernel), (by decide +kernel), (by decide +kernel), (by decide +kernel), (by decide +kernel), rfl⟩,
   ⟨{ tPair 2 2 with cmds := [(tW 0x2B [])] }, 0, tW 0x2B [], (by decide +kernel), (by decide +kernel), (by decide +kernel)⟩,
   ⟨tT (tW 0x2C []), 0, tW 0x2C [], (by decide +kernel), (by decide +kernel), (by decide +kernel)⟩,
   ⟨{ (tPair 3 2).modLk (fun l => { l with beats := [{ num := 1, closed := false, recs := [], bytes := 0 }] }) with cmds := [(tW 0x2C [])] }, 0, tW 0x2C [], (by decide +kernel), (by decide +kernel), (by decide +kernel), (by decide +kernel), (by decide +kernel)⟩,
   ⟨{ tPair 3 3 with cmds := [(tW 0x2C [])] }, 0, tW 0x2C [], _, (by decide +kernel), (by decide +kernel), (by decide +kernel), (by decide +kernel), (some_eta (by decide +kernel))⟩⟩

/-- What each clause of `Obligations.DraftOpcodesComplete` supposes can be met. -/
theorem witness_DraftOpcodesComplete :
    (∃ (s : State) (s1 : State) (i : Nat) (c : Cmd), StewardReady s i 0x030 c ∧ s.drafts.holder = none ∧ imageAddrOk s c = true ∧ stagingQueued s c = false ∧ c.inl 80 4 ≠ 0 ∧ s1 = { s with drafts := { s.drafts with holder := some c.place, staging := [] } }) ∧
    (∃ (s : State) (i : Nat) (gen : Nat) (c : Cmd), StewardReady s i 0x030 c ∧ s.drafts.holder = some c.place ∧ c.quorum.isSome = true ∧ gen = nextGen s (fieldLe s.drafts.staging 10 2) ∧ s.canCommit = true) ∧
    (∃ (s : State) (i : Nat) (op : Nat) (c : Cmd) (d : DirEnt), StewardReady s i 0x031 c ∧ c.quorum.isSome = true ∧ op = c.inl 72 2 ∧ 0x200 ≤ op ∧ op ≤ 0x3FF ∧ s.dirEnt? op = some d ∧ d.state ≠ 0 ∧ s.canCommit = true) ∧
    (∃ (s : State) (i : Nat) (slot : Nat) (c : Cmd), StewardReady s i 0x032 c ∧ c.quorum.isSome = true ∧ slot = c.inl 72 1 ∧ slot ≤ 3 ∧ s.canCommit = true) ∧
    (∃ (s : State) (i : Nat) (c : Cmd), StewardReady s i 0x033 c ∧ c.inl 72 2 ≤ 0x3FF) :=
  ⟨⟨tT (tW 0x30 [(80, 8)]), _, 0, tW 0x30 [(80, 8)], (by decide +kernel), (by decide +kernel), (by decide +kernel), (by decide +kernel), (by decide +kernel), rfl⟩,
   ⟨{ tT (tW 0x30 [(80, 8)]) with drafts := { tOn.drafts with holder := some (.ctx 0) } }, 0, _, tW 0x30 [(80, 8)], (by decide +kernel), (by decide +kernel), (by decide +kernel), rfl, (by decide +kernel)⟩,
   ⟨tT (tW 0x31 [(73, 2)]), 0, 0x200, tW 0x31 [(73, 2)], tDir 0x200, (by decide +kernel), (by decide +kernel), (by decide +kernel), (by decide +kernel), (by decide +kernel), (by decide +kernel), (by decide +kernel), (by decide +kernel)⟩,
   ⟨tT (tW 0x32 [(72, 3)]), 0, 3, tW 0x32 [(72, 3)], (by decide +kernel), (by decide +kernel), (by decide +kernel), (by decide +kernel), (by decide +kernel)⟩,
   ⟨tT (tW 0x33 [(72, 0xFF), (73, 3)]), 0, tW 0x33 [(72, 0xFF), (73, 3)], (by decide +kernel), (by decide +kernel)⟩⟩

/-- What each clause of `Obligations.CustodianAndTamperOpcodesComplete` supposes can be met. -/
theorem witness_CustodianAndTamperOpcodesComplete :
    (∃ (s : State) (t : State) (i : Nat) (p : Nat) (c : Cmd) (x : Part) (b : Bytes), StewardReady s i 0x037 c ∧ p = c.inl 72 2 ∧ inReach s c p = true ∧ s.part? p = some x ∧ x.tearing = false ∧ s.random 16 8 = .bytes t b) ∧
    (∃ (s : State) (i : Nat) (p : Nat) (c : Cmd) (x : Part), StewardReady s i 0x037 c ∧ p = c.inl 72 2 ∧ inReach s c p = true ∧ s.part? p = some x ∧ x.tearing = false ∧ s.random 16 8 = .off) ∧
    (∃ (s : State) (p : Nat), (s.qr.nonces.filter (fun n => n.part == p)).length < 16) ∧
    (∃ (s : State) (s1 : State) (i : Nat) (n : Nat) (c : Cmd) (p : Part) (r : Bytes), StewardReady s i 0x038 c ∧ c.quorum.isSome = true ∧ n = c.inl 72 2 ∧ n ≠ 0 ∧ (c.admin = true ∨ c.part = n) ∧ s.part? n = some p ∧ p.id = n ∧ p.tearing = false ∧ r = c.own true ∧ s.canCommit = true ∧ s1 = s.modPart n (fun x => { x with custN := byteAt r 10, custM := byteAt r 11, custVer := fieldLe r 12 4, custKeys := recordKeys r (byteAt r 10) })) ∧
    (∃ (s : State) (i : Nat) (n : Nat) (c : Cmd) (p : Part), StewardReady s i 0x039 c ∧ n = c.inl 72 2 ∧ inReach s c n = true ∧ s.part? n = some p) ∧
    (∃ (s : State) (s1 : State) (i : Nat) (c : Cmd), StewardReady s i 0x03C c ∧ c.inl 74 1 ≤ 15 ∧ c.inl 75 1 ≤ 15 ∧ allZero (c.inlB 84 44) = true ∧ s.lc.state ≠ 0x40 ∧ armsLive s (c.inl 72 2) = [] ∧ s1 = { s with tmp := { s.tmp with cfg := BitVec.ofNat 16 (c.inl 72 2), activeHigh := BitVec.ofNat 4 (c.inl 74 1), debounce := c.inl 75 1, win := ((List.range 4).map (fun n => (c.inl (76 + 2 * n) 1, c.inl (77 + 2 * n) 1))).mapIdx (fun n w => (w.1, w.2, ((s.tmp.win[n]?).map (fun x => x.2.2)).getD 0)) } }) ∧
    (∃ (s : State) (i : Nat) (c : Cmd), StewardReady s i 0x03D c) ∧
    (∃ (s : State) (s1 : State) (i : Nat) (c : Cmd) (m : BitVec 15), StewardReady s i 0x03E c ∧ c.inl 72 2 < 2 ^ 15 ∧ allZero (c.inlB 74 54) = true ∧ m = BitVec.ofNat 15 (c.inl 72 2) ∧ s1 = { s with tmp := { s.tmp with latch := s.tmp.latch &&& ~~~(m &&& ~~~s.tmp.live) } }) ∧
    (∃ (s : State) (i : Nat) (n : Nat) (f : Nat) (c : Cmd) (h : _), StewardReady s i 0x03F c ∧ n = c.inl 72 1 ∧ f = c.inl 73 1 ∧ n ≤ 7 ∧ f ≤ 9 ∧ heldElsewhere s n f = false ∧ pinRefuser s n f = some h) ∧
    (∃ (s : State) (i : Nat) (n : Nat) (f : Nat) (c : Cmd), StewardReady s i 0x03F c ∧ n = c.inl 72 1 ∧ f = c.inl 73 1 ∧ n ≤ 7 ∧ f ≤ 9 ∧ heldElsewhere s n f = false ∧ pinRefuser s n f = none) :=
  ⟨⟨tT (tW 0x37 []), _, 0, 0, tW 0x37 [], Part.owner, _, (by decide +kernel), (by decide +kernel), (by decide +kernel), (by decide +kernel), (by decide +kernel), (bytes_eta (by decide +kernel))⟩,
   ⟨{ tT (tW 0x37 []) with rng := { tOn.rng with latched := true } }, 0, 0, tW 0x37 [], Part.owner, (by decide +kernel), (by decide +kernel), (by decide +kernel), (by decide +kernel), (by decide +kernel), rfl⟩,
   ⟨tOn, 0, (by decide +kernel)⟩,
   ⟨{ tT (tExt (tW 0x38 [(72, 1)]) ([0, 0, 0, 0, 0, 0, 0, 0, 0, 0, 1, 1] ++ zeros 36)) with parts := [Part.owner, tChild] }, _, 0, 1, tExt (tW 0x38 [(72, 1)]) ([0, 0, 0, 0, 0, 0, 0, 0, 0, 0, 1, 1] ++ zeros 36), tChild, _, (by decide +kernel), (by decide +kernel), (by decide +kernel), (by decide +kernel), (by decide +kernel), (by decide +kernel), (by decide +kernel), (by decide +kernel), rfl, (by decide +kernel), rfl⟩,
   ⟨tT (tW 0x39 []), 0, 0, tW 0x39 [], Part.owner, (by decide +kernel), (by decide +kernel), (by decide +kernel), (by decide +kernel)⟩,
   ⟨{ tLc 0x30 with cmds := [(tW 0x3C [(74, 15), (75, 15)])] }, _, 0, tW 0x3C [(74, 15), (75, 15)], (by decide +kernel), (by decide +kernel), (by decide +kernel), (by decide +kernel), (by decide +kernel), (by decide +kernel), rfl⟩,
   ⟨tT (tW 0x3D []), 0, tW 0x3D [], (by decide +kernel)⟩,
   ⟨tT (tW 0x3E [(72, 0xFF), (73, 0x7F)]), _, 0, tW 0x3E [(72, 0xFF), (73, 0x7F)], _, (by decide +kernel), (by decide +kernel), (by decide +kernel), rfl, rfl⟩,
   ⟨{ tT (tW 0x3F [(72, 7), (73, 9)]) with iom := { Iom.reset with pins := List.replicate 7 { req := 0, granted := 0, preempted := false, refused := false, kept := 0 } ++ [{ req := 3, granted := 3, preempted := false, refused := false, kept := 0 }] } }, 0, 7, 9, tW 0x3F [(72, 7), (73, 9)], _, (by decide +kernel), (by decide +kernel), (by decide +kernel), (by decide +kernel), (by decide +kernel), (by decide +kernel), (some_eta (by decide +kernel))⟩,
   ⟨tT (tW 0x3F [(72, 7), (73, 9)]), 0, 7, 9, tW 0x3F [(72, 7), (73, 9)], (by decide +kernel), (by decide +kernel), (by decide +kernel), (by decide +kernel), (by decide +kernel), (by decide +kernel), (by decide +kernel)⟩⟩

/-- What each clause of `Obligations.TimeAndRecorderOpcodesComplete` supposes can be met. -/
theorem witness_TimeAndRecorderOpcodesComplete :
    (∃ (s : State) (s1 : State) (i : Nat) (c : Cmd), StewardReady s i 0x1A0 c ∧ c.inl 72 1 ≤ 2 ∧ c.inl 73 1 ≤ 127 ∧ c.inl 74 1 < 4 ∧ 1 ≤ c.inl 75 1 ∧ c.inl 75 1 ≤ 250 ∧ 1 ≤ c.inl 76 2 ∧ c.inl 76 2 ≤ 168 ∧ 1 ≤ c.inl 78 2 ∧ c.inl 78 2 ≤ 1000 ∧ allZero (c.inlB 88 40) = true ∧ s1 = { s with pt := { s.pt.load (timeCfg c s.pt) with cfgStored := some (timeCfg c s.pt) } } ∧ c.inl 72 1 = s.pt.mapping ∧ c.inl 73 1 = s.pt.domain) ∧
    (∃ (s : State) (s1 : State) (i : Nat) (c : Cmd), StewardReady s i 0x1A0 c ∧ c.inl 72 1 ≤ 2 ∧ c.inl 73 1 ≤ 127 ∧ c.inl 74 1 < 4 ∧ 1 ≤ c.inl 75 1 ∧ c.inl 75 1 ≤ 250 ∧ 1 ≤ c.inl 76 2 ∧ c.inl 76 2 ≤ 168 ∧ 1 ≤ c.inl 78 2 ∧ c.inl 78 2 ≤ 1000 ∧ allZero (c.inlB 88 40) = true ∧ s1 = { s with pt := { s.pt.load (timeCfg c s.pt) with cfgStored := some (timeCfg c s.pt) } } ∧ (c.inl 72 1 ≠ s.pt.mapping ∨ c.inl 73 1 ≠ s.pt.domain)) ∧
    (∃ (s : State) (i : Nat) (c : Cmd), StewardReady s i 0x1A1 c) ∧
    (∃ (s : State) (i : Nat) (u : Nat) (c : Cmd), StewardReady s i 0x1A4 c ∧ u = c.inl 72 2 ∧ u ≤ 175 ∧ allZero (c.inlB 74 54) = true) ∧
    (∃ (s : State) (i : Nat) (u : Nat) (c : Cmd), StewardReady s i 0x1A5 c ∧ u = c.inl 72 2 ∧ u ≤ 175 ∧ c.inl 74 1 ≤ 15 ∧ allZero (c.inlB 75 53) = true ∧ skipUnit s u = false ∧ (s.slot (slotOf u)).reqs.length < 8) ∧
    (∃ (s : State) (i : Nat) (u : Nat) (c : Cmd), StewardReady s i 0x1A5 c ∧ u = c.inl 72 2 ∧ u ≤ 175 ∧ c.inl 74 1 ≤ 15 ∧ allZero (c.inlB 75 53) = true ∧ skipUnit s u = false ∧ 8 ≤ (s.slot (slotOf u)).reqs.length) ∧
    (∃ (s : State) (i : Nat) (p : Nat) (c : Cmd) (on : Bool), StewardReady s i 0x1A6 c ∧ c.inl 72 1 = b2n on ∧ c.inl 73 1 = 0 ∧ p = c.inl 74 2 ∧ 10 ≤ p ∧ p ≤ 10000 ∧ 1 ≤ c.inl 76 1 ∧ allZero (c.inlB 77 51) = true ∧ (s.lc.state = 0x40 → on = true ∧ p ≤ 1000)) ∧
    (∃ (s : State) (i : Nat) (c : Cmd), StewardReady s i 0x1A7 c ∧ c.inl 72 1 ≤ 1 ∧ c.inl 73 1 = 0 ∧ allZero (c.inlB 86 42) = true ∧ s.pt.mapping = 1) ∧
    (∃ (s : State) (i : Nat) (a : Nat) (n : Nat) (c : Cmd), StewardReady s i 0x1AC c ∧ a = c.inl 72 2 ∧ n = c.inl 74 1 ∧ 1 ≤ n ∧ n ≤ 96 ∧ a + n ≤ 65536 ∧ allZero (c.inlB 75 53) = true) ∧
    (∃ (s : State) (s1 : State) (i : Nat) (c : Cmd), StewardReady s i 0x1AD c ∧ c.quorum.isSome = true ∧ c.ownLen true = 0 ∧ s.evr.clearing = false ∧ s1 = s.setCmd { c with phase := .waitClear }) ∧
    (∃ (s : State) (i : Nat) (c : Cmd), s.evr.clearing = true ∧ s.evr.clearBy = some (.ctx i) ∧ s.sag.warning = false ∧ s.cmd? (.ctx i) = some c ∧ c.phase = .waitClear) ∧
    (∃ (s : State) (i : Nat) (a : Nat) (n : Nat) (c : Cmd), StewardReady s i 0x1AE c ∧ a = c.inl 72 2 ∧ n = c.inl 74 1 ∧ 1 ≤ n ∧ n ≤ 96 ∧ a ≤ 8191 ∧ allZero (c.inlB 75 53) = true) ∧
    (∃ (s : State) (i : Nat) (c : Cmd), StewardReady s i 0x1AF c ∧ s.evr.frozen = true ∧ allZero (c.inlB 72 56) = true) :=
  ⟨⟨tT (tW 0x1A0 [(72, 1), (75, 250), (76, 168), (78, 1)]), _, 0, tW 0x1A0 [(72, 1), (75, 250), (76, 168), (78, 1)], (by decide +kernel), (by decide +kernel), (by decide +kernel), (by decide +kernel), (by decide +kernel), (by decide +kernel), (by decide +kernel), (by decide +kernel), (by decide +kernel), (by decide +kernel), (by decide +kernel), rfl, (by decide +kernel), (by decide +kernel)⟩,
   ⟨tT (tW 0x1A0 [(72, 2), (73, 127), (75, 1), (76, 1), (78, 0xE8), (79, 3)]), _, 0, tW 0x1A0 [(72, 2), (73, 127), (75, 1), (76, 1), (78, 0xE8), (79, 3)], (by decide +kernel), (by decide +kernel), (by decide +kernel), (by decide +kernel), (by decide +kernel), (by decide +kernel), (by decide +kernel), (by decide +kernel), (by decide +kernel), (by decide +kernel), (by decide +kernel), rfl, (by decide +kernel)⟩,
   ⟨tT (tW 0x1A1 []), 0, tW 0x1A1 [], (by decide +kernel)⟩,
   ⟨tT (tW 0x1A4 [(72, 175)]), 0, 175, tW 0x1A4 [(72, 175)], (by decide +kernel), (by decide +kernel), (by decide +kernel), (by decide +kernel)⟩,
   ⟨tT (tW 0x1A5 [(72, 175), (74, 15)]), 0, 175, tW 0x1A5 [(72, 175), (74, 15)], (by decide +kernel), (by decide +kernel), (by decide +kernel), (by decide +kernel), (by decide +kernel), (by decide +kernel), (by decide +kernel)⟩,
   ⟨{ tT (tW 0x1A5 []) with bist := { Bist.reset with slots := [{ Slot.reset with reqs := List.replicate 8 (0, 0, 0, none) }, Slot.reset] } }, 0, 0, tW 0x1A5 [], (by decide +kernel), (by decide +kernel), (by decide +kernel), (by decide +kernel), (by decide +kernel), (by decide +kernel), (by decide +kernel)⟩,
   ⟨tT (tW 0x1A6 [(72, 1), (74, 10), (76, 1)]), 0, 10, tW 0x1A6 [(72, 1), (74, 10), (76, 1)], true, (by decide +kernel), (by decide +kernel), (by decide +kernel), (by decide +kernel), (by decide +kernel), (by decide +kernel), (by decide +kernel), (by decide +kernel), (by decide +kernel)⟩,
   ⟨tT (tW 0x1A7 [(72, 1)]), 0, tW 0x1A7 [(72, 1)], (by decide +kernel), (by decide +kernel), (by decide +kernel), (by decide +kernel), (by decide +kernel)⟩,
   ⟨tT (tW 0x1AC [(72, 0xA0), (73, 0xFF), (74, 96)]), 0, 65440, 96, tW 0x1AC [(72, 0xA0), (73, 0xFF), (74, 96)], (by decide +kernel), (by decide +kernel), (by decide +kernel), (by decide +kernel), (by decide +kernel), (by decide +kernel), (by decide +kernel)⟩,
   ⟨tT (tW 0x1AD []), _, 0, tW 0x1AD [], (by decide +kernel), (by decide +kernel), (by decide +kernel), (by decide +kernel), rfl⟩,
   ⟨{ tT ({ tW 0x1AD [] with phase := .waitClear }) with evr := { Recorder.reset with clearing := true, clearBy := some (.ctx 0) } }, 0, { tW 0x1AD [] with phase := .waitClear }, (by decide +kernel), (by decide +kernel), (by decide +kernel), (by decide +kernel), (by decide +kernel)⟩,
   ⟨tT (tW 0x1AE [(72, 0xFF), (73, 0x1F), (74, 1)]), 0, 8191, 1, tW 0x1AE [(72, 0xFF), (73, 0x1F), (74, 1)], (by decide +kernel), (by decide +kernel), (by decide +kernel), (by decide +kernel), (by decide +kernel), (by decide +kernel), (by decide +kernel)⟩,
   ⟨{ tT (tW 0x1AF []) with evr := { Recorder.reset with frozen := true } }, 0, tW 0x1AF [], (by decide +kernel), (by decide +kernel), (by decide +kernel)⟩⟩

/-- What each clause of `Obligations.RandomAndLifeCycleOpcodesComplete` supposes can be met. -/
theorem witness_RandomAndLifeCycleOpcodesComplete :
    (∃ (s : State) (s1 : State) (i : Nat) (c : Cmd), StewardReady s i 0x1A8 c ∧ (c.quorum.isSome = true ∨ s.lc.state ≠ 0x30 ∧ s.lc.state ≠ 0x40) ∧ allZero (c.inlB 73 55) = true ∧ s.rng.latched = false ∧ s1 = stopRandom s) ∧
    (∃ (s : State) (s1 : State) (i : Nat) (n : Nat) (c : Cmd), StewardReady s i 0x1A9 c ∧ n = c.inl 76 2 ∧ s.rng.raw = true ∧ c.inl 72 1 ≤ 7 ∧ allZero (c.inlB 73 3) = true ∧ allZero (c.inlB 78 50) = true ∧ 16 ≤ n ∧ n ≤ 3072 ∧ n % 16 = 0 ∧ s1 = { s with rng := { s.rng with rawReads := s.evr.optime, rawSeen := 0 } }) ∧
    (∃ (s : State) (i : Nat) (c : Cmd), StewardReady s i 0x1AA c ∧ s.rng.raw = true ∧ allZero (c.inlB 72 56) = true) ∧
    (∃ (s : State) (i : Nat) (k : Nat) (c : Cmd) (h : Health), StewardReady s i 0x1AB c ∧ k = c.inl 72 1 ∧ k ≤ 7 ∧ allZero (c.inlB 73 55) = true ∧ s.rng.health[k]? = some h) ∧
    (∃ (s : State) (i : Nat) (c : Cmd), StewardReady s i 0x1B0 c ∧ c.inl 82 1 = 0) ∧
    (∃ (s : State) (i : Nat) (n : Nat) (c : Cmd) (p : Part), StewardReady s i 0x1B1 c ∧ n = c.inl 80 2 ∧ inReach s c n = true ∧ s.part? n = some p ∧ c.inl 82 1 = 0) ∧
    (∃ (s : State) (i : Nat) (c : Cmd), StewardReady s i 0x1B8 c ∧ (c.quorum.isSome = true ∨ s.lc.state ≠ 0x30 ∧ s.lc.state ≠ 0x40) ∧ c.inl 96 1 = 0x40) ∧
    (∃ (s : State) (i : Nat) (c : Cmd), StewardReady s i 0x1B8 c ∧ (c.quorum.isSome = true ∨ s.lc.state ≠ 0x30 ∧ s.lc.state ≠ 0x40) ∧ c.inl 96 1 ≠ 0x40 ∧ c.inl 72 1 ≠ 0x40 ∧ allZero (c.inlB 76 4) = true) ∧
    (∃ (s : State) (i : Nat) (c : Cmd), StewardReady s i 0x1B9 c) ∧
    (∃ (s : State) (i : Nat) (c : Cmd), StewardReady s i 0x1BC c) ∧
    (∃ (s : State) (s1 : State) (i : Nat) (c : Cmd) (g : Image), StewardReady s i 0x1BD c ∧ s.drafts.holder = some c.place ∧ g = stagedImage s ∧ s1 = { s with lc := (if s.lc.slot = 0 then { s.lc with flashB := g } else { s.lc with flashA := g }) }) ∧
    (∃ (s : State) (i : Nat) (n : Nat) (c : Cmd), StewardReady s i 0x1BE c ∧ n = c.inl 72 4 ∧ s.lc.rollback ≤ n ∧ n ≤ fieldLe s.lc.running.header 16 4 ∧ s.lc.session = none ∧ s.sag.warning = false ∧ advanceWords s n = []) ∧
    (∃ (s : State) (i : Nat) (n : Nat) (c : Cmd), StewardReady s i 0x1BE c ∧ n = c.inl 72 4 ∧ s.lc.rollback ≤ n ∧ n ≤ fieldLe s.lc.running.header 16 4 ∧ s.lc.session = none ∧ s.sag.warning = false ∧ advanceWords s n ≠ []) ∧
    (∃ (s : State) (i : Nat) (c : Cmd) (t : Bytes), StewardReady s i 0x1BA c ∧ c.quorum.isSome = true ∧ t = sl (c.own true) 0 128) ∧
    (∃ (s : State) (i : Nat) (c : Cmd), StewardReady s i 0x1BB c) :=
  ⟨⟨tT (tW 0x1A8 [(72, 1)]), _, 0, tW 0x1A8 [(72, 1)], (by decide +kernel), (by decide +kernel), (by decide +kernel), (by decide +kernel), rfl⟩,
   ⟨{ tT (tW 0x1A9 [(72, 7), (76, 16)]) with rng := { tOn.rng with raw := true } }, _, 0, 16, tW 0x1A9 [(72, 7), (76, 16)], (by decide +kernel), (by decide +kernel), (by decide +kernel), (by decide +kernel), (by decide +kernel), (by decide +kernel), (by decide +kernel), (by decide +kernel), (by decide +kernel), rfl⟩,
   ⟨{ tT (tW 0x1AA []) with rng := { tOn.rng with raw := true } }, 0, tW 0x1AA [], (by decide +kernel), (by decide +kernel), (by decide +kernel)⟩,
   ⟨tT (tW 0x1AB [(72, 7)]), 0, 7, tW 0x1AB [(72, 7)], _, (by decide +kernel), (by decide +kernel), (by decide +kernel), (by decide +kernel), (some_eta (by decide +kernel))⟩,
   ⟨tT (tW 0x1B0 []), 0, tW 0x1B0 [], (by decide +kernel), (by decide +kernel)⟩,
   ⟨tT (tW 0x1B1 []), 0, 0, tW 0x1B1 [], Part.owner, (by decide +kernel), (by decide +kernel), (by decide +kernel), (by decide +kernel), (by decide +kernel)⟩,
   ⟨tT (tW 0x1B8 [(96, 0x40)]), 0, tW 0x1B8 [(96, 0x40)], (by decide +kernel), (by decide +kernel), (by decide +kernel)⟩,
   ⟨tT (tW 0x1B8 [(72, 0x60)]), 0, tW 0x1B8 [(72, 0x60)], (by decide +kernel), (by decide +kernel), (by decide +kernel), (by decide +kernel), (by decide +kernel)⟩,
   ⟨tT (tW 0x1B9 []), 0, tW 0x1B9 [], (by decide +kernel)⟩,
   ⟨tT (tW 0x1BC []), 0, tW 0x1BC [], (by decide +kernel)⟩,
   ⟨{ tT (tW 0x1BD []) with drafts := { tOn.drafts with holder := some (.ctx 0) } }, _, 0, tW 0x1BD [], _, (by decide +kernel), (by decide +kernel), rfl, rfl⟩,
   ⟨tT (tW 0x1BE []), 0, 0, tW 0x1BE [], (by decide +kernel), (by decide +kernel), (by decide +kernel), (by decide +kernel), (by decide +kernel), (by decide +kernel), (by decide +kernel)⟩,
   ⟨{ tT (tW 0x1BE [(72, 1)]) with lc := { tOn.lc with running := { header := zeros 16 ++ [1], body := [] } } }, 0, 1, tW 0x1BE [(72, 1)], (by decide +kernel), (by decide +kernel), (by decide +kernel), (by decide +kernel), (by decide +kernel), (by decide +kernel), (by decide +kernel)⟩,
   ⟨tT (tW 0x1BA []), 0, tW 0x1BA [], _, (by decide +kernel), (by decide +kernel), rfl⟩,
   ⟨tT (tW 0x1BB []), 0, tW 0x1BB [], (by decide +kernel)⟩⟩

/-- What each clause of `Obligations.PinOpcodesComplete` supposes can be met. -/
theorem witness_PinOpcodesComplete :
    (∃ (s : State) (s1 : State) (n : Nat) (k : Nat) (fi : Nat) (fo : Nat) (c : Cmd) (c1 : Cmd) (k0 : KReg) (k1 : KReg), LoomReady s n k 0x080 c ∧ fi = c.inl 88 1 ∧ fo = c.inl 89 1 ∧ countOk c 2 = true ∧ fi ∈ pinFormats ∧ fo ∈ pinFormats ∧ reserved c 101 27 = true ∧ blockPad c fi = true ∧ panOk (c.inlB 90 11) (panLow [fi, fo]) 19 = true ∧ KeysIn s c [(0, 2, pinMask fi), (1, 1, pinMask fo)] s1 c1 ∧ CoreReady s1 c ∧ RegReady s1 c1 0 k0 ∧ RegReady s1 c1 1 k1) ∧
    (∃ (s : State) (t : State) (c : Cmd) (fo : Nat) (fill : Bytes), s.random (drbgOf c.place) (fillLen fo) = .bytes t fill) ∧
    (∃ (s : State) (s1 : State) (n : Nat) (k : Nat) (l : Nat) (fmt : Nat) (c : Cmd) (c1 : Cmd) (k0 : KReg) (k1 : KReg), LoomReady s n k 0x081 c ∧ fmt = c.inl 88 1 ∧ l = c1.inl 89 1 ∧ offsetParams c true = none ∧ KeysIn s c [(0, 2, pinMask fmt), (1, 9, tdesMask)] s1 c1 ∧ CoreReady s1 c ∧ RegReady s1 c1 0 k0 ∧ RegReady s1 c1 1 k1) ∧
    (∃ (s : State) (s1 : State) (n : Nat) (k : Nat) (l : Nat) (fmt : Nat) (c : Cmd) (c1 : Cmd) (k0 : KReg) (k1 : KReg), LoomReady s n k 0x083 c ∧ fmt = c.inl 88 1 ∧ l = c1.inl 89 1 ∧ offsetParams c false = none ∧ KeysIn s c [(0, 2, pinMask fmt), (1, 9, tdesMask)] s1 c1 ∧ CoreReady s1 c ∧ RegReady s1 c1 0 k0 ∧ RegReady s1 c1 1 k1) ∧
    (∃ (s : State) (s1 : State) (n : Nat) (k : Nat) (fmt : Nat) (c : Cmd) (c1 : Cmd) (k0 : KReg) (k1 : KReg), LoomReady s n k 0x082 c ∧ fmt = c.inl 88 1 ∧ pvvParams c true = none ∧ KeysIn s c [(0, 2, pinMask fmt), (1, 9, 16)] s1 c1 ∧ CoreReady s1 c ∧ RegReady s1 c1 0 k0 ∧ RegReady s1 c1 1 k1) ∧
    (∃ (s : State) (s1 : State) (n : Nat) (k : Nat) (fmt : Nat) (c : Cmd) (c1 : Cmd) (k0 : KReg) (k1 : KReg), LoomReady s n k 0x084 c ∧ fmt = c.inl 88 1 ∧ pvvParams c false = none ∧ KeysIn s c [(0, 2, pinMask fmt), (1, 9, 16)] s1 c1 ∧ CoreReady s1 c ∧ RegReady s1 c1 0 k0 ∧ RegReady s1 c1 1 k1) ∧
    (∃ (s : State) (s1 : State) (n : Nat) (k : Nat) (fi : Nat) (fo : Nat) (l : Nat) (c : Cmd) (c1 : Cmd) (k0 : KReg) (k1 : KReg) (w : KReg), LoomReady s n k 0x0A0 c ∧ fi = c.inl 88 1 ∧ fo = c.inl 89 1 ∧ countOk c 2 = true ∧ fi ∈ pinFormats ∧ fo ∈ pinFormats ∧ reserved c 114 14 = true ∧ blockPad c fi = true ∧ panOk (c.inlB 90 11) (panLow [fi, fo]) 19 = true ∧ KeysIn s c [(0, 4, 0x1E), (1, 1, pinMask fo)] s1 c1 ∧ CoreReady s1 c ∧ RegReady s1 c1 0 k0 ∧ RegReady s1 c1 1 k1 ∧ isAes k0.key.alg = (fi == 4) ∧ l = c1.inl 101 1 ∧ l = ksnLen k0.key.alg ∧ reserved c1 (102 + l) (12 - l) = true ∧ ksnOk k0.key.alg (c1.inlB 102 l) = true ∧ c1.key 2 = some w) ∧
    (∃ (s : State) (n : Nat) (k : Nat) (d : Nat) (c : Cmd), offsetParams c true = some d ∧ LoomReady s n k 0x081 c) ∧
    (∃ (s : State) (n : Nat) (k : Nat) (d : Nat) (c : Cmd), pvvParams c true = some d ∧ LoomReady s n k 0x082 c) :=
  ⟨⟨tS (tL 0x80 [(7, 2), (90, 12), (97, 0xFF), (98, 0xFF), (99, 0xFF), (100, 0xFF)] [(0, tReg 2 4), (1, tReg 1 5)]), _, 0, 0, _, _, tL 0x80 [(7, 2), (90, 12), (97, 0xFF), (98, 0xFF), (99, 0xFF), (100, 0xFF)] [(0, tReg 2 4), (1, tReg 1 5)], _, _, _, (by decide +kernel), rfl, rfl, (by decide +kernel), (by decide +kernel), (by decide +kernel), (by decide +kernel), (by decide +kernel), (by decide +kernel), (ready_eta (by decide +kernel)), (by decide +kernel), ⟨some_eta (by decide +kernel), (by decide +kernel)⟩, ⟨some_eta (by decide +kernel), (by decide +kernel)⟩⟩,
   ⟨tOn, _, tC 0x80 .ready [], 0, _, (bytes_eta (by decide +kernel))⟩,
   ⟨tS (tL 0x81 [(7, 2), (89, 4), (90, 12), (97, 0xFF), (98, 0xFF), (99, 0xFF), (100, 0xFF), (119, 0xFF), (120, 0xFF), (121, 0xFF), (122, 0xFF)] [(0, tReg 2 4), (1, tReg 9 4)]), _, 0, 0, _, _, tL 0x81 [(7, 2), (89, 4), (90, 12), (97, 0xFF), (98, 0xFF), (99, 0xFF), (100, 0xFF), (119, 0xFF), (120, 0xFF), (121, 0xFF), (122, 0xFF)] [(0, tReg 2 4), (1, tReg 9 4)], _, _, _, (by decide +kernel), rfl, rfl, (by decide +kernel), (ready_eta (by decide +kernel)), (by decide +kernel), ⟨some_eta (by decide +kernel), (by decide +kernel)⟩, ⟨some_eta (by decide +kernel), (by decide +kernel)⟩⟩,
   ⟨tS (tL 0x83 [(7, 2), (89, 12), (90, 12), (97, 0xFF), (98, 0xFF), (99, 0xFF), (100, 0xFF)] [(0, tReg 2 4), (1, tReg 9 4)]), _, 0, 0, _, _, tL 0x83 [(7, 2), (89, 12), (90, 12), (97, 0xFF), (98, 0xFF), (99, 0xFF), (100, 0xFF)] [(0, tReg 2 4), (1, tReg 9 4)], _, _, _, (by decide +kernel), rfl, rfl, (by decide +kernel), (ready_eta (by decide +kernel)), (by decide +kernel), ⟨some_eta (by decide +kernel), (by decide +kernel)⟩, ⟨some_eta (by decide +kernel), (by decide +kernel)⟩⟩,
   ⟨tS (tL 0x82 [(7, 2), (88, 3), (89, 6), (90, 12), (97, 0xFF), (98, 0xFF), (99, 0xFF), (100, 0xFF)] [(0, tReg 2 4), (1, tReg 9 4)]), _, 0, 0, _, tL 0x82 [(7, 2), (88, 3), (89, 6), (90, 12), (97, 0xFF), (98, 0xFF), (99, 0xFF), (100, 0xFF)] [(0, tReg 2 4), (1, tReg 9 4)], _, _, _, (by decide +kernel), rfl, (by decide +kernel), (ready_eta (by decide +kernel)), (by decide +kernel), ⟨some_eta (by decide +kernel), (by decide +kernel)⟩, ⟨some_eta (by decide +kernel), (by decide +kernel)⟩⟩,
   ⟨tS (tL 0x84 [(7, 2), (88, 4), (90, 12), (97, 0xFF), (98, 0xFF), (99, 0xFF), (100, 0xFF)] [(0, tReg 2 3), (1, tReg 9 4)]), _, 0, 0, _, tL 0x84 [(7, 2), (88, 4), (90, 12), (97, 0xFF), (98, 0xFF), (99, 0xFF), (100, 0xFF)] [(0, tReg 2 3), (1, tReg 9 4)], _, _, _, (by decide +kernel), rfl, (by decide +kernel), (ready_eta (by decide +kernel)), (by decide +kernel), ⟨some_eta (by decide +kernel), (by decide +kernel)⟩, ⟨some_eta (by decide +kernel), (by decide +kernel)⟩⟩,
   ⟨tS (tL 0xA0 [(7, 2), (90, 12), (97, 0xFF), (98, 0xFF), (99, 0xFF), (100, 0xFF), (101, 10), (111, 1)] [(0, tReg 4 4), (1, tReg 1 4), (2, tReg 2 4)]), _, 0, 0, _, _, _, tL 0xA0 [(7, 2), (90, 12), (97, 0xFF), (98, 0xFF), (99, 0xFF), (100, 0xFF), (101, 10), (111, 1)] [(0, tReg 4 4), (1, tReg 1 4), (2, tReg 2 4)], _, _, _, tReg 2 4, (by decide +kernel), rfl, rfl, (by decide +kernel), (by decide +kernel), (by decide +kernel), (by decide +kernel), (by decide +kernel), (by decide +kernel), (ready_eta (by decide +kernel)), (by decide +kernel), ⟨some_eta (by decide +kernel), (by decide +kernel)⟩, ⟨some_eta (by decide +kernel), (by decide +kernel)⟩, (by decide +kernel), rfl, (by decide +kernel), (by decide +kernel), (by decide +kernel), (by decide +kernel)⟩,
   ⟨tS (tL 0x81 [] []), 0, 0, _, tL 0x81 [] [], (some_eta (by decide +kernel)), (by decide +kernel)⟩,
   ⟨tS (tL 0x82 [] []), 0, 0, _, tL 0x82 [] [], (some_eta (by decide +kernel)), (by decide +kernel)⟩⟩

/-- What each clause of `Obligations.CardAndMacOpcodesComplete` supposes can be met. -/
theorem witness_CardAndMacOpcodesComplete :
    (∃ (s : State) (s1 : State) (n : Nat) (k : Nat) (c : Cmd) (c1 : Cmd) (k0 : KReg) (v : List Nat), KeysIn s c [(0, 9, 16)] s1 c1 ∧ CoreReady s1 c ∧ RegReady s1 c1 0 k0 ∧ v = cvcOf k0.key (panOf (c1.inlB 72 11)) (nibbles (c1.inlB 83 2)) ((nibbles (c1.inlB 85 2)).take 3) (c1.inl 87 1) ∧ LoomReady s n k 0x088 c ∧ cvcParams c false = none) ∧
    (∃ (s : State) (s1 : State) (n : Nat) (k : Nat) (c : Cmd) (c1 : Cmd) (k0 : KReg) (v : List Nat), KeysIn s c [(0, 9, 16)] s1 c1 ∧ CoreReady s1 c ∧ RegReady s1 c1 0 k0 ∧ v = cvcOf k0.key (panOf (c1.inlB 72 11)) (nibbles (c1.inlB 83 2)) ((nibbles (c1.inlB 85 2)).take 3) (c1.inl 87 1) ∧ LoomReady s n k 0x089 c ∧ cvcParams c true = none) ∧
    (∃ (s : State) (s1 : State) (n : Nat) (k : Nat) (m : Nat) (c : Cmd) (c1 : Cmd) (k0 : KReg) (ctx : Bytes) (arqc : Bytes), LoomReady s n k 0x090 c ∧ emvParams c = none ∧ KeysIn s c [(0, 5, 0x1E)] s1 c1 ∧ CoreReady s1 c ∧ RegReady s1 c1 0 k0 ∧ m = c1.inl 72 1 % 4 ∧ ctx = emvContext (panOf (c1.inlB 99 11)) (c1.inlB 73 1) (c1.inlB 74 2) ∧ arqc = c1.inlB 76 8) ∧
    (∃ (s : State) (s1 : State) (n : Nat) (k : Nat) (m : Nat) (l : Nat) (c : Cmd) (c1 : Cmd) (k0 : KReg) (w : KReg) (x : Bytes), LoomReady s n k 0x0A1 c ∧ m = c.inl 72 1 ∧ countOk c 1 = true ∧ m ≤ 2 ∧ reserved c 86 2 = true ∧ reserved c 104 24 = true ∧ (m ≠ 1 → reserved c 88 16 = true) ∧ KeysIn s c [(0, 4, 0x1E)] s1 c1 ∧ CoreReady s1 c ∧ RegReady s1 c1 0 k0 ∧ l = c1.inl 73 1 ∧ l = ksnLen k0.key.alg ∧ reserved c1 (74 + l) (12 - l) = true ∧ ksnOk k0.key.alg (c1.inlB 74 l) = true ∧ c1.key 2 = some w ∧ x = c1.own false ∧ x.length % blockLen w.key.alg = 0 ∧ (m = 1 → isTdes w.key.alg = true → reserved c1 96 8 = true)) ∧
    (∃ (s : State) (s1 : State) (n : Nat) (k : Nat) (ml : Nat) (l : Nat) (c : Cmd) (c1 : Cmd) (k0 : KReg) (w : KReg) (x : Bytes), LoomReady s n k 0x0A2 c ∧ ml = c.inl 72 1 ∧ countOk c 1 = true ∧ 4 ≤ ml ∧ ml ≤ 16 ∧ reserved c 86 42 = true ∧ KeysIn s c [(0, 4, 0x1E)] s1 c1 ∧ CoreReady s1 c ∧ RegReady s1 c1 0 k0 ∧ l = c1.inl 73 1 ∧ l = ksnLen k0.key.alg ∧ reserved c1 (74 + l) (12 - l) = true ∧ ksnOk k0.key.alg (c1.inlB 74 l) = true ∧ c1.key 2 = some w ∧ x = c1.own false ∧ ml < x.length ∧ (isTdes w.key.alg = true → ml ≤ 8)) ∧
    (∃ (s : State) (s1 : State) (n : Nat) (k : Nat) (m : Nat) (ml : Nat) (c : Cmd) (c1 : Cmd) (k0 : KReg) (x : Bytes) (full : Bytes), LoomReady s n k 0x0C0 c ∧ macParams c = none ∧ m = c.inl 72 1 ∧ ml = c.inl 74 1 ∧ x = c.own false ∧ (m = 1 → 1 ≤ x.length) ∧ KeysIn s c [(0, 5, macMask m)] s1 c1 ∧ CoreReady s1 c ∧ RegReady s1 c1 0 k0 ∧ full = fullMac m (c1.inl 73 1) k0.key x) ∧
    (∃ (s : State) (s1 : State) (n : Nat) (k : Nat) (m : Nat) (ml : Nat) (c : Cmd) (c1 : Cmd) (k0 : KReg) (x : Bytes) (full : Bytes), LoomReady s n k 0x0C1 c ∧ macParams c = none ∧ m = c.inl 72 1 ∧ ml = c.inl 74 1 ∧ x = c.own false ∧ ml + (if m = 1 then 1 else 0) ≤ x.length ∧ KeysIn s c [(0, 6, macMask m)] s1 c1 ∧ CoreReady s1 c ∧ RegReady s1 c1 0 k0 ∧ full = fullMac m (c1.inl 73 1) k0.key (x.drop ml)) ∧
    (∃ (s : State) (t : State) (n : Nat) (k : Nat) (l : Nat) (al : Nat) (c : Cmd) (b : Bytes), LoomReady s n k 0x180 c ∧ l = c.inl 72 4 ∧ al = c.inl 76 1 ∧ reserved c 77 3 = true ∧ reserved c 112 16 = true ∧ 1 ≤ l ∧ l ≤ 3072 ∧ al ≤ 32 ∧ s.randomWith (drbgOf c.place) l (c.inlB 80 al) = .bytes t b) ∧
    (∃ (s : State) (n : Nat) (k : Nat) (l : Nat) (al : Nat) (c : Cmd), LoomReady s n k 0x180 c ∧ l = c.inl 72 4 ∧ al = c.inl 76 1 ∧ reserved c 77 3 = true ∧ reserved c 112 16 = true ∧ 1 ≤ l ∧ l ≤ 3072 ∧ al ≤ 32 ∧ s.randomWith (drbgOf c.place) l (c.inlB 80 al) = .off) ∧
    (∃ (s : State) (n : Nat) (k : Nat) (h : Nat) (c : Cmd), LoomReady s n k 0x190 c ∧ h = c.inl 72 1 ∧ 1 ≤ h ∧ h ≤ 3 ∧ reserved c 73 55 = true ∧ CoreReady s c) :=
  ⟨⟨tS (tL 0x88 [(7, 1), (72, 1), (73, 0x0F), (74, 0xFF), (75, 0xFF), (76, 0xFF), (77, 0xFF), (78, 0xFF), (79, 0xFF), (80, 0xFF), (81, 0xFF), (82, 0xFF), (86, 0x0F), (87, 5)] [(0, tReg 9 4)]), _, 0, 0, tL 0x88 [(7, 1), (72, 1), (73, 0x0F), (74, 0xFF), (75, 0xFF), (76, 0xFF), (77, 0xFF), (78, 0xFF), (79, 0xFF), (80, 0xFF), (81, 0xFF), (82, 0xFF), (86, 0x0F), (87, 5)] [(0, tReg 9 4)], _, tReg 9 4, _, (ready_eta (by decide +kernel)), (by decide +kernel), (by decide +kernel), rfl, (by decide +kernel), (by decide +kernel)⟩,
   ⟨tS (tL 0x89 [(7, 1), (72, 1), (73, 0x0F), (74, 0xFF), (75, 0xFF), (76, 0xFF), (77, 0xFF), (78, 0xFF), (79, 0xFF), (80, 0xFF), (81, 0xFF), (82, 0xFF), (86, 0x0F), (87, 3), (89, 0x0F), (90, 0xFF)] [(0, tReg 9 4)]), _, 0, 0, tL 0x89 [(7, 1), (72, 1), (73, 0x0F), (74, 0xFF), (75, 0xFF), (76, 0xFF), (77, 0xFF), (78, 0xFF), (79, 0xFF), (80, 0xFF), (81, 0xFF), (82, 0xFF), (86, 0x0F), (87, 3), (89, 0x0F), (90, 0xFF)] [(0, tReg 9 4)], _, tReg 9 4, _, (ready_eta (by decide +kernel)), (by decide +kernel), (by decide +kernel), rfl, (by decide +kernel), (by decide +kernel)⟩,
   ⟨tS (tL 0x90 [(7, 1), (99, 1), (100, 0x0F), (101, 0xFF), (102, 0xFF), (103, 0xFF), (104, 0xFF), (105, 0xFF), (106, 0xFF), (107, 0xFF), (108, 0xFF), (109, 0xFF)] [(0, tReg 5 3)]), _, 0, 0, _, tL 0x90 [(7, 1), (99, 1), (100, 0x0F), (101, 0xFF), (102, 0xFF), (103, 0xFF), (104, 0xFF), (105, 0xFF), (106, 0xFF), (107, 0xFF), (108, 0xFF), (109, 0xFF)] [(0, tReg 5 3)], _, _, _, _, (by decide +kernel), (by decide +kernel), (ready_eta (by decide +kernel)), (by decide +kernel), ⟨some_eta (by decide +kernel), (by decide +kernel)⟩, rfl, rfl, rfl⟩,
   ⟨tS (tL 0xA1 [(7, 1), (73, 10), (83, 1)] [(0, tReg 4 4), (2, tReg 2 4)]), _, 0, 0, _, _, tL 0xA1 [(7, 1), (73, 10), (83, 1)] [(0, tReg 4 4), (2, tReg 2 4)], _, tReg 4 4, tReg 2 4, _, (by decide +kernel), rfl, (by decide +kernel), (by decide +kernel), (by decide +kernel), (by decide +kernel), (by decide +kernel), (ready_eta (by decide +kernel)), (by decide +kernel), (by decide +kernel), rfl, (by decide +kernel), (by decide +kernel), (by decide +kernel), (by decide +kernel), rfl, (by decide +kernel), (by decide +kernel)⟩,
   ⟨tS (tExt (tL 0xA2 [(7, 1), (72, 4), (73, 12), (85, 1)] [(0, tReg 4 3), (2, tReg 6 3)]) (zeros 5)), _, 0, 0, _, _, tExt (tL 0xA2 [(7, 1), (72, 4), (73, 12), (85, 1)] [(0, tReg 4 3), (2, tReg 6 3)]) (zeros 5), _, tReg 4 3, tReg 6 3, _, (by decide +kernel), rfl, (by decide +kernel), (by decide +kernel), (by decide +kernel), (by decide +kernel), (ready_eta (by decide +kernel)), (by decide +kernel), (by decide +kernel), rfl, (by decide +kernel), (by decide +kernel), (by decide +kernel), (by decide +kernel), rfl, (by decide +kernel), (by decide +kernel)⟩,
   ⟨tS (tL 0xC0 [(7, 1), (74, 16)] [(0, tReg 5 3)]), _, 0, 0, _, _, tL 0xC0 [(7, 1), (74, 16)] [(0, tReg 5 3)], _, _, _, _, (by decide +kernel), (by decide +kernel), rfl, rfl, rfl, (by decide +kernel), (ready_eta (by decide +kernel)), (by decide +kernel), ⟨some_eta (by decide +kernel), (by decide +kernel)⟩, rfl⟩,
   ⟨tS (tExt (tL 0xC1 [(7, 1), (74, 4)] [(0, tReg 6 3)]) (zeros 4)), _, 0, 0, _, _, tExt (tL 0xC1 [(7, 1), (74, 4)] [(0, tReg 6 3)]) (zeros 4), _, _, _, _, (by decide +kernel), (by decide +kernel), rfl, rfl, rfl, (by decide +kernel), (ready_eta (by decide +kernel)), (by decide +kernel), ⟨some_eta (by decide +kernel), (by decide +kernel)⟩, rfl⟩,
   ⟨tS (tL 0x180 [(73, 0x0C)] []), _, 0, 0, _, _, tL 0x180 [(73, 0x0C)] [], _, (by decide +kernel), rfl, rfl, (by decide +kernel), (by decide +kernel), (by decide +kernel), (by decide +kernel), (by decide +kernel), (bytes_eta (by decide +kernel))⟩,
   ⟨{ tS (tL 0x180 [(72, 1), (76, 32)] []) with rng := { tOn.rng with latched := true } }, 0, 0, _, _, tL 0x180 [(72, 1), (76, 32)] [], (by decide +kernel), rfl, rfl, (by decide +kernel), (by decide +kernel), (by decide +kernel), (by decide +kernel), (by decide +kernel), rfl⟩,
   ⟨tS (tL 0x190 [(72, 3)] []), 0, 0, 3, tL 0x190 [(72, 3)] [], (by decide +kernel), (by decide +kernel), (by decide +kernel), (by decide +kernel), (by decide +kernel), (by decide +kernel)⟩⟩

/-- What each clause of `Obligations.KeyBlockOpcodesComplete` supposes can be met. -/
theorem witness_KeyBlockOpcodesComplete :
    (∃ (s : State) (n : Nat) (k : Nat) (c : Cmd), s.cmd? (.shed n k) = some c ∧ c.opcode = 0x060 ∧ c.place = .shed n k ∧ c.abort = false ∧ c.phase = .ready ∧ c.idx = 0 ∧ s.liveObj c.part (c.inl 72 4) = none) ∧
    (∃ (s : State) (n : Nat) (k : Nat) (c : Cmd) (o : _), s.cmd? (.shed n k) = some c ∧ c.opcode = 0x060 ∧ c.place = .shed n k ∧ c.abort = false ∧ c.phase = .ready ∧ c.idx = 0 ∧ s.liveObj c.part (c.inl 72 4) = some o) ∧
    (∃ (s : State) (n : Nat) (k : Nat) (c : Cmd) (o : _) (a : _) (b : _), s.cmd? (.shed n k) = some c ∧ c.opcode = 0x060 ∧ c.place = .shed n k ∧ c.abort = false ∧ c.phase = .parked a b ∧ s.stewardsUp = true ∧ s.liveObj c.part (c.inl 72 4) = some o) ∧
    (∃ (s : State) (n : Nat) (k : Nat) (c : Cmd), s.cmd? (.shed n k) = some c ∧ c.opcode = 0x060 ∧ c.place = .shed n k ∧ c.abort = false ∧ c.phase = .ready ∧ c.idx ≠ 0) ∧
    (∃ (s : State) (n : Nat) (k : Nat) (c : Cmd) (d : Cmd), s.cmd? (.shed n k) = some c ∧ c.opcode = 0x061 ∧ c.place = .shed n k ∧ c.abort = false ∧ d = { c with pend := none } ∧ c.phase = .ready ∧ c.idx = 0 ∧ c.quorum = none ∧ s.liveObj c.part (c.inl 72 4) = none) ∧
    (∃ (s : State) (n : Nat) (k : Nat) (c : Cmd) (d : Cmd) (o : _), s.cmd? (.shed n k) = some c ∧ c.opcode = 0x061 ∧ c.place = .shed n k ∧ c.abort = false ∧ d = { c with pend := none } ∧ c.phase = .ready ∧ c.idx = 0 ∧ c.quorum = none ∧ s.liveObj c.part (c.inl 72 4) = some o) ∧
    (∃ (s : State) (n : Nat) (k : Nat) (c : Cmd) (d : Cmd) (o : _) (a : _) (b : _), s.cmd? (.shed n k) = some c ∧ c.opcode = 0x061 ∧ c.place = .shed n k ∧ c.abort = false ∧ d = { c with pend := none } ∧ c.phase = .parked a b ∧ s.stewardsUp = true ∧ s.liveObj c.part (c.inl 72 4) = some o ∧ (deleteQuorum s d o = 0 ∨ c.quorum.isSome = true) ∧ commitHold s = none) ∧
    (∃ (s : State) (n : Nat) (k : Nat) (c : Cmd) (d : Cmd) (o : _) (a : _) (b : _), s.cmd? (.shed n k) = some c ∧ c.opcode = 0x061 ∧ c.place = .shed n k ∧ c.abort = false ∧ d = { c with pend := none } ∧ c.phase = .parked a b ∧ s.stewardsUp = true ∧ s.liveObj c.part (c.inl 72 4) = some o ∧ deleteQuorum s d o ≠ 0 ∧ c.quorum = none) ∧
    (∃ (s : State) (n : Nat) (k : Nat) (c : Cmd) (d : Cmd) (o : _), s.cmd? (.shed n k) = some c ∧ c.opcode = 0x061 ∧ c.place = .shed n k ∧ c.abort = false ∧ d = { c with pend := none } ∧ c.phase = .ready ∧ c.idx = 0 ∧ c.quorum.isSome = true ∧ s.liveObj c.part (c.inl 72 4) = some o ∧ commitHold s = none) ∧
    (∃ (s : State) (n : Nat) (k : Nat) (c : Cmd) (d : Cmd), s.cmd? (.shed n k) = some c ∧ c.opcode = 0x061 ∧ c.place = .shed n k ∧ c.abort = false ∧ d = { c with pend := none } ∧ c.phase = .ready ∧ c.idx ≠ 0) ∧
    (∃ (s : State) (s1 : State) (n : Nat) (k : Nat) (c : Cmd) (x : KReg) (b : Bytes), LoomReady s n k 0x034 c ∧ c.key 0 = some x ∧ handleResult s x = some (s1, b)) ∧
    (∃ (s : State) (s1 : State) (s2 : State) (n : Nat) (k : Nat) (c : Cmd) (c1 : Cmd) (x : KReg) (b : Bytes), LoomReady s n k 0x034 c ∧ c.key 0 = none ∧ (getRef s c 0 0 (c.inl 72 1) (c.inl 76 4) true).keys s = .ready s1 c1 ∧ c1.key 0 = some x ∧ handleResult s1 x = some (s2, b)) ∧
    (∃ (s : State) (s1 : State) (n : Nat) (k : Nat) (c : Cmd) (c1 : Cmd) (x : KReg) (attr : Bytes) (h : _), LoomReady s n k 0x040 c ∧ c.krefs = 2 ∧ isBlockRef c 0 = true ∧ reserved c 73 3 = true ∧ reserved c 84 44 = true ∧ KeysIn s c [(0, c.inl 72 1, c.inl 76 4)] s1 c1 ∧ RegReady s1 c1 0 x ∧ attr = attrRecord (b2n x.key.exportable + 2 * b2n (c1.inl 80 4 != 0)) x.key.name x.key.version x.key.notAfter (c1.inl 80 4) ∧ c1.phase = .committed h) ∧
    (∃ (s : State) (s1 : State) (n : Nat) (k : Nat) (c : Cmd) (c1 : Cmd) (x : KReg) (attr : Bytes) (s2 : _) (c2 : _), LoomReady s n k 0x040 c ∧ c.krefs = 2 ∧ isBlockRef c 0 = true ∧ reserved c 73 3 = true ∧ reserved c 84 44 = true ∧ KeysIn s c [(0, c.inl 72 1, c.inl 76 4)] s1 c1 ∧ RegReady s1 c1 0 x ∧ attr = attrRecord (b2n x.key.exportable + 2 * b2n (c1.inl 80 4 != 0)) x.key.name x.key.version x.key.notAfter (c1.inl 80 4) ∧ c1.phase = .ready ∧ storeKey s1 c1 x attr = .ok (s2, c2)) ∧
    (∃ (s : State) (s1 : State) (s2 : State) (n : Nat) (k : Nat) (c : Cmd) (c1 : Cmd) (x : KReg) (w : KReg) (pad : Bytes), LoomReady s n k 0x041 c ∧ c.krefs = 2 ∧ reserved c 75 53 = true ∧ byte (c.inl 74 1) ∈ expChars ∧ KeysIn s c [(0, ownUsage s c 0, anyAlg), (1, 3, wrapMask)] s1 c1 ∧ RegReady s1 c1 0 x ∧ RegReady s1 c1 1 w ∧ isRsa x.key.alg = false ∧ kuPairs (c.inlB 72 2) x.key.alg x.key.usage = true ∧ x.key.version ≤ 99 ∧ exportOk s1 c1 x = true ∧ (countPolicy s1).random (drbgOf c1.place) (exportPad w.key x.key) = .bytes s2 pad) ∧
    (∃ (s : State) (s1 : State) (n : Nat) (k : Nat) (c : Cmd) (c1 : Cmd) (x : KReg) (w : KReg), LoomReady s n k 0x041 c ∧ c.krefs = 2 ∧ reserved c 75 53 = true ∧ byte (c.inl 74 1) ∈ expChars ∧ KeysIn s c [(0, ownUsage s c 0, anyAlg), (1, 3, wrapMask)] s1 c1 ∧ RegReady s1 c1 0 x ∧ RegReady s1 c1 1 w ∧ isRsa x.key.alg = false ∧ kuPairs (c.inlB 72 2) x.key.alg x.key.usage = true ∧ x.key.version ≤ 99 ∧ exportOk s1 c1 x = false) ∧
    (∃ (s : State) (s1 : State) (s2 : State) (n : Nat) (k : Nat) (c : Cmd) (c1 : Cmd) (x : KReg) (w : KReg) (h : KBlock) (pad : Bytes) (b : Bytes), LoomReady s n k 0x043 c ∧ c.krefs = 3 ∧ isBlockRef c 0 = true ∧ reserved c 72 56 = true ∧ KeysIn s c [(0, ownUsage s c 0, anyAlg), (1, 3, wrapMask)] s1 c1 ∧ RegReady s1 c1 0 x ∧ RegReady s1 c1 1 w ∧ (refBlock c1 0).map kbHeader = some (.ok h) ∧ isRsa x.key.alg = false ∧ h.exp = chr 'E' ∧ policyOk s1 c1 x.key.name x.key.usage x.key.alg roleExport = true ∧ (countPolicy s1).random (drbgOf c1.place) (exportPad w.key x.key) = .bytes s2 pad ∧ b = kbBuild w.key.alg w.key.mat h.usage h.alg h.mode h.kver h.exp (h.opts.filter (fun o => o.1 != ascii "PB")) x.key.alg x.key.mat pad) ∧
    (∃ (s : State) (n : Nat) (k : Nat) (h : Nat) (c : Cmd), LoomReady s n k 0x042 c ∧ c.phase = .committed h ∧ generateParams c (decide (1 ≤ c.inl 72 1 ∧ c.inl 72 1 ≤ 6) && (usagesOf (c.inl 72 1)).contains (c.inl 73 1)) = true) ∧
    (∃ (s : State) (s1 : State) (s2 : State) (n : Nat) (k : Nat) (c : Cmd) (c1 : Cmd) (m : Bytes) (x : KeyInfo) (s3 : State) (c3 : Cmd) (o : Option Way), LoomReady s n k 0x042 c ∧ c.phase = .ready ∧ generateParams c (decide (1 ≤ c.inl 72 1 ∧ c.inl 72 1 ≤ 6) && (usagesOf (c.inl 72 1)).contains (c.inl 73 1)) = true ∧ KeysIn s c (if bit (c.inl 77 1) 1 then [(0, 3, wrapMask)] else []) s1 c1 ∧ s1.random (drbgOf c1.place) (matLen (c.inl 72 1)) = .bytes s2 m ∧ x = generateInfo c1 m ∧ placeNew (s2.drawn 32) c1 (generatedAsk s2 1 x) x = (s3, c3, o)) ∧
    (∃ (s : State) (n : Nat) (k : Nat) (c : Cmd), LoomReady s n k 0x042 c ∧ generateParams c (decide (1 ≤ c.inl 72 1 ∧ c.inl 72 1 ≤ 6) && (usagesOf (c.inl 72 1)).contains (c.inl 73 1)) = false) :=
  ⟨⟨tS (tC 0x60 .ready [(72, 5)]), 0, 0, tC 0x60 .ready [(72, 5)], (by decide +kernel), (by decide +kernel), (by decide +kernel), (by decide +kernel), (by decide +kernel), (by decide +kernel), (by decide +kernel)⟩,
   ⟨{ tS (tC 0x60 .ready [(72, 5)]) with tmp := Tamper.reset, ks := { tOn.ks with objs := [({ handle := 5, slot := 0, seq := 1, keySeq := 1, limitLogged := false, resBeat := none })] } }, 0, 0, tC 0x60 .ready [(72, 5)], { handle := 5, slot := 0, seq := 1, keySeq := 1, limitLogged := false, resBeat := none }, (by decide +kernel), (by decide +kernel), (by decide +kernel), (by decide +kernel), (by decide +kernel), (by decide +kernel), (by decide +kernel)⟩,
   ⟨{ tS (tC 0x60 (.parked 8 0) [(72, 5)]) with tmp := Tamper.reset, ks := { tOn.ks with objs := [({ handle := 5, slot := 0, seq := 1, keySeq := 1, limitLogged := false, resBeat := none })] } }, 0, 0, tC 0x60 (.parked 8 0) [(72, 5)], { handle := 5, slot := 0, seq := 1, keySeq := 1, limitLogged := false, resBeat := none }, 8, 0, (by decide +kernel), (by decide +kernel), (by decide +kernel), (by decide +kernel), (by decide +kernel), (by decide +kernel), (by decide +kernel)⟩,
   ⟨tS ({ tC 0x60 .ready [(72, 5)] with idx := 1 }), 0, 0, { tC 0x60 .ready [(72, 5)] with idx := 1 }, (by decide +kernel), (by decide +kernel), (by decide +kernel), (by decide +kernel), (by decide +kernel), (by decide +kernel)⟩,
   ⟨tS (tC 0x61 .ready [(72, 5)]), 0, 0, tC 0x61 .ready [(72, 5)], _, (by decide +kernel), (by decide +kernel), (by decide +kernel), (by decide +kernel), rfl, (by decide +kernel), (by decide +kernel), (by decide +kernel), (by decide +kernel)⟩,
   ⟨{ tS (tC 0x61 .ready [(72, 5)]) with tmp := Tamper.reset, ks := { tOn.ks with objs := [({ handle := 5, slot := 0, seq := 1, keySeq := 1, limitLogged := false, resBeat := none })] } }, 0, 0, tC 0x61 .ready [(72, 5)], _, { handle := 5, slot := 0, seq := 1, keySeq := 1, limitLogged := false, resBeat := none }, (by decide +kernel), (by decide +kernel), (by decide +kernel), (by decide +kernel), rfl, (by decide +kernel), (by decide +kernel), (by decide +kernel), (by decide +kernel)⟩,
   ⟨{ tS ({ tC 0x61 (.parked 8 0) [(72, 5)] with quorum := some (0, 3) }) with tmp := Tamper.reset, ks := { tOn.ks with objs := [({ handle := 5, slot := 0, seq := 1, keySeq := 1, limitLogged := false, resBeat := none })] } }, 0, 0, { tC 0x61 (.parked 8 0) [(72, 5)] with quorum := some (0, 3) }, _, { handle := 5, slot := 0, seq := 1, keySeq := 1, limitLogged := false, resBeat := none }, 8, 0, (by decide +kernel), (by decide +kernel), (by decide +kernel), (by decide +kernel), rfl, (by decide +kernel), (by decide +kernel), (by decide +kernel), (by decide +kernel), (by decide +kernel)⟩,
   ⟨{ tS (tC 0x61 (.parked 8 0) [(72, 5)]) with tmp := Tamper.reset, ks := { tOn.ks with objs := [({ handle := 5, slot := 0, seq := 1, keySeq := 1, limitLogged := false, resBeat := none })] } }, 0, 0, tC 0x61 (.parked 8 0) [(72, 5)], _, { handle := 5, slot := 0, seq := 1, keySeq := 1, limitLogged := false, resBeat := none }, 8, 0, (by decide +kernel), (by decide +kernel), (by decide +kernel), (by decide +kernel), rfl, (by decide +kernel), (by decide +kernel), (by decide +kernel), (by decide +kernel), (by decide +kernel)⟩,
   ⟨{ tS ({ tC 0x61 .ready [(72, 5)] with quorum := some (0, 3) }) with tmp := Tamper.reset, ks := { tOn.ks with objs := [({ handle := 5, slot := 0, seq := 1, keySeq := 1, limitLogged := false, resBeat := none })] } }, 0, 0, { tC 0x61 .ready [(72, 5)] with quorum := some (0, 3) }, _, { handle := 5, slot := 0, seq := 1, keySeq := 1, limitLogged := false, resBeat := none }, (by decide +kernel), (by decide +kernel), (by decide +kernel), (by decide +kernel), rfl, (by decide +kernel), (by decide +kernel), (by decide +kernel), (by decide +kernel), (by decide +kernel)⟩,
   ⟨tS ({ tC 0x61 .ready [(72, 5)] with idx := 1 }), 0, 0, { tC 0x61 .ready [(72, 5)] with idx := 1 }, _, (by decide +kernel), (by decide +kernel), (by decide +kernel), (by decide +kernel), rfl, (by decide +kernel), (by decide +kernel)⟩,
   ⟨{ tS (tL 0x34 [] [(0, { tReg 1 3 with loc := .way 0 0 0 1 })]) with kc := { tOn.kc with ways := [tWay 1 3] } }, _, 0, 0, tL 0x34 [] [(0, { tReg 1 3 with loc := .way 0 0 0 1 })], { tReg 1 3 with loc := .way 0 0 0 1 }, _, (by decide +kernel), (by decide +kernel), (some2_eta (by decide +kernel))⟩,
   ⟨{ tS (tL 0x34 [(7, 1), (40, 5), (52, 1), (72, 1), (76, 8)] []) with kc := { tOn.kc with ways := [tWay 1 3] } }, _, _, 0, 0, tL 0x34 [(7, 1), (40, 5), (52, 1), (72, 1), (76, 8)] [], _, _, _, (by decide +kernel), (by decide +kernel), (ready_eta (by decide +kernel)), (some_eta (by decide +kernel)), (some2_eta (by decide +kernel))⟩,
   ⟨tS ({ tL 0x40 [(7, 2), (40, 2), (72, 1), (76, 8)] [(0, tReg 1 3)] with phase := .committed 5 }), _, 0, 0, { tL 0x40 [(7, 2), (40, 2), (72, 1), (76, 8)] [(0, tReg 1 3)] with phase := .committed 5 }, _, _, _, 5, (by decide +kernel), (by decide +kernel), (by decide +kernel), (by decide +kernel), (by decide +kernel), (ready_eta (by decide +kernel)), ⟨some_eta (by decide +kernel), (by decide +kernel)⟩, rfl, (by decide +kernel)⟩,
   ⟨tS (tL 0x40 [(7, 2), (40, 2), (72, 1), (76, 8)] [(0, tReg 1 3)]), _, 0, 0, tL 0x40 [(7, 2), (40, 2), (72, 1), (76, 8)] [(0, tReg 1 3)], _, _, _, _, _, (by decide +kernel), (by decide +kernel), (by decide +kernel), (by decide +kernel), (by decide +kernel), (ready_eta (by decide +kernel)), ⟨some_eta (by decide +kernel), (by decide +kernel)⟩, rfl, (by decide +kernel), (ok2_eta (tOn, tC 0 .ready []) (by decide +kernel))⟩,
   ⟨tS (tL 0x41 [(7, 2), (72, 0x44), (73, 0x30), (74, 0x45)] [(0, tReg 1 3), (1, tReg 3 3)]), _, _, 0, 0, tL 0x41 [(7, 2), (72, 0x44), (73, 0x30), (74, 0x45)] [(0, tReg 1 3), (1, tReg 3 3)], _, _, _, _, (by decide +kernel), (by decide +kernel), (by decide +kernel), (by decide +kernel), (ready_eta (by decide +kernel)), ⟨some_eta (by decide +kernel), (by decide +kernel)⟩, ⟨some_eta (by decide +kernel), (by decide +kernel)⟩, (by decide +kernel), (by decide +kernel), (by decide +kernel), (by decide +kernel), (bytes_eta (by decide +kernel))⟩,
   ⟨tS (tL 0x41 [(7, 2), (72, 0x44), (73, 0x30), (74, 0x4E)] [(0, { tReg 1 3 with named := false }), (1, tReg 3 3)]), _, 0, 0, tL 0x41 [(7, 2), (72, 0x44), (73, 0x30), (74, 0x4E)] [(0, { tReg 1 3 with named := false }), (1, tReg 3 3)], _, _, _, (by decide +kernel), (by decide +kernel), (by decide +kernel), (by decide +kernel), (ready_eta (by decide +kernel)), ⟨some_eta (by decide +kernel), (by decide +kernel)⟩, ⟨some_eta (by decide +kernel), (by decide +kernel)⟩, (by decide +kernel), (by decide +kernel), (by decide +kernel), (by decide +kernel)⟩,
   ⟨tS (tExt (tL 0x43 [(7, 3), (40, 2), (42, 16), (44, 16)] [(0, tReg 1 3), (1, tReg 3 3)]) (zeros 16 ++ ascii "D0016D0AE00E0000")), _, _, 0, 0, tExt (tL 0x43 [(7, 3), (40, 2), (42, 16), (44, 16)] [(0, tReg 1 3), (1, tReg 3 3)]) (zeros 16 ++ ascii "D0016D0AE00E0000"), _, tReg 1 3, tReg 3 3, _, _, _, (by decide +kernel), (by decide +kernel), (by decide +kernel), (by decide +kernel), (ready_eta (by decide +kernel)), (by decide +kernel), (by decide +kernel), (mapOk_eta tBlk (by decide +kernel)), (by decide +kernel), (by decide +kernel), (by decide +kernel), (bytes_eta (by decide +kernel)), rfl⟩,
   ⟨tS ({ tL 0x42 [(72, 3), (73, 1), (76, 0x45), (77, 1)] [] with phase := .committed 5 }), 0, 0, 5, { tL 0x42 [(72, 3), (73, 1), (76, 0x45), (77, 1)] [] with phase := .committed 5 }, (by decide +kernel), (by decide +kernel), (by decide +kernel)⟩,
   ⟨tS (tL 0x42 [(72, 3), (73, 1), (76, 0x45), (77, 1)] []), _, _, 0, 0, tL 0x42 [(72, 3), (73, 1), (76, 0x45), (77, 1)] [], _, _, _, _, _, _, (by decide +kernel), (by decide +kernel), (by decide +kernel), (ready_eta (by decide +kernel)), (bytes_eta (by decide +kernel)), rfl, rfl⟩,
   ⟨tS (tL 0x42 [] []), 0, 0, tL 0x42 [] [], (by decide +kernel), (by decide +kernel)⟩⟩

/-- What each clause of `Obligations.SignatureOpcodesComplete` supposes can be met. -/
theorem witness_SignatureOpcodesComplete :
    (∃ (s : State) (s1 : State) (n : Nat) (k : Nat) (c : Cmd) (c1 : Cmd) (x : KReg) (r : BnReq), LoomReady s n k 0x100 c ∧ countOk c 1 = true ∧ KeysIn s c [(0, 7, 2 ^ 7)] s1 c1 ∧ RegReady s1 c1 0 x ∧ r = { op := 1, size := 0, pss := false, alg := 7, key := x.key.mat, operand := c1.own false, record := [] } ∧ c1.phase = .ready ∧ BnReady s1 r) ∧
    (∃ (s : State) (s1 : State) (n : Nat) (k : Nat) (c : Cmd) (c1 : Cmd) (x : KReg) (r : BnReq) (j : _) (f : _) (out : _), LoomReady s n k 0x100 c ∧ countOk c 1 = true ∧ KeysIn s c [(0, 7, 2 ^ 7)] s1 c1 ∧ RegReady s1 c1 0 x ∧ r = { op := 1, size := 0, pss := false, alg := 7, key := x.key.mat, operand := c1.own false, record := [] } ∧ c1.phase = .bnDone j f out) ∧
    (∃ (s : State) (s1 : State) (n : Nat) (k : Nat) (c : Cmd) (c1 : Cmd) (x : KReg) (r : BnReq), LoomReady s n k 0x101 c ∧ verifyCount c = true ∧ c.krefs ≠ 0 ∧ 64 ≤ (c.own false).length ∧ KeysIn s c [(0, 8, 2 ^ 7)] s1 c1 ∧ RegReady s1 c1 0 x ∧ r = { op := 2, size := 0, pss := false, alg := 7, key := x.key.mat, operand := c.own false, record := [] } ∧ c1.phase = .ready ∧ BnReady s1 r) ∧
    (∃ (s : State) (s1 : State) (n : Nat) (k : Nat) (c : Cmd) (c1 : Cmd) (x : KReg) (r : BnReq) (j : _) (f : _) (out : _), LoomReady s n k 0x101 c ∧ verifyCount c = true ∧ c.krefs ≠ 0 ∧ 64 ≤ (c.own false).length ∧ KeysIn s c [(0, 8, 2 ^ 7)] s1 c1 ∧ RegReady s1 c1 0 x ∧ r = { op := 2, size := 0, pss := false, alg := 7, key := x.key.mat, operand := c.own false, record := [] } ∧ c1.phase = .bnDone j f out) ∧
    (∃ (s : State) (n : Nat) (k : Nat) (c : Cmd) (r : BnReq), LoomReady s n k 0x101 c ∧ c.krefs = 0 ∧ 64 ≤ (c.own false).length ∧ r = { op := 2, size := 0, pss := false, alg := 7, key := c.inlB 72 32, operand := c.own false, record := [] } ∧ c.phase = .ready ∧ BnReady s r) ∧
    (∃ (s : State) (n : Nat) (k : Nat) (c : Cmd) (r : BnReq) (j : _) (f : _) (out : _), LoomReady s n k 0x101 c ∧ c.krefs = 0 ∧ 64 ≤ (c.own false).length ∧ r = { op := 2, size := 0, pss := false, alg := 7, key := c.inlB 72 32, operand := c.own false, record := [] } ∧ c.phase = .bnDone j f out) ∧
    (∃ (s : State) (s1 : State) (n : Nat) (k : Nat) (z : Nat) (h : Nat) (c : Cmd) (c1 : Cmd) (x : KReg) (r : BnReq), h = c.inl 72 1 ∧ countOk c 1 = true ∧ h ≤ 3 ∧ digestLenOk h (c.own false) = true ∧ KeysIn s c [(0, 7, 2 ^ ecAlg z)] s1 c1 ∧ ((h != 0 && c.fresh) = true → CoreReady s1 c) ∧ RegReady s1 c1 0 x ∧ r = { op := 4, size := z, pss := false, alg := ecAlg z, key := x.key.mat, operand := digestFor h (c.own false), record := [] } ∧ z = 0 ∧ LoomReady s n k 0x110 c ∧ c1.phase = .ready ∧ BnReady s1 r) ∧
    (∃ (s : State) (s1 : State) (n : Nat) (k : Nat) (z : Nat) (h : Nat) (c : Cmd) (c1 : Cmd) (x : KReg) (r : BnReq) (j : _) (f : _) (out : _), h = c.inl 72 1 ∧ countOk c 1 = true ∧ h ≤ 3 ∧ digestLenOk h (c.own false) = true ∧ KeysIn s c [(0, 7, 2 ^ ecAlg z)] s1 c1 ∧ ((h != 0 && c.fresh) = true → CoreReady s1 c) ∧ RegReady s1 c1 0 x ∧ r = { op := 4, size := z, pss := false, alg := ecAlg z, key := x.key.mat, operand := digestFor h (c.own false), record := [] } ∧ z = 0 ∧ LoomReady s n k 0x110 c ∧ c1.phase = .bnDone j f out) ∧
    (∃ (s : State) (s1 : State) (n : Nat) (k : Nat) (z : Nat) (h : Nat) (c : Cmd) (c1 : Cmd) (x : KReg) (r : BnReq), h = c.inl 72 1 ∧ countOk c 1 = true ∧ h ≤ 3 ∧ digestLenOk h (c.own false) = true ∧ KeysIn s c [(0, 7, 2 ^ ecAlg z)] s1 c1 ∧ ((h != 0 && c.fresh) = true → CoreReady s1 c) ∧ RegReady s1 c1 0 x ∧ r = { op := 4, size := z, pss := false, alg := ecAlg z, key := x.key.mat, operand := digestFor h (c.own false), record := [] } ∧ z = 1 ∧ LoomReady s n k 0x111 c ∧ c1.phase = .ready ∧ BnReady s1 r) ∧
    (∃ (s : State) (s1 : State) (n : Nat) (k : Nat) (z : Nat) (h : Nat) (c : Cmd) (c1 : Cmd) (x : KReg) (r : BnReq) (j : _) (f : _) (out : _), h = c.inl 72 1 ∧ countOk c 1 = true ∧ h ≤ 3 ∧ digestLenOk h (c.own false) = true ∧ KeysIn s c [(0, 7, 2 ^ ecAlg z)] s1 c1 ∧ ((h != 0 && c.fresh) = true → CoreReady s1 c) ∧ RegReady s1 c1 0 x ∧ r = { op := 4, size := z, pss := false, alg := ecAlg z, key := x.key.mat, operand := digestFor h (c.own false), record := [] } ∧ z = 1 ∧ LoomReady s n k 0x111 c ∧ c1.phase = .bnDone j f out) ∧
    (∃ (s : State) (s1 : State) (n : Nat) (k : Nat) (z : Nat) (h : Nat) (w : Nat) (c : Cmd) (c1 : Cmd) (x : KReg) (r : BnReq), h = c.inl 72 1 ∧ w = (if z = 1 then 96 else 64) ∧ verifyCount c = true ∧ c.krefs ≠ 0 ∧ h ≤ 3 ∧ w ≤ (c.own false).length ∧ digestLenOk h ((c.own false).drop w) = true ∧ KeysIn s c [(0, 8, 2 ^ ecAlg z)] s1 c1 ∧ ((h != 0 && c.fresh) = true → CoreReady s1 c) ∧ RegReady s1 c1 0 x ∧ r = { op := 5, size := z, pss := false, alg := ecAlg z, key := x.key.mat, operand := digestFor h ((c.own false).drop w) ++ sl (c.own false) 0 w, record := [] } ∧ z = 0 ∧ LoomReady s n k 0x112 c ∧ c1.phase = .ready ∧ BnReady s1 r) ∧
    (∃ (s : State) (s1 : State) (n : Nat) (k : Nat) (z : Nat) (h : Nat) (w : Nat) (c : Cmd) (c1 : Cmd) (x : KReg) (r : BnReq) (j : _) (f : _) (out : _), h = c.inl 72 1 ∧ w = (if z = 1 then 96 else 64) ∧ verifyCount c = true ∧ c.krefs ≠ 0 ∧ h ≤ 3 ∧ w ≤ (c.own false).length ∧ digestLenOk h ((c.own false).drop w) = true ∧ KeysIn s c [(0, 8, 2 ^ ecAlg z)] s1 c1 ∧ ((h != 0 && c.fresh) = true → CoreReady s1 c) ∧ RegReady s1 c1 0 x ∧ r = { op := 5, size := z, pss := false, alg := ecAlg z, key := x.key.mat, operand := digestFor h ((c.own false).drop w) ++ sl (c.own false) 0 w, record := [] } ∧ z = 0 ∧ LoomReady s n k 0x112 c ∧ c1.phase = .bnDone j f out) ∧
    (∃ (s : State) (s1 : State) (n : Nat) (k : Nat) (z : Nat) (h : Nat) (w : Nat) (c : Cmd) (c1 : Cmd) (x : KReg) (r : BnReq), h = c.inl 72 1 ∧ w = (if z = 1 then 96 else 64) ∧ verifyCount c = true ∧ c.krefs ≠ 0 ∧ h ≤ 3 ∧ w ≤ (c.own false).length ∧ digestLenOk h ((c.own false).drop w) = true ∧ KeysIn s c [(0, 8, 2 ^ ecAlg z)] s1 c1 ∧ ((h != 0 && c.fresh) = true → CoreReady s1 c) ∧ RegReady s1 c1 0 x ∧ r = { op := 5, size := z, pss := false, alg := ecAlg z, key := x.key.mat, operand := digestFor h ((c.own false).drop w) ++ sl (c.own false) 0 w, record := [] } ∧ z = 1 ∧ LoomReady s n k 0x113 c ∧ c1.phase = .ready ∧ BnReady s1 r) ∧
    (∃ (s : State) (s1 : State) (n : Nat) (k : Nat) (z : Nat) (h : Nat) (w : Nat) (c : Cmd) (c1 : Cmd) (x : KReg) (r : BnReq) (j : _) (f : _) (out : _), h = c.inl 72 1 ∧ w = (if z = 1 then 96 else 64) ∧ verifyCount c = true ∧ c.krefs ≠ 0 ∧ h ≤ 3 ∧ w ≤ (c.own false).length ∧ digestLenOk h ((c.own false).drop w) = true ∧ KeysIn s c [(0, 8, 2 ^ ecAlg z)] s1 c1 ∧ ((h != 0 && c.fresh) = true → CoreReady s1 c) ∧ RegReady s1 c1 0 x ∧ r = { op := 5, size := z, pss := false, alg := ecAlg z, key := x.key.mat, operand := digestFor h ((c.own false).drop w) ++ sl (c.own false) 0 w, record := [] } ∧ z = 1 ∧ LoomReady s n k 0x113 c ∧ c1.phase = .bnDone j f out) ∧
    (∃ (s : State) (s1 : State) (n : Nat) (k : Nat) (z : Nat) (h : Nat) (c : Cmd) (c1 : Cmd) (x : KReg) (r : BnReq), h = c.inl 72 1 ∧ c.krefs = 2 ∧ h ≤ 3 ∧ c.inl 73 1 ≤ 1 ∧ digestLenOk h (c.own false) = true ∧ KeysIn s c [(0, 7, 2 ^ (11 + z))] s1 c1 ∧ ((h != 0 && c.fresh) = true → CoreReady s1 c) ∧ RegReady s1 c1 0 x ∧ r = { op := 6, size := z, pss := c.inl 73 1 == 1, alg := 11 + z, key := x.key.mat, operand := digestFor h (c.own false), record := [] } ∧ z = 0 ∧ LoomReady s n k 0x120 c ∧ c1.phase = .ready ∧ BnReady s1 r) ∧
    (∃ (s : State) (s1 : State) (n : Nat) (k : Nat) (z : Nat) (h : Nat) (c : Cmd) (c1 : Cmd) (x : KReg) (r : BnReq) (j : _) (f : _) (out : _), h = c.inl 72 1 ∧ c.krefs = 2 ∧ h ≤ 3 ∧ c.inl 73 1 ≤ 1 ∧ digestLenOk h (c.own false) = true ∧ KeysIn s c [(0, 7, 2 ^ (11 + z))] s1 c1 ∧ ((h != 0 && c.fresh) = true → CoreReady s1 c) ∧ RegReady s1 c1 0 x ∧ r = { op := 6, size := z, pss := c.inl 73 1 == 1, alg := 11 + z, key := x.key.mat, operand := digestFor h (c.own false), record := [] } ∧ z = 0 ∧ LoomReady s n k 0x120 c ∧ c1.phase = .bnDone j f out) ∧
    (∃ (s : State) (s1 : State) (n : Nat) (k : Nat) (z : Nat) (h : Nat) (c : Cmd) (c1 : Cmd) (x : KReg) (r : BnReq), h = c.inl 72 1 ∧ c.krefs = 2 ∧ h ≤ 3 ∧ c.inl 73 1 ≤ 1 ∧ digestLenOk h (c.own false) = true ∧ KeysIn s c [(0, 7, 2 ^ (11 + z))] s1 c1 ∧ ((h != 0 && c.fresh) = true → CoreReady s1 c) ∧ RegReady s1 c1 0 x ∧ r = { op := 6, size := z, pss := c.inl 73 1 == 1, alg := 11 + z, key := x.key.mat, operand := digestFor h (c.own false), record := [] } ∧ z = 1 ∧ LoomReady s n k 0x121 c ∧ c1.phase = .ready ∧ BnReady s1 r) ∧
    (∃ (s : State) (s1 : State) (n : Nat) (k : Nat) (z : Nat) (h : Nat) (c : Cmd) (c1 : Cmd) (x : KReg) (r : BnReq) (j : _) (f : _) (out : _), h = c.inl 72 1 ∧ c.krefs = 2 ∧ h ≤ 3 ∧ c.inl 73 1 ≤ 1 ∧ digestLenOk h (c.own false) = true ∧ KeysIn s c [(0, 7, 2 ^ (11 + z))] s1 c1 ∧ ((h != 0 && c.fresh) = true → CoreReady s1 c) ∧ RegReady s1 c1 0 x ∧ r = { op := 6, size := z, pss := c.inl 73 1 == 1, alg := 11 + z, key := x.key.mat, operand := digestFor h (c.own false), record := [] } ∧ z = 1 ∧ LoomReady s n k 0x121 c ∧ c1.phase = .bnDone j f out) ∧
    (∃ (s : State) (s1 : State) (n : Nat) (k : Nat) (z : Nat) (h : Nat) (c : Cmd) (c1 : Cmd) (x : KReg) (r : BnReq), h = c.inl 72 1 ∧ c.krefs = 2 ∧ h ≤ 3 ∧ c.inl 73 1 ≤ 1 ∧ digestLenOk h (c.own false) = true ∧ KeysIn s c [(0, 7, 2 ^ (11 + z))] s1 c1 ∧ ((h != 0 && c.fresh) = true → CoreReady s1 c) ∧ RegReady s1 c1 0 x ∧ r = { op := 6, size := z, pss := c.inl 73 1 == 1, alg := 11 + z, key := x.key.mat, operand := digestFor h (c.own false), record := [] } ∧ z = 2 ∧ LoomReady s n k 0x122 c ∧ c1.phase = .ready ∧ BnReady s1 r) ∧
    (∃ (s : State) (s1 : State) (n : Nat) (k : Nat) (z : Nat) (h : Nat) (c : Cmd) (c1 : Cmd) (x : KReg) (r : BnReq) (j : _) (f : _) (out : _), h = c.inl 72 1 ∧ c.krefs = 2 ∧ h ≤ 3 ∧ c.inl 73 1 ≤ 1 ∧ digestLenOk h (c.own false) = true ∧ KeysIn s c [(0, 7, 2 ^ (11 + z))] s1 c1 ∧ ((h != 0 && c.fresh) = true → CoreReady s1 c) ∧ RegReady s1 c1 0 x ∧ r = { op := 6, size := z, pss := c.inl 73 1 == 1, alg := 11 + z, key := x.key.mat, operand := digestFor h (c.own false), record := [] } ∧ z = 2 ∧ LoomReady s n k 0x122 c ∧ c1.phase = .bnDone j f out) ∧
    (∃ (s : State) (s1 : State) (n : Nat) (k : Nat) (z : Nat) (h : Nat) (c : Cmd) (c1 : Cmd) (x : KReg) (r : BnReq), h = c.inl 72 1 ∧ c.krefs = 2 ∧ h ≤ 3 ∧ c.inl 73 1 ≤ 1 ∧ sigBytes z ≤ (c.own false).length ∧ digestLenOk h ((c.own false).drop (sigBytes z)) = true ∧ KeysIn s c [(0, 8, 2 ^ (11 + z))] s1 c1 ∧ ((h != 0 && c.fresh) = true → CoreReady s1 c) ∧ RegReady s1 c1 0 x ∧ r = { op := 7, size := z, pss := c.inl 73 1 == 1, alg := 11 + z, key := x.key.mat, operand := digestFor h ((c.own false).drop (sigBytes z)) ++ sl (c.own false) 0 (sigBytes z), record := [] } ∧ z = 0 ∧ LoomReady s n k 0x124 c ∧ c1.phase = .ready ∧ BnReady s1 r) ∧
    (∃ (s : State) (s1 : State) (n : Nat) (k : Nat) (z : Nat) (h : Nat) (c : Cmd) (c1 : Cmd) (x : KReg) (r : BnReq) (j : _) (f : _) (out : _), h = c.inl 72 1 ∧ c.krefs = 2 ∧ h ≤ 3 ∧ c.inl 73 1 ≤ 1 ∧ sigBytes z ≤ (c.own false).length ∧ digestLenOk h ((c.own false).drop (sigBytes z)) = true ∧ KeysIn s c [(0, 8, 2 ^ (11 + z))] s1 c1 ∧ ((h != 0 && c.fresh) = true → CoreReady s1 c) ∧ RegReady s1 c1 0 x ∧ r = { op := 7, size := z, pss := c.inl 73 1 == 1, alg := 11 + z, key := x.key.mat, operand := digestFor h ((c.own false).drop (sigBytes z)) ++ sl (c.own false) 0 (sigBytes z), record := [] } ∧ z = 0 ∧ LoomReady s n k 0x124 c ∧ c1.phase = .bnDone j f out) ∧
    (∃ (s : State) (s1 : State) (n : Nat) (k : Nat) (z : Nat) (h : Nat) (c : Cmd) (c1 : Cmd) (x : KReg) (r : BnReq), h = c.inl 72 1 ∧ c.krefs = 2 ∧ h ≤ 3 ∧ c.inl 73 1 ≤ 1 ∧ sigBytes z ≤ (c.own false).length ∧ digestLenOk h ((c.own false).drop (sigBytes z)) = true ∧ KeysIn s c [(0, 8, 2 ^ (11 + z))] s1 c1 ∧ ((h != 0 && c.fresh) = true → CoreReady s1 c) ∧ RegReady s1 c1 0 x ∧ r = { op := 7, size := z, pss := c.inl 73 1 == 1, alg := 11 + z, key := x.key.mat, operand := digestFor h ((c.own false).drop (sigBytes z)) ++ sl (c.own false) 0 (sigBytes z), record := [] } ∧ z = 1 ∧ LoomReady s n k 0x125 c ∧ c1.phase = .ready ∧ BnReady s1 r) ∧
    (∃ (s : State) (s1 : State) (n : Nat) (k : Nat) (z : Nat) (h : Nat) (c : Cmd) (c1 : Cmd) (x : KReg) (r : BnReq) (j : _) (f : _) (out : _), h = c.inl 72 1 ∧ c.krefs = 2 ∧ h ≤ 3 ∧ c.inl 73 1 ≤ 1 ∧ sigBytes z ≤ (c.own false).length ∧ digestLenOk h ((c.own false).drop (sigBytes z)) = true ∧ KeysIn s c [(0, 8, 2 ^ (11 + z))] s1 c1 ∧ ((h != 0 && c.fresh) = true → CoreReady s1 c) ∧ RegReady s1 c1 0 x ∧ r = { op := 7, size := z, pss := c.inl 73 1 == 1, alg := 11 + z, key := x.key.mat, operand := digestFor h ((c.own false).drop (sigBytes z)) ++ sl (c.own false) 0 (sigBytes z), record := [] } ∧ z = 1 ∧ LoomReady s n k 0x125 c ∧ c1.phase = .bnDone j f out) ∧
    (∃ (s : State) (s1 : State) (n : Nat) (k : Nat) (z : Nat) (h : Nat) (c : Cmd) (c1 : Cmd) (x : KReg) (r : BnReq), h = c.inl 72 1 ∧ c.krefs = 2 ∧ h ≤ 3 ∧ c.inl 73 1 ≤ 1 ∧ sigBytes z ≤ (c.own false).length ∧ digestLenOk h ((c.own false).drop (sigBytes z)) = true ∧ KeysIn s c [(0, 8, 2 ^ (11 + z))] s1 c1 ∧ ((h != 0 && c.fresh) = true → CoreReady s1 c) ∧ RegReady s1 c1 0 x ∧ r = { op := 7, size := z, pss := c.inl 73 1 == 1, alg := 11 + z, key := x.key.mat, operand := digestFor h ((c.own false).drop (sigBytes z)) ++ sl (c.own false) 0 (sigBytes z), record := [] } ∧ z = 2 ∧ LoomReady s n k 0x126 c ∧ c1.phase = .ready ∧ BnReady s1 r) ∧
    (∃ (s : State) (s1 : State) (n : Nat) (k : Nat) (z : Nat) (h : Nat) (c : Cmd) (c1 : Cmd) (x : KReg) (r : BnReq) (j : _) (f : _) (out : _), h = c.inl 72 1 ∧ c.krefs = 2 ∧ h ≤ 3 ∧ c.inl 73 1 ≤ 1 ∧ sigBytes z ≤ (c.own false).length ∧ digestLenOk h ((c.own false).drop (sigBytes z)) = true ∧ KeysIn s c [(0, 8, 2 ^ (11 + z))] s1 c1 ∧ ((h != 0 && c.fresh) = true → CoreReady s1 c) ∧ RegReady s1 c1 0 x ∧ r = { op := 7, size := z, pss := c.inl 73 1 == 1, alg := 11 + z, key := x.key.mat, operand := digestFor h ((c.own false).drop (sigBytes z)) ++ sl (c.own false) 0 (sigBytes z), record := [] } ∧ z = 2 ∧ LoomReady s n k 0x126 c ∧ c1.phase = .bnDone j f out) ∧
    (∃ (s : State) (s1 : State) (n : Nat) (k : Nat) (c : Cmd) (c1 : Cmd) (x : KReg), LoomReady s n k 0x10F c ∧ countOk c 1 = true ∧ KeysIn s c [(0, ownUsage s c 0, 0x3F80)] s1 c1 ∧ RegReady s1 c1 0 x ∧ publicOk x.key = true ∧ c1.phase = .ready ∧ BnReady s1 (publicReq x.key)) ∧
    (∃ (s : State) (s1 : State) (n : Nat) (k : Nat) (c : Cmd) (c1 : Cmd) (x : KReg) (j : _) (f : _) (out : _), LoomReady s n k 0x10F c ∧ countOk c 1 = true ∧ KeysIn s c [(0, ownUsage s c 0, 0x3F80)] s1 c1 ∧ RegReady s1 c1 0 x ∧ publicOk x.key = true ∧ c1.phase = .bnDone j f out) :=
  ⟨⟨tS (tExt (tL 0x100 [(7, 1)] [(0, tReg 7 7)]) [1]), _, 0, 0, tExt (tL 0x100 [(7, 1)] [(0, tReg 7 7)]) [1], _, _, _, (by decide +kernel), (by decide +kernel), (ready_eta (by decide +kernel)), ⟨some_eta (by decide +kernel), (by decide +kernel)⟩, rfl, (by decide +kernel), (by decide +kernel)⟩,
   ⟨tS ({ tExt (tL 0x100 [(7, 1)] [(0, tReg 7 7)]) [1] with phase := .bnDone 0 true [] }), _, 0, 0, { tExt (tL 0x100 [(7, 1)] [(0, tReg 7 7)]) [1] with phase := .bnDone 0 true [] }, _, _, _, 0, true, [], (by decide +kernel), (by decide +kernel), (ready_eta (by decide +kernel)), ⟨some_eta (by decide +kernel), (by decide +kernel)⟩, rfl, (by decide +kernel)⟩,
   ⟨tS (tExt (tL 0x101 [(7, 1)] [(0, tReg 8 7)]) (zeros 64)), _, 0, 0, tExt (tL 0x101 [(7, 1)] [(0, tReg 8 7)]) (zeros 64), _, _, _, (by decide +kernel), (by decide +kernel), (by decide +kernel), (by decide +kernel), (ready_eta (by decide +kernel)), ⟨some_eta (by decide +kernel), (by decide +kernel)⟩, rfl, (by decide +kernel), (by decide +kernel)⟩,
   ⟨tS ({ tExt (tL 0x101 [(7, 1)] [(0, tReg 8 7)]) (zeros 64) with phase := .bnDone 0 true [] }), _, 0, 0, { tExt (tL 0x101 [(7, 1)] [(0, tReg 8 7)]) (zeros 64) with phase := .bnDone 0 true [] }, _, _, _, 0, true, [], (by decide +kernel), (by decide +kernel), (by decide +kernel), (by decide +kernel), (ready_eta (by decide +kernel)), ⟨some_eta (by decide +kernel), (by decide +kernel)⟩, rfl, (by decide +kernel)⟩,
   ⟨tS (tExt (tL 0x101 [] []) (zeros 64)), 0, 0, tExt (tL 0x101 [] []) (zeros 64), _, (by decide +kernel), (by decide +kernel), (by decide +kernel), rfl, (by decide +kernel), (by decide +kernel)⟩,
   ⟨tS ({ tExt (tL 0x101 [] []) (zeros 64) with phase := .bnDone 0 true [] }), 0, 0, { tExt (tL 0x101 [] []) (zeros 64) with phase := .bnDone 0 true [] }, _, 0, true, [], (by decide +kernel), (by decide +kernel), (by decide +kernel), rfl, (by decide +kernel)⟩,
   ⟨tS (tExt (tL 0x110 [(7, 1)] [(0, tReg 7 9)]) (zeros 32)), _, 0, 0, 0, _, tExt (tL 0x110 [(7, 1)] [(0, tReg 7 9)]) (zeros 32), _, _, _, rfl, (by decide +kernel), (by decide +kernel), (by decide +kernel), (ready_eta (by decide +kernel)), (by decide +kernel), ⟨some_eta (by decide +kernel), (by decide +kernel)⟩, rfl, (by decide +kernel), (by decide +kernel), (by decide +kernel), (by decide +kernel)⟩,
   ⟨tS ({ tExt (tL 0x110 [(7, 1)] [(0, tReg 7 9)]) (zeros 32) with phase := .bnDone 0 true [] }), _, 0, 0, 0, _, { tExt (tL 0x110 [(7, 1)] [(0, tReg 7 9)]) (zeros 32) with phase := .bnDone 0 true [] }, _, _, _, 0, true, [], rfl, (by decide +kernel), (by decide +kernel), (by decide +kernel), (ready_eta (by decide +kernel)), (by decide +kernel), ⟨some_eta (by decide +kernel), (by decide +kernel)⟩, rfl, (by decide +kernel), (by decide +kernel), (by decide +kernel)⟩,
   ⟨tS (tExt (tL 0x111 [(7, 1)] [(0, tReg 7 10)]) (zeros 32)), _, 0, 0, 1, _, tExt (tL 0x111 [(7, 1)] [(0, tReg 7 10)]) (zeros 32), _, _, _, rfl, (by decide +kernel), (by decide +kernel), (by decide +kernel), (ready_eta (by decide +kernel)), (by decide +kernel), ⟨some_eta (by decide +kernel), (by decide +kernel)⟩, rfl, (by decide +kernel), (by decide +kernel), (by decide +kernel), (by decide +kernel)⟩,
   ⟨tS ({ tExt (tL 0x111 [(7, 1)] [(0, tReg 7 10)]) (zeros 32) with phase := .bnDone 0 true [] }), _, 0, 0, 1, _, { tExt (tL 0x111 [(7, 1)] [(0, tReg 7 10)]) (zeros 32) with phase := .bnDone 0 true [] }, _, _, _, 0, true, [], rfl, (by decide +kernel), (by decide +kernel), (by decide +kernel), (ready_eta (by decide +kernel)), (by decide +kernel), ⟨some_eta (by decide +kernel), (by decide +kernel)⟩, rfl, (by decide +kernel), (by decide +kernel), (by decide +kernel)⟩,
   ⟨tS (tExt (tL 0x112 [(7, 1)] [(0, tReg 8 9)]) (zeros 96)), _, 0, 0, 0, _, _, tExt (tL 0x112 [(7, 1)] [(0, tReg 8 9)]) (zeros 96), _, _, _, rfl, rfl, (by decide +kernel), (by decide +kernel), (by decide +kernel), (by decide +kernel), (by decide +kernel), (ready_eta (by decide +kernel)), (by decide +kernel), ⟨some_eta (by decide +kernel), (by decide +kernel)⟩, rfl, (by decide +kernel), (by decide +kernel), (by decide +kernel), (by decide +kernel)⟩,
   ⟨tS ({ tExt (tL 0x112 [(7, 1)] [(0, tReg 8 9)]) (zeros 96) with phase := .bnDone 0 true [] }), _, 0, 0, 0, _, _, { tExt (tL 0x112 [(7, 1)] [(0, tReg 8 9)]) (zeros 96) with phase := .bnDone 0 true [] }, _, _, _, 0, true, [], rfl, rfl, (by decide +kernel), (by decide +kernel), (by decide +kernel), (by decide +kernel), (by decide +kernel), (ready_eta (by decide +kernel)), (by decide +kernel), ⟨some_eta (by decide +kernel), (by decide +kernel)⟩, rfl, (by decide +kernel), (by decide +kernel), (by decide +kernel)⟩,
   ⟨tS (tExt (tL 0x113 [(7, 1)] [(0, tReg 8 10)]) (zeros 128)), _, 0, 0, 1, _, _, tExt (tL 0x113 [(7, 1)] [(0, tReg 8 10)]) (zeros 128), _, _, _, rfl, rfl, (by decide +kernel), (by decide +kernel), (by decide +kernel), (by decide +kernel), (by decide +kernel), (ready_eta (by decide +kernel)), (by decide +kernel), ⟨some_eta (by decide +kernel), (by decide +kernel)⟩, rfl, (by decide +kernel), (by decide +kernel), (by decide +kernel), (by decide +kernel)⟩,
   ⟨tS ({ tExt (tL 0x113 [(7, 1)] [(0, tReg 8 10)]) (zeros 128) with phase := .bnDone 0 true [] }), _, 0, 0, 1, _, _, { tExt (tL 0x113 [(7, 1)] [(0, tReg 8 10)]) (zeros 128) with phase := .bnDone 0 true [] }, _, _, _, 0, true, [], rfl, rfl, (by decide +kernel), (by decide +kernel), (by decide +kernel), (by decide +kernel), (by decide +kernel), (ready_eta (by decide +kernel)), (by decide +kernel), ⟨some_eta (by decide +kernel), (by decide +kernel)⟩, rfl, (by decide +kernel), (by decide +kernel), (by decide +kernel)⟩,
   ⟨tS (tExt (tL 0x120 [(7, 2), (73, 1)] [(0, tReg 7 11)]) (zeros 64)), _, 0, 0, 0, _, tExt (tL 0x120 [(7, 2), (73, 1)] [(0, tReg 7 11)]) (zeros 64), _, _, _, rfl, (by decide +kernel), (by decide +kernel), (by decide +kernel), (by decide +kernel), (ready_eta (by decide +kernel)), (by decide +kernel), ⟨some_eta (by decide +kernel), (by decide +kernel)⟩, rfl, (by decide +kernel), (by decide +kernel), (by decide +kernel), (by decide +kernel)⟩,
   ⟨tS ({ tExt (tL 0x120 [(7, 2), (73, 1)] [(0, tReg 7 11)]) (zeros 64) with phase := .bnDone 0 true [] }), _, 0, 0, 0, _, { tExt (tL 0x120 [(7, 2), (73, 1)] [(0, tReg 7 11)]) (zeros 64) with phase := .bnDone 0 true [] }, _, _, _, 0, true, [], rfl, (by decide +kernel), (by decide +kernel), (by decide +kernel), (by decide +kernel), (ready_eta (by decide +kernel)), (by decide +kernel), ⟨some_eta (by decide +kernel), (by decide +kernel)⟩, rfl, (by decide +kernel), (by decide +kernel), (by decide +kernel)⟩,
   ⟨tS (tExt (tL 0x121 [(7, 2), (73, 1)] [(0, tReg 7 12)]) (zeros 64)), _, 0, 0, 1, _, tExt (tL 0x121 [(7, 2), (73, 1)] [(0, tReg 7 12)]) (zeros 64), _, _, _, rfl, (by decide +kernel), (by decide +kernel), (by decide +kernel), (by decide +kernel), (ready_eta (by decide +kernel)), (by decide +kernel), ⟨some_eta (by decide +kernel), (by decide +kernel)⟩, rfl, (by decide +kernel), (by decide +kernel), (by decide +kernel), (by decide +kernel)⟩,
   ⟨tS ({ tExt (tL 0x121 [(7, 2), (73, 1)] [(0, tReg 7 12)]) (zeros 64) with phase := .bnDone 0 true [] }), _, 0, 0, 1, _, { tExt (tL 0x121 [(7, 2), (73, 1)] [(0, tReg 7 12)]) (zeros 64) with phase := .bnDone 0 true [] }, _, _, _, 0, true, [], rfl, (by decide +kernel), (by decide +kernel), (by decide +kernel), (by decide +kernel), (ready_eta (by decide +kernel)), (by decide +kernel), ⟨some_eta (by decide +kernel), (by decide +kernel)⟩, rfl, (by decide +kernel), (by decide +kernel), (by decide +kernel)⟩,
   ⟨tS (tExt (tL 0x122 [(7, 2), (73, 1)] [(0, tReg 7 13)]) (zeros 64)), _, 0, 0, 2, _, tExt (tL 0x122 [(7, 2), (73, 1)] [(0, tReg 7 13)]) (zeros 64), _, _, _, rfl, (by decide +kernel), (by decide +kernel), (by decide +kernel), (by decide +kernel), (ready_eta (by decide +kernel)), (by decide +kernel), ⟨some_eta (by decide +kernel), (by decide +kernel)⟩, rfl, (by decide +kernel), (by decide +kernel), (by decide +kernel), (by decide +kernel)⟩,
   ⟨tS ({ tExt (tL 0x122 [(7, 2), (73, 1)] [(0, tReg 7 13)]) (zeros 64) with phase := .bnDone 0 true [] }), _, 0, 0, 2, _, { tExt (tL 0x122 [(7, 2), (73, 1)] [(0, tReg 7 13)]) (zeros 64) with phase := .bnDone 0 true [] }, _, _, _, 0, true, [], rfl, (by decide +kernel), (by decide +kernel), (by decide +kernel), (by decide +kernel), (ready_eta (by decide +kernel)), (by decide +kernel), ⟨some_eta (by decide +kernel), (by decide +kernel)⟩, rfl, (by decide +kernel), (by decide +kernel), (by decide +kernel)⟩,
   ⟨tS (tExt (tL 0x124 [(7, 2)] [(0, tReg 8 11)]) (zeros 288)), _, 0, 0, 0, _, tExt (tL 0x124 [(7, 2)] [(0, tReg 8 11)]) (zeros 288), _, _, _, rfl, (by decide +kernel), (by decide +kernel), (by decide +kernel), (by decide +kernel), (by decide +kernel), (ready_eta (by decide +kernel)), (by decide +kernel), ⟨some_eta (by decide +kernel), (by decide +kernel)⟩, rfl, (by decide +kernel), (by decide +kernel), (by decide +kernel), (by decide +kernel)⟩,
   ⟨tS ({ tExt (tL 0x124 [(7, 2)] [(0, tReg 8 11)]) (zeros 288) with phase := .bnDone 0 true [] }), _, 0, 0, 0, _, { tExt (tL 0x124 [(7, 2)] [(0, tReg 8 11)]) (zeros 288) with phase := .bnDone 0 true [] }, _, _, _, 0, true, [], rfl, (by decide +kernel), (by decide +kernel), (by decide +kernel), (by decide +kernel), (by decide +kernel), (ready_eta (by decide +kernel)), (by decide +kernel), ⟨some_eta (by decide +kernel), (by decide +kernel)⟩, rfl, (by decide +kernel), (by decide +kernel), (by decide +kernel)⟩,
   ⟨tS (tExt (tL 0x125 [(7, 2)] [(0, tReg 8 12)]) (zeros 416)), _, 0, 0, 1, _, tExt (tL 0x125 [(7, 2)] [(0, tReg 8 12)]) (zeros 416), _, _, _, rfl, (by decide +kernel), (by decide +kernel), (by decide +kernel), (by decide +kernel), (by decide +kernel), (ready_eta (by decide +kernel)), (by decide +kernel), ⟨some_eta (by decide +kernel), (by decide +kernel)⟩, rfl, (by decide +kernel), (by decide +kernel), (by decide +kernel), (by decide +kernel)⟩,
   ⟨tS ({ tExt (tL 0x125 [(7, 2)] [(0, tReg 8 12)]) (zeros 416) with phase := .bnDone 0 true [] }), _, 0, 0, 1, _, { tExt (tL 0x125 [(7, 2)] [(0, tReg 8 12)]) (zeros 416) with phase := .bnDone 0 true [] }, _, _, _, 0, true, [], rfl, (by decide +kernel), (by decide +kernel), (by decide +kernel), (by decide +kernel), (by decide +kernel), (ready_eta (by decide +kernel)), (by decide +kernel), ⟨some_eta (by decide +kernel), (by decide +kernel)⟩, rfl, (by decide +kernel), (by decide +kernel), (by decide +kernel)⟩,
   ⟨tS (tExt (tL 0x126 [(7, 2)] [(0, tReg 8 13)]) (zeros 544)), _, 0, 0, 2, _, tExt (tL 0x126 [(7, 2)] [(0, tReg 8 13)]) (zeros 544), _, _, _, rfl, (by decide +kernel), (by decide +kernel), (by decide +kernel), (by decide +kernel), (by decide +kernel), (ready_eta (by decide +kernel)), (by decide +kernel), ⟨some_eta (by decide +kernel), (by decide +kernel)⟩, rfl, (by decide +kernel), (by decide +kernel), (by decide +kernel), (by decide +kernel)⟩,
   ⟨tS ({ tExt (tL 0x126 [(7, 2)] [(0, tReg 8 13)]) (zeros 544) with phase := .bnDone 0 true [] }), _, 0, 0, 2, _, { tExt (tL 0x126 [(7, 2)] [(0, tReg 8 13)]) (zeros 544) with phase := .bnDone 0 true [] }, _, _, _, 0, true, [], rfl, (by decide +kernel), (by decide +kernel), (by decide +kernel), (by decide +kernel), (by decide +kernel), (ready_eta (by decide +kernel)), (by decide +kernel), ⟨some_eta (by decide +kernel), (by decide +kernel)⟩, rfl, (by decide +kernel), (by decide +kernel), (by decide +kernel)⟩,
   ⟨tS (tL 0x10F [(7, 1)] [(0, tReg 7 7)]), _, 0, 0, tL 0x10F [(7, 1)] [(0, tReg 7 7)], _, _, (by decide +kernel), (by decide +kernel), (ready_eta (by decide +kernel)), ⟨some_eta (by decide +kernel), (by decide +kernel)⟩, (by decide +kernel), (by decide +kernel), (by decide +kernel)⟩,
   ⟨tS ({ tL 0x10F [(7, 1)] [(0, tReg 7 7)] with phase := .bnDone 0 true [] }), _, 0, 0, { tL 0x10F [(7, 1)] [(0, tReg 7 7)] with phase := .bnDone 0 true [] }, _, _, 0, true, [], (by decide +kernel), (by decide +kernel), (ready_eta (by decide +kernel)), ⟨some_eta (by decide +kernel), (by decide +kernel)⟩, (by decide +kernel), (by decide +kernel)⟩⟩

/-- What each clause of `Obligations.KeyAgreementOpcodesComplete` supposes can be met. -/
theorem witness_KeyAgreementOpcodesComplete :
    (∃ (s : State) (s1 : State) (s2 : State) (n : Nat) (k : Nat) (c : Cmd) (c1 : Cmd) (x : KReg) (r : BnReq) (ch : KeyInfo), LoomReady s n k 0x108 c ∧ countOk c 1 = true ∧ (c.own false).length = 32 ∧ KeysIn s c [(0, 4, 2 ^ 8)] s1 c1 ∧ RegReady s1 c1 0 x ∧ deriveKey s1 c1.part { x.key with level := 1 } (c.own false) = some ch ∧ s2 = (if c1.fresh = true then countPolicy s1 else s1) ∧ r = { op := 3, size := 0, pss := false, alg := 8, key := x.key.mat, operand := peerU (c1.inlB 72 32), record := c.own false } ∧ c1.phase = .ready ∧ policyOk s1 c1 ch.name ch.usage ch.alg (roleUse + roleImport) = true ∧ BnReady s2 r) ∧
    (∃ (s : State) (s1 : State) (s2 : State) (n : Nat) (k : Nat) (c : Cmd) (c1 : Cmd) (x : KReg) (r : BnReq) (ch : KeyInfo), LoomReady s n k 0x108 c ∧ countOk c 1 = true ∧ (c.own false).length = 32 ∧ KeysIn s c [(0, 4, 2 ^ 8)] s1 c1 ∧ RegReady s1 c1 0 x ∧ deriveKey s1 c1.part { x.key with level := 1 } (c.own false) = some ch ∧ s2 = (if c1.fresh = true then countPolicy s1 else s1) ∧ r = { op := 3, size := 0, pss := false, alg := 8, key := x.key.mat, operand := peerU (c1.inlB 72 32), record := c.own false } ∧ c1.phase = .ready ∧ policyOk s1 c1 ch.name ch.usage ch.alg (roleUse + roleImport) = false) ∧
    (∃ (s : State) (s1 : State) (s2 : State) (n : Nat) (k : Nat) (c : Cmd) (c1 : Cmd) (x : KReg) (r : BnReq) (ch : KeyInfo) (j : _) (f : _) (z : _), LoomReady s n k 0x108 c ∧ countOk c 1 = true ∧ (c.own false).length = 32 ∧ KeysIn s c [(0, 4, 2 ^ 8)] s1 c1 ∧ RegReady s1 c1 0 x ∧ deriveKey s1 c1.part { x.key with level := 1 } (c.own false) = some ch ∧ s2 = (if c1.fresh = true then countPolicy s1 else s1) ∧ r = { op := 3, size := 0, pss := false, alg := 8, key := x.key.mat, operand := peerU (c1.inlB 72 32), record := c.own false } ∧ c1.phase = .bnDone j f z) ∧
    (∃ (s : State) (s1 : State) (s2 : State) (n : Nat) (k : Nat) (z : Nat) (c : Cmd) (c1 : Cmd) (x : KReg) (w : KReg) (r : BnReq), c.krefs = 3 ∧ KeysIn s c [(0, ownUsage s c 0, 0x7E), (1, 3, 2 ^ (11 + z))] s1 c1 ∧ RegReady s1 c1 0 x ∧ RegReady s1 c1 1 w ∧ w.key.rsaPriv = false ∧ s2 = (if c1.fresh = true then countPolicy s1 else s1) ∧ r = { op := 0x20, size := z, pss := false, alg := 11 + z, key := w.key.mat, operand := x.key.mat, record := transportRecord x.key } ∧ z = 0 ∧ LoomReady s n k 0x128 c ∧ c1.phase = .ready ∧ exportOk s1 c1 x = true ∧ BnReady s2 r) ∧
    (∃ (s : State) (s1 : State) (s2 : State) (n : Nat) (k : Nat) (z : Nat) (c : Cmd) (c1 : Cmd) (x : KReg) (w : KReg) (r : BnReq) (j : _) (f : _) (out : _), c.krefs = 3 ∧ KeysIn s c [(0, ownUsage s c 0, 0x7E), (1, 3, 2 ^ (11 + z))] s1 c1 ∧ RegReady s1 c1 0 x ∧ RegReady s1 c1 1 w ∧ w.key.rsaPriv = false ∧ s2 = (if c1.fresh = true then countPolicy s1 else s1) ∧ r = { op := 0x20, size := z, pss := false, alg := 11 + z, key := w.key.mat, operand := x.key.mat, record := transportRecord x.key } ∧ z = 0 ∧ LoomReady s n k 0x128 c ∧ c1.phase = .bnDone j f out) ∧
    (∃ (s : State) (s1 : State) (s2 : State) (n : Nat) (k : Nat) (z : Nat) (c : Cmd) (c1 : Cmd) (x : KReg) (w : KReg) (r : BnReq), c.krefs = 3 ∧ KeysIn s c [(0, ownUsage s c 0, 0x7E), (1, 3, 2 ^ (11 + z))] s1 c1 ∧ RegReady s1 c1 0 x ∧ RegReady s1 c1 1 w ∧ w.key.rsaPriv = false ∧ s2 = (if c1.fresh = true then countPolicy s1 else s1) ∧ r = { op := 0x20, size := z, pss := false, alg := 11 + z, key := w.key.mat, operand := x.key.mat, record := transportRecord x.key } ∧ z = 1 ∧ LoomReady s n k 0x129 c ∧ c1.phase = .ready ∧ exportOk s1 c1 x = true ∧ BnReady s2 r) ∧
    (∃ (s : State) (s1 : State) (s2 : State) (n : Nat) (k : Nat) (z : Nat) (c : Cmd) (c1 : Cmd) (x : KReg) (w : KReg) (r : BnReq) (j : _) (f : _) (out : _), c.krefs = 3 ∧ KeysIn s c [(0, ownUsage s c 0, 0x7E), (1, 3, 2 ^ (11 + z))] s1 c1 ∧ RegReady s1 c1 0 x ∧ RegReady s1 c1 1 w ∧ w.key.rsaPriv = false ∧ s2 = (if c1.fresh = true then countPolicy s1 else s1) ∧ r = { op := 0x20, size := z, pss := false, alg := 11 + z, key := w.key.mat, operand := x.key.mat, record := transportRecord x.key } ∧ z = 1 ∧ LoomReady s n k 0x129 c ∧ c1.phase = .bnDone j f out) ∧
    (∃ (s : State) (s1 : State) (s2 : State) (n : Nat) (k : Nat) (z : Nat) (c : Cmd) (c1 : Cmd) (x : KReg) (w : KReg) (r : BnReq), c.krefs = 3 ∧ KeysIn s c [(0, ownUsage s c 0, 0x7E), (1, 3, 2 ^ (11 + z))] s1 c1 ∧ RegReady s1 c1 0 x ∧ RegReady s1 c1 1 w ∧ w.key.rsaPriv = false ∧ s2 = (if c1.fresh = true then countPolicy s1 else s1) ∧ r = { op := 0x20, size := z, pss := false, alg := 11 + z, key := w.key.mat, operand := x.key.mat, record := transportRecord x.key } ∧ z = 2 ∧ LoomReady s n k 0x12A c ∧ c1.phase = .ready ∧ exportOk s1 c1 x = true ∧ BnReady s2 r) ∧
    (∃ (s : State) (s1 : State) (s2 : State) (n : Nat) (k : Nat) (z : Nat) (c : Cmd) (c1 : Cmd) (x : KReg) (w : KReg) (r : BnReq) (j : _) (f : _) (out : _), c.krefs = 3 ∧ KeysIn s c [(0, ownUsage s c 0, 0x7E), (1, 3, 2 ^ (11 + z))] s1 c1 ∧ RegReady s1 c1 0 x ∧ RegReady s1 c1 1 w ∧ w.key.rsaPriv = false ∧ s2 = (if c1.fresh = true then countPolicy s1 else s1) ∧ r = { op := 0x20, size := z, pss := false, alg := 11 + z, key := w.key.mat, operand := x.key.mat, record := transportRecord x.key } ∧ z = 2 ∧ LoomReady s n k 0x12A c ∧ c1.phase = .bnDone j f out) ∧
    (∃ (s : State) (s1 : State) (n : Nat) (k : Nat) (z : Nat) (c : Cmd) (c1 : Cmd) (p : KReg) (b : Bytes) (r : BnReq), c.krefs = 2 ∧ b = c.own false ∧ b.length = sigBytes z + 32 ∧ KeysIn s c [(0, 3, 2 ^ (11 + z))] s1 c1 ∧ RegReady s1 c1 0 p ∧ p.key.rsaPriv = true ∧ r = { op := 0x21, size := z, pss := false, alg := 11 + z, key := p.key.mat, operand := b.take (sigBytes z), record := b.drop (sigBytes z) } ∧ z = 0 ∧ LoomReady s n k 0x12C c ∧ c1.phase = .ready ∧ BnReady s1 r) ∧
    (∃ (s : State) (s1 : State) (n : Nat) (k : Nat) (z : Nat) (c : Cmd) (c1 : Cmd) (p : KReg) (b : Bytes) (r : BnReq) (j : _) (f : _) (m : _), c.krefs = 2 ∧ b = c.own false ∧ b.length = sigBytes z + 32 ∧ KeysIn s c [(0, 3, 2 ^ (11 + z))] s1 c1 ∧ RegReady s1 c1 0 p ∧ p.key.rsaPriv = true ∧ r = { op := 0x21, size := z, pss := false, alg := 11 + z, key := p.key.mat, operand := b.take (sigBytes z), record := b.drop (sigBytes z) } ∧ z = 0 ∧ LoomReady s n k 0x12C c ∧ c1.phase = .bnDone j f m) ∧
    (∃ (s : State) (s1 : State) (n : Nat) (k : Nat) (z : Nat) (c : Cmd) (c1 : Cmd) (p : KReg) (b : Bytes) (r : BnReq), c.krefs = 2 ∧ b = c.own false ∧ b.length = sigBytes z + 32 ∧ KeysIn s c [(0, 3, 2 ^ (11 + z))] s1 c1 ∧ RegReady s1 c1 0 p ∧ p.key.rsaPriv = true ∧ r = { op := 0x21, size := z, pss := false, alg := 11 + z, key := p.key.mat, operand := b.take (sigBytes z), record := b.drop (sigBytes z) } ∧ z = 1 ∧ LoomReady s n k 0x12D c ∧ c1.phase = .ready ∧ BnReady s1 r) ∧
    (∃ (s : State) (s1 : State) (n : Nat) (k : Nat) (z : Nat) (c : Cmd) (c1 : Cmd) (p : KReg) (b : Bytes) (r : BnReq) (j : _) (f : _) (m : _), c.krefs = 2 ∧ b = c.own false ∧ b.length = sigBytes z + 32 ∧ KeysIn s c [(0, 3, 2 ^ (11 + z))] s1 c1 ∧ RegReady s1 c1 0 p ∧ p.key.rsaPriv = true ∧ r = { op := 0x21, size := z, pss := false, alg := 11 + z, key := p.key.mat, operand := b.take (sigBytes z), record := b.drop (sigBytes z) } ∧ z = 1 ∧ LoomReady s n k 0x12D c ∧ c1.phase = .bnDone j f m) ∧
    (∃ (s : State) (s1 : State) (n : Nat) (k : Nat) (z : Nat) (c : Cmd) (c1 : Cmd) (p : KReg) (b : Bytes) (r : BnReq), c.krefs = 2 ∧ b = c.own false ∧ b.length = sigBytes z + 32 ∧ KeysIn s c [(0, 3, 2 ^ (11 + z))] s1 c1 ∧ RegReady s1 c1 0 p ∧ p.key.rsaPriv = true ∧ r = { op := 0x21, size := z, pss := false, alg := 11 + z, key := p.key.mat, operand := b.take (sigBytes z), record := b.drop (sigBytes z) } ∧ z = 2 ∧ LoomReady s n k 0x12E c ∧ c1.phase = .ready ∧ BnReady s1 r) ∧
    (∃ (s : State) (s1 : State) (n : Nat) (k : Nat) (z : Nat) (c : Cmd) (c1 : Cmd) (p : KReg) (b : Bytes) (r : BnReq) (j : _) (f : _) (m : _), c.krefs = 2 ∧ b = c.own false ∧ b.length = sigBytes z + 32 ∧ KeysIn s c [(0, 3, 2 ^ (11 + z))] s1 c1 ∧ RegReady s1 c1 0 p ∧ p.key.rsaPriv = true ∧ r = { op := 0x21, size := z, pss := false, alg := 11 + z, key := p.key.mat, operand := b.take (sigBytes z), record := b.drop (sigBytes z) } ∧ z = 2 ∧ LoomReady s n k 0x12E c ∧ c1.phase = .bnDone j f m) ∧
    (∃ (s : State) (s1 : State) (n : Nat) (k : Nat) (alg : Nat) (c : Cmd) (c1 : Cmd) (r : BnReq) (h : _), LoomReady s n k 0x130 c ∧ alg = c.inl 72 1 ∧ generateParams c (decide (7 ≤ alg ∧ alg ≤ 10) && generateUsage alg (c.inl 73 1)) = true ∧ KeysIn s c (if bit (c.inl 77 1) 1 then [(0, 3, wrapMask)] else []) s1 c1 ∧ r = { op := 9, size := 0, pss := false, alg := alg, key := [], operand := [], record := [] } ∧ c.phase = .committed h) ∧
    (∃ (s : State) (s1 : State) (n : Nat) (k : Nat) (alg : Nat) (c : Cmd) (c1 : Cmd) (r : BnReq), LoomReady s n k 0x130 c ∧ alg = c.inl 72 1 ∧ generateParams c (decide (7 ≤ alg ∧ alg ≤ 10) && generateUsage alg (c.inl 73 1)) = true ∧ KeysIn s c (if bit (c.inl 77 1) 1 then [(0, 3, wrapMask)] else []) s1 c1 ∧ r = { op := 9, size := 0, pss := false, alg := alg, key := [], operand := [], record := [] } ∧ c.phase = .ready ∧ c1.phase = .ready ∧ BnReady s1 r) ∧
    (∃ (s : State) (s1 : State) (n : Nat) (k : Nat) (alg : Nat) (c : Cmd) (c1 : Cmd) (r : BnReq) (j : _) (f : _) (m : _) (y : _) (s3 : _) (c3 : _) (o : _), LoomReady s n k 0x130 c ∧ alg = c.inl 72 1 ∧ generateParams c (decide (7 ≤ alg ∧ alg ≤ 10) && generateUsage alg (c.inl 73 1)) = true ∧ KeysIn s c (if bit (c.inl 77 1) 1 then [(0, 3, wrapMask)] else []) s1 c1 ∧ r = { op := 9, size := 0, pss := false, alg := alg, key := [], operand := [], record := [] } ∧ c.phase = .bnDone j f m ∧ c1.phase = .bnDone j f m ∧ y = generateInfo c1 m ∧ placeNew (s1.drawn 32) c1 (generatedAsk s1 1 y) y = (s3, c3, o)) ∧
    (∃ (s : State) (s1 : State) (n : Nat) (k : Nat) (z : Nat) (c : Cmd) (c1 : Cmd) (w : KReg) (r : BnReq) (head : Bytes), c.krefs = 1 ∧ (c.inlB 72 2 = ascii "S0" ∨ c.inlB 72 2 = ascii "D1") ∧ byte (c.inl 74 1) ∈ expChars ∧ reserved c 75 5 = true ∧ reserved c 98 30 = true ∧ c.inl 88 4 ≤ 99 ∧ head = c.inlB 72 3 ++ c.inlB 80 18 ∧ KeysIn s c [(0, 3, wrapMask)] s1 c1 ∧ RegReady s1 c1 0 w ∧ r = { op := 9, size := z, pss := false, alg := 11 + z, key := [], operand := [], record := head } ∧ z = 0 ∧ LoomReady s n k 0x134 c ∧ c1.phase = .ready ∧ BnReady s1 r) ∧
    (∃ (s : State) (s1 : State) (n : Nat) (k : Nat) (z : Nat) (c : Cmd) (c1 : Cmd) (w : KReg) (r : BnReq) (head : Bytes) (j : _) (f : _) (m : _) (pad : _) (b : _), c.krefs = 1 ∧ (c.inlB 72 2 = ascii "S0" ∨ c.inlB 72 2 = ascii "D1") ∧ byte (c.inl 74 1) ∈ expChars ∧ reserved c 75 5 = true ∧ reserved c 98 30 = true ∧ c.inl 88 4 ≤ 99 ∧ head = c.inlB 72 3 ++ c.inlB 80 18 ∧ KeysIn s c [(0, 3, wrapMask)] s1 c1 ∧ RegReady s1 c1 0 w ∧ r = { op := 9, size := z, pss := false, alg := 11 + z, key := [], operand := [], record := head } ∧ z = 0 ∧ LoomReady s n k 0x134 c ∧ c1.phase = .bnDone j f m ∧ pad = fieldPad (versionOf w.key.alg) (11 + z) m ∧ b = rsaBlock w.key (11 + z) head m (s1.draws pad)) ∧
    (∃ (s : State) (s1 : State) (n : Nat) (k : Nat) (z : Nat) (c : Cmd) (c1 : Cmd) (w : KReg) (r : BnReq) (head : Bytes), c.krefs = 1 ∧ (c.inlB 72 2 = ascii "S0" ∨ c.inlB 72 2 = ascii "D1") ∧ byte (c.inl 74 1) ∈ expChars ∧ reserved c 75 5 = true ∧ reserved c 98 30 = true ∧ c.inl 88 4 ≤ 99 ∧ head = c.inlB 72 3 ++ c.inlB 80 18 ∧ KeysIn s c [(0, 3, wrapMask)] s1 c1 ∧ RegReady s1 c1 0 w ∧ r = { op := 9, size := z, pss := false, alg := 11 + z, key := [], operand := [], record := head } ∧ z = 1 ∧ LoomReady s n k 0x135 c ∧ c1.phase = .ready ∧ BnReady s1 r) ∧
    (∃ (s : State) (s1 : State) (n : Nat) (k : Nat) (z : Nat) (c : Cmd) (c1 : Cmd) (w : KReg) (r : BnReq) (head : Bytes) (j : _) (f : _) (m : _) (pad : _) (b : _), c.krefs = 1 ∧ (c.inlB 72 2 = ascii "S0" ∨ c.inlB 72 2 = ascii "D1") ∧ byte (c.inl 74 1) ∈ expChars ∧ reserved c 75 5 = true ∧ reserved c 98 30 = true ∧ c.inl 88 4 ≤ 99 ∧ head = c.inlB 72 3 ++ c.inlB 80 18 ∧ KeysIn s c [(0, 3, wrapMask)] s1 c1 ∧ RegReady s1 c1 0 w ∧ r = { op := 9, size := z, pss := false, alg := 11 + z, key := [], operand := [], record := head } ∧ z = 1 ∧ LoomReady s n k 0x135 c ∧ c1.phase = .bnDone j f m ∧ pad = fieldPad (versionOf w.key.alg) (11 + z) m ∧ b = rsaBlock w.key (11 + z) head m (s1.draws pad)) ∧
    (∃ (s : State) (s1 : State) (n : Nat) (k : Nat) (z : Nat) (c : Cmd) (c1 : Cmd) (w : KReg) (r : BnReq) (head : Bytes), c.krefs = 1 ∧ (c.inlB 72 2 = ascii "S0" ∨ c.inlB 72 2 = ascii "D1") ∧ byte (c.inl 74 1) ∈ expChars ∧ reserved c 75 5 = true ∧ reserved c 98 30 = true ∧ c.inl 88 4 ≤ 99 ∧ head = c.inlB 72 3 ++ c.inlB 80 18 ∧ KeysIn s c [(0, 3, wrapMask)] s1 c1 ∧ RegReady s1 c1 0 w ∧ r = { op := 9, size := z, pss := false, alg := 11 + z, key := [], operand := [], record := head } ∧ z = 2 ∧ LoomReady s n k 0x136 c ∧ c1.phase = .ready ∧ BnReady s1 r) ∧
    (∃ (s : State) (s1 : State) (n : Nat) (k : Nat) (z : Nat) (c : Cmd) (c1 : Cmd) (w : KReg) (r : BnReq) (head : Bytes) (j : _) (f : _) (m : _) (pad : _) (b : _), c.krefs = 1 ∧ (c.inlB 72 2 = ascii "S0" ∨ c.inlB 72 2 = ascii "D1") ∧ byte (c.inl 74 1) ∈ expChars ∧ reserved c 75 5 = true ∧ reserved c 98 30 = true ∧ c.inl 88 4 ≤ 99 ∧ head = c.inlB 72 3 ++ c.inlB 80 18 ∧ KeysIn s c [(0, 3, wrapMask)] s1 c1 ∧ RegReady s1 c1 0 w ∧ r = { op := 9, size := z, pss := false, alg := 11 + z, key := [], operand := [], record := head } ∧ z = 2 ∧ LoomReady s n k 0x136 c ∧ c1.phase = .bnDone j f m ∧ pad = fieldPad (versionOf w.key.alg) (11 + z) m ∧ b = rsaBlock w.key (11 + z) head m (s1.draws pad)) ∧
    (∃ (s : State) (s1 : State) (n : Nat) (k : Nat) (j : Nat) (c : Cmd) (d : Cmd), s.cmd? (.shed n k) = some c ∧ 0x200 ≤ c.opcode ∧ s.draftReady n k = some c ∧ nextShed s n = some j ∧ s.draftReady n j = some d ∧ s1 = draftStep s n j d ∧ s1.draftReady n k = none) ∧
    (∃ (s : State) (s1 : State) (n : Nat) (k : Nat) (j : Nat) (c : Cmd) (d : Cmd) (c1 : _), s.cmd? (.shed n k) = some c ∧ 0x200 ≤ c.opcode ∧ s.draftReady n k = some c ∧ nextShed s n = some j ∧ s.draftReady n j = some d ∧ s1 = draftStep s n j d ∧ s1.draftReady n k = some c1 ∧ j = k ∧ c1.count = c.count) ∧
    (∃ (s : State) (s1 : State) (n : Nat) (k : Nat) (j : Nat) (c : Cmd) (d : Cmd) (c1 : _), s.cmd? (.shed n k) = some c ∧ 0x200 ≤ c.opcode ∧ s.draftReady n k = some c ∧ nextShed s n = some j ∧ s.draftReady n j = some d ∧ s1 = draftStep s n j d ∧ s1.draftReady n k = some c1 ∧ (j ≠ k ∨ c1.count ≠ c.count)) ∧
    (∃ (s : State) (n : Nat) (w : Nat) (c : Cmd), stepWord s n c = some w) :=
  ⟨⟨tS (tExt (tL 0x108 [(7, 1)] [(0, tReg 4 8)]) ([1, 1, 3] ++ zeros 29)), _, _, 0, 0, tExt (tL 0x108 [(7, 1)] [(0, tReg 4 8)]) ([1, 1, 3] ++ zeros 29), _, _, _, _, (by decide +kernel), (by decide +kernel), (by decide +kernel), (ready_eta (by decide +kernel)), ⟨some_eta (by decide +kernel), (by decide +kernel)⟩, (some_eta (by decide +kernel)), rfl, rfl, (by decide +kernel), (by decide +kernel), (by decide +kernel)⟩,
   ⟨{ tS (tExt (tL 0x108 [(7, 1)] [(0, tReg 4 8)]) ([1, 1, 3] ++ zeros 29)) with rt := RtTables.reset RtTables.defaultLayout }, _, _, 0, 0, tExt (tL 0x108 [(7, 1)] [(0, tReg 4 8)]) ([1, 1, 3] ++ zeros 29), _, _, _, _, (by decide +kernel), (by decide +kernel), (by decide +kernel), (ready_eta (by decide +kernel)), ⟨some_eta (by decide +kernel), (by decide +kernel)⟩, (some_eta (by decide +kernel)), rfl, rfl, (by decide +kernel), (by decide +kernel)⟩,
   ⟨tS ({ tExt (tL 0x108 [(7, 1)] [(0, tReg 4 8)]) ([1, 1, 3] ++ zeros 29) with phase := .bnDone 0 true [] }), _, _, 0, 0, { tExt (tL 0x108 [(7, 1)] [(0, tReg 4 8)]) ([1, 1, 3] ++ zeros 29) with phase := .bnDone 0 true [] }, _, _, _, _, 0, true, [], (by decide +kernel), (by decide +kernel), (by decide +kernel), (ready_eta (by decide +kernel)), ⟨some_eta (by decide +kernel), (by decide +kernel)⟩, (some_eta (by decide +kernel)), rfl, rfl, (by decide +kernel)⟩,
   ⟨tS (tL 0x128 [(7, 3)] [(0, tReg 1 3), (1, tPub 11)]), _, _, 0, 0, 0, tL 0x128 [(7, 3)] [(0, tReg 1 3), (1, tPub 11)], _, _, _, _, (by decide +kernel), (ready_eta (by decide +kernel)), ⟨some_eta (by decide +kernel), (by decide +kernel)⟩, ⟨some_eta (by decide +kernel), (by decide +kernel)⟩, (by decide +kernel), rfl, rfl, (by decide +kernel), (by decide +kernel), (by decide +kernel), (by decide +kernel), (by decide +kernel)⟩,
   ⟨tS ({ tL 0x128 [(7, 3)] [(0, tReg 1 3), (1, tPub 11)] with phase := .bnDone 0 true [] }), _, _, 0, 0, 0, { tL 0x128 [(7, 3)] [(0, tReg 1 3), (1, tPub 11)] with phase := .bnDone 0 true [] }, _, _, _, _, 0, true, [], (by decide +kernel), (ready_eta (by decide +kernel)), ⟨some_eta (by decide +kernel), (by decide +kernel)⟩, ⟨some_eta (by decide +kernel), (by decide +kernel)⟩, (by decide +kernel), rfl, rfl, (by decide +kernel), (by decide +kernel), (by decide +kernel)⟩,
   ⟨tS (tL 0x129 [(7, 3)] [(0, tReg 1 3), (1, tPub 12)]), _, _, 0, 0, 1, tL 0x129 [(7, 3)] [(0, tReg 1 3), (1, tPub 12)], _, _, _, _, (by decide +kernel), (ready_eta (by decide +kernel)), ⟨some_eta (by decide +kernel), (by decide +kernel)⟩, ⟨some_eta (by decide +kernel), (by decide +kernel)⟩, (by decide +kernel), rfl, rfl, (by decide +kernel), (by decide +kernel), (by decide +kernel), (by decide +kernel), (by decide +kernel)⟩,
   ⟨tS ({ tL 0x129 [(7, 3)] [(0, tReg 1 3), (1, tPub 12)] with phase := .bnDone 0 true [] }), _, _, 0, 0, 1, { tL 0x129 [(7, 3)] [(0, tReg 1 3), (1, tPub 12)] with phase := .bnDone 0 true [] }, _, _, _, _, 0, true, [], (by decide +kernel), (ready_eta (by decide +kernel)), ⟨some_eta (by decide +kernel), (by decide +kernel)⟩, ⟨some_eta (by decide +kernel), (by decide +kernel)⟩, (by decide +kernel), rfl, rfl, (by decide +kernel), (by decide +kernel), (by decide +kernel)⟩,
   ⟨tS (tL 0x12A [(7, 3)] [(0, tReg 1 3), (1, tPub 13)]), _, _, 0, 0, 2, tL 0x12A [(7, 3)] [(0, tReg 1 3), (1, tPub 13)], _, _, _, _, (by decide +kernel), (ready_eta (by decide +kernel)), ⟨some_eta (by decide +kernel), (by decide +kernel)⟩, ⟨some_eta (by decide +kernel), (by decide +kernel)⟩, (by decide +kernel), rfl, rfl, (by decide +kernel), (by decide +kernel), (by decide +kernel), (by decide +kernel), (by decide +kernel)⟩,
   ⟨tS ({ tL 0x12A [(7, 3)] [(0, tReg 1 3), (1, tPub 13)] with phase := .bnDone 0 true [] }), _, _, 0, 0, 2, { tL 0x12A [(7, 3)] [(0, tReg 1 3), (1, tPub 13)] with phase := .bnDone 0 true [] }, _, _, _, _, 0, true, [], (by decide +kernel), (ready_eta (by decide +kernel)), ⟨some_eta (by decide +kernel), (by decide +kernel)⟩, ⟨some_eta (by decide +kernel), (by decide +kernel)⟩, (by decide +kernel), rfl, rfl, (by decide +kernel), (by decide +kernel), (by decide +kernel)⟩,
   ⟨tS (tExt (tL 0x12C [(7, 2)] [(0, tReg 3 11)]) (zeros 288)), _, 0, 0, 0, tExt (tL 0x12C [(7, 2)] [(0, tReg 3 11)]) (zeros 288), _, _, _, _, (by decide +kernel), rfl, (by decide +kernel), (ready_eta (by decide +kernel)), ⟨some_eta (by decide +kernel), (by decide +kernel)⟩, (by decide +kernel), rfl, (by decide +kernel), (by decide +kernel), (by decide +kernel), (by decide +kernel)⟩,
   ⟨tS ({ tExt (tL 0x12C [(7, 2)] [(0, tReg 3 11)]) (zeros 288) with phase := .bnDone 0 true [] }), _, 0, 0, 0, { tExt (tL 0x12C [(7, 2)] [(0, tReg 3 11)]) (zeros 288) with phase := .bnDone 0 true [] }, _, _, _, _, 0, true, [], (by decide +kernel), rfl, (by decide +kernel), (ready_eta (by decide +kernel)), ⟨some_eta (by decide +kernel), (by decide +kernel)⟩, (by decide +kernel), rfl, (by decide +kernel), (by decide +kernel), (by decide +kernel)⟩,
   ⟨tS (tExt (tL 0x12D [(7, 2)] [(0, tReg 3 12)]) (zeros 416)), _, 0, 0, 1, tExt (tL 0x12D [(7, 2)] [(0, tReg 3 12)]) (zeros 416), _, _, _, _, (by decide +kernel), rfl, (by decide +kernel), (ready_eta (by decide +kernel)), ⟨some_eta (by decide +kernel), (by decide +kernel)⟩, (by decide +kernel), rfl, (by decide +kernel), (by decide +kernel), (by decide +kernel), (by decide +kernel)⟩,
   ⟨tS ({ tExt (tL 0x12D [(7, 2)] [(0, tReg 3 12)]) (zeros 416) with phase := .bnDone 0 true [] }), _, 0, 0, 1, { tExt (tL 0x12D [(7, 2)] [(0, tReg 3 12)]) (zeros 416) with phase := .bnDone 0 true [] }, _, _, _, _, 0, true, [], (by decide +kernel), rfl, (by decide +kernel), (ready_eta (by decide +kernel)), ⟨some_eta (by decide +kernel), (by decide +kernel)⟩, (by decide +kernel), rfl, (by decide +kernel), (by decide +kernel), (by decide +kernel)⟩,
   ⟨tS (tExt (tL 0x12E [(7, 2)] [(0, tReg 3 13)]) (zeros 544)), _, 0, 0, 2, tExt (tL 0x12E [(7, 2)] [(0, tReg 3 13)]) (zeros 544), _, _, _, _, (by decide +kernel), rfl, (by decide +kernel), (ready_eta (by decide +kernel)), ⟨some_eta (by decide +kernel), (by decide +kernel)⟩, (by decide +kernel), rfl, (by decide +kernel), (by decide +kernel), (by decide +kernel), (by decide +kernel)⟩,
   ⟨tS ({ tExt (tL 0x12E [(7, 2)] [(0, tReg 3 13)]) (zeros 544) with phase := .bnDone 0 true [] }), _, 0, 0, 2, { tExt (tL 0x12E [(7, 2)] [(0, tReg 3 13)]) (zeros 544) with phase := .bnDone 0 true [] }, _, _, _, _, 0, true, [], (by decide +kernel), rfl, (by decide +kernel), (ready_eta (by decide +kernel)), ⟨some_eta (by decide +kernel), (by decide +kernel)⟩, (by decide +kernel), rfl, (by decide +kernel), (by decide +kernel), (by decide +kernel)⟩,
   ⟨tS ({ tL 0x130 [(72, 7), (73, 7), (76, 0x45), (77, 1)] [] with phase := .committed 5 }), _, 0, 0, _, { tL 0x130 [(72, 7), (73, 7), (76, 0x45), (77, 1)] [] with phase := .committed 5 }, _, _, 5, (by decide +kernel), rfl, (by decide +kernel), (ready_eta (by decide +kernel)), rfl, (by decide +kernel)⟩,
   ⟨tS (tL 0x130 [(72, 7), (73, 7), (76, 0x45), (77, 1)] []), _, 0, 0, _, tL 0x130 [(72, 7), (73, 7), (76, 0x45), (77, 1)] [], _, _, (by decide +kernel), rfl, (by decide +kernel), (ready_eta (by decide +kernel)), rfl, (by decide +kernel), (by decide +kernel), (by decide +kernel)⟩,
   ⟨tS ({ tL 0x130 [(72, 7), (73, 7), (76, 0x45), (77, 1)] [] with phase := .bnDone 0 true (zeros 32) }), _, 0, 0, _, { tL 0x130 [(72, 7), (73, 7), (76, 0x45), (77, 1)] [] with phase := .bnDone 0 true (zeros 32) }, _, _, 0, true, zeros 32, _, _, _, _, (by decide +kernel), rfl, (by decide +kernel), (ready_eta (by decide +kernel)), rfl, (by decide +kernel), (by decide +kernel), rfl, rfl⟩,
   ⟨tS (tL 0x134 [(7, 1), (72, 0x53), (73, 0x30), (74, 0x45), (88, 99)] [(0, tReg 3 3)]), _, 0, 0, 0, tL 0x134 [(7, 1), (72, 0x53), (73, 0x30), (74, 0x45), (88, 99)] [(0, tReg 3 3)], _, _, _, _, (by decide +kernel), (by decide +kernel), (by decide +kernel), (by decide +kernel), (by decide +kernel), (by decide +kernel), rfl, (ready_eta (by decide +kernel)), ⟨some_eta (by decide +kernel), (by decide +kernel)⟩, rfl, (by decide +kernel), (by decide +kernel), (by decide +kernel), (by decide +kernel)⟩,
   ⟨tS ({ tL 0x134 [(7, 1), (72, 0x53), (73, 0x30), (74, 0x45), (88, 99)] [(0, tReg 3 3)] with phase := .bnDone 0 true [] }), _, 0, 0, 0, { tL 0x134 [(7, 1), (72, 0x53), (73, 0x30), (74, 0x45), (88, 99)] [(0, tReg 3 3)] with phase := .bnDone 0 true [] }, _, _, _, _, 0, true, [], _, _, (by decide +kernel), (by decide +kernel), (by decide +kernel), (by decide +kernel), (by decide +kernel), (by decide +kernel), rfl, (ready_eta (by decide +kernel)), ⟨some_eta (by decide +kernel), (by decide +kernel)⟩, rfl, (by decide +kernel), (by decide +kernel), (by decide +kernel), rfl, rfl⟩,
   ⟨tS (tL 0x135 [(7, 1), (72, 0x53), (73, 0x30), (74, 0x45), (88, 99)] [(0, tReg 3 3)]), _, 0, 0, 1, tL 0x135 [(7, 1), (72, 0x53), (73, 0x30), (74, 0x45), (88, 99)] [(0, tReg 3 3)], _, _, _, _, (by decide +kernel), (by decide +kernel), (by decide +kernel), (by decide +kernel), (by decide +kernel), (by decide +kernel), rfl, (ready_eta (by decide +kernel)), ⟨some_eta (by decide +kernel), (by decide +kernel)⟩, rfl, (by decide +kernel), (by decide +kernel), (by decide +kernel), (by decide +kernel)⟩,
   ⟨tS ({ tL 0x135 [(7, 1), (72, 0x53), (73, 0x30), (74, 0x45), (88, 99)] [(0, tReg 3 3)] with phase := .bnDone 0 true [] }), _, 0, 0, 1, { tL 0x135 [(7, 1), (72, 0x53), (73, 0x30), (74, 0x45), (88, 99)] [(0, tReg 3 3)] with phase := .bnDone 0 true [] }, _, _, _, _, 0, true, [], _, _, (by decide +kernel), (by decide +kernel), (by decide +kernel), (by decide +kernel), (by decide +kernel), (by decide +kernel), rfl, (ready_eta (by decide +kernel)), ⟨some_eta (by decide +kernel), (by decide +kernel)⟩, rfl, (by decide +kernel), (by decide +kernel), (by decide +kernel), rfl, rfl⟩,
   ⟨tS (tL 0x136 [(7, 1), (72, 0x53), (73, 0x30), (74, 0x45), (88, 99)] [(0, tReg 3 3)]), _, 0, 0, 2, tL 0x136 [(7, 1), (72, 0x53), (73, 0x30), (74, 0x45), (88, 99)] [(0, tReg 3 3)], _, _, _, _, (by decide +kernel), (by decide +kernel), (by decide +kernel), (by decide +kernel), (by decide +kernel), (by decide +kernel), rfl, (ready_eta (by decide +kernel)), ⟨some_eta (by decide +kernel), (by decide +kernel)⟩, rfl, (by decide +kernel), (by decide +kernel), (by decide +kernel), (by decide +kernel)⟩,
   ⟨tS ({ tL 0x136 [(7, 1), (72, 0x53), (73, 0x30), (74, 0x45), (88, 99)] [(0, tReg 3 3)] with phase := .bnDone 0 true [] }), _, 0, 0, 2, { tL 0x136 [(7, 1), (72, 0x53), (73, 0x30), (74, 0x45), (88, 99)] [(0, tReg 3 3)] with phase := .bnDone 0 true [] }, _, _, _, _, 0, true, [], _, _, (by decide +kernel), (by decide +kernel), (by decide +kernel), (by decide +kernel), (by decide +kernel), (by decide +kernel), rfl, (ready_eta (by decide +kernel)), ⟨some_eta (by decide +kernel), (by decide +kernel)⟩, rfl, (by decide +kernel), (by decide +kernel), (by decide +kernel), rfl, rfl⟩,
   ⟨tS (tC 0x200 .ready []), _, 0, 0, 0, tC 0x200 .ready [], (tC 0x200 .ready []), (by decide +kernel), (by decide +kernel), (by decide +kernel), (by decide +kernel), (by decide +kernel), rfl, (by decide +kernel)⟩,
   ⟨tStill, tStill.modTreadle 0 (fun t => { t with last := 0 }), 0, 0, 0, tStillC, tStillC, tStillC, (by decide +kernel), (by decide +kernel), (by decide +kernel), (by decide +kernel), (by decide +kernel), draftStep_still.symm, (by decide +kernel), (by decide +kernel), (by decide +kernel)⟩,
   ⟨{ tS (tC 0x200 .ready []) with trd := tOn.trd.set 0 { Treadle.reset with inService := true, lines := [tLine (tC 0x200 .ready []) ([0x10, 0, 0, 0, 0, 1, 0, 0, 1] ++ zeros 247)] } }, _, 0, 0, 0, tC 0x200 .ready [], (tC 0x200 .ready []), _, (by decide +kernel), (by decide +kernel), (by decide +kernel), (by decide +kernel), (by decide +kernel), rfl, (some_eta (by decide +kernel)), (by decide +kernel)⟩,
   ⟨{ tS (tC 0x200 .ready []) with trd := tOn.trd.set 0 { Treadle.reset with inService := true, lines := [tLine (tC 0x200 .ready []) (zeros 256)] } }, 0, _, tC 0x200 .ready [], (some_eta (by decide +kernel))⟩⟩

/-- What `Obligations.QuorumIsDemanded` supposes can be met. -/
theorem witness_QuorumIsDemanded :
    ∃ (i : Instr) (s : State) (ctx : Nat) (op : Nat) (c : Cmd), quorumRow i = some (ctx, op) ∧ StewardReady s ctx op c ∧ QuorumDemanded s c ∧ c.quorum = none :=
  ⟨.partCreate 0, tT ({ tW 0x10 [] with quorum := none }), 0, 0x10, { tW 0x10 [] with quorum := none }, (by decide +kernel), (by decide +kernel), ⟨fun h => absurd h (by decide +kernel), fun h => absurd h (by decide +kernel), by decide +kernel, by decide +kernel⟩, (by decide +kernel)⟩

/-- What each clause of `Obligations.OnlyStewardsWriteTheExceptionRegisters` supposes can be met. -/
theorem witness_OnlyStewardsWriteTheExceptionRegisters :
    (∃ (s : State) (w : Writer) (n : Nat) (o : Nat), n < 16 ∧ (∀ fn, w ≠ .host fn ∧ w ≠ .hostPoisoned fn) ∧ (o = 0x20 ∨ o = 0x24 ∨ o = 0x28) ∧ s.powered (n + 1) = true ∧ Writer.priv w = false) ∧
    (∃ (s : State) (w : Writer) (n : Nat), s.powered (n + 1) = true ∧ Writer.priv w = false) ∧
    (∃ (s : State) (n : Nat) (v : Nat), n < 16 ∧ s.powered (n + 1) = true ∧ v < 2 ^ 32) ∧
    (∃ (s : State) (w : Writer) (n : Nat) (o : Nat), n < 16 ∧ (∀ fn, w ≠ .host fn ∧ w ≠ .hostPoisoned fn) ∧ o < 0x800 ∧ o % 4 = 0 ∧ s.powered (n + 1) = false) ∧
    (∃ (s : State) (n : Nat), s.powered (n + 1) = false) :=
  ⟨⟨tOn, .debug, 15, 0x28, (by decide +kernel), (by simp), (by decide +kernel), (by decide +kernel), (by decide +kernel)⟩,
   ⟨tOn, .debug, 15, (by decide +kernel), (by decide +kernel)⟩,
   ⟨tOn, 15, 0xFFFFFFFF, (by decide +kernel), (by decide +kernel), (by decide +kernel)⟩,
   ⟨{ tOn with sys := { tOn.sys with pdstat := 0 } }, .debug, 15, 0x7FC, (by decide +kernel), (by simp), (by decide +kernel), (by decide +kernel), (by decide +kernel)⟩,
   ⟨{ tOn with sys := { tOn.sys with pdstat := 0 } }, 15, (by decide +kernel)⟩⟩

/-- What each clause of `Obligations.BatteryAlert` supposes can be met. -/
theorem witness_BatteryAlert :
    (∃ (s : State) (mv : Nat), s.tmp.onVbat = false ∧ mv < 1800 ∧ s.tmp.batLow = false) ∧
    (∃ (s : State) (mv : Nat), s.tmp.onVbat = false ∧ 1850 < mv) ∧
    (∃ (s : State) (mv : Nat), s.tmp.onVbat = false ∧ mv ≤ 1850 ∧ (1800 ≤ mv ∨ s.tmp.batLow = true)) ∧
    (∃ (s : State), s.tmp.onVbat = true) ∧
    (∃ (s : State) (t : State) (l : Bool), s.tmp.onVbat = true ∧ s.tmp.live.getLsbD 14 = false ∧ exec (.tamperComparatorTrip 14 l) s = .next t) :=
  ⟨⟨tOn, 1799, (by decide +kernel), (by decide +kernel), (by decide +kernel)⟩,
   ⟨tOn, 1851, (by decide +kernel), (by decide +kernel)⟩,
   ⟨tOn, 1850, (by decide +kernel), (by decide +kernel), (by decide +kernel)⟩,
   ⟨tTmp (fun t => { t with onVbat := true }), (by decide +kernel)⟩,
   ⟨tTmp (fun t => { t with onVbat := true }), _, false, (by decide +kernel), (by decide +kernel), (next_eta (by decide +kernel))⟩⟩

/-- What each clause of `Obligations.MemoryReadsBackWhatWasWritten` supposes can be met. -/
theorem witness_MemoryReadsBackWhatWasWritten :
    (∃ (s : State) (t : State) (u : Nat) (a : Nat) (us : Bool) (d : Bytes), s.Inv ∧ unitOn s u = true ∧ u ≤ 11 ∧ 1 ≤ d.length ∧ d.length ≤ 4096 ∧ 0x01000000 ≤ a ∧ a + d.length ≤ 0x01800000 ∧ s.powered 31 = true ∧ mpuCheck s u .write (us && decide (u ≤ 3)) a d.length = none ∧ exec (.masterAccess u .write us a d.length d) s = .next t) ∧
    (∃ (s : State) (t : State) (u : Nat) (a : Nat) (us : Bool) (d : Bytes) (x : _), s.Inv ∧ unitOn s u = true ∧ u ≤ 11 ∧ 1 ≤ d.length ∧ d.length ≤ 4096 ∧ 0x01000000 ≤ a ∧ a + d.length ≤ 0x01800000 ∧ s.powered 31 = true ∧ mpuCheck s u .write (us && decide (u ≤ 3)) a d.length = none ∧ exec (.masterAccess u .write us a d.length d) s = .next t ∧ (x < a ∨ a + d.length ≤ x)) ∧
    (∃ (s : State) (t : State) (u : Nat) (a : Nat) (us : Bool) (d : Bytes), s.Inv ∧ unitOn s u = true ∧ u ≤ 11 ∧ 1 ≤ d.length ∧ d.length ≤ 4096 ∧ 0x01000000 ≤ a ∧ a + d.length ≤ 0x01800000 ∧ s.powered 31 = true ∧ mpuCheck s u .write (us && decide (u ≤ 3)) a d.length = none ∧ exec (.masterAccess u .write us a d.length d) s = .next t ∧ mpuCheck t u .read (us && decide (u ≤ 3)) a d.length = none) :=
  ⟨⟨tOn, _, 0, 0x017FFFFC, false, [1, 2, 3, 4], (by unfold State.Inv; decide +kernel), (by decide +kernel), (by decide +kernel), (by decide +kernel), (by decide +kernel), (by decide +kernel), (by decide +kernel), (by decide +kernel), (by decide +kernel), (next_eta (by decide +kernel))⟩,
   ⟨tOn, _, 0, 0x01000000, false, [1, 2, 3, 4], 0x01000004, (by unfold State.Inv; decide +kernel), (by decide +kernel), (by decide +kernel), (by decide +kernel), (by decide +kernel), (by decide +kernel), (by decide +kernel), (by decide +kernel), (by decide +kernel), (next_eta (by decide +kernel)), (by decide +kernel)⟩,
   ⟨tOn, _, 0, 0x01000000, false, [1, 2, 3, 4], (by unfold State.Inv; decide +kernel), (by decide +kernel), (by decide +kernel), (by decide +kernel), (by decide +kernel), (by decide +kernel), (by decide +kernel), (by decide +kernel), (by decide +kernel), (next_eta (by decide +kernel)), (by decide +kernel)⟩⟩

/-- What each clause of `Obligations.StepRunsTheFrontCommand` supposes can be met. -/
theorem witness_StepRunsTheFrontCommand :
    (∃ (s : State) (c : Instr) (r : List Instr), s.pending = c :: r) ∧
    (∃ (s : State), s.pending = []) :=
  ⟨⟨{ tOn with pending := [.pcieLinkUp] }, .pcieLinkUp, [], (by decide +kernel)⟩,
   ⟨tOn, (by decide +kernel)⟩⟩

/-- What `Obligations.StepKeepsTheInvariant` supposes can be met. -/
theorem witness_StepKeepsTheInvariant :
    ∃ (s : State) (t : State), s.Inv ∧ step s = .next t :=
  ⟨tOn, _, (by unfold State.Inv; decide +kernel), (next_eta (by decide +kernel))⟩

/-- What `Obligations.EveryQueueDrains` supposes can be met. -/
theorem witness_EveryQueueDrains :
    ∃ (s : State), s.Inv :=
  ⟨{ tOn with pending := [.pcieLinkUp, .pcieLinkUp] }, (by unfold State.Inv; decide +kernel)⟩


end Sys2Proof.Tests
end

section
/-! PROOFS. The state right after reset: the indexed accessors on it, and the statement about it. -/

namespace Sys2Proof.Machine

open Sys2Proof

/-- An index past the last loom reads as a treadle after reset too, so no bound is needed. -/
@[simp] theorem State.treadle_reset (n : Nat) : State.reset.treadle n = Treadle.reset :=
  List.getElem?_getD_replicate_default_eq _ 16 n

/-- An index past the last unit reads as a unit after reset too, so no bound is needed. -/
@[simp] theorem State.unit_reset (i : Nat) : State.reset.unit i = Mpu.reset :=
  List.getElem?_getD_replicate_default_eq _ 12 i

/-- Settles O2: each clause reads fields of `State.reset`; the treadles and the protection units are read through their
accessors. Values for which the manual states none, such as `tmp.secret = none` and the state that is kept through a P
reset, are the model's choice (notes/assumptions/7.md). -/
theorem resetState : Obligations.ResetState := by
  unfold Obligations.ResetState
  refine ⟨?noWork, ?power, ?ownerWeights, ?ownerQuotas, ?host, ?engines, ?link, ?time, ?units, ?tamperAndTest⟩
  case noWork => exact ⟨rfl, rfl, rfl, rfl, rfl, rfl, rfl, rfl⟩
  case power => exact ⟨rfl, rfl, rfl, rfl, rfl, rfl⟩
  case ownerWeights => rfl
  case ownerQuotas => rfl
  case host => exact ⟨rfl, rfl, rfl, rfl, rfl, rfl⟩
  case engines =>
    have rstatus (n : Nat) (_ : n < 16) : (State.reset.treadle n).rstatus = 0xF001 := by
      rw [State.treadle_reset]; rfl
    exact ⟨rfl, rstatus, rfl, rfl, rfl, rfl⟩
  case link => exact ⟨rfl, rfl, rfl, rfl, rfl, rfl⟩
  case time => exact ⟨rfl, rfl, rfl, rfl, rfl, rfl⟩
  case units =>
    intro i _
    rw [State.unit_reset]
    exact ⟨rfl, rfl, rfl⟩
  case tamperAndTest => exact ⟨rfl, rfl, rfl, rfl, rfl, rfl, rfl, rfl, rfl, rfl⟩

end Sys2Proof.Machine
end

section
/-! PROOFS. The memory invariant: it holds right after reset, and every step keeps it. -/

namespace Sys2Proof.Machine

open Sys2Proof

/-- Settles O3: nothing has been written to the RAM of the internal map after reset, and an empty memory is canonical. -/
theorem resetHasTheInvariant : Obligations.ResetHasTheInvariant := by
  have empty : State.reset.mem = [] := rfl
  simp [Obligations.ResetHasTheInvariant, State.Inv, empty, Mem.wf, Mem.wfFrom]

theorem State.Inv.tick {s : State} (hs : s.Inv) : s.tick.Inv := by
  simpa [State.Inv] using hs

theorem State.Inv.exec {i : Instr} {s t : State} (hs : s.Inv) (h : exec i s = .next t) : t.Inv := exec_ram hs h

/-- Settles O4: a step on an empty queue is a millisecond of operating time, which leaves the RAM alone, and any other step
is the effect of the command in front, with the queue's rest. -/
theorem stepKeepsTheInvariant : Obligations.StepKeepsTheInvariant := by
  unfold Obligations.StepKeepsTheInvariant
  intro s t hs h
  unfold step at h
  split at h
  case h_1 =>
    cases h
    exact hs.tick
  case h_2 i rest hp =>
    have behind : ({ s with pending := rest } : State).Inv := hs
    exact behind.exec h

end Sys2Proof.Machine
end

section
/-! PROOFS. Accesses of the masters of the internal interconnect (R13, R92, R347, R350, R351), and the RAM that reads back
what was written. -/

namespace Sys2Proof.Machine

open Sys2Proof

/-! ## Which way an access goes -/

theorem exec_masterAccess (u : Nat) (k : AccKind) (us : Bool) (a n : Nat) (d : Bytes) (s : State) :
    exec (.masterAccess u k us a n d) s = .next (masterAccess u k us a n d s) := rfl

theorem masterAccess_of_unit_off {s : State} {u : Nat} (off : unitOn s u = false) (k : AccKind) (us : Bool) (a n : Nat)
    (d : Bytes) : masterAccess u k us a n d s = s := by
  simp [masterAccess, off]

section
variable {s : State} {u n : Nat} (on : unitOn s u = true) (hu : u ≤ 11) (h1 : 1 ≤ n) (hn : n ≤ 4096)
include on hu h1 hn

/-- A master that is on issues its access. -/
theorem masterAccess_issued : ¬ (u > 11 ∨ n = 0 ∨ n > 4096 ∨ (!unitOn s u) = true) := by
  simp only [on, Bool.not_true, Bool.false_eq_true, or_false]
  omega

theorem masterAccess_of_fault {k : AccKind} {us : Bool} {a c r : Nat} (d : Bytes)
    (hc : mpuCheck s u k (us && decide (u ≤ 3)) a n = some (c, r)) :
    masterAccess u k us a n d s = accessFault u k (us && decide (u ≤ 3)) a n c r s := by
  simp only [masterAccess, if_neg (masterAccess_issued on hu h1 hn), hc]

theorem masterAccess_of_pass {k : AccKind} {us : Bool} {a : Nat} (d : Bytes)
    (hc : mpuCheck s u k (us && decide (u ≤ 3)) a n = none) :
    masterAccess u k us a n d s = accessPass u k (us && decide (u ≤ 3)) a n d s := by
  simp only [masterAccess, if_neg (masterAccess_issued on hu h1 hn), hc]

end

/-- A write of one register that its unit passed reaches the register blocks, which check the writer (R16). -/
theorem accessPass_register_write (s : State) (u : Nat) (us : Bool) (a : Nat) (d : Bytes) (lo : 0x10000000 ≤ a)
    (hi : a + 4 ≤ 0x10150000) :
    accessPass u .write us a 4 d s = writeRegs (accessWriter u us) a 4 (leNat (sl d 0 4)) s := by
  have allMapped : ((List.range 4).map (fun i => a + i)).all mapped = true := by
    simp only [List.all_map, List.all_eq_true, List.mem_range, Function.comp]
    intro i hi4
    simp only [mapped, mapRows, within, List.any_cons, Bool.or_eq_true, decide_eq_true_eq]
    omega
  have inRegs : within a 0x10000000 0x1014FFFF = true := by
    simp only [within, decide_eq_true_eq]; omega
  simp [accessPass, allMapped, inRegs]

/-! ## The steward SRAM (Table 01.2) -/

/-- An address of the steward SRAM. -/
def InSram (x : Nat) : Prop := 0x01000000 ≤ x ∧ x < 0x01800000

theorem inSram_add {a n i : Nat} (lo : 0x01000000 ≤ a) (hi : a + n ≤ 0x01800000) (h : i < n) : InSram (a + i) :=
  ⟨by omega, by omega⟩

section
variable {x : Nat} (hx : InSram x)
include hx

theorem mapped_sram : mapped x = true := by
  obtain ⟨lo, hi⟩ := hx
  simp only [mapped, mapRows, within, List.any_cons, Bool.or_eq_true, decide_eq_true_eq]
  omega

theorem loomAddr_sram : loomAddr x = none := by
  obtain ⟨lo, hi⟩ := hx
  unfold loomAddr within
  rw [if_neg (by simp only [Bool.and_eq_true, decide_eq_true_eq]; omega)]

theorem within_sram_of_disjoint {lo hi : Nat} (h : 0x01800000 ≤ lo) : within x lo hi = false := by
  obtain ⟨-, top⟩ := hx
  simp only [within, decide_eq_false_iff_not]
  omega

theorem not_bootRom_sram : ¬ x < 0x40000 := by
  obtain ⟨lo, -⟩ := hx
  omega

theorem shedCmd_sram (s : State) : shedCmd s x = none := by
  simp [shedCmd, loomAddr_sram hx]

theorem memDomain_sram : memDomain x = some 31 := by
  obtain ⟨lo, hi⟩ := hx
  unfold memDomain within
  rw [if_pos (by simp only [decide_eq_true_eq]; omega)]

/-- The SRAM answers while its domain is on, to every master. -/
theorem memOpen_sram (s : State) (u : Nat) : memOpen s u x = s.powered 31 := by
  simp [memOpen, memDomain_sram hx, inSheds, loomAddr_sram hx]

theorem openByte_sram (s : State) : openByte s x = false := by
  simp [openByte, inStepCache, loomAddr_sram hx, within_sram_of_disjoint hx]

theorem memByte_sram (s : State) (i : Nat) : memByte s x i = Mem.read s.mem x := by
  simp [memByte, not_bootRom_sram hx, within_sram_of_disjoint hx, openByte_sram hx, loomAddr_sram hx]

theorem memPut_sram (s : State) (b : Byte) : memPut s x b = { s with mem := Mem.write s.mem x b } := by
  simp [memPut, not_bootRom_sram hx, shedCmd_sram hx, loomAddr_sram hx]

end

/-- Bytes put at addresses of the SRAM go to the RAM and nowhere else. -/
theorem foldl_memPut_sram (l : List Nat) (at_ : Nat → Nat) (b : Nat → Byte) (s : State) (h : ∀ i ∈ l, InSram (at_ i)) :
    l.foldl (fun t i => memPut t (at_ i) (b i)) s =
      { s with mem := l.foldl (fun m i => Mem.write m (at_ i) (b i)) s.mem } := by
  induction l generalizing s with
  | nil => rfl
  | cons i r ih =>
    simp only [List.mem_cons, forall_eq_or_imp] at h
    obtain ⟨hi, hr⟩ := h
    simp only [List.foldl_cons, memPut_sram hi, ih _ hr]

section
variable {a n : Nat} (lo : 0x01000000 ≤ a) (hi : a + n ≤ 0x01800000)
include lo hi

theorem all_mapped_sram : ((List.range n).map (fun i => a + i)).all mapped = true := by
  simp only [List.all_map, List.all_eq_true, List.mem_range, Function.comp]
  exact fun i h => mapped_sram (inSram_add lo hi h)

theorem all_memOpen_sram (s : State) (u : Nat) (on : s.powered 31 = true) :
    ((List.range n).map (fun i => a + i)).all (memOpen s u) = true := by
  simp only [List.all_map, List.all_eq_true, List.mem_range, Function.comp]
  exact fun i h => (memOpen_sram (inSram_add lo hi h) s u).trans on

theorem all_memOpen_sram_off (s : State) (u : Nat) (h1 : 1 ≤ n) (off : s.powered 31 = false) :
    ((List.range n).map (fun i => a + i)).all (memOpen s u) = false := by
  simp only [List.all_map, List.all_eq_false, List.mem_range, Function.comp]
  refine ⟨0, h1, ?_⟩
  rw [memOpen_sram (inSram_add lo hi h1), off]
  decide

theorem not_register_sram (h1 : 1 ≤ n) : within a 0x10000000 0x1014FFFF = false :=
  within_sram_of_disjoint (⟨lo, by omega⟩ : InSram a) (by decide)

/-- While the SRAM's domain is off an access ends with an error response (R13). -/
theorem accessPass_sram_off (s : State) (u : Nat) (k : AccKind) (us : Bool) (d : Bytes) (h1 : 1 ≤ n)
    (off : s.powered 31 = false) : accessPass u k us a n d s = s.send (.error a) := by
  simp only [accessPass, all_mapped_sram lo hi, not_register_sram lo hi h1, all_memOpen_sram_off lo hi s u h1 off,
    Bool.not_true, Bool.not_false, Bool.false_eq_true, if_false, if_true]

theorem accessPass_sram_write (s : State) (u : Nat) (us : Bool) (d : Bytes) (h1 : 1 ≤ n) (on : s.powered 31 = true) :
    accessPass u .write us a n d s = { s with
      mem := (List.range n).foldl (fun m i => Mem.write m (a + i) ((d[i]?).getD 0)) s.mem } := by
  simp only [accessPass, all_mapped_sram lo hi, not_register_sram lo hi h1, all_memOpen_sram lo hi s u on,
    Bool.not_true, Bool.false_eq_true, if_false, if_true]
  exact foldl_memPut_sram _ (fun i => a + i) (fun i => (d[i]?).getD 0) s
    (fun i h => inSram_add lo hi (List.mem_range.mp h))

theorem accessPass_sram_read (s : State) (u : Nat) (us : Bool) (d : Bytes) (h1 : 1 ≤ n) (on : s.powered 31 = true) :
    accessPass u .read us a n d s = (s.drawn n).send (.memRead a (Mem.readN s.mem a n)) := by
  have bytes : (List.range n).map (fun i => memByte s (a + i) i) = Mem.readN s.mem a n :=
    List.map_congr_left (fun i h => memByte_sram (inSram_add lo hi (List.mem_range.mp h)) s i)
  simp only [accessPass, all_mapped_sram lo hi, not_register_sram lo hi h1, all_memOpen_sram lo hi s u on, bytes,
    Bool.not_true, Bool.false_eq_true, reduceCtorEq, if_false]

end

/-! ## Bytes written one by one -/

theorem foldl_write_eq_writeN (d : Bytes) (a : Nat) (m : Mem) :
    (List.range d.length).foldl (fun m i => Mem.write m (a + i) ((d[i]?).getD 0)) m = Mem.writeN m a d := by
  induction d generalizing a m with
  | nil => rfl
  | cons b bs ih =>
    rw [List.length_cons, List.range_succ_eq_map, List.foldl_cons, List.foldl_map, Mem.writeN, ← ih]
    simp [Nat.add_assoc, Nat.add_comm 1]

/-! ## The statements -/

/-- Settles O38: the unit's verdict splits the accesses that are issued; one that passes reaches the SRAM or a register, or
finds the SRAM off. -/
theorem masterAccessComplete : Obligations.MasterAccessComplete := by
  unfold Obligations.MasterAccessComplete
  simp only [exec_masterAccess]
  refine ⟨?fault, ?write, ?read, ?memoryOff, ?register, ?unitOff⟩
  case fault =>
    intro s u k us a n c r d on hu h1 hn hc
    rw [masterAccess_of_fault on hu h1 hn d hc, accessFault]
  case write =>
    intro s u us a n d on hu h1 hn lo hi pw hc
    rw [masterAccess_of_pass on hu h1 hn d hc, accessPass_sram_write lo hi s u _ d h1 pw]
  case read =>
    intro s u us a n d on hu h1 hn lo hi pw hc
    rw [masterAccess_of_pass on hu h1 hn d hc, accessPass_sram_read lo hi s u _ d h1 pw, Mem.readN]
  case memoryOff =>
    intro s u us a n k d on hu h1 hn lo hi pw hc
    rw [masterAccess_of_pass on hu h1 hn d hc, accessPass_sram_off lo hi s u k _ d h1 pw]
  case register =>
    intro s u us a d on hu lo hi hc
    rw [masterAccess_of_pass on hu (by decide) (by decide) d hc, accessPass_register_write s u _ a d lo hi]
  case unitOff =>
    intro s u k us a n d off
    rw [masterAccess_of_unit_off off]

/-- Settles O60: the write leaves `Mem.writeN` of the data, which reads back as the data and leaves every other byte; it
switches no domain off, so the later read finds the same master and memory. -/
theorem memoryReadsBackWhatWasWritten : Obligations.MemoryReadsBackWhatWasWritten := by
  unfold Obligations.MemoryReadsBackWhatWasWritten
  intro s t u a us d hs on hu h1 hn lo hi pw hc hex
  rw [exec_masterAccess, masterAccess_of_pass on hu h1 hn d hc, accessPass_sram_write lo hi s u _ d h1 pw,
    foldl_write_eq_writeN] at hex
  injection hex with ht
  have on_t : unitOn t u = true := by subst ht; exact on
  have pw_t : t.powered 31 = true := by subst ht; exact pw
  have mem_t : t.mem = Mem.writeN s.mem a d := by subst ht; rfl
  refine ⟨?range, fun x hx => ?others, fun hr => ?later⟩
  case range =>
    rw [mem_t, Mem.readN_writeN d a hs]
  case others =>
    rw [mem_t, Mem.read_writeN d a x hs, if_neg (by omega)]
  case later =>
    rw [exec_masterAccess, masterAccess_of_pass on_t hu h1 hn [] hr, accessPass_sram_read lo hi t u _ [] h1 pw_t, mem_t,
      Mem.readN_writeN d a hs]

end Sys2Proof.Machine
end

section
/-! PROOFS. Resets (R25 to R28, R135, R371, Tables 01.6 and 01.7): what asserts each kind, and what every reset leaves. -/

namespace Sys2Proof.Machine

open Sys2Proof

/-! ## Causes of resets -/

theorem warmReset_of_journal_idle {s : State} (h : commitWriting s = false) (cause : BitVec 7) :
    warmReset cause s = assertReset kW cause 4 s := by
  simp only [warmReset, h, Bool.false_eq_true, if_false]

/-- A W reset that meets a commit being written is due; its cause joins those of a sequence under way (R28, R135). -/
theorem warmReset_of_commitWriting {s : State} (h : commitWriting s = true) (cause : BitVec 7) :
    warmReset cause s = { s with sys := { s.sys with
      hwResetDue := true
      causes := if s.sys.hwResetDue || inSequence s then s.sys.causes ||| cause else cause } } := by
  simp only [warmReset, h, if_true]

/-- A write of RSTREQ acts when it sets WARM and brings the key. -/
theorem rstreqWarm_of_key {w : Writer} {v : Nat} (hw : Writer.internal w = true) (hv : bit v 0 = true)
    (hk : v / 65536 % 65536 = 0x9216) (s : State) : rstreqWarm w v s = warmReset 0x10 s := by
  simp [rstreqWarm, hw, hv, hk]

theorem rstreqWarm_of_no_key {v : Nat} (h : bit v 0 = false ∨ v / 65536 % 65536 ≠ 0x9216) (w : Writer) (s : State) :
    rstreqWarm w v s = s := by
  have ignored : ¬ (bit v 0 && v / 65536 % 65536 == 0x9216) = true := by
    rcases h with h | h <;> simp [h]
  unfold rstreqWarm
  rw [if_neg ignored, ite_self]

/-- Settles O23: each cause's row runs `assertReset` or `warmReset` with its cause bit; a W reset splits on a commit being
written, RSTREQ on its key, and a watchdog on its count. -/
theorem resetCausesComplete : Obligations.ResetCausesComplete := by
  unfold Obligations.ResetCausesComplete
  refine ⟨?powerOn, ?sag, ?warm, ?firstDue, ?joined, ?request, ?noKey, ?kick, ?expired, ?running, ?pcie, ?perst⟩
  case powerOn => exact fun s => rfl
  case sag =>
    rintro s _ rail us hr rfl
    change Host.Outcome.next (resetSag rail us s) = _
    rw [resetSag, if_neg (by omega)]
  case warm => exact fun s cause h => warmReset_of_journal_idle h cause
  case firstDue =>
    intro s cause h hd hi
    rw [warmReset_of_commitWriting h, hd, hi]
    rfl
  case joined =>
    intro s cause h hj
    rw [warmReset_of_commitWriting h, if_pos (by simpa using hj)]
  case request =>
    intro s w v hw hv hk
    change Host.Outcome.next (rstreqWarm w v s) = _
    rw [rstreqWarm_of_key hw hv hk]
  case noKey =>
    intro s w v h
    change Host.Outcome.next (rstreqWarm w v s) = _
    rw [rstreqWarm_of_no_key h]
  case kick =>
    intro s w i v hi hw
    change Host.Outcome.next (wdtWrite w i v s) = _
    rw [wdtWrite, if_neg (by simp [hw]; omega)]
  case expired =>
    intro s i h
    change Host.Outcome.next (if wdtExpired s i then warmReset 8 s else s) = _
    rw [if_pos h]
  case running =>
    intro s i h
    change Host.Outcome.next (if wdtExpired s i then warmReset 8 s else s) = _
    rw [h, if_neg Bool.false_ne_true]
  case pcie =>
    intro s h
    change Host.Outcome.next (if s.host.linkUp || s.host.training then warmReset 0x20 s else s) = _
    rw [if_pos (by simpa using h)]
  case perst =>
    intro s p hp hg
    have held : s.iom.pins.any (fun p => p.granted == 4) = true := List.any_eq_true.mpr ⟨p, hp, by simp [hg]⟩
    change Host.Outcome.next (if s.iom.pins.any (fun p => p.granted == 4) then warmReset 0x40 s else s) = _
    rw [if_pos held]

/-! ## What the parts of a reset change -/

/-- An event changes the recorder and nothing else. -/
theorem State.raise_eq (s : State) (code p1 p2 p3 p4 : Nat) :
    ∃ e, s.raise code p1 p2 p3 p4 = { s with evr := e } := by
  unfold State.raise
  dsimp only
  split
  · split <;> exact ⟨_, rfl⟩
  · split <;> exact ⟨_, rfl⟩

/-- An interrupt message changes the host interface and what is sent. -/
theorem State.msix_eq (s : State) (fn vec : Nat) : ∃ h o, s.msix fn vec = { s with host := h, out := o } := by
  unfold State.msix
  split
  · exact ⟨_, _, rfl⟩
  · split
    · exact ⟨_, _, rfl⟩
    · dsimp only
      split <;> exact ⟨_, _, rfl⟩

theorem State.cause_eq (s : State) (b : Nat) : ∃ h o, s.cause b = { s with host := h, out := o } := by
  unfold State.cause
  dsimp only
  split
  · obtain ⟨h, o, sent⟩ := State.msix_eq
      { s with host := { s.host with cause := s.host.cause ||| (1#9 <<< b) } } 0 s.host.vec
    exact ⟨h, o, sent⟩
  · exact ⟨_, _, rfl⟩

theorem State.setTimeState_eq (s : State) (n : Nat) :
    ∃ p h o, s.setTimeState n = { s with pt := p, host := h, out := o } := by
  unfold State.setTimeState
  split
  · exact ⟨_, _, _, rfl⟩
  · obtain ⟨h, o, told⟩ := State.cause_eq { s with pt := { s.pt with state := n } } 4
    exact ⟨_, h, o, told⟩

theorem changeTime_eq (s : State) (n : Nat) (off : Int) :
    ∃ p h o e, changeTime s n off = { s with pt := p, host := h, out := o, evr := e } := by
  unfold changeTime
  split
  · exact ⟨_, _, _, _, rfl⟩
  · obtain ⟨p, h, o, entered⟩ := State.setTimeState_eq
      { s with pt := { s.pt with outliers := 0, count := if n = 2 then s.pt.count else 0 } } n
    rw [entered]
    obtain ⟨e, logged⟩ := State.raise_eq { s with pt := p, host := h, out := o } 0x0801 s.pt.state n (toField 32 off) 0
    exact ⟨p, h, o, e, logged⟩

/-- The loss of the time source changes the time counter, the interrupt it raises and the event it writes (Table 13.2). -/
theorem loseSource_eq (s : State) :
    ∃ p h o e, loseSource s = { s with pt := p, host := h, out := o, evr := e } := by
  unfold loseSource
  split
  · exact changeTime_eq s 0 0
  · split
    · obtain ⟨p, h, o, e, held⟩ :=
        changeTime_eq { s with pt := { s.pt with addend := meanAddend s.pt, holdSec := s.pt.sec } } 3 0
      exact ⟨p, h, o, e, held⟩
    · exact ⟨_, _, _, _, rfl⟩

theorem commitWriting_loseSource (s : State) : commitWriting (loseSource s) = commitWriting s := by
  obtain ⟨p, h, o, e, lost⟩ := loseSource_eq s
  rw [lost]
  rfl

theorem freeSlot_loseSource (s : State) : freeSlot (loseSource s) = freeSlot s := by
  obtain ⟨p, h, o, e, lost⟩ := loseSource_eq s
  rw [lost]
  rfl

theorem tornWrite_eq (s : State) (n : Nat) : ∃ m, tornWrite s n = { s with mem := m } := by
  unfold tornWrite
  split <;> exact ⟨_, rfl⟩

/-- A torn write reaches only the slot the version was for. -/
theorem Mem.read_tornWrite {s : State} (hs : s.Inv) (n a : Nat)
    (ha : ∀ i, freeSlot s = some i → a < slotAddr i ∨ slotAddr i + 128 ≤ a) :
    Mem.read (tornWrite s n).mem a = Mem.read s.mem a := by
  unfold tornWrite
  split
  case h_1 => rfl
  case h_2 k hk =>
    have apart := ha k hk
    rw [Mem.read_writeN _ _ _ hs, if_neg]
    rw [List.length_take, Mem.readN_length]
    omega

theorem cutWrite_eq (k : BitVec 4) (s : State) : ∃ m d, cutWrite k s = { s with mem := m, draw := d } := by
  unfold cutWrite
  split
  · exact ⟨_, _, rfl⟩
  · split
    · obtain ⟨m, torn⟩ := tornWrite_eq s (leNat (s.draws 4) % 128)
      rw [torn]
      exact ⟨m, _, rfl⟩
    · split
      · obtain ⟨m, torn⟩ := tornWrite_eq s (leNat (s.draws 4) % 129)
        rw [torn]
        exact ⟨m, _, rfl⟩
      · exact ⟨_, _, rfl⟩

/-- What a reset meets before it clears: the partitions and the fuses are as they were. -/
theorem cutWrite_loseSource_eq (k : BitVec 4) (s : State) :
    ∃ m d p h o e, cutWrite k (loseSource s) = { s with mem := m, draw := d, pt := p, host := h, out := o, evr := e } := by
  obtain ⟨p, h, o, e, lost⟩ := loseSource_eq s
  obtain ⟨m, d, cut⟩ := cutWrite_eq k (loseSource s)
  rw [cut, lost]
  exact ⟨m, d, p, h, o, e, rfl⟩

theorem cutWrite_of_journal_idle {s : State} (h : commitWriting s = false) (k : BitVec 4) : cutWrite k s = s := by
  simp [cutWrite, h]

theorem Mem.read_cutWrite {s : State} (hs : s.Inv) (k : BitVec 4) (a : Nat)
    (ha : ∀ i, freeSlot s = some i → a < slotAddr i ∨ slotAddr i + 128 ≤ a) :
    Mem.read (cutWrite k s).mem a = Mem.read s.mem a := by
  unfold cutWrite
  split
  · rfl
  · split
    · exact Mem.read_tornWrite hs _ a ha
    · split
      · exact Mem.read_tornWrite hs _ a ha
      · rfl

/-- After filtering a memory by address, what is kept reads as before and the rest reads zero. -/
theorem Mem.read_filter (m : Mem) (p : Nat → Bool) (a : Nat) :
    Mem.read (m.filter (fun x => p x.1)) a = if p a then Mem.read m a else 0 := by
  induction m with
  | nil => simp [Mem.read]
  | cons x r ih =>
    obtain ⟨b, v⟩ := x
    by_cases hab : a = b
    · subst hab
      by_cases ha : p a = true <;> simp [Mem.read, ha, ih]
    · by_cases hb : p b = true <;> simp [Mem.read, hab, hb, ih]

theorem Mem.read_keepMram_of_mram (m : Mem) {a : Nat} (lo : 0x02000000 ≤ a) (hi : a < 0x02C00000) :
    Mem.read (keepMram m) a = Mem.read m a :=
  (Mem.read_filter m (fun x => decide (0x02000000 ≤ x ∧ x < 0x02C00000)) a).trans (if_pos (by simp [lo, hi]))

theorem Mem.read_keepMram_of_not_mram (m : Mem) {a : Nat} (h : a < 0x02000000 ∨ 0x02C00000 ≤ a) :
    Mem.read (keepMram m) a = 0 :=
  (Mem.read_filter m (fun x => decide (0x02000000 ≤ x ∧ x < 0x02C00000)) a).trans
    (if_neg (by simp only [decide_eq_true_eq]; omega))

/-- What a reset keeps (Table 01.7): the MRAM, the definitions of partitions and the fuses. -/
theorem State.clearFor_keeps (s : State) (k : BitVec 4) :
    (s.clearFor k).mem = keepMram s.mem ∧ (s.clearFor k).parts = s.parts.map Part.afterReset ∧
      (s.clearFor k).lc.otp = s.lc.otp := by
  unfold State.clearFor
  dsimp only
  split <;> exact ⟨rfl, rfl, rfl⟩

/-- What a reset empties, whatever its kinds (Table 01.7). -/
theorem State.clearFor_empties (s : State) (k : BitVec 4) :
    (s.clearFor k).queues = [] ∧ (s.clearFor k).fetched = [] ∧ (s.clearFor k).cmds = [] ∧ (s.clearFor k).dups = [] ∧
      (s.clearFor k).kc = KCache.reset ∧ (s.clearFor k).bn = Bignum.reset ∧ (s.clearFor k).qr = Dual.reset ∧
      (s.clearFor k).host = HostIf.reset ∧ (s.clearFor k).dbg = Debug.reset ∧
      (s.clearFor k).rt = RtTables.reset RtTables.defaultLayout ∧ (s.clearFor k).ks.domainKey = none ∧
      (s.clearFor k).mpu = List.replicate 12 Mpu.reset := by
  unfold State.clearFor
  dsimp only
  split <;> exact ⟨rfl, rfl, rfl, rfl, rfl, rfl, rfl, rfl, rfl, rfl, rfl, rfl⟩

theorem State.clearFor_secret (s : State) {k : BitVec 4} (h : k.getLsbD 2 = true) : (s.clearFor k).tmp.secret = none := by
  unfold State.clearFor
  dsimp only
  rw [if_pos h]

/-- The kinds of a reset combine with those of a sequence in progress and with a W reset that is due (R28). -/
def resetKinds (k : BitVec 4) (s : State) : BitVec 4 :=
  (if inSequence s then s.sys.pending ||| k else k) ||| (if s.sys.hwResetDue then kW else 0)

/-- A Z reset stays one, whatever it combines with. -/
theorem resetKinds_zeroise (s : State) : (resetKinds kZ s).getLsbD 2 = true := by
  unfold resetKinds
  rw [BitVec.getLsbD_or]
  split <;> simp [kZ]

/-- What is cleared is the machine after the loss of its time source and the cut of a write; the assertion then touches SYS,
the board's rails and the recorder, and nothing else. -/
theorem assertReset_eq (k : BitVec 4) (cause : BitVec 7) (g : Nat) (s : State) :
    ∃ y b e, y.inReset = true ∧ y.rstoutLow = true ∧
      assertReset k cause g s =
        { (cutWrite k (loseSource s)).clearFor (resetKinds k s) with sys := y, board := b, evr := e } := by
  unfold assertReset
  dsimp only
  split
  · obtain ⟨e, noted⟩ := State.raise_eq _ _ _ _ _ _
    rw [noted]
    obtain ⟨e', ended⟩ := State.raise_eq _ _ _ _ _ _
    rw [ended]
    exact ⟨_, _, _, rfl, rfl, rfl⟩
  · obtain ⟨e, noted⟩ := State.raise_eq _ _ _ _ _ _
    rw [noted]
    exact ⟨_, _, _, rfl, rfl, rfl⟩

/-- The definition of a partition stays. -/
theorem Part.afterReset_definition (p : Part) :
    (p.afterReset.id, p.afterReset.parent, p.afterReset.gen, p.afterReset.enables) = (p.id, p.parent, p.gen, p.enables) := rfl

/-- Settles O24: `assertReset` clears for its combined kinds and then touches only SYS, the board and the recorder; the MRAM
that is kept is the machine's own but for the slot that `cutWrite` may leave torn. -/
theorem resetClears : Obligations.ResetClears := by
  unfold Obligations.ResetClears
  intro s k cause g
  obtain ⟨y, b, e, hin, hlow, asserted⟩ := assertReset_eq k cause g s
  obtain ⟨hmem, hparts, hotp⟩ := State.clearFor_keeps (cutWrite k (loseSource s)) (resetKinds k s)
  obtain ⟨hq, hf, hc, hd, hkc, hbn, hqr, hhost, hdbg, hrt, hks, hmpu⟩ :=
    State.clearFor_empties (cutWrite k (loseSource s)) (resetKinds k s)
  obtain ⟨m, d, p, h, o, v, met⟩ := cutWrite_loseSource_eq k s
  rw [asserted]
  refine ⟨hq, hf, hc, hd, hkc, hbn, hqr, hhost, hdbg, hrt, hks, hmpu, hin, hlow, ?idle, ?mram, ?rest, ?parts, ?fuses, ?secret⟩
  case idle =>
    intro quiet
    refine hmem.trans ?_
    rw [cutWrite_of_journal_idle ((commitWriting_loseSource s).trans quiet), loseSource_mem, keepMram]
  case mram =>
    intro hs a lo hi apart
    have inv : (loseSource s).Inv := by rw [State.Inv, loseSource_mem]; exact hs
    rw [hmem, Mem.read_keepMram_of_mram _ lo hi,
      Mem.read_cutWrite inv k a (by rwa [freeSlot_loseSource]), loseSource_mem]
  case rest =>
    intro a ha
    rw [hmem, Mem.read_keepMram_of_not_mram _ ha]
  case parts =>
    rw [hparts, met, List.map_map]
    exact List.map_congr_left (fun p _ => Part.afterReset_definition p)
  case fuses =>
    rw [hotp, met]
  case secret =>
    rintro rfl
    exact State.clearFor_secret _ (resetKinds_zeroise s)

end Sys2Proof.Machine
end

section
/-! PROOFS. How a draft ends or leaves its treadle, and what brings it back (R16, R103, R104, R107, R108, Table 04.11). -/

namespace Sys2Proof.Machine

open Sys2Proof

/-! ## A draft step whose gates are open -/

/-- No gate of R95 holds back a step that is ready: its operation runs and its outcome is settled. -/
theorem State.step1_of_ready {s : State} {n k : Nat} {c : Cmd} {a : StepArgs} (h : StepReady s n k c a)
    (body : State → Cmd → StepArgs → StepOut) : s.step1 n k a body = s.settle n k a c (body s c a) := by
  obtain ⟨hc, hph, hab, hsound, hcount, hrsv, hbr⟩ := h
  have ready : s.readyCmd n k = some c := by simp [State.readyCmd, hc, hph]
  have held : s.lineHeld n c = true := by
    cases hl : s.line? n c with
    | none => simp [State.lineSound, hl] at hsound
    | some l => simp [State.lineHeld, hl]
  have notLast : ¬ c.count ≥ 8192 := by omega
  have noReserved : ¬ (a.rsv = true ∨ a.br.toNat > 3) := by simp [hrsv]; omega
  simp [State.step1, ready, hab, held, hsound, notLast, noReserved]

theorem doneRetireOp_of_ok {s : State} {c : Cmd} {a : StepArgs} {l : Nat} {d : DirEnt} (hl : stepLen c a = some l)
    (hd : c.dir = some d) (hmax : l ≤ d.replyMax) (hsrc : srcOk a.aOff.toNat l = true)
    (hst : (doneStatuses (decide (c.opcode ≥ 0x200))).contains (a.imm.toNat % 65536) = true) :
    doneRetireOp s c a = .gone (s.retireWith c (a.imm.toNat % 65536)
      (((bit a.param.toNat 0 && c.f.getLsbD a.bflag.toNat) || bit a.param.toNat 1) && a.imm.toNat % 65536 == 0) true
      (c.rd a.aOff.toNat l)) := by
  have named : ¬ (!(doneStatuses c.customer).contains (a.imm.toNat % 65536)) = true := by
    rw [Cmd.customer, hst]; decide
  have fits : ¬ ((!srcOk a.aOff.toNat l) = true ∨ l > d.replyMax) := by simp [hsrc]; omega
  simp only [doneRetireOp, hl, hd, Option.map_some, Option.getD_some, if_neg named, if_neg fits]

/-- The EXC step of a vendor draft asks for its service; in a customer draft it faults (Table 04.4). -/
theorem excServiceOp_of_vendor {c : Cmd} (h : c.opcode < 0x200) (s : State) (a : StepArgs) :
    excServiceOp s c a = .fault 8 (a.imm.toNat % 65536) := by
  simp [excServiceOp, Cmd.customer, h]

theorem excServiceOp_of_customer {c : Cmd} (h : 0x200 ≤ c.opcode) (s : State) (a : StepArgs) :
    excServiceOp s c a = .fault 1 0 := by
  simp [excServiceOp, Cmd.customer, h]

/-! ## The step cache and the exception FIFO -/

theorem stepCacheFill_of_waiting {s : State} {n k line : Nat} {c : Cmd} (hc : s.cmd? (.shed n k) = some c)
    (hph : c.phase = .waitLine line) (hab : c.abort = false) :
    stepCacheFill n k false s = (s.cacheLine n (storeLine s c)).setCmd { c with phase := .ready } := by
  simp only [stepCacheFill, hc, hph, hab, Bool.false_eq_true, if_false]

/-- Taking the head record off makes room for the oldest record that waits. -/
theorem Treadle.pop_eq (t : Treadle) :
    t.pop = { t with
      exc := t.exc.drop 1 ++ (if t.exc = [] then [] else t.excWait.take 1)
      excWait := if t.exc = [] then t.excWait else t.excWait.drop 1 } := by
  unfold Treadle.pop
  split
  case h_1 noRecord =>
    simp only [noRecord, List.drop_nil, if_true, List.append_nil]
    rw [← noRecord]
  case h_2 x r head =>
    split
    case h_1 noneWaits => simp [head, noneWaits]
    case h_2 w ws waits => simp [head, waits]

/-! ## Writes of a treadle's registers -/

/-- Privileged steward code reaches the treadle's registers while the loom's domain is on (R16, R114). -/
theorem trdWrite_of_steward {s : State} {n : Nat} (on : s.powered (n + 1) = true) (i off : Nat) (f : State → State) :
    trdWrite (.steward i true) n off s f = f s := by
  simp [trdWrite, on, Writer.priv]

theorem exec_trdExcpop_of_steward {s : State} {n : Nat} (on : s.powered (n + 1) = true) (i value : Nat) :
    exec (.trdExcpop (.steward i true) n value) s =
      .next (if bit value 0 then s.modTreadle n Treadle.pop else s) :=
  congrArg _ (trdWrite_of_steward on i 0x20 _)

theorem exec_trdResume_of_steward {s : State} {n : Nat} (on : s.powered (n + 1) = true) (i value : Nat) :
    exec (.trdResume (.steward i true) n value) s = .next (trdResume n value s) :=
  congrArg _ (trdWrite_of_steward on i 0x28 _)

theorem State.parkedCmd_of_parked {s : State} {n k kind code : Nat} {c : Cmd} (hc : s.cmd? (.shed n k) = some c)
    (hph : c.phase = .parked kind code) : s.parkedCmd n k = some (c, kind) := by
  simp only [State.parkedCmd, hc, hph]

theorem trdResume_of_not_parked {s : State} {n value : Nat} (h : s.parkedCmd n (bits value 4 0) = none) :
    trdResume n value s = s.modTreadle n (fun t => { t with resumeErr := true }) := by
  simp only [trdResume, h]

section
variable {s : State} {n value kind code : Nat} {c : Cmd} (hc : s.cmd? (.shed n (bits value 4 0)) = some c)
  (hph : c.phase = .parked kind code)
include hc hph

/-- RESUME with RETIRE: a step fault is recorded, a service is not. -/
theorem trdResume_retire (hv : bit value 5 = true) :
    trdResume n value s = (if kind = 8 then s else s.raise (faultEvent kind) 0 0 0 0).retire c
      (if c.abort then 0x7002 else (s.treadle n).rstatus) := by
  simp only [trdResume, State.parkedCmd_of_parked hc hph, hv, if_true]

/-- RESUME without RETIRE: the draft goes on at the step and flags it names; only a service counts as a step executed. -/
theorem trdResume_continue {a : StepArgs} (hv : bit value 5 = false) (ha : c.pend = some a) :
    trdResume n value s = (if kind = 8 then s.modTreadle n Treadle.count else s).setCmd
      { c.setF (saveFlags c.f (BitVec.ofNat 4 (bits value 18 15)) a.fsel) with
        mem := if kind = 8 then
            Mem.writeN (c.setF (saveFlags c.f (BitVec.ofNat 4 (bits value 18 15)) a.fsel)).mem 0xA2 (toLe 2 (c.count + 1))
          else (c.setF (saveFlags c.f (BitVec.ofNat 4 (bits value 18 15)) a.fsel)).mem
        idx := branch (saveFlags c.f (BitVec.ofNat 4 (bits value 18 15)) a.fsel) a (bits value 14 6)
        phase := .ready, pend := none } := by
  simp only [trdResume, State.parkedCmd_of_parked hc hph, hv, ha, hph, Bool.false_eq_true, if_false, Option.getD_some,
    Phase.resumed]

end

/-! ## The statement -/

/-- Settles O15: a ready DONE or EXC step is its operation and the settling of its outcome, a line that arrives and a write
of EXCPOP or RESUME is the operation of its row; RESUME splits on RETIRE and on whether the record asks for a service. The
zero parameters of the events of step faults are the model's reading (notes/assumptions/11.md). -/
theorem draftEndsAndTreadleComplete : Obligations.DraftEndsAndTreadleComplete := by
  unfold Obligations.DraftEndsAndTreadleComplete
  refine ⟨?done, ?service, ?customerExc, ?line, ?pop, ?faultContinues, ?serviceContinues, ?faultRetires, ?serviceRetires,
    ?notParked⟩
  case done =>
    intro s n k c a l d h hl hd hmax hsrc hst
    change Host.Outcome.next (s.step1 n k a doneRetireOp) = _
    rw [State.step1_of_ready h, doneRetireOp_of_ok hl hd hmax hsrc hst, State.settle]
  case service =>
    intro s n k c a h hop
    change Host.Outcome.next (s.step1 n k a excServiceOp) = _
    rw [State.step1_of_ready h, excServiceOp_of_vendor hop, State.settle]
  case customerExc =>
    intro s n k c a h hop
    change Host.Outcome.next (s.step1 n k a excServiceOp) = _
    rw [State.step1_of_ready h, excServiceOp_of_customer hop, State.settle]
  case line =>
    intro s n k line c hc hph hab
    change Host.Outcome.next (stepCacheFill n k false s) = _
    rw [stepCacheFill_of_waiting hc hph hab]
  case pop =>
    intro s i n value on hv
    rw [exec_trdExcpop_of_steward on, if_pos hv, funext Treadle.pop_eq]
  case faultContinues =>
    intro s i n value kind code c a on hv hc hph hk ha
    rw [exec_trdResume_of_steward on, trdResume_continue hc hph hv ha]
    simp only [if_neg hk]
  case serviceContinues =>
    rintro s i n value code c _ a on hv hc hph ha rfl
    rw [exec_trdResume_of_steward on, trdResume_continue hc hph hv ha]
    simp only [if_true]
  case faultRetires =>
    intro s i n value kind code c on hv hc hph hk
    rw [exec_trdResume_of_steward on, trdResume_retire hc hph hv, if_neg hk, faultEvent]
  case serviceRetires =>
    intro s i n value code c on hv hc hph
    rw [exec_trdResume_of_steward on, trdResume_retire hc hph hv, if_pos rfl]
  case notParked =>
    intro s i n value on h
    rw [exec_trdResume_of_steward on, trdResume_of_not_parked h]

end Sys2Proof.Machine
end

section
/-! PROOFS. The start-up sequence of Table 01.8 (R29, R31, R33, R333, R334), and the power domains and looms (R20 to R24,
Table 01.5). -/

namespace Sys2Proof.Machine

open Sys2Proof

/-! ## Start-up -/

theorem resetRelease_warm {s : State} (hin : s.sys.inReset = true) (hcold : s.sys.cold = false)
    (hf : s.sys.failed = false) :
    resetRelease s = ({ s with
      sys := { s.sys with inReset := false, warm := true, step := 0
                          rstcause := s.sys.rstcause ||| (if s.sys.pending.getLsbD 0 then 1 else 0) }
      lc := { s.lc with octal := s.lc.bootMode } } : State).advance := by
  simp only [resetRelease, hin, hcold, hf, Bool.not_true, Bool.not_false, Bool.false_eq_true, if_false]

/-- The release of a P or S reset samples the straps (R408). -/
theorem resetRelease_cold {s : State} (hin : s.sys.inReset = true) (hcold : s.sys.cold = true)
    (hf : s.sys.failed = false) :
    resetRelease s = ({ s with
      sys := { s.sys with inReset := false, warm := false, step := 0
                          rstcause := s.sys.rstcause ||| (if s.sys.pending.getLsbD 0 then 1 else 0) }
      lk := { s.lk with strap := s.board.roleStrap }
      lc := { s.lc with bootMode := s.board.bootStrap, octal := s.board.bootStrap }
      board := { s.board with smbAddr := s.board.smbStrap } } : State).advance := by
  simp only [resetRelease, hin, hcold, hf, Bool.not_true, Bool.false_eq_true, if_false, if_true]

theorem railsConfirmed_of_waiting {s : State} (hin : s.sys.inReset = false) (hstep : s.sys.step ≤ 1) :
    railsConfirmed s = ({ s with board := { s.board with railsOk := true } } : State).advance := by
  rw [railsConfirmed, if_neg (by simp [hin]; omega)]

theorem pllLocked_of_waiting {s : State} (hin : s.sys.inReset = false) (hf : s.sys.failed = false)
    (hstep : s.sys.step = 4) (hl : s.sys.pllLock = false) (ext : Bool) :
    pllLocked ext s = ({ s with
      sys := { s.sys with pllLock := true, monitored := true, refOk := true, pcieExt := ext, step := 5 }
      tmp := { s.tmp with live := s.tmp.live &&& ~~~(1#15 <<< 11) } } : State).advance := by
  rw [pllLocked, if_neg (by simp [hin, hf, hstep, hl])]

/-- The logic self-test of step 9 has its verdict: a failing unit stops the sequence, none lets it go on. -/
theorem lbistComplete_of_waiting {s : State} (hin : s.sys.inReset = false) (hf : s.sys.failed = false)
    (hstep : s.sys.step = 8) (hw : s.sys.warm = false) (on : s.powered 22 = true) :
    lbistComplete none s = (s.atStep 9).advance ∧
      ∀ u, lbistComplete (some u) s = stopStartup 8 (s.raise 0x0507 u 0 0 0) := by
  have waiting : ¬ (s.sys.inReset = true ∨ s.sys.failed = true ∨ s.sys.step ≠ 8 ∨ s.sys.warm = true ∨
      (!s.powered 22) = true) := by simp [hin, hf, hstep, hw, on]
  exact ⟨if_neg waiting, fun u => if_neg waiting⟩

/-- What the reads of both slots leave before an image runs: the events of the slots refused, and their checks. -/
def slotsChecked (a b : SlotRead) (s : State) : State :=
  let s1 := slotEvents (slotEvents s a 0 (slotRefused s a b 0)) b 1 (slotRefused s a b 1)
  { s1 with lc := { s1.lc with aCheck := slotRefused s a b 0, bCheck := slotRefused s a b 1 } }

section
variable {s : State} {a b : SlotRead} (hin : s.sys.inReset = false) (hf : s.sys.failed = false)
  (hr : s.sys.reading = true) (hstep : s.sys.step = 9 ∨ (s.sys.step = 8 ∧ s.sys.warm = true))
include hin hf hr hstep

theorem bootReads_awaited : ¬ (s.sys.inReset = true ∨ s.sys.failed = true ∨ (!s.sys.reading) = true ∨
    (!(s.sys.step == 9 || (s.sys.step == 8 && s.sys.warm))) = true) := by
  rcases hstep with h | ⟨h, hw⟩
  · simp [hin, hf, hr, h]
  · simp [hin, hf, hr, h, hw]

theorem bootVerified_of_signed {i : Nat}
    (hi : (slotOrder s a b).find? (fun i => (SlotRead.image (slotRead a b i)).signed) = some i) :
    bootVerified a b s = runImage i ((slotOrder s a b).head? != some i) (SlotRead.image (slotRead a b i))
      (slotsChecked a b s) := by
  simp only [bootVerified, if_neg (bootReads_awaited hin hf hr hstep), hi, slotsChecked]

theorem bootVerified_of_none_signed
    (hi : (slotOrder s a b).find? (fun i => (SlotRead.image (slotRead a b i)).signed) = none) :
    bootVerified a b s = stopStartup 9 ((slotsChecked a b s).raise 0x0E06 (slotRefused s a b 0) (slotRefused s a b 1) 0 0) := by
  simp only [bootVerified, if_neg (bootReads_awaited hin hf hr hstep), hi, slotsChecked]

end

/-! ## Looms -/

/-- The command ends after the drain timeout: its commit is being written, or its bignum job runs to a yield point (R105,
R226). -/
def endsLate (s : State) (c : Cmd) : Bool :=
  (commitWriting s && (s.headCommit.bind (fun x => x.who)) == some c.place) ||
    (match c.phase with
      | .waitBn _ => true
      | _ => false)

/-- The drain's time is over (R23): what ends late is asked to, and the rest of the loom's commands retire with ABORTED. -/
def drainTimedOut (n : Nat) (s : State) : State :=
  let cs := s.cmds.filter (fun c => onLoom s n c)
  let s1 := (cs.filter (fun c => !endsLate s c)).foldl (fun t c => t.retire c 0x7002)
    ((cs.filter (endsLate s)).foldl (fun t c => t.abort c) s)
  { s1 with sys := { s1.sys with drainTimeout := true } }

section
variable {s : State} {n : Nat} (hn : n < 16) (on : s.powered (n + 1) = true)
include hn on

section
variable (hserv : (s.treadle n).inService = false) (hdrain : (s.treadle n).draining = false)
  (hkat : (s.treadle n).katFailed = false) (hunit : (s.bunit (160 + n)).st = 0)
include hserv hdrain hkat hunit

theorem loomEnter_admitted : ¬ (n ≥ 16 ∨ (!s.powered (n + 1)) = true ∨ (s.treadle n).inService = true ∨
    (s.treadle n).draining = true ∨ (s.treadle n).katFailed = true ∨ (s.bunit (160 + n)).st ≠ 0) := by
  simp [on, hserv, hdrain, hkat, hunit, hn]

theorem loomEnter_of_failing (k : Nat) :
    loomEnter n (some k) s = (s.modTreadle n (fun x => { x with katFailed := true })).raise 0x0508 n k 0 0 :=
  if_neg (loomEnter_admitted hn on hserv hdrain hkat hunit)

/-- The tests have passed: the loom enters service if its DRBG is seeded. -/
theorem loomEnter_of_passing {s1 : State} (h1 : s1 = feed (s.modTreadle n (fun x => { x with katPassed := true }))) :
    loomEnter n none s = if s1.rngOff = true ∨ (!(s1.drbg n).seeded) = true then s1
      else ((s1.modTreadle n (fun x => { x with inService := true })).modCore (2 * n) (fun c => { c with ok := true })).modCore
          (2 * n + 1) (fun c => { c with ok := true }) := by
  subst h1
  exact if_neg (loomEnter_admitted hn on hserv hdrain hkat hunit)

end

section
variable (hd : (s.treadle n).draining = true)
include hd

theorem drainDone_of_idle (hi : loomIdle s n = true) : drainDone n s = loomOff n s :=
  if_neg (by simp [on, hd, hi, hn])

theorem drainOver_of_busy (hi : loomIdle s n = false) :
    drainOver n s =
      if loomIdle (drainTimedOut n s) n then loomOff n (drainTimedOut n s) else drainTimedOut n s :=
  if_neg (by simp [on, hd, hi, hn])

end

end

theorem drainDone_of_busy {s : State} {n : Nat} (hi : loomIdle s n = false) : drainDone n s = s :=
  if_pos (by simp [hi])

/-! ## Requests and the power sequencer -/

section
variable {s : State} {d : Nat} {on : Bool} (hw : s.wanted d ≠ on)
include hw

theorem pdRequest_of_switchable (h : switchable s d on = true) :
    pdRequest s d on = { s with sys := { s.sys with pdctl := s.sys.pdctl ^^^ (1#36 <<< (d - 1)) } } := by
  rw [pdRequest, if_neg hw, if_pos h, pdBit]

theorem pdRequest_of_refused (h : switchable s d on = false) :
    pdRequest s d on = { s with sys := { s.sys with refused := true, pderrDomain := d } } := by
  rw [pdRequest, if_neg hw, h, if_neg Bool.false_ne_true]

end

theorem pdctlWrite_of_privileged {s : State} {reg : Nat} (hreg : reg ≤ 1) (hin : s.sys.inReset = false)
    (hstep : 10 ≤ s.sys.step) (i v : Nat) :
    pdctlWrite (.steward i true) reg v s =
      startDrains ((pdDomains reg).foldl (fun t d => pdRequest t d (bit v ((d - 1) % 32))) s) := by
  have admitted : ¬ (s.sys.inReset = true ∨ s.sys.step < 10) := by simp [hin]; omega
  rw [pdctlWrite, if_neg (by omega), if_neg (by simp [Writer.priv]), if_neg admitted]

theorem pdctlWrite_of_unprivileged {reg : Nat} (hreg : reg ≤ 1) (s : State) (i v : Nat) :
    pdctlWrite (.steward i false) reg v s = s.denyWrite (.steward i false) (0x10000020 + 4 * reg) 4 := by
  rw [pdctlWrite, if_neg (by omega), if_pos (by simp [Writer.priv])]

section
variable {s : State} (hin : s.sys.inReset = false) (hf : s.sys.failed = false)
include hin hf

theorem sequencer_runs : ¬ (s.sys.inReset = true ∨ s.sys.failed = true) := by simp [hin, hf]

/-- A domain of an order that goes on after it. -/
theorem domainSwitched_of_more {d : Nat} {x : Nat × Bool} {rest : List (Nat × Bool)}
    (hq : s.sys.seqQueue = (d, true) :: x :: rest) :
    domainSwitched s = switchOn d { s with sys := { s.sys with seqQueue := x :: rest } } := by
  simp only [domainSwitched, if_neg (sequencer_runs hin hf), hq, if_true, reduceCtorEq, if_false]

/-- The last domain of an order completes its step. -/
theorem domainSwitched_of_last {d : Nat} (hq : s.sys.seqQueue = [(d, true)]) :
    domainSwitched s =
      startDrains (orderDone (switchOn d { s with sys := { s.sys with seqQueue := [] } })).advance := by
  simp only [domainSwitched, if_neg (sequencer_runs hin hf), hq, if_true]

theorem domainSwitched_of_request {d : Nat} (hq : s.sys.seqQueue = []) (hr : nextRequest s = some d) :
    domainSwitched s = if s.wanted d then switchOn d s else switchOff d s := by
  simp only [domainSwitched, if_neg (sequencer_runs hin hf), hq, hr]

end

/-! ## The statement -/

/-- Settles O25: each row is the operation of its name, whose guards the clause's conditions decide. That `advance` joins the
steps with no row, and that a commit being written outlives the drain timeout, are the model's readings
(notes/assumptions/32.md, notes/assumptions/46.md). -/
theorem startupAndPowerComplete : Obligations.StartupAndPowerComplete := by
  unfold Obligations.StartupAndPowerComplete
  refine ⟨⟨?warm, ?cold, ?rails, ?pll, ?lbist, ?signed, ?unsigned, ?ready, ?notReady⟩, ?enter, ?request, ?accepted, ?refused,
    ?denied, ?more, ?last, ?pending, ?drained, ?draining, ?timeout⟩
  case warm =>
    rintro s _ hin hcold hf rfl
    exact congrArg _ (resetRelease_warm hin hcold hf)
  case cold =>
    rintro s _ hin hcold hf rfl
    exact congrArg _ (resetRelease_cold hin hcold hf)
  case rails =>
    rintro s _ hin hstep rfl
    exact congrArg _ (railsConfirmed_of_waiting hin hstep)
  case pll =>
    rintro s _ ext hin hf hstep hl rfl
    exact congrArg _ (pllLocked_of_waiting hin hf hstep hl ext)
  case lbist =>
    intro s hin hf hstep hw on
    obtain ⟨passed, failed⟩ := lbistComplete_of_waiting hin hf hstep hw on
    exact ⟨congrArg _ passed, fun u => congrArg _ (failed u)⟩
  case signed =>
    rintro s _ a b i hin hf hr hstep hi rfl
    exact congrArg _ (bootVerified_of_signed hin hf hr hstep hi)
  case unsigned =>
    rintro s _ a b hin hf hr hstep hi rfl
    exact congrArg _ (bootVerified_of_none_signed hin hf hr hstep hi)
  case ready =>
    intro s h
    change Host.Outcome.next (readySet s) = _
    rw [readySet, if_pos h]
  case notReady =>
    intro s h
    change Host.Outcome.next (readySet s) = _
    rw [readySet, h, if_neg Bool.false_ne_true]
  case enter =>
    intro s n hn on hserv hdrain hkat hunit
    refine ⟨fun s1 h1 => ⟨fun hoff hseed => ?_, fun hwait => ?_⟩, fun k => ?_⟩
    · refine congrArg _ ((loomEnter_of_passing hn on hserv hdrain hkat hunit h1).trans (if_neg ?_))
      simp [hoff, hseed]
    · refine congrArg _ ((loomEnter_of_passing hn on hserv hdrain hkat hunit h1).trans (if_pos ?_))
      simpa using hwait
    · exact congrArg _ (loomEnter_of_failing hn on hserv hdrain hkat hunit k)
  case request =>
    intro s i reg v hreg hin hstep
    exact congrArg _ (pdctlWrite_of_privileged hreg hin hstep i v)
  case accepted => exact fun s d on hw h => pdRequest_of_switchable hw h
  case refused => exact fun s d on hw h => pdRequest_of_refused hw h
  case denied =>
    intro s i reg v hreg
    exact congrArg _ (pdctlWrite_of_unprivileged hreg s i v)
  case more =>
    intro s d x rest hin hf hq
    exact congrArg _ (domainSwitched_of_more hin hf hq)
  case last =>
    intro s d hin hf hq
    exact congrArg _ (domainSwitched_of_last hin hf hq)
  case pending =>
    intro s d hin hf hq hr
    exact congrArg _ (domainSwitched_of_request hin hf hq hr)
  case drained =>
    intro s n hn on hd hi
    exact congrArg _ (drainDone_of_idle hn on hd hi)
  case draining =>
    intro s n hi
    exact congrArg _ (drainDone_of_busy hi)
  case timeout =>
    intro s s1 n late hn on hd hi hl h1
    obtain rfl : late = endsLate s := funext hl
    subst h1
    exact ⟨fun idle => congrArg _ ((drainOver_of_busy hn on hd hi).trans (if_pos idle)),
      fun busy => congrArg _ ((drainOver_of_busy hn on hd hi).trans (if_neg (ne_true_of_eq_false busy)))⟩

end Sys2Proof.Machine
end

section
/-! PROOFS. The opcodes of partitions (R38, R40 to R43, R50, R89, R162): the body of an opcode in a steward context, its
quorum and its commit, then each opcode's own rule. -/

namespace Sys2Proof.Machine

open Sys2Proof

/-! ## Bodies in a steward context -/

/-- Nothing holds back a command that is ready: its opcode's body runs. -/
theorem stewardRow_of_ready {s : State} {i op : Nat} {c : Cmd} (h : StewardReady s i op c) (body : State → Cmd → State) :
    stewardRow s i op body = body s c := by
  obtain ⟨hc, hop, hup, hph, hab⟩ := h
  have runs : ¬ (c.opcode ≠ op ∨ (!s.stewardsUp) = true) := by simp [hop, hup]
  rcases hph with hph | hph
  · simp only [stewardRow, hc, if_neg runs, hph, hab, Bool.false_eq_true, if_false]
  · simp only [stewardRow, hc, if_neg runs, hph, hab, Bool.false_eq_true, if_false]

theorem withQuorum_of_quorum {c : Cmd} (h : c.quorum.isSome = true) (s f : State) : withQuorum s c f = f := if_pos h

section
variable {s : State} (hcan : s.canCommit = true)
include hcan

theorem commitDone_of_canCommit (t : State) (c : Cmd) (typ part : Nat) (body inline : Bytes) :
    commitDone s t c typ part body inline [] = s.changed t c typ part body inline := by
  simp only [commitDone, hcan, Bool.not_true, Bool.false_eq_true, if_false, State.changed]

/-- A partition's own change takes the place of its record. -/
theorem partDone_of_canCommit (c : Cmd) (p : Part) :
    partDone s c p [] = s.changed (s.putPart p) c 0x04 p.id (p.body 1) [] :=
  commitDone_of_canCommit hcan (s.putPart p) c 0x04 p.id (p.body 1) []

end

/-- The admin path, or a queue of the partition itself (R40). -/
theorem ownOrAdmin_of_reach {c : Cmd} {n : Nat} (h : c.admin = true ∨ c.part = n) : (c.admin || c.part == n) = true := by
  simpa using h

/-! ## Each opcode's rule -/

section
variable {s : State} {c : Cmd} {p : Part} (hquo : c.quorum.isSome = true)
include hquo

/-- The checks of R41 have passed but for the access key, which comes last but one. -/
theorem partCreate_of_fitting {id : Nat} {par : Part} {r : Bytes} (hr : r = c.own true)
    (hpar : s.part? (fieldLe r 0 2) = some par) (htear : par.tearing = false) (hdepth : par.depth < 8)
    (hid : newId s (fieldLe r 2 2) = .ok id) (hrange : (Attrs.of r).rangeOk = true)
    (hunder : (Attrs.of r).under par (s.children par.id) = true) (hp : p = newPart s id par r)
    (hcan : s.canCommit = true) :
    partCreate s c = if edPointBad (sl r 32 32) = true then s.retire c 0x1003
      else s.changed { s with parts := s.parts ++ [p], gens := assocSet s.gens id p.gen } c 0x04 id (p.body 1) (toLe 2 id) := by
  subst hr hp
  have body : partCreate s c = partCreateBody s c par (c.own true) := by
    simp only [partCreate, hpar, htear, Bool.false_eq_true, if_false, withQuorum_of_quorum hquo]
  rw [body]
  simp only [partCreateBody, hid]
  by_cases hkey : edPointBad (sl (c.own true) 32 32) = true
  · rw [if_pos (by simp [hkey]), if_pos hkey]
  · rw [if_neg (by simp [htear, hrange, hkey, hdepth]), if_neg hkey, if_neg (by simp [hunder]),
      commitDone_of_canCommit hcan]

theorem partModify_of_fitting {r : Bytes} (hr : r = c.own true) (hp : s.part? (fieldLe r 2 2) = some p)
    (htear : p.tearing = false) (hrange : (Attrs.of r).rangeOk = true)
    (howner : p.id = 0 → ownerFixed (Attrs.of r) = true)
    (hfits : p.id ≠ 0 → fitsBelow s p (Attrs.of r) = true ∧ (Attrs.of r).under ((s.part? p.parent).getD p)
      ((s.children ((s.part? p.parent).getD p).id).filter (fun x => x.id != p.id)) = true)
    (hcan : s.canCommit = true) :
    partModify s c = s.changed (s.putPart (p.withAttrs (Attrs.of r))) c 0x04 p.id ((p.withAttrs (Attrs.of r)).body 1) [] := by
  subst hr
  have body : partModify s c = partModifyBody s c p (c.own true) := by
    simp only [partModify, hp, htear, Bool.false_eq_true, if_false, withQuorum_of_quorum hquo]
  have valid : ¬ (p.tearing = true ∨ (!(Attrs.of (c.own true)).rangeOk) = true ∨
      (p.id = 0 ∧ (!ownerFixed (Attrs.of (c.own true))) = true)) := by
    simpa [htear, hrange] using howner
  have within : ¬ (p.id ≠ 0 ∧ (!((Attrs.of (c.own true)).under ((s.part? p.parent).getD p)
      ((s.children ((s.part? p.parent).getD p).id).filter (fun x => x.id != p.id)) &&
        fitsBelow s p (Attrs.of (c.own true)))) = true) := by
    rintro ⟨hne, hbad⟩
    obtain ⟨hbelow, hunder⟩ := hfits hne
    simp [hbelow, hunder] at hbad
  rw [body, partModifyBody, if_neg valid, if_neg within, partDone_of_canCommit hcan]
  rfl

theorem partSetAccessKey_of_reach (hreach : c.admin = true ∨ c.part = c.inl 72 2) (hp : s.part? (c.inl 72 2) = some p)
    (hcan : s.canCommit = true) :
    partSetAccessKey s c = if edPointBad (c.inlB 80 32) = true then s.retire c 0x1003
      else s.changed (s.putPart { p with accessKey := c.inlB 80 32 }) c 0x04 p.id
        (({ p with accessKey := c.inlB 80 32 } : Part).body 1) [] := by
  simp only [partSetAccessKey, ownOrAdmin_of_reach hreach, hp, withQuorum_of_quorum hquo, Bool.not_true,
    Bool.false_eq_true, if_false, partDone_of_canCommit hcan]

theorem partEnableOpcodes_of_present (hp : s.part? (c.inl 72 2) = some p) (htear : p.tearing = false)
    (hcan : s.canCommit = true) :
    partEnableOpcodes s c =
      s.changed (s.putPart { p with enables := BitVec.ofNat 1024 (leNat (sl (c.own true) 0 128)) }) c 0x04 p.id
        (({ p with enables := BitVec.ofNat 1024 (leNat (sl (c.own true) 0 128)) } : Part).body 1) [] := by
  simp only [partEnableOpcodes, hp, htear, withQuorum_of_quorum hquo, Bool.false_eq_true, if_false,
    partDone_of_canCommit hcan]

/-- Past its own checks and its quorum, a teardown splits on the partition it names (R35, R50). -/
theorem partTeardown_of_reach (hreach : c.admin = true ∨ c.part = c.inl 72 2) (hp : s.part? (c.inl 72 2) = some p)
    (htear : p.tearing = false) :
    partTeardown s c = if c.inl 72 2 = 0 then s.retire c 0x1003 else teardownStart s c p := by
  simp only [partTeardown, ownOrAdmin_of_reach hreach, hp, htear, withQuorum_of_quorum hquo, Bool.not_true,
    Bool.false_eq_true, if_false]

end

section
variable {s : State} {c : Cmd} {p : Part}

theorem partSetCachePolicy_of_reach (hreach : c.admin = true ∨ c.part = c.inl 72 2) (hp : s.part? (c.inl 72 2) = some p)
    (htear : p.tearing = false) (hmode : c.inl 74 1 ≤ 1) (hcan : s.canCommit = true) :
    partSetCachePolicy s c = s.changed (s.putPart { p with oldest := c.inl 74 1 == 1 }) c 0x04 p.id
      (({ p with oldest := c.inl 74 1 == 1 } : Part).body 1) [] := by
  have valid : ¬ (p.tearing = true ∨ c.inl 74 1 > 1 ∨ (!(c.admin || c.part == c.inl 72 2)) = true) := by
    simp [htear, ownOrAdmin_of_reach hreach, hmode]
  simp only [partSetCachePolicy, hp, if_neg valid, partDone_of_canCommit hcan]

theorem partQuery_of_reach (hreach : inReach s c (c.inl 72 2) = true) (hp : s.part? (c.inl 72 2) = some p) :
    partQuery s c = okReply s c [] (partReply s p) := by
  simp only [partQuery, hreach, hp, Bool.not_true, Bool.false_eq_true, if_false]

theorem partQuery_of_out_of_reach (hreach : inReach s c (c.inl 72 2) = false) : partQuery s c = s.retire c 0x2001 := by
  simp only [partQuery, hreach, Bool.not_false, if_true]

/-- The subtree is marked in one committed change, then its deepest partition is taken first (R50). -/
theorem teardownStart_of_canCommit (hcan : s.canCommit = true) :
    teardownStart s c p =
      let s1 := { s with
        parts := updWhere (fun x => (subtree s p.id).contains x.id) (fun x => { x with tearing := true }) s.parts
        qr := { s.qr with nonces := s.qr.nonces.filter (fun n => !(subtree s p.id).contains n.part) } }
      let s2 := (s1.commit 0x04 p.id (p.body 2)).setCmd { c with phase := .waitTeardown p.id }
      tearPart s2 p.id (((deepest s2 p.id).map (fun x => x.id)).getD p.id) (some c.place) := by
  simp only [teardownStart, hcan, Bool.not_true, Bool.false_eq_true, if_false]

end

/-! ## The statement -/

/-- Settles O44: the row of an opcode is its body, the quorum is there, and each body's checks pass, or fail as the clause
says. That a teardown of partition 0 gives BAD_FIELD after its quorum, and what record 0x04 holds, are the model's choices
(notes/assumptions/57.md, notes/assumptions/23.md). -/
theorem partitionOpcodesComplete : Obligations.PartitionOpcodesComplete := by
  unfold Obligations.PartitionOpcodesComplete
  refine ⟨?create, ?modify, ?accessKey, ?enable, ?cachePolicy, ?query, ?queryRefused, ?teardown, ?teardownOwner⟩
  case create =>
    intro s i id c par p r h hquo hr hpar htear hdepth hid hrange hunder hp hcan
    change Host.Outcome.next (stewardRow s i 0x010 partCreate) = _
    rw [stewardRow_of_ready h, partCreate_of_fitting hquo hr hpar htear hdepth hid hrange hunder hp hcan]
  case modify =>
    intro s i c p r h hquo hr hp htear hrange howner hfits hcan
    change Host.Outcome.next (stewardRow s i 0x011 partModify) = _
    rw [stewardRow_of_ready h, partModify_of_fitting hquo hr hp htear hrange howner hfits hcan]
  case accessKey =>
    rintro s i c p _ h hquo hreach hp rfl hcan
    change Host.Outcome.next (stewardRow s i 0x014 partSetAccessKey) = _
    rw [stewardRow_of_ready h, partSetAccessKey_of_reach hquo hreach hp hcan]
  case enable =>
    rintro s i c p _ h hquo hp htear rfl hcan
    change Host.Outcome.next (stewardRow s i 0x015 partEnableOpcodes) = _
    rw [stewardRow_of_ready h, partEnableOpcodes_of_present hquo hp htear hcan]
  case cachePolicy =>
    rintro s i c p _ h hreach hp htear hmode rfl hcan
    change Host.Outcome.next (stewardRow s i 0x016 partSetCachePolicy) = _
    rw [stewardRow_of_ready h, partSetCachePolicy_of_reach hreach hp htear hmode hcan]
  case query =>
    intro s i c p h hreach hp
    change Host.Outcome.next (stewardRow s i 0x013 partQuery) = _
    rw [stewardRow_of_ready h, partQuery_of_reach hreach hp]
  case queryRefused =>
    intro s i c h hreach
    change Host.Outcome.next (stewardRow s i 0x013 partQuery) = _
    rw [stewardRow_of_ready h, partQuery_of_out_of_reach hreach]
  case teardown =>
    rintro s _ _ _ i _ c p _ h hquo hreach hp htear hn hcan rfl rfl rfl rfl rfl
    change Host.Outcome.next (stewardRow s i 0x012 partTeardown) = _
    rw [stewardRow_of_ready h, partTeardown_of_reach hquo hreach hp htear, if_neg hn, teardownStart_of_canCommit hcan]
    rfl
  case teardownOwner =>
    intro s i c p h hquo hadmin hp htear hn
    change Host.Outcome.next (stewardRow s i 0x012 partTeardown) = _
    rw [stewardRow_of_ready h, partTeardown_of_reach hquo (.inl hadmin) (hn ▸ hp) htear, if_pos hn]

end Sys2Proof.Machine
end

section
/-! PROOFS. The opcodes of queues (R44 to R48) and CMD_CANCEL (R77): turns, reach, then each opcode's own rule. -/

namespace Sys2Proof.Machine

open Sys2Proof

/-! ## Turns and reach -/

/-- A command whose turn has come, or that has made its transition, runs its body (R48). -/
theorem inTurn_of_turn {s : State} {c : Cmd} (h : c.idx = 0 → queueTurn s c = true) (body : State → Cmd → State) :
    inTurn body s c = body s c :=
  if_neg fun ⟨h0, hwait⟩ => by simp [h h0] at hwait

theorem inTurn_of_earlier {s : State} {c : Cmd} (h0 : c.idx = 0) (h : queueTurn s c = false)
    (body : State → Cmd → State) : inTurn body s c = s :=
  if_pos ⟨h0, by simp [h]⟩

section
variable {c : Cmd} {n : Nat}

/-- The admin path, or the queue itself. -/
theorem onQueue_of_reach (h : c.admin = true ∨ c.path = .queue n) : (c.admin || c.path == Path.queue n) = true := by
  simpa using h

theorem onQueue_of_other (hadmin : c.admin = false) (hpath : c.path ≠ .queue n) :
    (c.admin || c.path == Path.queue n) = false := by
  simpa [hadmin] using hpath

end

/-! ## Q_CREATE (R45) -/

/-- The ID of a new queue: the lowest free one for 0xFFFF, else the one asked for while it is free. -/
def newQueueId (s : State) (req : Nat) : Option Nat :=
  if req = 0xFFFF then firstFree (fun i => (s.queue? i).isNone) 16384 0
  else if req > 16383 ∨ (s.queue? req).isSome then none else some req

theorem newQueueId_eq_some {s : State} {req id : Nat}
    (hauto : req = 0xFFFF → firstFree (fun j => (s.queue? j).isNone) 16384 0 = some id)
    (hnamed : req ≠ 0xFFFF → req = id ∧ id ≤ 16383 ∧ s.queue? id = none) : newQueueId s req = some id := by
  unfold newQueueId
  by_cases h : req = 0xFFFF
  · rw [if_pos h, hauto h]
  · obtain ⟨rfl, hmax, hfree⟩ := hnamed h
    rw [if_neg h, if_neg (by simp [hfree, hmax])]

/-- The fields of a Q_CREATE are in range, and its reserved bytes are zero. -/
structure QueueFieldsOk (s : State) (c : Cmd) : Prop where
  fn : s.fnExists (c.inl 74 1) = true
  log2_pos : 1 ≤ c.inl 75 1
  log2_le : c.inl 75 1 ≤ 16
  vec : c.inl 76 2 < vectors (c.inl 74 1)
  intEn : c.inl 78 1 ≤ 1
  reserved79 : allZero (c.inlB 79 1) = true
  reserved96 : allZero (c.inlB 96 32) = true

/-- The rings of a Q_CREATE are aligned and end within 2^64. -/
structure QueueRingsOk (c : Cmd) : Prop where
  sq : c.inl 80 8 % 4096 = 0
  cq : c.inl 88 8 % 4096 = 0
  sqEnd : c.inl 80 8 + 128 * 2 ^ c.inl 75 1 ≤ 2 ^ 64
  cqEnd : c.inl 88 8 + 32 * 2 ^ c.inl 75 1 ≤ 2 ^ 64

/-- The queue that a Q_CREATE makes: UNBOUND and empty. -/
def newQueue (c : Cmd) (id k : Nat) : Queue :=
  { id := id, fn := c.inl 74 1, localIdx := k, log2 := c.inl 75 1, vec := c.inl 76 2, intEn := c.inl 78 1 == 1,
    sq := c.inl 80 8, cq := c.inl 88 8, bound := false, part := 0, sqHead := 0, sqTail := 0, cqHead := 0, cqTail := 0,
    phase := true, reading := 0, stopped := false, errDue := false, deleting := false }

theorem qCreate_of_valid {s : State} {c : Cmd} {id k : Nat} (hready : s.host.ready = true)
    (hid : newQueueId s (c.inl 72 2) = some id)
    (hk : firstFree (fun j => !(s.queues.filter (fun q => q.fn == c.inl 74 1)).any (fun q => q.localIdx == j)) 1024 0 = some k)
    (hfields : QueueFieldsOk s c) (hrings : QueueRingsOk c) :
    qCreate s c = okInline (({ s with queues := s.queues ++ [newQueue c id k] } : State).mirrorQueue id) c (toLe 2 id) := by
  obtain ⟨hfn, hlo, hhi, hvec, hie, hz79, hz96⟩ := hfields
  obtain ⟨hsq, hcq, hsqEnd, hcqEnd⟩ := hrings
  rw [newQueueId] at hid
  simp only [qCreate, hready, hid, hk, hfn, hz79, hz96, hsq, hcq, Nat.not_lt.mpr hlo, Nat.not_lt.mpr hhi,
    Nat.not_le.mpr hvec, Nat.not_lt.mpr hie, Nat.not_lt.mpr hsqEnd, Nat.not_lt.mpr hcqEnd, gt_iff_lt, ne_eq,
    Bool.not_true, Bool.false_eq_true, not_true, or_self, if_false, newQueue]

/-! ## Q_DELETE and Q_UNBIND (R48) -/

section
variable {s : State} {c : Cmd} {q : Queue} (hq : s.queue? (c.inl 72 2) = some q)
include hq

/-- The queue leaves BOUND at once, marked as being deleted, and is freed when no other command of it is left. -/
theorem qDelete_of_first (h0 : c.idx = 0) (hdel : q.deleting = false) :
    qDelete s c =
      let r := begun (s.modQueue (c.inl 72 2) (fun y => { y with deleting := true })) c (c.inl 72 2)
      if queueBusy r.1 r.2 (c.inl 72 2) then r.1 else (r.1.retireWith r.2 0 false false []).dropQueue (c.inl 72 2) := by
  simp only [qDelete, hq, h0, hdel, Bool.false_eq_true, and_false, if_false, if_true]

theorem qDelete_of_begun (h0 : c.idx ≠ 0) (hfree : queueBusy s c (c.inl 72 2) = false) :
    qDelete s c = (s.retireWith c 0 false false []).dropQueue (c.inl 72 2) := by
  simp only [qDelete, hq, h0, hfree, false_and, Bool.false_eq_true, if_false]

section
variable (hreach : c.admin = true ∨ c.path = .queue (c.inl 72 2))
include hreach

/-- The queue leaves BOUND at once, and the command completes when no other command of it is left. -/
theorem qUnbind_of_first (hbound : q.bound = true) (h0 : c.idx = 0) :
    qUnbind s c =
      let r := begun s c (c.inl 72 2)
      if queueBusy r.1 r.2 (c.inl 72 2) then r.1 else okInline r.1 r.2 [] := by
  simp only [qUnbind, onQueue_of_reach hreach, hq, h0, hbound, Bool.not_true, Bool.false_eq_true, and_false, if_false,
    if_true]

theorem qUnbind_of_begun (h0 : c.idx ≠ 0) (hfree : queueBusy s c (c.inl 72 2) = false) :
    qUnbind s c = okInline s c [] := by
  simp only [qUnbind, onQueue_of_reach hreach, hq, h0, hfree, Bool.not_true, Bool.false_eq_true, false_and, if_false]

theorem qQuery_of_reach (hmax : c.inl 72 2 ≤ 16383) :
    qQuery s c = okInline s c ([if q.bound then 2#8 else 1#8, byte q.fn] ++ toLe 2 q.part ++ [byte q.log2, 0#8] ++
      toLe 2 q.localIdx ++ toLe 2 q.sqHead ++ toLe 2 q.sqTail ++ toLe 2 q.cqHead ++ toLe 2 q.cqTail) := by
  simp only [qQuery, onQueue_of_reach hreach, hq, if_neg (Nat.not_lt.mpr hmax), Bool.not_true, Bool.false_eq_true, if_false]

end

/-! ## Q_BIND (R46, R47) -/

section
variable {st : Bytes} (hst : st = sl (c.own false) 0 32) (hbound : q.bound = false) (hdel : q.deleting = false)
include hst hbound hdel

/-- The statement's nonce is consumed before the verdict on it. -/
theorem qBind_of_refused {n : Nat} (hbad : bindReason s q st (sl (c.own false) 32 64) = some n) :
    qBind s c = failDetail (useNonce s (fieldLe st 12 2) (fieldLe st 16 8)) c (bindStatus s (fieldLe st 12 2) n) [byte n] := by
  subst hst
  simp only [qBind, hq, hbound, hdel, Bool.false_eq_true, or_self, if_false, hbad]

theorem qBind_of_signed (hok : bindReason s q st (sl (c.own false) 32 64) = none)
    (hroom : queueRoom (useNonce s (fieldLe st 12 2) (fieldLe st 16 8)) (fieldLe st 12 2) = true) :
    qBind s c = okInline (((useNonce s (fieldLe st 12 2) (fieldLe st 16 8)).modQueue q.id (fun x => { x with
      bound := true, part := fieldLe st 12 2, sqHead := 0, sqTail := 0, cqHead := 0, cqTail := 0, phase := true, reading := 0,
      stopped := false })).mirrorQueue q.id) c [] := by
  subst hst
  simp only [qBind, hq, hbound, hdel, Bool.not_true, Bool.false_eq_true, or_self, if_false, hok, hroom]

end

end

/-! ## Commands that do not reach the queue they name -/

section
variable {s : State} {c : Cmd} (hadmin : c.admin = false) (hpath : c.path ≠ .queue (c.inl 72 2))
include hadmin hpath

theorem qUnbind_of_other : qUnbind s c = s.retire c 0x2001 := by
  simp only [qUnbind, onQueue_of_other hadmin hpath, Bool.not_false, if_true]

theorem qQuery_of_other : qQuery s c = s.retire c 0x2001 := by
  simp only [qQuery, onQueue_of_other hadmin hpath, Bool.not_false, if_true]

theorem cmdCancel_of_other : cmdCancel s c = s.retire c 0x2001 := by
  simp only [cmdCancel, onQueue_of_other hadmin hpath, Bool.not_false, if_true]

end

/-! ## CMD_CANCEL (R77) -/

/-- A fetched entry that the command cancels. -/
def cancelHit (c : Cmd) (e : Fetched) : Bool := e.q == c.inl 72 2 && fieldLe e.entry 0 4 == c.inl 76 4 && !e.cancelled

/-- The commands in flight that the command cancels. -/
def cancelTargets (s : State) (c : Cmd) : List Cmd :=
  s.cmds.filter (fun x => x.place != c.place && x.path == Path.queue (c.inl 72 2) && x.tag == c.inl 76 4)

/-- A command of the tag has finished, or can no longer be aborted. -/
def cancelLate (s : State) (c : Cmd) : Bool :=
  (s.lk.held ++ s.d3held).any (fun h => h.path == Path.queue (c.inl 72 2) && fieldLe h.entry 0 4 == c.inl 76 4) ||
    (cancelTargets s c).any (tooLate s)

/-- The state once the entries are marked, those with a completion slot are answered, and the commands in flight are asked
to stop. -/
def cancelDone (s : State) (c : Cmd) : State :=
  (cancelTargets s c).foldl (fun t x => t.abort x)
    (({ s with fetched := updWhere (cancelHit c) (fun e => { e with cancelled := true }) s.fetched } : State).tryCancelled
      (c.inl 72 2) s.fetched.length)

theorem length_updWhere {α : Type} (p : α → Bool) (f : α → α) (l : List α) : (updWhere p f l).length = l.length :=
  List.length_map ..

/-- The inline result: 3 too late, 2 asked to stop, 1 not yet admitted, 0 nothing found. -/
def cancelCode (s : State) (c : Cmd) : Nat :=
  if cancelLate s c then 3 else if cancelTargets s c ≠ [] then 2 else if s.fetched.any (cancelHit c) then 1 else 0

theorem cmdCancel_of_reach {s : State} {c : Cmd} (hreach : c.admin = true ∨ c.path = .queue (c.inl 72 2)) :
    cmdCancel s c = okInline (cancelDone s c) c [byte (cancelCode s c)] := by
  simp only [cmdCancel, onQueue_of_reach hreach, Bool.not_true, Bool.false_eq_true, if_false, length_updWhere, cancelDone,
    cancelCode, cancelLate, cancelTargets, List.any_append]
  rfl

section
variable {s : State} {c : Cmd}

theorem cancelCode_of_late (late : cancelLate s c = true) : cancelCode s c = 3 := if_pos late

section
variable (late : cancelLate s c = false)
include late

theorem cancelCode_of_targets (h : cancelTargets s c ≠ []) : cancelCode s c = 2 := by
  rw [cancelCode, late, if_neg Bool.false_ne_true, if_pos h]

theorem cancelCode_of_no_target (h : cancelTargets s c = []) :
    cancelCode s c = if s.fetched.any (cancelHit c) then 1 else 0 := by
  rw [cancelCode, late, if_neg Bool.false_ne_true, if_neg (not_not.mpr h)]

end

end

/-! ## The statement -/

/-- Settles O45: the row of an opcode is its body when its turn has come; Q_DELETE and Q_UNBIND split on whether they have
begun and on whether their queue is busy, Q_BIND on the verdict on its statement, and CMD_CANCEL on what of the tag is left.
The status of a refused binding, and the layout of Q_QUERY, are the model's choices (notes/assumptions/60.md,
notes/assumptions/24.md). -/
theorem queueOpcodesComplete : Obligations.QueueOpcodesComplete := by
  unfold Obligations.QueueOpcodesComplete
  refine ⟨?create, ?delete, ?deleteBegun, ?earlier, ?bind, ?unbind, ?unbindBegun, ?query, ?other, ?cancel⟩
  case create =>
    rintro s i id k c _ h hturn hready hauto hnamed hk hfn hlo hhi hvec hie hz79 hz96 hsq hcq hsqEnd hcqEnd rfl
    change Host.Outcome.next (stewardRow s i 0x020 (inTurn qCreate)) = _
    rw [stewardRow_of_ready h, inTurn_of_turn (fun _ => hturn),
      qCreate_of_valid hready (newQueueId_eq_some hauto hnamed) hk ⟨hfn, hlo, hhi, hvec, hie, hz79, hz96⟩
        ⟨hsq, hcq, hsqEnd, hcqEnd⟩, newQueue]
  case delete =>
    rintro s _ i c _ q h hq h0 hturn hdel rfl rfl
    change (_ → Host.Outcome.next (stewardRow s i 0x021 (inTurn qDelete)) = _) ∧
      (_ → Host.Outcome.next (stewardRow s i 0x021 (inTurn qDelete)) = _)
    rw [stewardRow_of_ready h, inTurn_of_turn (fun _ => hturn), qDelete_of_first hq h0 hdel]
    exact ⟨fun free => congrArg _ (if_neg (ne_true_of_eq_false free)), fun busy => congrArg _ (if_pos busy)⟩
  case deleteBegun =>
    intro s i c q h hq h0 hfree
    change Host.Outcome.next (stewardRow s i 0x021 (inTurn qDelete)) = _
    rw [stewardRow_of_ready h, inTurn_of_turn (fun h => absurd h h0), qDelete_of_begun hq h0 hfree]
  case earlier =>
    intro s i c h0 hwait
    have unmoved {op : Nat} (h : StewardReady s i op c) (body : State → Cmd → State) :
        stewardRow s i op (inTurn body) = s :=
      (stewardRow_of_ready h _).trans (inTurn_of_earlier h0 hwait body)
    exact ⟨fun h => congrArg _ (unmoved h qCreate), fun h => congrArg _ (unmoved h qDelete),
      fun h => congrArg _ (unmoved h qBind), fun h => congrArg _ (unmoved h qUnbind)⟩
  case bind =>
    rintro s _ i _ c q st h hst rfl hq hbound hdel hturn rfl hroom
    change Host.Outcome.next (stewardRow s i 0x022 (inTurn qBind)) = _
    rw [stewardRow_of_ready h, inTurn_of_turn (fun _ => hturn)]
    cases verdict : bindReason s q st (sl (c.own false) 32 64) with
    | none => rw [qBind_of_signed hq hst hbound hdel verdict hroom, Option.elim_none]
    | some n => rw [qBind_of_refused hq hst hbound hdel verdict, Option.elim_some, bindStatus]
  case unbind =>
    rintro s _ i c _ q h hadmin hq hbound h0 hturn rfl rfl
    change (_ → Host.Outcome.next (stewardRow s i 0x023 (inTurn qUnbind)) = _) ∧
      (_ → Host.Outcome.next (stewardRow s i 0x023 (inTurn qUnbind)) = _)
    rw [stewardRow_of_ready h, inTurn_of_turn (fun _ => hturn), qUnbind_of_first hq (.inl hadmin) hbound h0]
    exact ⟨fun free => congrArg _ (if_neg (ne_true_of_eq_false free)), fun busy => congrArg _ (if_pos busy)⟩
  case unbindBegun =>
    intro s i c q h hadmin hq h0 hfree
    change Host.Outcome.next (stewardRow s i 0x023 (inTurn qUnbind)) = _
    rw [stewardRow_of_ready h, inTurn_of_turn (fun h => absurd h h0), qUnbind_of_begun hq (.inl hadmin) h0 hfree]
  case query =>
    intro s i c q h hadmin hmax hq
    change Host.Outcome.next (stewardRow s i 0x024 qQuery) = _
    rw [stewardRow_of_ready h, qQuery_of_reach hq (.inl hadmin) hmax]
  case other =>
    intro s i c
    refine ⟨fun h hturn hadmin hpath => ?_, fun h hadmin hpath => ?_, fun h hadmin hpath => ?_⟩
    · change Host.Outcome.next (stewardRow s i 0x023 (inTurn qUnbind)) = _
      rw [stewardRow_of_ready h, inTurn_of_turn (fun _ => hturn), qUnbind_of_other hadmin hpath]
    · change Host.Outcome.next (stewardRow s i 0x024 qQuery) = _
      rw [stewardRow_of_ready h, qQuery_of_other hadmin hpath]
    · change Host.Outcome.next (stewardRow s i 0x026 cmdCancel) = _
      rw [stewardRow_of_ready h, cmdCancel_of_other hadmin hpath]
  case cancel =>
    rintro s _ _ i c _ hit _ h hreach hhit rfl rfl rfl rfl
    obtain rfl : hit = cancelHit c := funext hhit
    have run {n : Nat} (hn : cancelCode s c = n) :
        exec (.cmdCancel i) s = .next (okInline (cancelDone s c) c [byte n]) := by
      change Host.Outcome.next (stewardRow s i 0x026 cmdCancel) = _
      rw [stewardRow_of_ready h, cmdCancel_of_reach hreach, hn]
    exact ⟨fun late => run (cancelCode_of_late late), fun late targets => run (cancelCode_of_targets late targets),
      fun late noTarget entry => run ((cancelCode_of_no_target late noTarget).trans (if_pos entry)),
      fun late noTarget noEntry =>
        run ((cancelCode_of_no_target late noTarget).trans (if_neg (ne_true_of_eq_false noEntry)))⟩

end Sys2Proof.Machine
end

section
/-! PROOFS. The mailbox (R78, R80, R81) and the admission slot (R52, R54). -/

namespace Sys2Proof.Machine

open Sys2Proof

/-! ## Writes and reads of a mailbox's registers -/

@[simp] theorem State.mbx_setMbx (s : State) (m : Mbx) : (s.setMbx m).mbx m.fn = m := by
  simp [State.mbx, State.setMbx]

section
variable {s : State} {fn value : Nat} {m : Mbx}
  (hm : m = (if fn = 0 then s.mbx fn else { s.mbx fn with ie := bit value 2 }))
include hm

/-- A write of IE leaves the state of the mailbox. -/
theorem mbx_state_of_ie : (s.mbx fn).state = m.state := by
  subst hm
  split
  case isTrue => rfl
  case isFalse => rfl

theorem mbxCtrl_of_go (hgo : bit value 0 = true) (hack : bit value 1 = false) :
    mbxCtrl fn value s = mbxStart fn m (s.setMbx m) := by
  subst hm
  simp only [mbxCtrl, hgo, hack, if_true, Bool.false_and, Bool.false_eq_true, if_false]

section
variable (hgo : bit value 0 = false)
include hgo

theorem mbxCtrl_of_ack_done (hack : bit value 1 = true) (hst : m.state = 2) (hfn : m.fn = fn) :
    mbxCtrl fn value s = (s.setMbx m).setMbx { m with state := 0, result := zeros 32, data := [] } := by
  have done : (bit value 1 && (s.mbx fn).state == 2) = true := by simp [hack, mbx_state_of_ie hm, hst]
  have stored : (s.setMbx m).mbx fn = m := hfn ▸ s.mbx_setMbx m
  simp only [mbxCtrl, hgo, ← hm, done, mbxAck, stored, hst, Bool.false_eq_true, if_false, if_true]

theorem mbxCtrl_of_ack_early (hst : m.state ≠ 2) : mbxCtrl fn value s = s.setMbx m := by
  have early : (bit value 1 && (s.mbx fn).state == 2) = false := by simp [mbx_state_of_ie hm, hst]
  simp only [mbxCtrl, hgo, ← hm, early, Bool.false_eq_true, if_false]

end

end

section
variable {s : State} {fn value : Nat} (hup : s.hostUp = true) (hfn : s.fnExists fn = true)
include hup hfn

theorem exec_mbxGo_of_reachable (hgo : bit value 0 = true) : exec (.mbxGo fn value) s = .next (mbxCtrl fn value s) :=
  congrArg _ (if_pos (by simp [hup, hfn, hgo]))

theorem exec_mbxAck_of_reachable (hack : bit value 1 = true) : exec (.mbxAck fn value) s = .next (mbxCtrl fn value s) :=
  congrArg _ (if_pos (by simp [hup, hfn, hack]))

theorem exec_mbxStatusRead_of_reachable : exec (.mbxStatusRead fn) s =
    .next ((s.setMbx { s.mbx fn with readcnt := min ((s.mbx fn).readcnt + 1) 0xFFFF }).send
      (.barRead fn 0x1084 (s.mbx fn).status)) :=
  congrArg _ (if_pos (by simp [hup, hfn]))

end

/-! ## Admission from the mailbox (R80) -/

section
variable {s : State} {m : Mbx} (hserv : mbxServable s m = true)
include hserv

theorem admitMbx_of_place {p : Place} (hloom : noLoom s (fieldLe m.entry 4 2 % 1024) = false)
    (hp : freePlace s (fieldLe m.entry 4 2 % 1024) = some p) :
    admitMbx s m = admitEntry (s.setMbx { m with waiting := false }) p (.mailbox m.fn) m.fn 0 m.entry := by
  simp only [admitMbx, hserv, hloom, hp, Bool.not_true, Bool.false_eq_true, if_false]

/-- With no loom in service, an entry that passes the checks that need no shed is asked to come again. -/
theorem admitMbx_of_noLoom {c : Cmd} (hloom : noLoom s (fieldLe m.entry 4 2 % 1024) = true)
    (hc : c = freshCmd s (.ctx 0) (.mailbox m.fn) m.fn 0 m.entry) (hst : entryStatus s c = none)
    (hres : reservedBits c = false) :
    admitMbx s m = (s.setMbx { m with waiting := false }).refuseEntry (.mailbox m.fn) m.fn 0 m.entry 0x5001 := by
  simp only [admitMbx, hserv, hloom, Bool.not_true, Bool.false_eq_true, if_false, if_true, ← hc, hst, Option.getD_none,
    noteReserved, hres, Bool.and_false]

end

/-! ## The admission slot (R52) -/

/-- The state whose token buckets one slot has filled (R54). -/
def State.slotFilled (s : State) : State := { s with parts := s.parts.map (fillTokens s.looms) }

theorem schedAdmit_of_closed {s : State} (h : admitOpen s.slotFilled = false) : schedAdmit s = s.slotFilled :=
  if_pos (congrArg _ h)

section
variable {s : State} (hopen : admitOpen s.slotFilled = true)
include hopen

theorem schedAdmit_of_mailbox {m : Mbx} (hm : waitingMbx s.slotFilled = some m) :
    schedAdmit s = admitMbx s.slotFilled m := by
  rw [State.slotFilled] at hopen hm ⊢
  simp only [schedAdmit, hopen, hm, Bool.not_true, Bool.false_eq_true, if_false]

section
variable (hm : waitingMbx s.slotFilled = none)
include hm

theorem schedAdmit_of_guaranteed {e : Fetched} (hg : guaranteed s.slotFilled = some e) :
    schedAdmit s = admitFetched { s.slotFilled with
      sched := { s.slotFilled.sched with lastGuar := e.part }
      parts := setPart s.slotFilled.parts e.part (fun y => { y with lastQ := e.q }) } e := by
  rw [State.slotFilled] at hopen hm hg ⊢
  simp only [schedAdmit, hopen, hm, hg, Bool.not_true, Bool.false_eq_true, if_false]

section
variable (hg : guaranteed s.slotFilled = none)
include hg

theorem schedAdmit_of_weighted {e : Fetched} {ps : List Part} (hw : weighted s.slotFilled = some (e, ps)) :
    schedAdmit s = admitFetched { s.slotFilled with parts := ps } e := by
  rw [State.slotFilled] at hopen hm hg hw ⊢
  simp only [schedAdmit, hopen, hm, hg, hw, Bool.not_true, Bool.false_eq_true, if_false]

theorem schedAdmit_of_nothing (hw : weighted s.slotFilled = none) : schedAdmit s = s.slotFilled := by
  rw [State.slotFilled] at hopen hm hg hw ⊢
  simp only [schedAdmit, hopen, hm, hg, hw, Bool.not_true, Bool.false_eq_true, if_false]

end

end

end

theorem admitFetched_of_place {s : State} {e : Fetched} {q : Queue} {p : Place} (hq : s.queue? e.q = some q)
    (hp : freePlace s (fieldLe e.entry 4 2 % 1024) = some p) :
    admitFetched s e = admitEntry { s with fetched := s.fetched.erase e } p (.queue e.q) q.fn e.part e.entry := by
  simp only [admitFetched, hq, hp, dropFetched]

/-! ## The statement -/

/-- Settles O18: a write of MBX_CTRL splits on GO, ACK and the state of the mailbox, and an admission slot on the first of
its three sources that offers an entry. That a slot is what fills the buckets is the model's choice
(notes/assumptions/12.md). -/
theorem mailboxAndAdmissionComplete : Obligations.MailboxAndAdmissionComplete := by
  unfold Obligations.MailboxAndAdmissionComplete
  refine ⟨?start, ?refused, ?ack, ?ackEarly, ?status, ?mailbox, ?noLoom, ?slot, ?fetched, ?entry⟩
  case start =>
    rintro s _ fn value m hup hfn hgo hack hm hst rfl
    rw [exec_mbxGo_of_reachable hup hfn hgo, mbxCtrl_of_go hm hgo hack, mbxStart, if_pos hst]
    refine ⟨fun closed => congrArg _ (if_neg ?_), fun hopen hnext => congrArg _ (if_pos ⟨hopen, hnext⟩)⟩
    rintro ⟨hopen, hnext⟩
    rcases closed with h | h
    · exact Bool.false_ne_true (h.symm.trans hopen)
    · exact h hnext
  case refused =>
    intro s fn value m hup hfn hgo hack hm hst
    rw [exec_mbxGo_of_reachable hup hfn hgo, mbxCtrl_of_go hm hgo hack, mbxStart, if_neg hst]
  case ack =>
    intro s fn value m hup hfn hgo hack hm hst hmfn
    rw [exec_mbxAck_of_reachable hup hfn hack, mbxCtrl_of_ack_done hm hgo hack hst hmfn]
  case ackEarly =>
    intro s fn value m hup hfn hgo hack hm hst
    rw [exec_mbxAck_of_reachable hup hfn hack, mbxCtrl_of_ack_early hm hgo hst]
  case status => exact fun s fn hup hfn => exec_mbxStatusRead_of_reachable hup hfn
  case mailbox => exact fun s m p hserv hloom hp => admitMbx_of_place hserv hloom hp
  case noLoom => exact fun s m c hserv hloom hc hst hres => admitMbx_of_noLoom hserv hloom hc hst hres
  case slot =>
    rintro s _ rfl
    change (_ → Host.Outcome.next (schedAdmit s) = _) ∧ (∀ m, _ → _ → Host.Outcome.next (schedAdmit s) = _) ∧
      (∀ e, _ → _ → _ → Host.Outcome.next (schedAdmit s) = _) ∧
      (∀ e ps, _ → _ → _ → _ → Host.Outcome.next (schedAdmit s) = _) ∧
      (_ → _ → _ → _ → Host.Outcome.next (schedAdmit s) = _)
    exact ⟨fun closed => congrArg _ (schedAdmit_of_closed closed),
      fun m hopen hm => congrArg _ (schedAdmit_of_mailbox hopen hm),
      fun e hopen hm hg => congrArg _ (schedAdmit_of_guaranteed hopen hm hg),
      fun e ps hopen hm hg hw => congrArg _ (schedAdmit_of_weighted hopen hm hg hw),
      fun hopen hm hg hw => congrArg _ (schedAdmit_of_nothing hopen hm hg hw)⟩
  case fetched => exact fun s e q p hq hp => admitFetched_of_place hq hp
  case entry => exact fun s p path fn part entry => rfl

end Sys2Proof.Machine
end

section
/-! PROOFS. Power states and resets of functions (R49, R85), and the PCI Express link and its configuration requests (R84,
Table 01.8). -/

namespace Sys2Proof.Machine

open Sys2Proof

/-! ## Power states (R85) -/

theorem exec_functionD3hotEntry_of_awake {s : State} {fn : Nat} (hfn : s.fnExists fn = true)
    (h : s.host.d3.contains fn = false) :
    exec (.functionD3hotEntry fn) s = .next { s with host := { s.host with d3 := fn :: s.host.d3 } } :=
  congrArg _ (if_pos (by rw [hfn, h]; rfl))

theorem exec_functionD0Return_of_asleep {s : State} {fn : Nat} (h : s.host.d3.contains fn = true) :
    exec (.functionD0Return fn) s = .next (d0Return fn s) :=
  congrArg _ (if_pos h)

theorem filter_ne_of_forall_ne {α : Type} {l : List α} {f : α → Nat} {fn : Nat} (h : ∀ x ∈ l, f x ≠ fn) :
    l.filter (fun x => f x != fn) = l :=
  List.filter_eq_self.mpr (fun x hx => bne_iff_ne.mpr (h x hx))

theorem filter_eq_nil_of_forall_ne {α : Type} {l : List α} {f : α → Nat} {fn : Nat} (h : ∀ x ∈ l, f x ≠ fn) :
    l.filter (fun x => f x == fn) = [] :=
  List.filter_eq_nil_iff.mpr (fun x hx => by simp [h x hx])

/-- A function that holds no completion and has no queue only leaves the list of sleeping functions. -/
theorem d0Return_of_quiet {s : State} {fn : Nat} (hheld : ∀ h ∈ s.d3held, h.fn ≠ fn) (hq : ∀ q ∈ s.queues, q.fn ≠ fn) :
    d0Return fn s = { s with host := { s.host with d3 := s.host.d3.filter (fun f => f != fn) } } := by
  simp only [d0Return, filter_eq_nil_of_forall_ne hheld, filter_ne_of_forall_ne hheld, State.deliverAll,
    filter_eq_nil_of_forall_ne hq, List.foldl_nil]

/-! ## Resets of virtual functions (R49) -/

theorem exec_vfFlr_of_virtual {s : State} {fn : Nat} (h0 : fn ≠ 0) (hfn : s.fnExists fn = true) :
    exec (.vfFlr fn) s = .next (s.resetVf fn) :=
  congrArg _ (if_pos ⟨h0, hfn⟩)

theorem updWhere_of_none {α : Type} {p : α → Bool} {l : List α} (f : α → α) (h : ∀ x ∈ l, p x = false) :
    updWhere p f l = l :=
  (List.map_congr_left (fun x hx => by simp [h x hx])).trans (List.map_id l)

theorem State.abortWhere_of_none {s : State} {p : Cmd → Bool} (h : ∀ c ∈ s.cmds, p c = false) : s.abortWhere p = s := by
  have noTarget : s.cmds.filter p = [] := List.filter_eq_nil_iff.mpr (fun c hc => by simp [h c hc])
  rw [State.abortWhere, noTarget, List.foldl_nil]

/-- The reset of a function that has no queue, no command and no completion clears its mailbox and its configuration. -/
theorem State.resetVf_of_quiet {s : State} {fn : Nat} (hq : ∀ q ∈ s.queues, q.fn ≠ fn) (hc : ∀ c ∈ s.cmds, c.fn ≠ fn)
    (hheld : ∀ h ∈ s.lk.held, h.fn ≠ fn) (hd3 : ∀ h ∈ s.d3held, h.fn ≠ fn) :
    s.resetVf fn = { s.setMbx (Mbx.idle fn) with
      host := { (s.setMbx (Mbx.idle fn)).host with
        bme := s.host.bme.filter (fun f => f != fn), relaxed := s.host.relaxed.filter (fun f => f != fn)
        d3 := s.host.d3.filter (fun f => f != fn), msixEn := s.host.msixEn.filter (fun f => f != fn)
        msixMask := s.host.msixMask.filter (fun f => f != fn), msix := s.host.msix.filter (fun e => e.fn != fn)
        pba := s.host.pba.filter (fun p => p.1 != fn) } } := by
  have noCmd (c : Cmd) (h : c ∈ s.cmds) : (c.fn == fn) = false := by simp [hc c h]
  simp only [State.resetVf, filter_eq_nil_of_forall_ne hq, List.map_nil, List.foldl_nil, updWhere_of_none _ noCmd,
    filter_ne_of_forall_ne hheld, filter_ne_of_forall_ne hd3, State.abortWhere_of_none noCmd]
  rfl

theorem exec_vfEnableClear_of_enabled {s : State} (h : s.host.vfEnable = true) :
    exec .vfEnableClear s = .next (vfEnableClear s) :=
  congrArg _ (if_pos h)

/-! ## The link and its configuration requests (R84, Table 01.8) -/

theorem exec_pcieLinkUp_of_training {s : State} (h : s.host.training = true) :
    exec .pcieLinkUp s = .next { s with host := { s.host with training := false, linkUp := true } } :=
  congrArg _ (if_pos h)

theorem cfgRequest_of_link_down {s : State} (ht : s.host.training = false) (hl : s.host.linkUp = false) (r : CfgReq) :
    cfgRequest r s = s :=
  if_pos (by simp [ht, hl])

section
variable {s : State} (hlink : s.host.training = true ∨ s.host.linkUp = true)
include hlink

/-- A request reaches the device. -/
theorem cfgRequest_reaches : ¬ (!s.host.training && !s.host.linkUp) = true := by
  simpa [Decidable.or_iff_not_imp_left] using hlink

theorem cfgRequest_of_malformed :
    cfgRequest .malformed s = { s with host := { s.host with aer := s.host.aer ||| aerMalformed } } := by
  simp only [cfgRequest, if_neg (cfgRequest_reaches hlink), if_true]

/-- Before step 11 a read is answered with a retry. -/
theorem cfgRequest_of_read_early (hstep : s.sys.step < 11) (fn : Nat) (i : CfgItem) :
    cfgRequest (.read fn i) s = s.send (.retry 0) := by
  simp only [cfgRequest, if_neg (cfgRequest_reaches hlink), if_pos hstep, reduceCtorEq, if_false]

section
variable (hstep : 11 ≤ s.sys.step)
include hstep

theorem cfgRequest_of_writeNumVfs {n : Nat} (hn : n ≤ 255) (hvf : s.host.vfEnable = false) :
    cfgRequest (.writeNumVfs n) s = { s with host := { s.host with numVfs := n } } := by
  have admitted : ¬ (n > 255 ∨ s.host.vfEnable = true) := by simp [hvf, hn]
  simp only [cfgRequest, if_neg (cfgRequest_reaches hlink), if_neg (Nat.not_lt.mpr hstep), if_neg admitted, reduceCtorEq,
    if_false]

/-- Every other request of the clause changes the field it names, whatever the field held. -/
theorem cfgRequest_of_up :
    (cfgRequest (.writeVfEnable true) s = { s with host := { s.host with vfEnable := true } }) ∧
    (∀ v, cfgRequest (.writeSysPageSize v) s =
      { s with host := { s.host with sysPage := if v = 0x10 then 0x10 else 1 } }) ∧
    (∀ fn on, cfgRequest (.writeBusMaster fn on) s = { s with host := { s.host with
      bme := if on then fn :: s.host.bme.filter (fun f => f != fn) else s.host.bme.filter (fun f => f != fn) } }) ∧
    (∀ fn on, cfgRequest (.writeRelaxed fn on) s = { s with host := { s.host with
      relaxed := if on then fn :: s.host.relaxed.filter (fun f => f != fn)
        else s.host.relaxed.filter (fun f => f != fn) } }) ∧
    (∀ fn i, cfgRequest (.read fn i) s = s.send (.cfgRead (cfgItem s.host fn i))) ∧
    (∀ v, cfgRequest (.clearAer v) s = { s with host := { s.host with aer := s.host.aer &&& ~~~BitVec.ofNat 32 v } }) := by
  simp only [cfgRequest, if_neg (cfgRequest_reaches hlink), if_neg (Nat.not_lt.mpr hstep), reduceCtorEq, if_false, if_true,
    implies_true, and_self]

/-- A function whose MSI-X is disabled has no pending message to send. -/
theorem cfgRequest_of_msix_disabled (fn : Nat) :
    cfgRequest (.writeMsixCtrl fn false true) s = { s with host := { s.host with
      msixEn := s.host.msixEn.filter (fun f => f != fn), msixMask := fn :: s.host.msixMask.filter (fun f => f != fn) } } := by
  have keepAll : s.host.pba.filter (fun p => !([] : List (Nat × Nat)).contains p) = s.host.pba :=
    List.filter_eq_self.mpr (fun _ _ => rfl)
  simp only [cfgRequest, if_neg (cfgRequest_reaches hlink), if_neg (Nat.not_lt.mpr hstep), reduceCtorEq, if_false, if_true,
    Bool.false_and, Bool.false_eq_true, keepAll, List.foldl_nil]

end

end

/-! ## The statement -/

/-- Settles O19: each row is the operation of its name behind the guard that the clause's conditions decide; a function
with nothing in flight makes the folds over queues, commands and held completions empty. That completions of a function in
D3hot wait in the device, and the bits of AER, are the model's readings (notes/assumptions/35.md, notes/assumptions/62.md). -/
theorem functionsAndLinkComplete : Obligations.FunctionsAndLinkComplete := by
  unfold Obligations.FunctionsAndLinkComplete
  refine ⟨?sleep, ?wakeQuiet, ?wake, ?flr, ?resetQuiet, ?clear, ?linkUp, ?linkDown, ?retry, ?configured⟩
  case sleep => exact fun s fn hfn h => exec_functionD3hotEntry_of_awake hfn h
  case wakeQuiet =>
    intro s fn h hheld hq
    rw [exec_functionD0Return_of_asleep h, d0Return_of_quiet hheld hq]
  case wake =>
    rintro s _ fn h rfl
    rw [exec_functionD0Return_of_asleep h, d0Return]
  case flr => exact fun s fn h0 hfn => exec_vfFlr_of_virtual h0 hfn
  case resetQuiet => exact fun s fn hq hc hheld hd3 => State.resetVf_of_quiet hq hc hheld hd3
  case clear =>
    rintro s _ h rfl
    rw [exec_vfEnableClear_of_enabled h, vfEnableClear]
  case linkUp => exact fun s h => exec_pcieLinkUp_of_training h
  case linkDown => exact fun s r ht hl => congrArg _ (cfgRequest_of_link_down ht hl r)
  case retry => exact fun s fn i hlink hstep => congrArg _ (cfgRequest_of_read_early hlink hstep fn i)
  case configured =>
    intro s hlink hstep
    obtain ⟨vfEnable, pageSize, busMaster, relaxed, read, clearAer⟩ := cfgRequest_of_up hlink hstep
    exact ⟨fun n hn hvf => congrArg _ (cfgRequest_of_writeNumVfs hlink hstep hn hvf), congrArg _ vfEnable,
      fun v => congrArg _ (pageSize v), fun fn => congrArg _ (busMaster fn true), fun fn => congrArg _ (busMaster fn false),
      fun fn => congrArg _ (relaxed fn true), fun fn => congrArg _ (cfgRequest_of_msix_disabled hlink hstep fn),
      fun fn i => congrArg _ (read fn i), fun v => congrArg _ (clearAer v), congrArg _ (cfgRequest_of_malformed hlink)⟩

end Sys2Proof.Machine
end

section
/-! PROOFS. The ends of waiting: the abort point of a teardown and the drain's timeout (R50, R292, R328), the expiry of a
nonce (R261), and the verdict on a quorum (R262, R264, R268). -/

namespace Sys2Proof.Machine

open Sys2Proof

/-! ## Teardowns, drains and nonces -/

theorem abortPoint_of_due {s : State} {p : Nat} {t : Tear}
    (ht : s.tears.find? (fun x => x.cur == p && x.step == 3) = some t) :
    abortPoint p s =
      let s1 := s.abortWhere (fun c => some c.place != t.who && c.part == p)
      setTear { s1 with kc := { s1.kc with walks := s1.kc.walks ++ [{ parts := [p], who := none, teardown := some t.root }] } }
        t.root 4 := by
  simp only [abortPoint, ht]

theorem drainTimeout_of_draining {s : State} (h : s.sys.drainStop = true) :
    drainTimeout s = s.abortWhere (fun c => !(c.phase == .waitOtp) && !(c.phase == .waitSwitch)) :=
  if_neg (by simp [h])

theorem drainTimeout_of_open {s : State} (h : s.sys.drainStop = false) : drainTimeout s = s :=
  if_pos (by simp [h])

/-- 1,200,000 ms have passed since the nonce was issued, and it is gone. -/
theorem nonceExpiry_of_issued {s : State} {p v : Nat} {n : Nonce}
    (hn : s.qr.nonces.find? (fun n => n.part == p && n.value == v) = some n) :
    nonceExpiry p v s = useNonce (s.timeAtLeast (n.time + 1200000)) p v := by
  simp only [nonceExpiry, hn]

/-! ## Verdicts -/

theorem verifyQuorum_of_no_set {d : Demand} {s : State} (h : d.sets.any (setMeets s d) = false) (c : Cmd) :
    verifyQuorum s c d = (s, .error (1, 0xFF)) :=
  if_pos (by simp only [h, Bool.not_false, true_or])

section
variable {s : State} {p : Place} {c : Cmd} (hc : s.cmd? p = some c) (hnext : quorumNext s = some p)
include hc hnext

/-- The verification of a command that is not being aborted ends with its verdict: one that had begun, or one that nothing
holds back. -/
theorem quorumVerifyDone_of_verified {r : State} {v : Except (Nat × Nat) (Nat × Nat)}
    (hbegun : s.qr.verifying = some p ∨ custSetOpen s c (demandOf s c) = false ∧ partGone s c = false)
    (hab : c.abort = false) (hv : verifyQuorum s c (demandOf s c) = (r, v)) :
    quorumVerifyDone p s = beginVerify (({ r with qr := { r.qr with
      waiting := r.qr.waiting.filter (fun x => x != p) } } : State).quorumEnds c (demandOf s c) v) := by
  have inTime : ¬ (quorumNext s ≠ some p ∨ (s.qr.verifying ≠ some p ∧ custSetOpen s c (demandOf s c) = true)) := by
    rintro (h | ⟨hidle, hopen⟩)
    · exact h hnext
    · rcases hbegun with h | ⟨h, -⟩
      · exact hidle h
      · exact Bool.false_ne_true (h.symm.trans hopen)
  have present : ¬ (s.qr.verifying ≠ some p ∧ partGone s c = true) := by
    rintro ⟨hidle, hgone⟩
    rcases hbegun with h | ⟨-, h⟩
    · exact hidle h
    · exact Bool.false_ne_true (h.symm.trans hgone)
  simp only [quorumVerifyDone, hc, if_neg inTime, if_neg present, hv, if_neg (ne_true_of_eq_false hab)]
  cases v with
  | error x => rfl
  | ok x => rfl

/-- A command whose partition has gone before its verification begins ends without one (R264). -/
theorem quorumVerifyDone_of_gone (hidle : s.qr.verifying ≠ some p) (hopen : custSetOpen s c (demandOf s c) = false)
    (hgone : partGone s c = true) :
    quorumVerifyDone p s = beginVerify (partGoneFail { s with qr := { s.qr with
      waiting := s.qr.waiting.filter (fun x => x != p) } } c) := by
  have inTime : ¬ (quorumNext s ≠ some p ∨ (s.qr.verifying ≠ some p ∧ custSetOpen s c (demandOf s c) = true)) := by
    simp [hnext, hopen]
  simp only [quorumVerifyDone, hc, if_neg inTime, if_pos (And.intro hidle hgone)]

end

/-! ## The statement -/

/-- Settles O22: each row is the operation of its name, which finds what it waits for; a quorum's row splits on whether its
verification had begun and on the verdict. That the target is looked up again as the verification begins, and that the
expiry of a nonce moves the operating time, are the model's readings (notes/assumptions/41.md, notes/assumptions/55.md). -/
theorem teardownAndQuorumEventsComplete : Obligations.TeardownAndQuorumEventsComplete := by
  unfold Obligations.TeardownAndQuorumEventsComplete
  refine ⟨?abortPoint, ?drainOver, ?noDrain, ?expiry, ?verified, ?gone, ?noSet⟩
  case abortPoint =>
    rintro s _ p t ht rfl
    change Host.Outcome.next (abortPoint p s) = _
    rw [abortPoint_of_due ht]
    rfl
  case drainOver => exact fun s h => congrArg _ (drainTimeout_of_draining h)
  case noDrain => exact fun s h => congrArg _ (drainTimeout_of_open h)
  case expiry => exact fun s p v n hn => congrArg _ (nonceExpiry_of_issued hn)
  case verified =>
    intro s r p c v hc hnext hbegun hab hv
    exact congrArg _ (quorumVerifyDone_of_verified hc hnext hbegun hab hv)
  case gone =>
    intro s p c hc hnext hidle hopen hgone
    exact congrArg _ (quorumVerifyDone_of_gone hc hnext hidle hopen hgone)
  case noSet => exact fun s c d h => verifyQuorum_of_no_set h c

end Sys2Proof.Machine
end

section
/-! PROOFS. Doorbells and ring fetches (R59 to R62), and the accesses of host memory that fail or are answered (R67, R68,
R85, Table 03.14). -/

namespace Sys2Proof.Machine

open Sys2Proof

/-! ## Doorbell writes (R59) -/

theorem exec_doorbellSqTail_of_tail_half {off : Nat} (h : off % 8 < 4) (fn size v : Nat) (s : State) :
    exec (.doorbellSqTail fn off size v) s = .next (doorbell fn off size v s) :=
  congrArg _ (if_pos h)

theorem exec_doorbellCqHead_of_head_half {off : Nat} (h : 4 ≤ off % 8) (fn size v : Nat) (s : State) :
    exec (.doorbellCqHead fn off size v) s = .next (doorbell fn off size v s) :=
  congrArg _ (if_pos h)

/-- The row named by the half that the first byte falls in is a doorbell write. -/
theorem exec_doorbell (fn off size v : Nat) (s : State) :
    exec (if off % 8 < 4 then .doorbellSqTail fn off size v else .doorbellCqHead fn off size v) s =
      .next (doorbell fn off size v s) := by
  split
  case isTrue h => exact exec_doorbellSqTail_of_tail_half h fn size v s
  case isFalse h => exact exec_doorbellCqHead_of_head_half (Nat.not_lt.mp h) fn size v s

/-- A queue is found only at an offset of a doorbell pair. -/
theorem pairIndex_isNone_of_pairQueue {s : State} {fn off : Nat} {q : Queue} (h : pairQueue s fn off = some q) :
    (pairIndex fn off).isNone = false := by
  cases hi : pairIndex fn off with
  | none => simp [pairQueue, hi] at h
  | some i => rfl

section
variable {s : State} {fn off i : Nat} (hi : pairIndex fn off = some i)
include hi

theorem doorbell_of_misfit {size : Nat} (h4 : size = 4 → off % 4 ≠ 0) (h8 : size = 8 → off % 8 ≠ 0) (v : Nat) :
    doorbell fn off size v s = s.violation 0x0B03 fn ((pairQueue s fn off).map (fun x => x.id)) off (v % 2 ^ 32) := by
  have misfit : ((size == 4 && off % 4 == 0) || (size == 8 && off % 8 == 0)) = false := by
    simpa using And.intro h4 h8
  simp only [doorbell, hi, misfit, Option.isNone_some, Bool.false_eq_true, Bool.not_false, if_false, if_true]

theorem doorbell_of_unassigned (hq : pairQueue s fn off = none) (h4 : off % 4 = 0) (v : Nat) :
    doorbell fn off 4 v s = s.violation 0x0B01 fn none off (v % 2 ^ 32) := by
  simp [doorbell, hi, hq, h4]

end

section
variable {s : State} {fn off : Nat} {q : Queue} (hq : pairQueue s fn off = some q)
include hq

theorem doorbell_of_closed (hclosed : q.bound = false ∨ s.active = false) (h4 : off % 4 = 0) (v : Nat) :
    doorbell fn off 4 v s = s.violation 0x0B02 fn (some q.id) off (v % 2 ^ 32) := by
  have refused : (!q.bound) = true ∨ (!s.active) = true := by simpa using hclosed
  simp only [doorbell, pairIndex_isNone_of_pairQueue hq, hq, h4, if_pos refused, Option.map_some, beq_self_eq_true,
    Bool.and_self, Bool.true_or, Bool.not_true, Bool.false_eq_true, if_false]

section
variable (hbound : q.bound = true) (hactive : s.active = true)
include hbound hactive

/-- A 4-byte write at an aligned offset is one half of the pair. -/
theorem doorbell_of_half {v : Nat} (h4 : off % 4 = 0) (hv : v < 2 ^ 32) :
    doorbell fn off 4 v s = if off % 8 = 0 then writeSqTail s q fn off v v else writeCqHead s q fn off v v := by
  simp [doorbell, pairIndex_isNone_of_pairQueue hq, hq, h4, hbound, hactive, Nat.mod_eq_of_lt hv, -Nat.reducePow]

/-- An 8-byte write is both halves, the submission tail first. -/
theorem doorbell_of_pair {v : Nat} {y : Queue} (h8 : off % 8 = 0)
    (hy : (writeSqTail s q fn off (v % 2 ^ 32) (v % 2 ^ 32)).queue? q.id = some y) :
    doorbell fn off 8 v s = writeCqHead (writeSqTail s q fn off (v % 2 ^ 32) (v % 2 ^ 32)) y fn off
      (v / 2 ^ 32 % 2 ^ 32) (v % 2 ^ 32) := by
  simp [doorbell, pairIndex_isNone_of_pairQueue hq, hq, h8, hbound, hactive, hy, -Nat.reducePow]

section
variable {v : Nat} (hv : v < 2 ^ 32)
include hv

theorem exec_doorbellSqTail_of_aligned (h8 : off % 8 = 0) :
    exec (.doorbellSqTail fn off 4 v) s = .next (writeSqTail s q fn off v v) := by
  rw [exec_doorbellSqTail_of_tail_half (by omega), doorbell_of_half hq hbound hactive (by omega) hv, if_pos h8]

theorem exec_doorbellCqHead_of_aligned (h8 : off % 8 = 4) :
    exec (.doorbellCqHead fn off 4 v) s = .next (writeCqHead s q fn off v v) := by
  rw [exec_doorbellCqHead_of_head_half (by omega), doorbell_of_half hq hbound hactive (by omega) hv, if_neg (by omega)]

end

end

end

/-! ## The two halves of a pair (R60, R61) -/

section
variable {q : Queue} {v : Nat} (hv : v < 2 ^ q.log2)
include hv

theorem writeSqTail_of_accepted (hready : q.ready ≤ (v + 2 ^ q.log2 - q.sqHead) % 2 ^ q.log2) (hne : v ≠ q.sqTail)
    (s : State) (fn off p4 : Nat) :
    writeSqTail s q fn off v p4 =
      (s.modQueue q.id (fun x => { x with sqTail := v, stopped := false })).tryFetch q.id := by
  have keepsRule : ¬ (v ≥ 2 ^ q.log2 ∨ (v + 2 ^ q.log2 - q.sqHead) % 2 ^ q.log2 < q.ready) := by omega
  simp only [writeSqTail, if_neg keepsRule, if_neg hne]

theorem writeCqHead_of_accepted
    (hle : (v + 2 ^ q.log2 - q.cqHead) % 2 ^ q.log2 ≤ (q.cqTail + 2 ^ q.log2 - q.cqHead) % 2 ^ q.log2)
    (s : State) (fn off p4 : Nat) :
    writeCqHead s q fn off v p4 = (s.modQueue q.id (fun x => { x with cqHead := v })).slotFree q.id :=
  if_neg (not_or.mpr ⟨Nat.not_le.mpr hv, Nat.not_lt.mpr hle⟩)

end

theorem writeSqTail_of_rejected {q : Queue} {v : Nat}
    (h : 2 ^ q.log2 ≤ v ∨ (v + 2 ^ q.log2 - q.sqHead) % 2 ^ q.log2 < q.ready) (s : State) (fn off p4 : Nat) :
    writeSqTail s q fn off v p4 = s.violation 0x0B04 fn (some q.id) off p4 :=
  if_pos h

theorem writeCqHead_of_rejected {q : Queue} {v : Nat}
    (h : 2 ^ q.log2 ≤ v ∨
      (q.cqTail + 2 ^ q.log2 - q.cqHead) % 2 ^ q.log2 < (v + 2 ^ q.log2 - q.cqHead) % 2 ^ q.log2)
    (s : State) (fn off p4 : Nat) :
    writeCqHead s q fn off v p4 = s.violation 0x0B05 fn (some q.id) off p4 :=
  if_pos h

/-! ## Ring fetches (R60, R62) -/

section
variable {s : State} {qid : Nat} {q : Queue} (hq : s.queue? qid = some q)
include hq

theorem State.tryFetch_of_open (hbound : q.bound = true) (hstop : q.stopped = false) (hidle : q.reading = 0)
    (hready : q.ready ≠ 0) (hhead : q.sqHead < 2 ^ q.log2) (hawake : s.host.d3.contains q.fn = false)
    (hactive : s.active = true) (hroom : queueLoad s q + b2n q.errDue < 2 ^ q.log2 - 1) :
    s.tryFetch qid =
      (s.modQueue qid (fun x => { x with reading := min 8 (min q.ready (2 ^ q.log2 - q.sqHead)) })).send
        (.hostRead (q.sq + 128 * q.sqHead) (128 * min 8 (min q.ready (2 ^ q.log2 - q.sqHead)))) := by
  have entries : (min 8 (min q.ready (2 ^ q.log2 - q.sqHead)) != 0) = true := bne_iff_ne.mpr (by omega)
  simp only [State.tryFetch, hq, hbound, hstop, hidle, entries, hawake, hactive, hroom, beq_self_eq_true, Bool.not_false,
    Bool.and_self, decide_true, if_true]

section
variable (hread : q.reading ≠ 0)
include hread

theorem sqEntryFetched_of_reading {es : List Bytes} (hlen : q.reading ≤ es.length) :
    sqEntryFetched qid es s = ({ s.modQueue qid (fun x => { x with
        reading := 0, sqHead := (x.sqHead + q.reading) % 2 ^ x.log2 }) with
      fetched := s.fetched ++ (es.take q.reading).map
        (fun e => ({ q := qid, part := q.part, entry := sl e 0 128, cancelled := false } : Fetched)) } : State).tryFetch
      qid := by
  simp only [sqEntryFetched, hq, if_neg (not_or.mpr ⟨hread, Nat.not_lt.mpr hlen⟩), State.modQueue_fetched]

theorem ringFailed_of_reading :
    ringFailed qid s = ((s.violation 0x0B06 q.fn (some qid) ((q.sq + 128 * q.sqHead) % 2 ^ 32)
      ((q.sq + 128 * q.sqHead) / 2 ^ 32)).modQueue qid (fun x => { x with
        reading := 0, stopped := true, errDue := true })).tryErr qid := by
  simp only [ringFailed, hq, if_neg hread]

end

/-! ## Refused writes (R85, Table 03.14) -/

theorem writeRefused_of_queue (addr : Nat) :
    writeRefused (.queue qid) addr s =
      let s1 := (s.violation 0x0B07 q.fn (some qid) (addr % 2 ^ 32) (addr / 2 ^ 32)).unbind qid
      ({ s1 with
        cmds := updWhere (fun c => c.path == Path.queue qid) (fun c => { c with discard := true }) s1.cmds
        lk := { s1.lk with held := s1.lk.held.filter (fun h => h.path != Path.queue qid) } } : State).abortWhere
          (fun c => c.path == Path.queue qid) := by
  simp only [writeRefused, hq]

end

/-! ## Reads of a command's data (R67, R68, Table 03.14) -/

section
variable {s : State} {p : Place} {c : Cmd} (hc : s.cmd? p = some c)
include hc

/-- Whichever data of its own the command waits for. -/
theorem readFailed_of_waiting (hph : c.phase = .waitExt ∨ (∃ r, c.phase = .waitPtr r) ∨ c.phase = .waitImage)
    (hab : c.abort = false) (addr : Nat) :
    readFailed p addr s = (s.violation 0x0B08 c.fn (Path.queue? c.path) (addr % 2 ^ 32) (addr / 2 ^ 32)).retire c
      0x1004 := by
  obtain h | ⟨r, h⟩ | h := hph <;> simp only [readFailed, hc, h, hab, Bool.false_eq_true, if_false]

theorem keyBlockPointerRead_of_waiting {ref : Nat} (hph : c.phase = .waitPtr ref) (hab : c.abort = false) (data : Bytes) :
    keyBlockPointerRead p ref data s =
      s.setCmd { c with phase := .ready, ptrs := (ref, sl data 0 (c.kref ref).len) :: c.ptrs } := by
  simp only [keyBlockPointerRead, hc, hph, hab, ne_eq, not_true, Bool.false_eq_true, if_false]

theorem extDataFetched_of_image (hph : c.phase = .waitImage) (hab : c.abort = false) (data : Bytes) :
    extDataFetched p data s = { s.setCmd { c with phase := .ready } with
      drafts := { s.drafts with staging := sl data 0 (min (c.inl 80 4) 0x200000) } } := by
  simp only [extDataFetched, hc, hph, hab, Bool.false_eq_true, if_false]

section
variable (hph : c.phase = .waitExt)
include hph

theorem extDataFetched_of_abort (hab : c.abort = true) (data : Bytes) : extDataFetched p data s = s.retire c 0x7002 := by
  simp only [extDataFetched, hc, hph, hab, if_true]

/-- Extended data in the shed is what the rest of admission goes on with. -/
theorem extDataFetched_of_waiting {c1 : Cmd} {d : DirEnt} {data : Bytes} (hab : c.abort = false) (hdir : c.dir = some d)
    (hc1 : c1 = { c with
      mem := Mem.writeN c.mem 0x100 (sl data 0 (Mem.num c.mem 24 4)), extLen := Mem.num c.mem 24 4 }) :
    extDataFetched p data s = admitRest (s.setCmd c1) c1 d := by
  subst hc1
  simp only [extDataFetched, hc, hph, hab, hdir, Bool.false_eq_true, if_false]

end

end

section
variable {c : Cmd} {d : DirEnt}

theorem admitRest_of_refs_ok (h : refsStatus c d = none) (s : State) : admitRest s c d = idemCheck s c d := by
  simp only [admitRest, h]

theorem admitRest_of_refs_bad {st : Nat} (h : refsStatus c d = some st) (s : State) : admitRest s c d = s.retire c st := by
  simp only [admitRest, h]

end

/-! ## The statement -/

/-- Settles O17: a doorbell write splits on the faults of Table 03.14 and then on the half that it writes; a ring fetch and
a read of a command's data are the operation of their name, which finds the queue or the command that waits. That one ring
read is outstanding at a time, and that an image arrives as extended data does, are the model's readings
(notes/assumptions/54.md, notes/assumptions/22.md). -/
theorem hostInterfaceComplete : Obligations.HostInterfaceComplete := by
  unfold Obligations.HostInterfaceComplete
  refine ⟨⟨?tail, ?tailRejected, ?head, ?headRejected, ?both, ?misfit, ?unassigned, ?closed, ?fetch, ?fetched, ?fetchFailed⟩,
    ?extFailed, ?ptrFailed, ?cmdTimeout, ?ringTimeout, ?mailboxRefused, ?queueRefused, ?keyBlock, ?extOk, ?extBad, ?image,
    ?extAborted⟩
  case tail =>
    intro s fn off v q hq hbound hactive h8 hv hlt hready hne
    rw [exec_doorbellSqTail_of_aligned hq hbound hactive hv h8, writeSqTail_of_accepted hlt hready hne]
  case tailRejected =>
    intro s fn off v q hq hbound hactive h8 hv hbad
    rw [exec_doorbellSqTail_of_aligned hq hbound hactive hv h8, writeSqTail_of_rejected hbad]
  case head =>
    intro s fn off v q hq hbound hactive h8 hv hlt hle
    rw [exec_doorbellCqHead_of_aligned hq hbound hactive hv h8, writeCqHead_of_accepted hlt hle]
  case headRejected =>
    intro s fn off v q hq hbound hactive h8 hv hbad
    rw [exec_doorbellCqHead_of_aligned hq hbound hactive hv h8, writeCqHead_of_rejected hbad]
  case both =>
    intro s fn off v q y hq hbound hactive h8 hy
    rw [exec_doorbellSqTail_of_tail_half (by omega), doorbell_of_pair hq hbound hactive h8 hy]
  case misfit =>
    intro s fn off size v i hi h4 h8
    rw [exec_doorbell, doorbell_of_misfit hi h4 h8]
  case unassigned =>
    intro s fn off v i hi hq h4
    rw [exec_doorbell, doorbell_of_unassigned hi hq h4]
  case closed =>
    intro s fn off v q hq hclosed h4
    rw [exec_doorbell, doorbell_of_closed hq hclosed h4]
  case fetch =>
    intro s qid q hq hbound hstop hidle hready hhead hawake hactive hroom
    exact State.tryFetch_of_open hq hbound hstop hidle hready hhead hawake hactive hroom
  case fetched => exact fun s qid es q hq hread hlen => congrArg _ (sqEntryFetched_of_reading hq hread hlen)
  case fetchFailed => exact fun s qid q hq hread => congrArg _ (ringFailed_of_reading hq hread)
  case extFailed => exact fun s p addr c hc hph hab => congrArg _ (readFailed_of_waiting hc (.inl hph) hab addr)
  case ptrFailed =>
    exact fun s p addr r c hc hph hab => congrArg _ (readFailed_of_waiting hc (.inr (.inl ⟨r, hph⟩)) hab addr)
  case cmdTimeout => exact fun s p addr => rfl
  case ringTimeout => exact fun s q addr => rfl
  case mailboxRefused => exact fun s fn addr => rfl
  case queueRefused =>
    rintro s _ qid addr q hq rfl
    exact congrArg _ (writeRefused_of_queue hq addr)
  case keyBlock => exact fun s p ref data c hc hph hab => congrArg _ (keyBlockPointerRead_of_waiting hc hph hab data)
  case extOk =>
    intro s p data c c1 d hc hph hab hdir hc1 hrefs
    change Host.Outcome.next (extDataFetched p data s) = _
    rw [extDataFetched_of_waiting hc hph hab hdir hc1, admitRest_of_refs_ok hrefs]
  case extBad =>
    intro s p data c c1 d st hc hph hab hdir hc1 hrefs
    change Host.Outcome.next (extDataFetched p data s) = _
    rw [extDataFetched_of_waiting hc hph hab hdir hc1, admitRest_of_refs_bad hrefs]
  case image => exact fun s p data c hc hph hab => congrArg _ (extDataFetched_of_image hc hph hab data)
  case extAborted => exact fun s p data c hc hph hab => congrArg _ (extDataFetched_of_abort hc hph hab data)

end Sys2Proof.Machine
end

section
/-! PROOFS. Draft steps: the row of each is a gated run of its operation (R95, R104 to R106), and each outcome of an operation
has its effect on the command and the treadle (R94, R102). -/

namespace Sys2Proof.Machine

open Sys2Proof

/-! ## The gates of a step -/

/-- Every draft-step row is a gated run of one operation. -/
theorem exec_of_stepRow {i : Instr} {n k : Nat} {a : StepArgs} (h : stepRow i = some (n, k, a)) :
    ∃ body, ∀ s, exec i s = .next (s.step1 n k a body) := by
  cases i
  all_goals cases h
  all_goals exact ⟨_, fun _ => rfl⟩

theorem State.step1_of_no_command {s : State} {n k : Nat} (h : s.readyCmd n k = none) (a : StepArgs) (body : StepFn) :
    s.step1 n k a body = s := by
  simp only [State.step1, h]

theorem State.lineHeld_of_sound {s : State} {n : Nat} {c : Cmd} (h : s.lineSound n c = true) : s.lineHeld n c = true := by
  cases hl : s.line? n c with
  | none => simp [State.lineSound, hl] at h
  | some l => simp [State.lineHeld, hl]

section
variable {s : State} {n k : Nat} {c : Cmd} (hc : s.readyCmd n k = some c) (a : StepArgs) (body : StepFn)
include hc

theorem State.step1_of_abort (hab : c.abort = true) : s.step1 n k a body = s.retire c 0x7002 := by
  simp only [State.step1, hc, hab, if_true]

variable (hab : c.abort = false)
include hab

theorem State.step1_of_missing_line (hheld : s.lineHeld n c = false) : s.step1 n k a body = s.lineMiss n c := by
  simp only [State.step1, hc, hab, hheld, Bool.false_eq_true, if_false, Bool.not_false, if_true]

theorem State.step1_of_unsound_line (hheld : s.lineHeld n c = true) (hbad : s.lineSound n c = false) :
    s.step1 n k a body = s.parkExc n k c a 7 0 := by
  simp only [State.step1, hc, hab, hheld, hbad, Bool.not_true, Bool.false_eq_true, if_false, Bool.not_false, if_true]

variable (hsound : s.lineSound n c = true)
include hsound

theorem State.step1_of_sound_line : s.step1 n k a body =
    if c.count ≥ 8192 then s.parkExc n k c a 4 0
    else if a.rsv ∨ a.br.toNat > 3 then s.parkExc n k c a 1 0 else s.settle n k a c (body s c a) := by
  simp only [State.step1, hc, hab, State.lineHeld_of_sound hsound, hsound, Bool.not_true, Bool.false_eq_true, if_false]

end

/-- Settles O16: every draft-step row is a gated run, and each gate stops the step before its operation. That a row without a
ready command changes nothing is the model's choice (notes/assumptions/1.md). -/
theorem everyStepIsGated : Obligations.EveryStepIsGated := by
  unfold Obligations.EveryStepIsGated
  intro i s n k a hrow
  obtain ⟨body, row⟩ := exec_of_stepRow hrow
  simp only [row]
  refine ⟨fun hc => ?noCommand, fun c hc => ⟨fun hab => ?aborted, fun hab hheld => ?missing, fun hab hheld hbad => ?unsound,
    fun hab hsound hcount => ?limit, fun hab hsound hcount hres => ?reserved⟩⟩
  case noCommand => rw [State.step1_of_no_command hc]
  case aborted => rw [State.step1_of_abort hc a body hab]
  case missing => rw [State.step1_of_missing_line hc a body hab hheld]
  case unsound => rw [State.step1_of_unsound_line hc a body hab hheld hbad]
  case limit => rw [State.step1_of_sound_line hc a body hab hsound, if_pos hcount]
  case reserved => rw [State.step1_of_sound_line hc a body hab hsound, if_neg (by omega), if_pos hres]

/-! ## The outcomes of an operation -/

section
variable {s s1 : State} {n k : Nat} {c c1 : Cmd} {a : StepArgs} {body : StepFn} (h : StepReady s n k c a)
include h

/-- A ready step whose operation returns flags goes on (R94). -/
theorem next_step1_of_flags {u : BitVec 4} (hb : body s c a = .flags s1 c1 u) :
    (.next (s.step1 n k a body) : Outcome) = .next (s1.stepTo n k c1 a u) := by
  rw [State.step1_of_ready h, hb, State.settle, State.stepTo]

/-- A ready step whose operation waits for a result parks its command (R102). -/
theorem next_step1_of_park {ph : Phase} (hb : body s c a = .park s1 c1 ph) :
    (.next (s.step1 n k a body) : Outcome) = .next (s1.parkTo n k c1 a ph) := by
  rw [State.step1_of_ready h, hb, State.settle, State.parkTo]

end

end Sys2Proof.Machine
end

section
/-! PROOFS. MOVE and CMP steps (R96, Tables 04.6 and 04.7). -/

namespace Sys2Proof.Machine

open Sys2Proof

/-! ## The operations, their ranges in place -/

section
variable {s : State} {c : Cmd} {a : StepArgs} {l : Nat} (hl : stepLen c a = some l)
include hl

theorem moveBytes_of_in_range (g : Bytes → Bytes → Bytes) {useB : Bool}
    (hr : rangeFault false ((a.aOff.toNat, l) :: (if useB then [(a.bOff.toNat, l)] else [])) (a.dOff.toNat, l) = none) :
    moveBytes g useB s c a = .flags s (c.wr a.dOff.toNat (g (c.rd a.aOff.toNat l) (c.rd a.bOff.toNat l)))
      (uflags (allZero (g (c.rd a.aOff.toNat l) (c.rd a.bOff.toNat l))) false false) := by
  simp only [moveBytes, hl, hr]

theorem moveFillOp_of_in_range (hr : rangeFault false [] (a.dOff.toNat, l) = none) :
    moveFillOp s c a = .flags s (c.wr a.dOff.toNat (List.replicate l (byte (a.imm.toNat % 256)))) 0 := by
  simp only [moveFillOp, hl, hr]

theorem moveGetvOp_of_in_range (h1 : 1 ≤ l) (h4 : l ≤ 4) (hr : srcOk a.aOff.toNat l = true) :
    moveGetvOp s c a = .flags s (c.setV (a.param.toNat % 8) (leNat (c.rd a.aOff.toNat l)))
      (uflags (leNat (c.rd a.aOff.toNat l) == 0) false false) := by
  simp only [moveGetvOp, hl]
  rw [if_neg (by simp [hr]; omega), vreg]

theorem movePutvOp_of_in_range (h1 : 1 ≤ l) (h4 : l ≤ 4) (hr : dstOk a.dOff.toNat l = true) :
    movePutvOp s c a = .flags s (c.wr a.dOff.toNat (toLe l (c.v (a.param.toNat % 8)))) 0 := by
  simp only [movePutvOp, hl]
  rw [if_neg (by simp [hr]; omega), vreg]

theorem cmpBytes_of_in_range (g : Bytes → Bytes → BitVec 4)
    (hr : rangeFault false [(a.aOff.toNat, l), (a.bOff.toNat, l)] (0x100, 0) = none) :
    cmpBytes g s c a = .flags s c (g (c.rd a.aOff.toNat l) (c.rd a.bOff.toNat l)) := by
  simp only [cmpBytes, hl, hr]

end

/-- Settles O7: a ready step is its operation, which returns the flags of its row once its ranges are in place; the steps on a
value register alone check no range. -/
theorem moveAndCompareStepsComplete : Obligations.MoveAndCompareStepsComplete := by
  unfold Obligations.MoveAndCompareStepsComplete
  refine ⟨fun s n k c a h => ⟨?copy, ?xorAnd, ?fill, ?loadv, ?getv, ?putv, ?addv, ?setf⟩,
    fun s n k c a h => ⟨?bytes, ?testv, ?cmpv, ?rangev⟩⟩
  case copy => exact fun l hl hr => next_step1_of_flags h (moveBytes_of_in_range hl (fun x _ => x) hr)
  case xorAnd =>
    exact fun l hl hr => ⟨next_step1_of_flags h (moveBytes_of_in_range hl xorBytes hr),
      next_step1_of_flags h (moveBytes_of_in_range hl (fun x y => List.zipWith (fun p q => p &&& q) x y) hr)⟩
  case fill => exact fun l hl hr => next_step1_of_flags h (moveFillOp_of_in_range hl hr)
  case loadv => exact next_step1_of_flags h rfl
  case getv => exact fun l hl h1 h4 hr => next_step1_of_flags h (moveGetvOp_of_in_range hl h1 h4 hr)
  case putv => exact fun l hl h1 h4 hr => next_step1_of_flags h (movePutvOp_of_in_range hl h1 h4 hr)
  case addv => exact next_step1_of_flags h rfl
  case setf => exact next_step1_of_flags h rfl
  case bytes =>
    exact fun l hl hr => ⟨next_step1_of_flags h (cmpBytes_of_in_range hl (fun x y => uflags (x != y) false false) hr),
      next_step1_of_flags h (cmpBytes_of_in_range hl (fun x y =>
        uflags (beNat x == beNat y) (decide (beNat x < beNat y)) (decide (beNat x > beNat y))) hr)⟩
  case testv => exact next_step1_of_flags h rfl
  case cmpv => exact next_step1_of_flags h rfl
  case rangev => exact next_step1_of_flags h rfl

end Sys2Proof.Machine
end

section
/-! PROOFS. SYM steps (R98, R99, R101, R195, R197, Table 04.8): the key and the core that a step is granted, then each
operation. -/

namespace Sys2Proof.Machine

open Sys2Proof

/-! ## Keys and cores -/

theorem soundKey_of_ready {s : State} {c : Cmd} {reg : Nat} {r : KReg} (h : RegReady s c reg r) (f : KReg → StepOut) :
    soundKey s c (c.key reg) f = f r := by
  obtain ⟨hreg, hecc⟩ := h
  simp only [soundKey, hreg, hecc]

theorem withKey_of_ready {s : State} {c : Cmd} {reg usage : Nat} {algs : List Nat} {r : KReg}
    (h : KeyReady s c reg usage algs r) (f : KReg → StepOut) : withKey s c reg usage algs f = f r := by
  obtain ⟨hreg, hecc⟩ := h
  simp only [withKey, soundKey, hreg, hecc]

/-- What a register that meets a demand holds. -/
theorem regKey_eq_some {c : Cmd} {reg usage : Nat} {algs : List Nat} {r : KReg} :
    regKey c reg usage algs = some r ↔ c.key reg = some r ∧ r.key.usage = usage ∧ algs.contains r.key.alg = true := by
  cases hk : c.key reg with
  | none => simp [regKey, hk]
  | some k =>
    simp only [regKey, hk, Option.some.injEq]
    constructor
    · intro h
      split at h
      case isTrue hu =>
        cases h
        exact ⟨rfl, hu⟩
      case isFalse => cases h
    · rintro ⟨rfl, hu⟩
      rw [if_pos hu]

theorem withCore_of_ready {s : State} {c : Cmd} (h : CoreReady s c) (f : Unit → StepOut) : withCore s c f = f () := by
  simp only [withCore, h]

theorem blockFault_of_whole {alg l : Nat} (h : l % blockLen alg = 0) : blockFault alg l = false := by
  simp [blockFault, h]

/-- Whole blocks where they are demanded. -/
theorem not_blockFault_of_whole {p : Prop} {alg l : Nat} (h : p → l % blockLen alg = 0) :
    ¬ (p ∧ blockFault alg l = true) := by
  rintro ⟨hp, hf⟩
  rw [blockFault_of_whole (h hp)] at hf
  cases hf

/-! ## The operations -/

section
variable {s : State} {c : Cmd} {a : StepArgs} {l usage m : Nat} {r : KReg} {mac : Bytes} (core : CoreReady s c)
  (hm : bits a.param.toNat 1 0 = m) (key : KeyReady s c a.kreg.toNat usage (macAlgs m) r)
  (hmac : macOf m r.key (c.rd a.aOff.toNat l) = mac) (h4 : 4 ≤ bits a.imm.toNat 4 0)
  (hfull : bits a.imm.toNat 4 0 ≤ if m = 0 then blockLen r.key.alg else 8) (hw : m = 1 → l % blockLen 4 = 0)
include core hm key hmac h4 hfull hw

/-- MAC_GEN of methods 0 and 1. -/
theorem macStep_generates (hr : rangeFault true [(a.aOff.toNat, l)] (a.dOff.toNat, bits a.imm.toNat 4 0) = none) :
    macStep usage false s c a l = .flags s (c.wr a.dOff.toNat (sl mac 0 (bits a.imm.toNat 4 0))) 0 := by
  have length : ¬ (bits a.imm.toNat 4 0 < 4 ∨ bits a.imm.toNat 4 0 > if m = 0 then blockLen r.key.alg else 8) := by omega
  simp only [macStep, hm, withKey_of_ready key, if_neg length, Bool.false_eq_true, if_false, hr,
    if_neg (not_blockFault_of_whole hw), withCore_of_ready core, hmac]

/-- MAC_VERIFY of methods 0 and 1. -/
theorem macStep_verifies
    (hr : rangeFault true [(a.aOff.toNat, l), (a.bOff.toNat, bits a.imm.toNat 4 0)] (a.dOff.toNat, 0) = none) :
    macStep usage true s c a l = .flags s c (uflags
      (sl mac 0 (bits a.imm.toNat 4 0) != c.rd a.bOff.toNat (bits a.imm.toNat 4 0)) false false) := by
  have length : ¬ (bits a.imm.toNat 4 0 < 4 ∨ bits a.imm.toNat 4 0 > if m = 0 then blockLen r.key.alg else 8) := by omega
  simp only [macStep, hm, withKey_of_ready key, if_neg length, if_true, hr, if_neg (not_blockFault_of_whole hw),
    withCore_of_ready core, hmac]

end

section
variable {s : State} {c : Cmd} {a : StepArgs} {l : Nat} (hl : stepLen c a = some l) (hm : bits a.param.toNat 1 0 ≤ 1)
include hl hm

theorem symMacGenOp_of_mac : symMacGenOp s c a = macStep 5 false s c a l := by
  simp only [symMacGenOp, hl, if_neg (show ¬ bits a.param.toNat 1 0 = 3 by omega),
    if_neg (show ¬ bits a.param.toNat 1 0 = 2 by omega)]

theorem symMacVerifyOp_of_mac : symMacVerifyOp s c a = macStep 6 true s c a l := by
  simp only [symMacVerifyOp, hl, if_neg (show ¬ bits a.param.toNat 1 0 > 1 by omega)]

end

section
variable {s : State} {c : Cmd} {a : StepArgs} {l : Nat} {r : KReg} (hl : stepLen c a = some l) (core : CoreReady s c)
include hl core

/-- A block-mode step with a key of a usage that it takes. -/
theorem symBlocks_of_ready (usages : List Nat) (iv whole : Bool) (g : KeyInfo → Bytes → Bytes → Bytes) {u : Nat}
    (hu : usages.contains u = true) (key : KeyReady s c a.kreg.toNat u symAlgs r)
    (hr : rangeFault true ((a.aOff.toNat, l) :: (if iv then [(a.bOff.toNat, blockLen r.key.alg)] else [])) (a.dOff.toNat, l)
      = none)
    (hw : whole = true → l % blockLen r.key.alg = 0) :
    symBlocks usages iv whole g s c a = .flags s (c.wr a.dOff.toNat
      (g r.key (c.rd a.bOff.toNat (blockLen r.key.alg)) (c.rd a.aOff.toNat l))) 0 := by
  obtain ⟨hreg, husage, -⟩ := regKey_eq_some.mp key.1
  have whole_blocks : ¬ (whole && blockFault r.key.alg l) = true := by
    rw [Bool.and_eq_true]
    exact not_blockFault_of_whole hw
  simp only [symBlocks, hl, hreg, Option.map_some, Option.getD_some, husage, hu, Bool.not_true, Bool.false_eq_true, if_false,
    withKey_of_ready key, hr, if_neg whole_blocks, withCore_of_ready core]

/-- CODE_CBC in the form of ISO 9797-1 algorithm 3 (R195). -/
theorem symCodeCbcOp_of_alg3 (key : KeyReady s c a.kreg.toNat 9 [4] r) (hm : bits a.param.toNat 1 0 = 1)
    (hr : rangeFault true [(a.aOff.toNat, l)] (a.dOff.toNat, 8) = none) (hw : l % blockLen 4 = 0) :
    symCodeCbcOp s c a = .flags s (c.wr a.dOff.toNat (macAlg3 r.key.mat (c.rd a.aOff.toNat l))) 0 := by
  simp only [symCodeCbcOp, hm, hl, withKey_of_ready key, hr, blockFault_of_whole hw, withCore_of_ready core, one_ne_zero,
    ne_eq, not_true_eq_false, Bool.false_eq_true, if_false]

/-- MAC_GEN of method 2: the EMV functions (R197). -/
theorem symMacGenOp_of_emv (key : KeyReady s c a.kreg.toNat 5 [1, 2, 3, 4] r) (hm : bits a.param.toNat 1 0 = 2)
    (hfn : bits a.param.toNat 3 2 ≠ 3) (hlen : emvLenOk (bits a.param.toNat 3 2) l = true)
    (hr : rangeFault true [(a.aOff.toNat, l), (a.bOff.toNat, 16)]
      (a.dOff.toNat, if bits a.param.toNat 3 2 = 2 then 4 else 8) = none) :
    symMacGenOp s c a = .flags s (c.wr a.dOff.toNat (emvFunction r.key (bits a.param.toNat 3 2) (bit a.param.toNat 4)
      (c.rd a.bOff.toNat 16) (c.rd a.aOff.toNat l))) 0 := by
  have emv : symMacGenOp s c a = macEmv s c a l := by
    simp only [symMacGenOp, hl, hm, Nat.reduceEqDiff, if_false, if_true]
  simp only [emv, macEmv, if_neg hfn, hlen, Bool.not_true, Bool.false_eq_true, if_false, withKey_of_ready key, hr,
    withCore_of_ready core]

theorem symHmacOp_of_ready (key : KeyReady s c a.kreg.toNat 5 [6] r)
    (hr : rangeFault true [(a.aOff.toNat, l)] (a.dOff.toNat, 64) = none) :
    symHmacOp s c a = .flags s (c.wr a.dOff.toNat (macHmac r.key.mat (c.rd a.aOff.toNat l))) 0 := by
  simp only [symHmacOp, hl, withKey_of_ready key, hr, withCore_of_ready core]

theorem symHmacVerifyOp_of_ready (key : KeyReady s c a.kreg.toNat 6 [6] r) (h16 : 16 ≤ bits a.imm.toNat 6 0)
    (h64 : bits a.imm.toNat 6 0 ≤ 64)
    (hr : rangeFault true [(a.aOff.toNat, l), (a.bOff.toNat, bits a.imm.toNat 6 0)] (0x100, 0) = none) :
    symHmacVerifyOp s c a = .flags s c (uflags (sl (macHmac r.key.mat (c.rd a.aOff.toNat l)) 0 (bits a.imm.toNat 6 0) !=
      c.rd a.bOff.toNat (bits a.imm.toNat 6 0)) false false) := by
  have length : ¬ (bits a.imm.toNat 6 0 < 16 ∨ bits a.imm.toNat 6 0 > 64) := by omega
  simp only [symHmacVerifyOp, hl, if_neg length, withKey_of_ready key, hr, withCore_of_ready core]

theorem hashStep_of_ready {n : Nat} {h : Nat} {d : Bytes} (hd : digestOf h (c.rd a.aOff.toNat l) = d)
    (hr : rangeFault true [(a.aOff.toNat, l)] (a.dOff.toNat, n) = none) :
    hashStep h n s c a = .flags s (c.wr a.dOff.toNat d) 0 := by
  simp only [hashStep, hl, hr, withCore_of_ready core, hd]

end

/-! ## The statements -/

/-- Settles O8: every block mode is one step on its usages, initial value and demand of whole blocks; CODE_CBC also has the
form of ISO 9797-1 algorithm 3. -/
theorem cipherStepsComplete : Obligations.CipherStepsComplete := by
  unfold Obligations.CipherStepsComplete
  intro s n k c a l r h hl core
  refine ⟨fun key hr hw => ?ecbEnc, fun key hr hw => ?ecbDec, fun key hr hw => ?codeEcb, fun key hr hw => ?cbcEnc,
    fun key hr hw => ?cbcDec, fun u hu key hr => ?ctr, fun key hm hr hw => ?codeCbc, fun key hm hr hw => ?codeAlg3⟩
  case ecbEnc =>
    exact next_step1_of_flags h
      (symBlocks_of_ready hl core [1] false true (fun k _ m => ecbEnc k.alg k.mat m) rfl key hr (fun _ => hw))
  case ecbDec =>
    exact next_step1_of_flags h
      (symBlocks_of_ready hl core [2] false true (fun k _ m => ecbDec k.alg k.mat m) rfl key hr (fun _ => hw))
  case codeEcb =>
    exact next_step1_of_flags h
      (symBlocks_of_ready hl core [9] false true (fun k _ m => ecbEnc k.alg k.mat m) rfl key hr (fun _ => hw))
  case cbcEnc =>
    exact next_step1_of_flags h
      (symBlocks_of_ready hl core [1] true true (fun k iv m => cbcEnc k.alg k.mat iv m) rfl key hr (fun _ => hw))
  case cbcDec =>
    exact next_step1_of_flags h
      (symBlocks_of_ready hl core [2] true true (fun k iv m => cbcDec k.alg k.mat iv m) rfl key hr (fun _ => hw))
  case ctr =>
    have taken : [1, 2].contains u = true := by simpa using hu
    exact next_step1_of_flags h
      (symBlocks_of_ready hl core [1, 2] true false (fun k iv m => ctrCrypt k.alg k.mat iv m) taken key hr nofun)
  case codeCbc =>
    have cbc : symCodeCbcOp s c a = symBlocks [9] true true (fun k iv x => cbcEnc k.alg k.mat iv x) s c a := if_pos hm
    exact next_step1_of_flags h (cbc.trans (symBlocks_of_ready hl core [9] true true
      (fun k iv m => cbcEnc k.alg k.mat iv m) rfl key hr (fun _ => hw)))
  case codeAlg3 => exact next_step1_of_flags h (symCodeCbcOp_of_alg3 hl core key hm hr hw)

/-- Settles O9: MAC_GEN and MAC_VERIFY split on the method, SHA512 on the digest it names. The 64 bytes of HMAC and the 16 to
64 that HMAC_VERIFY compares are the model's reading (notes/assumptions/19.md). -/
theorem macAndHashStepsComplete : Obligations.MacAndHashStepsComplete := by
  unfold Obligations.MacAndHashStepsComplete
  intro s n k c a l r h hl core
  refine ⟨fun key hm h4 hn hr => ?cmac, fun key hm h4 hn hw hr => ?alg3, fun key hm hfn hlen hr => ?emv,
    fun key hm h4 hn hr => ?cmacVerify, fun key hm h4 hn hw hr => ?alg3Verify, fun key hr => ?hmac,
    fun key h16 h64 hr => ?hmacVerify, fun hr => ?sha256, fun hp hr => ?sha512, fun hp hr => ?sha384⟩
  case cmac =>
    exact next_step1_of_flags h ((symMacGenOp_of_mac hl (by omega)).trans
      (macStep_generates core hm key rfl h4 hn nofun hr))
  case alg3 =>
    exact next_step1_of_flags h ((symMacGenOp_of_mac hl (by omega)).trans
      (macStep_generates core hm key rfl h4 hn (fun _ => hw) hr))
  case emv => exact next_step1_of_flags h (symMacGenOp_of_emv hl core key hm hfn hlen hr)
  case cmacVerify =>
    exact next_step1_of_flags h ((symMacVerifyOp_of_mac hl (by omega)).trans
      (macStep_verifies core hm key rfl h4 hn nofun hr))
  case alg3Verify =>
    exact next_step1_of_flags h ((symMacVerifyOp_of_mac hl (by omega)).trans
      (macStep_verifies core hm key rfl h4 hn (fun _ => hw) hr))
  case hmac => exact next_step1_of_flags h (symHmacOp_of_ready hl core key hr)
  case hmacVerify => exact next_step1_of_flags h (symHmacVerifyOp_of_ready hl core key h16 h64 hr)
  case sha256 => exact next_step1_of_flags h (hashStep_of_ready hl core (h := 1) rfl hr)
  case sha512 =>
    have digest : symSha512Op s c a = hashStep 3 64 s c a := if_neg (by simp [hp])
    exact next_step1_of_flags h (digest.trans (hashStep_of_ready hl core rfl hr))
  case sha384 =>
    have digest : symSha512Op s c a = hashStep 2 48 s c a := if_pos hp
    exact next_step1_of_flags h (digest.trans (hashStep_of_ready hl core rfl hr))

end Sys2Proof.Machine
end

section
/-! PROOFS. KEY steps (R98, R100 to R102, R123, R130, R201, R202, R211, Table 04.9). -/

namespace Sys2Proof.Machine

open Sys2Proof

/-! ## Steps that resolve a key -/

section
variable {s s1 : State} {c c1 : Cmd} {a : StepArgs} {m : Bool}

theorem keyGetOp_of_got {l : Bool} (hgot : getRef s c (bits a.param.toNat 6 4) a.kreg.toNat (bits a.param.toNat 3 0)
    a.imm.toNat (bit a.param.toNat 7) = .got s1 c1 m l) : keyGetOp s c a = .flags s1 c1 (uflags m l false) := by
  simp only [keyGetOp, hgot, Got.step, refFlags]

variable {l : Nat} {w : KReg} {x : Bool} (hl : stepLen c a = some l)
  (hr : rangeFault false [(a.aOff.toNat, l)] (0x100, 0) = none)
include hl hr

theorem keyUnwrapOp_of_got (key : KeyReady s c (bits a.param.toNat 7 4) 3 [1, 2, 3, 4, 5, 11, 12, 13] w)
    (hrsa : isRsa w.key.alg = false)
    (hgot : getBlock s c w a.kreg.toNat (c.rd a.aOff.toNat l) (bits a.param.toNat 3 0) a.imm.toNat 0xFF false false =
      .got s1 c1 m x) : keyUnwrapOp s c a = .flags s1 c1 (uflags (!m) false false) := by
  simp only [keyUnwrapOp, hl, hr, otherReg, withKey_of_ready key, hrsa, Bool.false_eq_true, if_false, hgot, Got.step,
    cachedFlag]

theorem keyDeriveOp_of_got (key : KeyReady s c (bits a.param.toNat 7 4) 4 [3] w)
    (hgot : getDerived s c w a.kreg.toNat (c.rd a.aOff.toNat l) (bits a.param.toNat 3 0) a.imm.toNat false false =
      .got s1 c1 m x) : keyDeriveOp s c a = .flags s1 c1 (uflags (!m) false false) := by
  simp only [keyDeriveOp, hl, hr, otherReg, withKey_of_ready key, hgot, Got.step, cachedFlag]

/-- A DUKPT step whose fields fit its initial key splits on the rules of R202 for its KSN. -/
theorem keyDukptOp_of_fitting (key : KeyReady s c (bits a.param.toNat 7 4) 4 [1, 2, 3, 4] w)
    (ht : bits a.param.toNat 11 8 ≤ 2) (hlen : l = ksnLen w.key.alg)
    (husage : bits a.param.toNat 3 0 = wktUsage (bits a.param.toNat 11 8)) (halg : bit a.imm.toNat w.key.alg = true) :
    keyDukptOp s c a = if ksnOk w.key.alg (c.rd a.aOff.toNat l) = true
      then (getDukpt s c w a.kreg.toNat (bits a.param.toNat 11 8) (c.rd a.aOff.toNat l)).step (fun _ _ => 0)
      else .flags s c (uflags true false false) := by
  have fields : ¬ (bits a.param.toNat 11 8 > 2 ∨ l ≠ ksnLen w.key.alg) := by omega
  have demand : ¬ (bits a.param.toNat 3 0 ≠ wktUsage (bits a.param.toNat 11 8) ∨ (!bit a.imm.toNat w.key.alg) = true) := by
    simp [husage, halg]
  simp only [keyDukptOp, hl, hr, otherReg, withKey_of_ready key, if_neg fields, if_neg demand]
  cases ksnOk w.key.alg (c.rd a.aOff.toNat l) with
  | true => rfl
  | false => rfl

end

/-- Settles O10: each lookup's outcome is that of its step, once its range is in place and the other key is in its register;
a DUKPT step splits on its KSN first. What the lookup leaves in the register is the lookup's. -/
theorem keyLookupStepsComplete : Obligations.KeyLookupStepsComplete := by
  unfold Obligations.KeyLookupStepsComplete
  intro s n k c a h
  refine ⟨?get, ?unwrap, ?derive, ?dukpt⟩
  case get => exact fun s1 c1 m l hgot => next_step1_of_flags h (keyGetOp_of_got hgot)
  case unwrap =>
    exact fun l w s1 c1 m x hl hr key hrsa hgot => next_step1_of_flags h (keyUnwrapOp_of_got hl hr key hrsa hgot)
  case derive => exact fun l p s1 c1 m x hl hr key hgot => next_step1_of_flags h (keyDeriveOp_of_got hl hr key hgot)
  case dukpt =>
    intro l i hl hr key ht hlen husage halg
    have splits := keyDukptOp_of_fitting hl hr key ht hlen husage halg
    refine ⟨fun hksn => ?forbidden, fun s1 c1 m x hksn hgot => ?permitted⟩
    case forbidden => exact next_step1_of_flags h (splits.trans (if_neg (by simp [hksn])))
    case permitted =>
      refine next_step1_of_flags h (splits.trans ((if_pos hksn).trans ?_))
      rw [hgot, Got.step]

/-! ## WRAP, GENERATE, STORE and RELEASE -/

theorem withRandom_of_bytes {s s1 : State} {c : Cmd} {n : Nat} {b : Bytes}
    (hb : s.random (drbgOf c.place) n = .bytes s1 b) (f : State → Bytes → StepOut) : withRandom s c n f = f s1 b := by
  simp only [withRandom, hb]

section
variable {s s1 : State} {c : Cmd} {a : StepArgs} {l : Nat} {x : KReg}

/-- WRAP under a key that is not RSA: the free choices of the block are among those that exist (R211). -/
theorem keyWrapOp_of_fitting {w : KReg} {pad ku : Bytes} {e : Byte} (hl : stepLen c a = some l)
    (hd : dstOk a.dOff.toNat l = true) (reg : RegReady s c a.kreg.toNat x)
    (key : KeyReady s c (bits a.param.toNat 7 4) 3 [1, 2, 3, 4, 5, 11, 12, 13] w) (hexp : exportOk s c x = true)
    (hrsa : isRsa w.key.alg = false) (hver : x.key.version ≤ 99)
    (hku : (pairedUsages x.key)[Config.freeNat s.draw % (pairedUsages x.key).length]? = some ku)
    (he : [chr 'E', chr 'N', chr 'S'][Config.freeNat (s.draw + 1) % 3]? = some e)
    (hpad : ((countPolicy s).drawn 2).random (drbgOf c.place) (exportPad w.key x.key) = .bytes s1 pad)
    (hfit : (exportBlock w.key x.key ku e pad).length ≤ l) :
    keyWrapOp s c a = .flags s1 (c.wr a.dOff.toNat (exportBlock w.key x.key ku e pad)) 0 := by
  simp only [keyWrapOp, hl, hd, soundKey_of_ready reg, otherReg, withKey_of_ready key, hexp, hrsa, hku, he, Bool.not_true,
    Bool.false_eq_true, if_false, if_neg (show ¬ x.key.version > 99 by omega), withRandom_of_bytes hpad, Option.getD_some,
    if_neg (show ¬ (exportBlock w.key x.key ku e pad).length > l by omega)]

/-- GENERATE of a symmetric key or an HMAC key. -/
theorem keyGenerateOp_of_bytes {alg : Nat} {b : Bytes} (halg : oneAlg a.imm.toNat = some alg) (h1 : 1 ≤ alg) (h6 : alg ≤ 6)
    (husage : (usagesOf alg).contains (bits a.param.toNat 3 0) = true)
    (hb : s.random (drbgOf c.place) (matLen alg) = .bytes s1 b) :
    keyGenerateOp s c a = .flags
      (placeNew (s1.drawn 32) c (generatedAsk s1 a.kreg.toNat (generatedKey alg (bits a.param.toNat 3 0) b))
        (generatedKey alg (bits a.param.toNat 3 0) b)).1
      (placeNew (s1.drawn 32) c (generatedAsk s1 a.kreg.toNat (generatedKey alg (bits a.param.toNat 3 0) b))
        (generatedKey alg (bits a.param.toNat 3 0) b)).2.1 0 := by
  have named : ¬ (alg < 1 ∨ alg > 10 ∨ (!(usagesOf alg).contains (bits a.param.toNat 3 0)) = true ∨
      (alg > 6 ∧ (!generateUsage alg (bits a.param.toNat 3 0)) = true)) := by
    rintro (low | high | unpaired | ⟨pair, -⟩)
    · omega
    · omega
    · rw [husage] at unpaired
      cases unpaired
    · omega
  simp only [keyGenerateOp, halg, if_neg named, if_neg (show ¬ alg > 6 by omega), withRandom_of_bytes hb]

/-- The checks of a STORE pass, and the journal takes commits. -/
theorem storeKey_of_permitted {attr : Bytes} (hattr : attrOk x.key attr = true)
    (hpol : policyOk (countPolicy s) c (fieldLe attr 4 8) x.key.usage x.key.alg roleStore = true)
    (hopen : commitHold (countPolicy s) = none) :
    storeKey s c x attr = .ok ((countPolicy s).enqueue (.store c.part attr x.key (x.source == 6)) (some c.place),
      { c with stored := true }) := by
  simp only [storeKey, hattr, hpol, hopen, Bool.not_true, Bool.false_eq_true, if_false]

theorem keyStoreOp_of_permitted (hl : stepLen c a = some l) (hnew : c.stored = false)
    (hdir : c.dir.map (fun d => d.commits) = some true)
    (hr : rangeFault false [(a.aOff.toNat, l)] (a.dOff.toNat, 4) = none) (reg : RegReady s c a.kreg.toNat x)
    (hattr : attrOk x.key (c.rd a.aOff.toNat l) = true)
    (hpol : policyOk (countPolicy s) c (fieldLe (c.rd a.aOff.toNat l) 4 8) x.key.usage x.key.alg roleStore = true)
    (hopen : commitHold (countPolicy s) = none) :
    keyStoreOp s c a = .park ((countPolicy s).enqueue (.store c.part (c.rd a.aOff.toNat l) x.key (x.source == 6))
      (some c.place)) { c with stored := true } .waitCommit := by
  have first : ¬ (c.stored = true ∨ (!(c.dir.map (fun d => d.commits)).getD false) = true) := by simp [hnew, hdir]
  simp only [keyStoreOp, hl, if_neg first, hr, soundKey_of_ready reg, storeKey_of_permitted hattr hpol hopen]

end

/-- Settles O11: each step is its operation with its checks passed. The key usage, exportability and padding of a wrapped
block and the generated bytes are what the free values and the random output give (notes/assumptions/18.md,
notes/assumptions/4.md). -/
theorem keyStoreStepsComplete : Obligations.KeyStoreStepsComplete := by
  unfold Obligations.KeyStoreStepsComplete
  intro s n k c a h
  refine ⟨?wrap, ?generate, ?store, ?release⟩
  case wrap =>
    exact fun l w x s1 pad ku e hl hd reg key hexp hrsa hver hku he hpad hfit =>
      next_step1_of_flags h (keyWrapOp_of_fitting hl hd reg key hexp hrsa hver hku he hpad hfit)
  case generate =>
    exact fun alg s1 b halg h1 h6 husage hb => next_step1_of_flags h (keyGenerateOp_of_bytes halg h1 h6 husage hb)
  case store =>
    exact fun l x hl hnew hdir hr reg hattr hpol hopen =>
      next_step1_of_park h (keyStoreOp_of_permitted hl hnew hdir hr reg hattr hpol hopen)
  case release => exact next_step1_of_flags h rfl

end Sys2Proof.Machine
end

section
/-! PROOFS. BN steps (R96, R98, R102, R218, R221, R231, Table 09.3). -/

namespace Sys2Proof.Machine

open Sys2Proof

/-! ## A job handed over -/

theorem submit_of_ready {s : State} {r : BnReq} (h : BnReady s r) (c : Cmd) :
    submit s c r = .ok (s.bnQueued c r, s.bn.nextJob) := by
  obtain ⟨hgroup, hrng⟩ := h
  have drawn : ¬ (bnKind r ≠ 1 ∧ s.rngOff = true) := by
    rintro ⟨hkind, hoff⟩
    rcases hrng with single | on
    · exact hkind single
    · rw [on] at hoff
      cases hoff
  simp only [submit, hgroup, Bool.not_true, Bool.false_eq_true, if_false, if_neg drawn, State.bnQueued, newJob]

theorem parkJob_of_ready {s : State} {r : BnReq} (h : BnReady s r) (c : Cmd) :
    parkJob s c r = .park (s.bnQueued c r) c (.waitBn s.bn.nextJob) := by
  simp only [parkJob, submit_of_ready h]

theorem bnRanges_of_in_range {srcs : List (Nat × Nat)} {dst : Nat × Nat} (h : rangeFault true srcs dst = none)
    (f : Unit → StepOut) : bnRanges srcs dst f = f () := by
  simp only [bnRanges, h]

@[simp] theorem countPolicy_bn (s : State) : (countPolicy s).bn = s.bn := rfl

/-! ## The operations -/

section
variable {s : State} {c : Cmd} {a : StepArgs} {algs : List Nat}

/-- The public key of a verification is that of the register, or stands at B. -/
theorem pubKey_of_register {r : KReg} (hp : bit a.param.toNat 8 = false) (key : KeyReady s c a.kreg.toNat 8 algs r)
    (f : Bytes → StepOut) (atB : Unit → Bytes) : pubKey s c a algs f atB = f r.key.mat := by
  rw [pubKey, hp, if_neg Bool.false_ne_true, withKey_of_ready key]

theorem pubKey_of_operand (hp : bit a.param.toNat 8 = true) (f : Bytes → StepOut) (atB : Unit → Bytes) :
    pubKey s c a algs f atB = f (atB ()) := by
  rw [pubKey, if_pos hp]

end

/-- The lengths of the three digests, each with `w` bytes of signature after it. -/
theorem contains_digestLens {l w : Nat} (h : l = 32 + w ∨ l = 48 + w ∨ l = 64 + w) :
    [32 + w, 48 + w, 64 + w].contains l = true := by
  simpa using h

section
variable {s : State} {c : Cmd} {a : StepArgs} {l : Nat} (hl : stepLen c a = some l)
include hl

theorem bnEdSignOp_of_ready {r : KReg} {q : BnReq} (hmax : l ≤ 3072)
    (hr : rangeFault true [(a.aOff.toNat, l)] (a.dOff.toNat, 64) = none) (key : KeyReady s c a.kreg.toNat 7 [7] r)
    (hq : q = { op := 1, size := 0, pss := false, alg := 7, key := r.key.mat, operand := c.rd a.aOff.toNat l, record := [] })
    (bn : BnReady s q) : bnEdSignOp s c a = .park (s.bnQueued c q) c (.waitBn s.bn.nextJob) := by
  subst hq
  simp only [bnEdSignOp, hl, if_neg (show ¬ l > 3072 by omega), bnRanges_of_in_range hr, withKey_of_ready key,
    parkJob_of_ready bn]

/-- ED_VERIFY once its ranges are in place: the job takes the public key from where PARAM names it. -/
theorem bnEdVerifyOp_of_in_range (h64 : 64 ≤ l) (hmax : l ≤ 3072)
    (hr : rangeFault true ((a.aOff.toNat, l) :: (if bit a.param.toNat 8 then [(a.bOff.toNat, 32)] else [])) (0x100, 0) = none) :
    bnEdVerifyOp s c a = pubKey s c a [7] (fun key => parkJob s c
      { op := 2, size := 0, pss := false, alg := 7, key := key, operand := c.rd a.aOff.toNat l, record := [] })
      (fun _ => c.rd a.bOff.toNat 32) := by
  simp only [bnEdVerifyOp, hl, if_neg (show ¬ (l < 64 ∨ l > 3072) by omega), bnRanges_of_in_range hr]

theorem bnEcSignOp_of_ready {r : KReg} {z : Nat} {q : BnReq} (hz : z = bits a.param.toNat 1 0) (hz1 : z ≤ 1)
    (hlen : l = 32 ∨ l = 48 ∨ l = 64)
    (hr : rangeFault true [(a.aOff.toNat, l)] (a.dOff.toNat, if z = 1 then 96 else 64) = none)
    (key : KeyReady s c a.kreg.toNat 7 [9 + z] r)
    (hq : q = { op := 4, size := z, pss := false, alg := 9 + z, key := r.key.mat, operand := c.rd a.aOff.toNat l,
                record := [] })
    (bn : BnReady s q) : bnEcSignOp s c a = .park (s.bnQueued c q) c (.waitBn s.bn.nextJob) := by
  subst hz hq
  have digest : [32, 48, 64].contains l = true := by simpa using hlen
  simp only [bnEcSignOp, hl, if_neg (show ¬ bits a.param.toNat 1 0 > 1 by omega), digest, Bool.not_true, Bool.false_eq_true,
    if_false, bnRanges_of_in_range hr, ecAlg, withKey_of_ready key, parkJob_of_ready bn]

theorem bnEcVerifyOp_of_in_range {z w : Nat} (hz : z = bits a.param.toNat 1 0) (hz1 : z ≤ 1)
    (hw : w = if z = 1 then 96 else 64) (hlen : l = 32 + w ∨ l = 48 + w ∨ l = 64 + w)
    (hr : rangeFault true ((a.aOff.toNat, l) :: (if bit a.param.toNat 8
      then [(a.bOff.toNat, pointLen (byteAt (c.rd a.bOff.toNat 1) 0) z)] else [])) (0x100, 0) = none) :
    bnEcVerifyOp s c a = pubKey s c a [9 + z] (fun key => parkJob s c
      { op := 5, size := z, pss := false, alg := 9 + z, key := key, operand := c.rd a.aOff.toNat l, record := [] })
      (fun _ => c.rd a.bOff.toNat (pointLen (byteAt (c.rd a.bOff.toNat 1) 0) z)) := by
  subst hz hw
  simp only [bnEcVerifyOp, hl, if_neg (show ¬ bits a.param.toNat 1 0 > 1 by omega), contains_digestLens hlen, Bool.not_true,
    Bool.false_eq_true, if_false, bnRanges_of_in_range hr, ecAlg]

theorem bnRsaSignOp_of_ready {r : KReg} {z : Nat} {q : BnReq} (hz : z = bits a.param.toNat 1 0) (hz2 : z ≤ 2)
    (hlen : l = 32 ∨ l = 48 ∨ l = 64) (hr : rangeFault true [(a.aOff.toNat, l)] (a.dOff.toNat, sigBytes z) = none)
    (key : KeyReady s c a.kreg.toNat 7 [11 + z] r)
    (hq : q = { op := 6, size := z, pss := bit a.param.toNat 4, alg := 11 + z, key := r.key.mat,
                operand := c.rd a.aOff.toNat l, record := [] })
    (bn : BnReady s q) : bnRsaSignOp s c a = .park (s.bnQueued c q) c (.waitBn s.bn.nextJob) := by
  subst hz hq
  have digest : [32, 48, 64].contains l = true := by simpa using hlen
  simp only [bnRsaSignOp, hl, if_neg (show ¬ bits a.param.toNat 1 0 > 2 by omega), digest, Bool.not_true,
    Bool.false_eq_true, if_false, bnRanges_of_in_range hr, withKey_of_ready key, parkJob_of_ready bn]

theorem bnRsaVerifyOp_of_in_range {z : Nat} (hz : z = bits a.param.toNat 1 0) (hz2 : z ≤ 2)
    (hlen : l = 32 + sigBytes z ∨ l = 48 + sigBytes z ∨ l = 64 + sigBytes z)
    (hr : rangeFault true ((a.aOff.toNat, l) :: (if bit a.param.toNat 8 then [(a.bOff.toNat, 4 + sigBytes z)] else []))
      (0x100, 0) = none) :
    bnRsaVerifyOp s c a = pubKey s c a [11 + z] (fun key => parkJob s c
      { op := 7, size := z, pss := bit a.param.toNat 4, alg := 11 + z, key := key, operand := c.rd a.aOff.toNat l,
        record := [] }) (fun _ => c.rd a.bOff.toNat (4 + sigBytes z)) := by
  subst hz
  simp only [bnRsaVerifyOp, hl, if_neg (show ¬ bits a.param.toNat 1 0 > 2 by omega), contains_digestLens hlen, Bool.not_true,
    Bool.false_eq_true, if_false, bnRanges_of_in_range hr]

end

section
variable {s : State} {c : Cmd} {a : StepArgs}

/-- X25519 checks the record and the policy of the key to come before the job (R233). -/
theorem bnX25519Op_of_permitted {r : KReg} {x : KeyInfo} {q : BnReq} (hl : stepLen c a = some 32)
    (hr : rangeFault true [(a.aOff.toNat, 32), (a.bOff.toNat, 32)] (0x100, 0) = none)
    (key : KeyReady s c a.kreg.toNat 4 [8] r)
    (hx : deriveKey s c.part { r.key with level := 1 } (c.rd a.bOff.toNat 32) = some x)
    (hpol : policyOk s c x.name x.usage x.alg (roleUse + roleImport) = true)
    (hq : q = { op := 3, size := 0, pss := false, alg := 8, key := r.key.mat, operand := peerU (c.rd a.aOff.toNat 32),
                record := c.rd a.bOff.toNat 32 })
    (bn : BnReady (countPolicy s) q) :
    bnX25519Op s c a = .park ((countPolicy s).bnQueued c q) c (.waitBn s.bn.nextJob) := by
  subst hq
  simp only [bnX25519Op, hl, ne_eq, not_true_eq_false, if_false, bnRanges_of_in_range hr, withKey_of_ready key, hx, hpol,
    Bool.not_true, Bool.false_eq_true, parkJob_of_ready bn, countPolicy_bn]

theorem bnPublicOp_of_ready {r : KReg} {q : BnReq} (key : KeyReady s c a.kreg.toNat r.key.usage [r.key.alg] r)
    (hpub : publicOk r.key = true) (husage : r.key.usage ≠ 3)
    (hr : rangeFault true [] (a.dOff.toNat, publicLen r.key.alg) = none)
    (hq : q = { op := 8, size := if r.key.alg = 10 then 1 else rsaSizeOf r.key.alg, pss := false, alg := r.key.alg,
                key := r.key.mat, operand := [], record := [] })
    (bn : BnReady s q) : bnPublicOp s c a = .park (s.bnQueued c q) c (.waitBn s.bn.nextJob) := by
  subst hq
  obtain ⟨hreg, -, -⟩ := regKey_eq_some.mp key.1
  simp only [bnPublicOp, hreg, hpub, husage, Bool.not_true, Bool.false_eq_true, false_or, if_false,
    bnRanges_of_in_range hr, withKey_of_ready key, parkJob_of_ready bn]

theorem bnGenerateOp_of_curve {q : BnReq} (h7 : 7 ≤ a.imm.toNat) (h10 : a.imm.toNat ≤ 10)
    (husage : generateUsage a.imm.toNat (bits a.param.toNat 3 0) = true)
    (hq : q = { op := 9, size := 0, pss := false, alg := a.imm.toNat, key := [], operand := [], record := [] })
    (bn : BnReady s q) : bnGenerateOp s c a = .park (s.bnQueued c q) c (.waitBn s.bn.nextJob) := by
  subst hq
  have noRsa : isRsa a.imm.toNat = false := by simp only [isRsa, decide_eq_false_iff_not]; omega
  simp only [bnGenerateOp, if_neg (show ¬ (a.imm.toNat < 7 ∨ a.imm.toNat > 13) by omega), husage, noRsa, Bool.not_true,
    Bool.false_eq_true, if_false, parkJob_of_ready bn]

/-- GENERATE of an RSA key, under the key of the register that wraps the new pair (R237). -/
theorem bnGenerateOp_of_rsa {w : KReg} {q : BnReq} (h11 : 11 ≤ a.imm.toNat) (h13 : a.imm.toNat ≤ 13)
    (hr : rangeFault true [(a.bOff.toNat, 21)] (0x100, 0) = none)
    (key : KeyReady s c (bits a.param.toNat 7 4) 3 [1, 2, 3, 4, 5] w)
    (hq : q = { op := 9, size := rsaSizeOf a.imm.toNat, pss := false, alg := a.imm.toNat, key := [], operand := [],
                record := c.rd a.bOff.toNat 21 })
    (bn : BnReady s q) : bnGenerateOp s c a = .park (s.bnQueued c q) c (.waitBn s.bn.nextJob) := by
  subst hq
  have rsa : isRsa a.imm.toNat = true := by simp only [isRsa, decide_eq_true_eq]; omega
  simp only [bnGenerateOp, if_neg (show ¬ (a.imm.toNat < 7 ∨ a.imm.toNat > 13) by omega), generateUsage, rsa, if_true,
    Bool.not_true, Bool.false_eq_true, if_false, bnRanges_of_in_range hr, withKey_of_ready key, parkJob_of_ready bn]

end

/-- Settles O14: each operation hands its job over once its operands are in form; a verification splits on where its public
key stands, and GENERATE on whether it makes an RSA key. -/
theorem bignumStepsComplete : Obligations.BignumStepsComplete := by
  unfold Obligations.BignumStepsComplete
  intro s n k c a h
  refine ⟨?edSign, ?edVerify, ?edVerifyAtB, ?x25519, ?ecSign, ?ecVerify, ?ecVerifyAtB, ?rsaSign, ?rsaVerify, ?rsaVerifyAtB,
    ?publicKey, ?generate, ?generateRsa⟩
  case edSign =>
    exact fun l r q hl hmax hr key hq bn => next_step1_of_park h (bnEdSignOp_of_ready hl hmax hr key hq bn)
  case edVerify =>
    rintro l r _ hl h64 hmax hp hr key rfl bn
    refine next_step1_of_park h ((bnEdVerifyOp_of_in_range hl h64 hmax (by rw [hp]; exact hr)).trans ?_)
    rw [pubKey_of_register hp key, parkJob_of_ready bn]
  case edVerifyAtB =>
    rintro l _ hl h64 hmax hp hr rfl bn
    refine next_step1_of_park h ((bnEdVerifyOp_of_in_range hl h64 hmax (by rw [hp]; exact hr)).trans ?_)
    rw [pubKey_of_operand hp, parkJob_of_ready bn]
  case x25519 =>
    exact fun r x q hl hr key hx hpol hq bn => next_step1_of_park h (bnX25519Op_of_permitted hl hr key hx hpol hq bn)
  case ecSign =>
    exact fun l z r q hl hz hz1 hlen hr key hq bn =>
      next_step1_of_park h (bnEcSignOp_of_ready hl hz hz1 hlen hr key hq bn)
  case ecVerify =>
    rintro l z w r _ hl hz hz1 hw hlen hp hr key rfl bn
    refine next_step1_of_park h ((bnEcVerifyOp_of_in_range hl hz hz1 hw hlen (by rw [hp]; exact hr)).trans ?_)
    rw [pubKey_of_register hp key, parkJob_of_ready bn]
  case ecVerifyAtB =>
    rintro l z w p _ hl hz hz1 hw hlen hp rfl hr rfl bn
    refine next_step1_of_park h ((bnEcVerifyOp_of_in_range hl hz hz1 hw hlen (by rw [hp]; exact hr)).trans ?_)
    rw [pubKey_of_operand hp, parkJob_of_ready bn]
  case rsaSign =>
    exact fun l z r q hl hz hz2 hlen hr key hq bn =>
      next_step1_of_park h (bnRsaSignOp_of_ready hl hz hz2 hlen hr key hq bn)
  case rsaVerify =>
    rintro l z r _ hl hz hz2 hlen hp hr key rfl bn
    refine next_step1_of_park h ((bnRsaVerifyOp_of_in_range hl hz hz2 hlen (by rw [hp]; exact hr)).trans ?_)
    rw [pubKey_of_register hp key, parkJob_of_ready bn]
  case rsaVerifyAtB =>
    rintro l z _ hl hz hz2 hlen hp hr rfl bn
    refine next_step1_of_park h ((bnRsaVerifyOp_of_in_range hl hz hz2 hlen (by rw [hp]; exact hr)).trans ?_)
    rw [pubKey_of_operand hp, parkJob_of_ready bn]
  case publicKey =>
    exact fun r q key hpub husage hr hq bn => next_step1_of_park h (bnPublicOp_of_ready key hpub husage hr hq bn)
  case generate => exact fun q h7 h10 husage hq bn => next_step1_of_park h (bnGenerateOp_of_curve h7 h10 husage hq bn)
  case generateRsa => exact fun w q h11 h13 hr key hq bn => next_step1_of_park h (bnGenerateOp_of_rsa h11 h13 hr key hq bn)

end Sys2Proof.Machine
end

section
/-! PROOFS. The draft opcodes (R88, R110 to R113): the staging area of an image, its checks, and the directory. -/

namespace Sys2Proof.Machine

open Sys2Proof

/-! ## The staging area (R88) -/

theorem withImage_of_holder {s : State} {c : Cmd} (h : s.drafts.holder = some c.place) (f : State → State) :
    withImage s c f = f s :=
  if_pos h

/-- A free area is taken, and the image is asked for. -/
theorem withImage_of_free {s : State} {c : Cmd} (hfree : s.drafts.holder = none) (haddr : imageAddrOk s c = true)
    (hfirst : stagingQueued s c = false) (hlen : c.inl 80 4 ≠ 0) (f : State → State) :
    withImage s c f =
      (({ s with drafts := { s.drafts with holder := some c.place, staging := [] } } : State).send
        (.hostRead (c.inl 72 8) (min (c.inl 80 4) 0x200000))).setCmd { c with phase := .waitImage } := by
  simp only [withImage, hfree, haddr, hfirst, if_neg hlen, reduceCtorEq, Option.isSome_none, Bool.or_self, Bool.not_true,
    Bool.false_eq_true, if_false]

/-! ## Each opcode's rule -/

section
variable {s : State} {c : Cmd} (hquo : c.quorum.isSome = true) (hcan : s.canCommit = true)
include hquo hcan

/-- An image that has been read is installed, or refused with the number of the first check that fails (Table 04.14). -/
theorem draftLoad_of_image (h : s.drafts.holder = some c.place) :
    draftLoad s c = (draftFailure s s.drafts.staging (c.inl 80 4)).elim
      (s.changed (installDraft s s.drafts.staging (nextGen s (fieldLe s.drafts.staging 10 2))) c 0x08 0
        (loadRecord s.drafts.staging (nextGen s (fieldLe s.drafts.staging 10 2))) [])
      (fun n => failDetail s c (draftStatus n) [byte n]) := by
  rw [draftLoad, withImage_of_holder h, withQuorum_of_quorum hquo]
  simp only [draftCommit, commitDone_of_canCommit hcan]
  cases draftFailure s s.drafts.staging (c.inl 80 4) with
  | none => rfl
  | some n => rfl

theorem draftUnload_of_present {d : DirEnt} (hlo : 0x200 ≤ c.inl 72 2) (hhi : c.inl 72 2 ≤ 0x3FF)
    (hd : s.dirEnt? (c.inl 72 2) = some d) (hst : d.state ≠ 0) :
    draftUnload s c = s.changed (unloadDraft s (c.inl 72 2) (nextGen s (c.inl 72 2)) (s.highestVersion (c.inl 72 2))) c 0x08 0
      (unloadRecord (c.inl 72 2) (nextGen s (c.inl 72 2)) (s.highestVersion (c.inl 72 2))) [] := by
  have loaded : ¬ (c.inl 72 2 < 0x200 ∨ c.inl 72 2 > 0x3FF ∨ d.state = 0) := by omega
  simp only [draftUnload, withQuorum_of_quorum hquo, hd, Option.map_some, Option.getD_some, if_neg loaded,
    commitDone_of_canCommit hcan]

theorem draftSignerSet_of_slot (hslot : c.inl 72 1 ≤ 3) :
    draftSignerSet s c = s.changed (setSigner s (c.inl 72 1) (c.inlB 80 32)) c 0x09 0
      (signerRecord (c.inl 72 1) (c.inlB 80 32)) [] := by
  simp only [draftSignerSet, withQuorum_of_quorum hquo, if_neg (show ¬ c.inl 72 1 > 3 by omega),
    commitDone_of_canCommit hcan]

end

theorem draftQuery_of_opcode {c : Cmd} (h : c.inl 72 2 ≤ 0x3FF) (s : State) :
    draftQuery s c = okInline s c (toLe 2 (((s.dirEnt? (c.inl 72 2)).map (fun d => d.state)).getD 0) ++
      toLe 2 (((s.dirEnt? (c.inl 72 2)).map (fun d => d.steps)).getD 0) ++
      toLe 4 (((s.dirEnt? (c.inl 72 2)).map (fun d => d.version)).getD 0) ++
      toLe 4 (((s.dirEnt? (c.inl 72 2)).map (fun d => d.gen)).getD 0) ++ toLe 4 (freeLines s).length) := by
  simp only [draftQuery, if_neg (show ¬ c.inl 72 2 > 0x3FF by omega)]

/-! ## The statement -/

/-- Settles O48: the row of an opcode is its body, which takes the staging area first or holds it already. Where the fields of
DRAFT_QUERY's result stand is the model's choice (notes/assumptions/23.md). -/
theorem draftOpcodesComplete : Obligations.DraftOpcodesComplete := by
  unfold Obligations.DraftOpcodesComplete
  refine ⟨?ask, ?load, ?unload, ?signer, ?query⟩
  case ask =>
    rintro s _ i c h hfree haddr hfirst hlen rfl
    exact congrArg _ ((stewardRow_of_ready h draftLoad).trans (withImage_of_free hfree haddr hfirst hlen _))
  case load =>
    rintro s i _ c h hholder hquo rfl hcan
    exact congrArg _ ((stewardRow_of_ready h draftLoad).trans (draftLoad_of_image hquo hcan hholder))
  case unload =>
    rintro s i _ c d h hquo rfl hlo hhi hd hst hcan
    exact congrArg _ ((stewardRow_of_ready h draftUnload).trans (draftUnload_of_present hquo hcan hlo hhi hd hst))
  case signer =>
    rintro s i _ c h hquo rfl hslot hcan
    exact congrArg _ ((stewardRow_of_ready h draftSignerSet).trans (draftSignerSet_of_slot hquo hcan hslot))
  case query =>
    intro s i c h hop
    exact congrArg _ ((stewardRow_of_ready h draftQuery).trans (draftQuery_of_opcode hop s))

end Sys2Proof.Machine
end

section
/-! PROOFS. The registers that the exception FIFO rests on (R13, R16, R114): who writes TRD.EXCPOP, TRD.RSTATUS and
TRD.RESUME, and a treadle whose loom is off. -/

namespace Sys2Proof.Machine

open Sys2Proof

/-! ## Register `o` of treadle `n` -/

/-- The address of register `o` of treadle `n` on the internal interconnect (Table 01.3). -/
def trdAddr (n o : Nat) : Nat := 0x100A0800 + 0x1000 * n + o

section
variable {n o : Nat} (hn : n < 16) (ho : o < 0x800)
include hn ho

theorem blockOf_trdAddr : blockOf (trdAddr n o) = 10 := by
  simp only [blockOf, trdAddr]
  omega

theorem instanceOf_trdAddr : instanceOf (blockOff (trdAddr n o)) = some (n, o) := by
  have hoff : blockOff (trdAddr n o) = 0x1000 * n + (0x800 + o) := by
    simp only [blockOff, trdAddr]
    omega
  have treadle : (0x1000 * n + (0x800 + o)) / 0x1000 = n := by omega
  have register : (0x1000 * n + (0x800 + o)) % 0x1000 = 0x800 + o := by omega
  rw [hoff, instanceOf, register, treadle, if_pos (by omega), Nat.add_sub_cancel_left]

/-- The registers of a treadle stand in its loom's domain (R16). -/
theorem State.regOn_trdAddr (s : State) : s.regOn (trdAddr n o) = s.powered (n + 1) := by
  simp only [State.regOn, regDomain, blockOf_trdAddr hn ho, instanceOf_trdAddr hn ho, Option.map_some, Option.getD_some]

theorem regAdmits_trdAddr (s : State) (w : Writer) :
    regAdmits s w (trdAddr n o) = (!(o == 0 || o == 0x20 || o == 0x24 || o == 0x28) || Writer.priv w) := by
  simp only [regAdmits, blockOf_trdAddr hn ho, instanceOf_trdAddr hn ho]

/-- A write of all four bytes keeps none of the register's own. -/
theorem regWrite_trdAddr_of_word (w : Writer) {v : Nat} (hv : v < 2 ^ 32) (s : State) :
    regWrite w (trdAddr n o) v 0xFFFFFFFF s = trdBlockWrite (blockOff (trdAddr n o)) v s := by
  have whole : mergeWord s (trdAddr n o) v 0xFFFFFFFF = v := by
    simp only [mergeWord, Nat.xor_self, Nat.and_zero, Nat.or_zero]
    exact (Nat.and_two_pow_sub_one_eq_mod v 32).trans (Nat.mod_eq_of_lt hv)
  simp only [regWrite, blockOf_trdAddr hn ho, whole]

end

/-! ## An access of one register -/

theorem wordsOf_word {a : Nat} (h : a % 4 = 0) : wordsOf a 4 = [a] := by
  have one : (a + 4 + 3) / 4 - a / 4 = 1 := by omega
  have start : 4 * (a / 4) = a := by omega
  simp [wordsOf, one, start]

/-- A write of one whole register gives it the value, all its bytes written. -/
theorem wordPart_word (a v : Nat) (hv : v < 2 ^ 32) : wordPart a 4 v a = (v, 0xFFFFFFFF) := by
  have here (i : Nat) (hi : i < 4) : decide (a ≤ a + i ∧ a + i < a + 4) = true := by
    simp only [decide_eq_true_eq]
    omega
  simp only [wordPart, List.range_succ, List.range_zero, List.nil_append, List.map_append, List.map_cons, List.map_nil, here,
    List.sum_append, List.sum_cons, List.sum_nil, Nat.reduceLT, if_true, Nat.add_sub_cancel_left]
  refine Prod.ext ?value ?mask
  case value =>
    change v / 256 ^ 0 % 256 * 256 ^ 0 + 0 + (v / 256 ^ 1 % 256 * 256 ^ 1 + 0) + (v / 256 ^ 2 % 256 * 256 ^ 2 + 0) +
      (v / 256 ^ 3 % 256 * 256 ^ 3 + 0) = v
    omega
  case mask => rfl

/-- A write of one register by a master of the internal interconnect (R13, R16). -/
theorem registerWrite_word {w : Writer} (hw : ∀ fn, w ≠ .host fn ∧ w ≠ .hostPoisoned fn) {a : Nat} (h4 : a % 4 = 0)
    (lo : 0x10000000 ≤ a) (hi : a + 3 ≤ 0x1014FFFF) (v : Nat) (s : State) :
    registerWrite w a 4 v s =
      if s.regOn a = false then s.send (.error a)
      else if regAdmits s w a = false then s.denyWrite w a 4
      else regWrite w a (wordPart a 4 v a).1 (wordPart a 4 v a).2 s := by
  have inRegs : ¬ (4 = 0 ∨ 4 > 8 ∨
      (!(within a 0x10000000 0x1014FFFF && within (a + 4 - 1) 0x10000000 0x1014FFFF)) = true) := by
    simp only [within, Bool.not_eq_true', Bool.and_eq_false_iff, decide_eq_false_iff_not]
    omega
  have reach : registerWrite w a 4 v s = writeRegs w a 4 v s := by
    cases w with
    | host fn => exact absurd rfl (hw fn).1
    | hostPoisoned fn => exact absurd rfl (hw fn).2
    | steward _ _ | debug | master _ => exact if_neg inRegs
  rw [reach]
  simp [writeRegs, wordsOf_word h4]

section
variable {w : Writer} (hw : ∀ fn, w ≠ .host fn ∧ w ≠ .hostPoisoned fn) {n o : Nat} (hn : n < 16) (ho : o < 0x800)
  (h4 : o % 4 = 0)
include hw hn ho h4

theorem registerWrite_trdAddr (v : Nat) (s : State) :
    registerWrite w (trdAddr n o) 4 v s =
      if s.powered (n + 1) = false then s.send (.error (trdAddr n o))
      else if (!(o == 0 || o == 0x20 || o == 0x24 || o == 0x28) || Writer.priv w) = false then s.denyWrite w (trdAddr n o) 4
      else regWrite w (trdAddr n o) (wordPart (trdAddr n o) 4 v (trdAddr n o)).1
        (wordPart (trdAddr n o) 4 v (trdAddr n o)).2 s := by
  have aligned : trdAddr n o % 4 = 0 := by simp only [trdAddr]; omega
  have lo : 0x10000000 ≤ trdAddr n o := by simp only [trdAddr]; omega
  have hi : trdAddr n o + 3 ≤ 0x1014FFFF := by simp only [trdAddr]; omega
  rw [registerWrite_word hw aligned lo hi, State.regOn_trdAddr hn ho, regAdmits_trdAddr hn ho]

theorem registerWrite_trdAddr_of_off {s : State} (off : s.powered (n + 1) = false) (v : Nat) :
    registerWrite w (trdAddr n o) 4 v s = s.send (.error (trdAddr n o)) := by
  rw [registerWrite_trdAddr hw hn ho h4, if_pos off]

end

section
variable {s : State} {n : Nat} (hn : n < 16) (on : s.powered (n + 1) = true)
include hn on

/-- A register that the exception FIFO rests on takes no write but of privileged steward code (R114). -/
theorem registerWrite_trdAddr_of_unprivileged {w : Writer} (hw : ∀ fn, w ≠ .host fn ∧ w ≠ .hostPoisoned fn) {o : Nat}
    (ho : o = 0x20 ∨ o = 0x24 ∨ o = 0x28) (priv : Writer.priv w = false) (v : Nat) :
    registerWrite w (trdAddr n o) 4 v s = s.denyWrite w (trdAddr n o) 4 := by
  have refused : (!(o == 0 || o == 0x20 || o == 0x24 || o == 0x28) || Writer.priv w) = false := by
    rcases ho with rfl | rfl | rfl
    all_goals rw [priv]; rfl
  rw [registerWrite_trdAddr hw hn (by omega) (by omega), if_neg (by simp [on]), if_pos refused]

theorem registerWrite_trdAddr_of_steward {o : Nat} (ho : o < 0x800) (h4 : o % 4 = 0) {v : Nat} (hv : v < 2 ^ 32) (i : Nat) :
    registerWrite (.steward i true) (trdAddr n o) 4 v s = trdBlockWrite (blockOff (trdAddr n o)) v s := by
  have internal (fn : Nat) : Writer.steward i true ≠ .host fn ∧ Writer.steward i true ≠ .hostPoisoned fn := by simp
  rw [registerWrite_trdAddr internal hn ho h4, if_neg (by simp [on]), if_neg (by simp [Writer.priv]),
    wordPart_word _ _ hv, regWrite_trdAddr_of_word hn ho _ hv]

end

theorem trdWrite_of_off {s : State} {n : Nat} (off : s.powered (n + 1) = false) (w : Writer) (o : Nat) (f : State → State) :
    trdWrite w n o s f = s.send (.error (trdAddr n o)) := by
  simp only [trdWrite, off, Bool.not_false, if_true, trdAddr]

theorem trdWrite_of_unprivileged {s : State} {n : Nat} {w : Writer} (on : s.powered (n + 1) = true)
    (priv : Writer.priv w = false) (o : Nat) (f : State → State) :
    trdWrite w n o s f = s.denyWrite w (trdAddr n o) 4 := by
  simp only [trdWrite, on, priv, Bool.not_true, Bool.not_false, Bool.false_eq_true, if_false, if_true, trdAddr]

/-! ## The statement -/

/-- Settles O58: a write of one register splits on the loom's power, then on the writer; the rows of EXCPOP and RESUME are
writes of those registers. -/
theorem onlyStewardsWriteTheExceptionRegisters : Obligations.OnlyStewardsWriteTheExceptionRegisters := by
  unfold Obligations.OnlyStewardsWriteTheExceptionRegisters
  refine ⟨?others, ?otherRows, ?steward, ?off, ?offRows⟩
  case others =>
    exact fun s w n o v hn hw ho on priv => congrArg _ (registerWrite_trdAddr_of_unprivileged hn on hw ho priv v)
  case otherRows =>
    exact fun s w n v on priv =>
      ⟨congrArg _ (trdWrite_of_unprivileged on priv 0x20 _), congrArg _ (trdWrite_of_unprivileged on priv 0x28 _)⟩
  case steward =>
    intro s i n v hn on hv
    have write (o : Nat) (ho : o < 0x800) (h4 : o % 4 = 0) (t : State)
        (ht : trdBlockWrite (blockOff (trdAddr n o)) v s = t) :
        exec (.registerWrite (.steward i true) (trdAddr n o) 4 v) s = .next t :=
      congrArg _ ((registerWrite_trdAddr_of_steward hn on ho h4 hv i).trans ht)
    refine ⟨write 0x20 (by decide) (by decide) _ ?_, write 0x24 (by decide) (by decide) _ ?_,
      write 0x28 (by decide) (by decide) _ ?_⟩
    · simp only [trdBlockWrite, instanceOf_trdAddr hn (show 0x20 < 0x800 by decide)]
    · simp only [trdBlockWrite, instanceOf_trdAddr hn (show 0x24 < 0x800 by decide)]
    · simp only [trdBlockWrite, instanceOf_trdAddr hn (show 0x28 < 0x800 by decide)]
  case off =>
    exact fun s w n o v hn hw ho h4 off => congrArg _ (registerWrite_trdAddr_of_off hw hn ho h4 off v)
  case offRows =>
    exact fun s w n v off => ⟨congrArg _ (trdWrite_of_off off w 0x20 _), congrArg _ (trdWrite_of_off off w 0x28 _)⟩

end Sys2Proof.Machine
end

section
/-! PROOFS. The opcodes of key agreement, RSA key transport and key generation (R231, R233, R234, R236, R237), and the run of a
customer draft (R104, R113). -/

namespace Sys2Proof.Machine

open Sys2Proof

/-! ## Vendor drafts of KIND LOOM -/

/-- Nothing holds back a draft whose command can go on. -/
theorem loomRow_of_ready {s : State} {n k op : Nat} {c : Cmd} (h : LoomReady s n k op c) (body : State → Cmd → State) :
    loomRow s n k op body = body s c := by
  obtain ⟨hc, hop, hab, hph⟩ := h
  cases hp : c.phase with
  | ready => simp only [loomRow, hc, hop, hp, hab, ne_eq, not_true_eq_false, Bool.false_eq_true, if_false]
  | committed j => simp only [loomRow, hc, hop, hp, ne_eq, not_true_eq_false, if_false]
  | bnDone j flag out => simp only [loomRow, hc, hop, hp, hab, ne_eq, not_true_eq_false, Bool.false_eq_true, if_false]
  | _ =>
    rw [hp] at hph
    cases hph

/-- An opcode that needs no symmetric core goes on with its keys. -/
theorem asymKeys_of_keys {s s1 : State} {c c1 : Cmd} {l : List (Nat × Nat × Nat)} (h : KeysIn s c l s1 c1)
    (f : State → Cmd → State) : asymKeys s c false l f = f s1 c1 := by
  simp only [asymKeys, withKeys, Bool.false_and, h, Bool.not_false, if_true]

theorem useKey_of_ready {s : State} {c : Cmd} {reg : Nat} {x : KReg} (h : RegReady s c reg x) (f : KReg → State) :
    useKey s c reg f = f x := by
  obtain ⟨hreg, hecc⟩ := h
  simp only [useKey, hreg, hecc]

/-- The first call hands the job over, and the call after its end has the result. -/
theorem rowJob_of_ready {s : State} {c : Cmd} {r : BnReq} (hph : c.phase = .ready) (bn : BnReady s r)
    (f : Bool → Bytes → State) : rowJob s c r f = s.jobWaits c r := by
  simp only [rowJob, hph, submit_of_ready bn, State.jobWaits]

theorem rowJob_of_done {c : Cmd} {j : Nat} {flag : Bool} {out : Bytes} (hph : c.phase = .bnDone j flag out) (s : State)
    (r : BnReq) (f : Bool → Bytes → State) : rowJob s c r f = f flag out := by
  simp only [rowJob, hph]

theorem Cmd.fresh_of_ready {c : Cmd} (h : c.phase = .ready) : c.fresh = true := by
  simp only [Cmd.fresh, h]

theorem Cmd.fresh_of_done {c : Cmd} {j : Nat} {flag : Bool} {out : Bytes} (h : c.phase = .bnDone j flag out) :
    c.fresh = false := by
  simp only [Cmd.fresh, h]

/-! ## X25519 agreement (R233) -/

section
variable {s s1 s2 : State} {c c1 : Cmd} {x : KReg} {ch : KeyInfo} (hcount : countOk c 1 = true)
  (hlen : (c.own false).length = 32) (keys : KeysIn s c [(0, 4, 2 ^ 8)] s1 c1) (reg : RegReady s1 c1 0 x)
  (hch : deriveKey s1 c1.part { x.key with level := 1 } (c.own false) = some ch)
  (hs2 : s2 = if c1.fresh = true then countPolicy s1 else s1)
include hcount hlen keys reg hch hs2

theorem x25519Agree_of_permitted {r : BnReq}
    (hr : r = { op := 3, size := 0, pss := false, alg := 8, key := x.key.mat, operand := peerU (c1.inlB 72 32),
                record := c.own false })
    (hph : c1.phase = .ready) (hpol : policyOk s1 c1 ch.name ch.usage ch.alg (roleUse + roleImport) = true)
    (bn : BnReady s2 r) : x25519Agree s c = s2.jobWaits c1 r := by
  subst hs2 hr
  simp only [x25519Agree, hcount, hlen, Bool.not_true, Bool.false_eq_true, ne_eq, not_true_eq_false, if_false,
    asymKeys_of_keys keys, useKey_of_ready reg, hch, hpol, and_false, rowJob_of_ready hph bn]

theorem x25519Agree_of_forbidden (hph : c1.phase = .ready)
    (hpol : policyOk s1 c1 ch.name ch.usage ch.alg (roleUse + roleImport) = false) :
    x25519Agree s c = s2.retire c1 0x2001 := by
  subst hs2
  simp only [x25519Agree, hcount, hlen, Bool.not_true, Bool.false_eq_true, ne_eq, not_true_eq_false, if_false,
    asymKeys_of_keys keys, useKey_of_ready reg, hch, hpol, Bool.not_false, and_true, Cmd.fresh_of_ready hph, if_true]

/-- The agreed key takes its place in the cache, or its record does not fit it. -/
theorem x25519Agree_of_done {j : Nat} {f : Bool} {z : Bytes} (hph : c1.phase = .bnDone j f z) :
    x25519Agree s c = (agreedKey s2 c1.part x.key z (c.own false)).elim (s2.retire c1 0x1003)
      (fun y => giveKey s2 c1 (agreeAsk x 1 (peerU (c1.inlB 72 32)) (c.own false) y) y 10) := by
  have counted : s2 = s1 := by rw [hs2, Cmd.fresh_of_done hph, if_neg Bool.false_ne_true]
  subst counted
  simp only [x25519Agree, hcount, hlen, Bool.not_true, Bool.false_eq_true, ne_eq, not_true_eq_false, if_false,
    asymKeys_of_keys keys, useKey_of_ready reg, hch, Cmd.fresh_of_done hph, false_and, rowJob_of_done hph]
  cases agreedKey s2 c1.part x.key z (c.own false) with
  | none => rfl
  | some y => rfl

end

/-! ## RSA key transport (R234) -/

section
variable {s s1 s2 : State} {z : Nat} {c c1 : Cmd} {x w : KReg} (hrefs : c.krefs = 3)
  (keys : KeysIn s c [(0, ownUsage s c 0, 0x7E), (1, 3, 2 ^ (11 + z))] s1 c1) (reg : RegReady s1 c1 0 x)
  (wrap : RegReady s1 c1 1 w) (hpub : w.key.rsaPriv = false) (hs2 : s2 = if c1.fresh = true then countPolicy s1 else s1)
include hrefs keys reg wrap hpub hs2

theorem rsaKeyWrap_of_ready {r : BnReq}
    (hr : r = { op := 0x20, size := z, pss := false, alg := 11 + z, key := w.key.mat, operand := x.key.mat,
                record := transportRecord x.key })
    (hph : c1.phase = .ready) (hexp : exportOk s1 c1 x = true) (bn : BnReady s2 r) :
    rsaKeyWrap z s c = s2.jobWaits c1 r := by
  subst hs2 hr
  simp only [rsaKeyWrap, hrefs, ne_eq, not_true_eq_false, if_false, asymKeys_of_keys keys, useKey_of_ready reg,
    useKey_of_ready wrap, hpub, hexp, Bool.not_true, Bool.false_eq_true, and_false, rowJob_of_ready hph bn]

theorem rsaKeyWrap_of_done {j : Nat} {f : Bool} {out : Bytes} (hph : c1.phase = .bnDone j f out) :
    rsaKeyWrap z s c = doneWith s2 c1 [] out := by
  subst hs2
  simp only [rsaKeyWrap, hrefs, ne_eq, not_true_eq_false, if_false, asymKeys_of_keys keys, useKey_of_ready reg,
    useKey_of_ready wrap, hpub, Bool.false_eq_true, Cmd.fresh_of_done hph, false_and, rowJob_of_done hph]

end

section
variable {s s1 : State} {z : Nat} {c c1 : Cmd} {p : KReg} {b : Bytes} (hrefs : c.krefs = 2) (hb : b = c.own false)
  (hlen : b.length = sigBytes z + 32) (keys : KeysIn s c [(0, 3, 2 ^ (11 + z))] s1 c1) (reg : RegReady s1 c1 0 p)
  (hpriv : p.key.rsaPriv = true)
include hrefs hb hlen keys reg hpriv

theorem rsaKeyUnwrap_of_ready {r : BnReq}
    (hr : r = { op := 0x21, size := z, pss := false, alg := 11 + z, key := p.key.mat, operand := b.take (sigBytes z),
                record := b.drop (sigBytes z) })
    (hph : c1.phase = .ready) (bn : BnReady s1 r) : rsaKeyUnwrap z s c = s1.jobWaits c1 r := by
  subst hb hr
  simp only [rsaKeyUnwrap, hrefs, hlen, ne_eq, not_true_eq_false, if_false, asymKeys_of_keys keys, useKey_of_ready reg,
    hpriv, Bool.not_true, Bool.false_eq_true, rowJob_of_ready hph bn]

theorem rsaKeyUnwrap_of_done {j : Nat} {f : Bool} {m : Bytes} (hph : c1.phase = .bnDone j f m) :
    rsaKeyUnwrap z s c = s1.unwrapped c1 p b (transportKey s1 c1 (b.drop (sigBytes z)) m) := by
  subst hb
  simp only [rsaKeyUnwrap, hrefs, hlen, ne_eq, not_true_eq_false, if_false, asymKeys_of_keys keys, useKey_of_ready reg,
    hpriv, Bool.not_true, Bool.false_eq_true, rowJob_of_done hph]
  cases transportKey s1 c1 ((c.own false).drop (sigBytes z)) m with
  | error st => rfl
  | ok k => rfl

end

/-! ## Generation (R236, R237) -/

section
variable {s s1 : State} {c c1 : Cmd}
  (hpar : generateParams c (decide (7 ≤ c.inl 72 1 ∧ c.inl 72 1 ≤ 10) && generateUsage (c.inl 72 1) (c.inl 73 1)) = true)
include hpar

theorem asymGenerate_of_committed {h : Nat} (hph : c.phase = .committed h) :
    asymGenerate s c = doneWith s c (toLe 4 h ++ toLe 2 (publicLen (c.inl 72 1)) ++
      toLe 2 ((stashed c).length - publicLen (c.inl 72 1))) (stashed c) := by
  simp only [asymGenerate, hpar, Bool.not_true, Bool.false_eq_true, if_false, hph]

variable (keys : KeysIn s c (if bit (c.inl 77 1) 1 then [(0, 3, wrapMask)] else []) s1 c1)
include keys

theorem asymGenerate_of_ready {r : BnReq}
    (hr : r = { op := 9, size := 0, pss := false, alg := c.inl 72 1, key := [], operand := [], record := [] })
    (hph : c.phase = .ready) (hph1 : c1.phase = .ready) (bn : BnReady s1 r) : asymGenerate s c = s1.jobWaits c1 r := by
  subst hr
  simp only [asymGenerate, hpar, Bool.not_true, Bool.false_eq_true, if_false, hph, asymKeys_of_keys keys,
    rowJob_of_ready hph1 bn]

/-- The new key pair enters register 1, and its block and its store follow. -/
theorem asymGenerate_of_done {j : Nat} {f : Bool} {m : Bytes} {y : KeyInfo} {s3 : State} {c3 : Cmd} {o : Option Way}
    (hph : c.phase = .bnDone j f m) (hph1 : c1.phase = .bnDone j f m) (hy : y = generateInfo c1 m)
    (hplace : placeNew (s1.drawn 32) c1 (generatedAsk s1 1 y) y = (s3, c3, o)) :
    asymGenerate s c = generateExport s3 c3 y (publicOf y) (fun s4 c4 => generateStore s4 c4 1 (fun h e =>
      doneWith s4 e (toLe 4 h ++ toLe 2 (publicLen (c.inl 72 1)) ++
        toLe 2 ((stashed e).length - publicLen (c.inl 72 1))) (stashed e))) := by
  subst hy
  simp only [asymGenerate, hpar, Bool.not_true, Bool.false_eq_true, if_false, hph, asymKeys_of_keys keys,
    rowJob_of_done hph1, hplace]

end

section
variable {s s1 : State} {z : Nat} {c c1 : Cmd} {w : KReg} {head : Bytes} (hrefs : c.krefs = 1)
  (hku : c.inlB 72 2 = ascii "S0" ∨ c.inlB 72 2 = ascii "D1") (hexp : byte (c.inl 74 1) ∈ expChars)
  (hres : reserved c 75 5 = true) (hres2 : reserved c 98 30 = true) (hver : c.inl 88 4 ≤ 99)
  (hhead : head = c.inlB 72 3 ++ c.inlB 80 18) (keys : KeysIn s c [(0, 3, wrapMask)] s1 c1) (reg : RegReady s1 c1 0 w)
include hrefs hku hexp hres hres2 hver hhead keys reg

/-- RSA_GENERATE with its fields in form: the job, then the block of the new key under the KBPK. -/
theorem rsaGenerate_of_keys : rsaGenerate z s c =
    rowJob s1 c1 { op := 9, size := z, pss := false, alg := 11 + z, key := [], operand := [], record := head }
      (fun _ m => doneWith (s1.drawn (fieldPad (versionOf w.key.alg) (11 + z) m)) c1
        (toLe 2 (rsaBlock w.key (11 + z) head m (s1.draws (fieldPad (versionOf w.key.alg) (11 + z) m))).length)
        (rsaBlock w.key (11 + z) head m (s1.draws (fieldPad (versionOf w.key.alg) (11 + z) m)))) := by
  have usage : (c.inlB 72 2 == ascii "S0" || c.inlB 72 2 == ascii "D1") = true := by simpa using hku
  have exportable : expChars.contains (byte (c.inl 74 1)) = true := by simpa using hexp
  subst hhead
  simp only [rsaGenerate, hrefs, usage, exportable, hres, hres2, if_neg (show ¬ c.inl 88 4 > 99 by omega), ne_eq,
    not_true_eq_false, Bool.not_true, Bool.false_eq_true, false_or, asymKeys_of_keys keys, useKey_of_ready reg]

end

/-! ## Customer drafts (R104, R113) -/

section
variable {s s1 : State} {n k j : Nat} {c d : Cmd} (hc : s.draftReady n k = some c) (hj : nextShed s n = some j)
  (hd : s.draftReady n j = some d) (hs1 : s1 = draftStep s n j d)
include hc hj hd hs1

/-- The shed whose turn it is issues one step; the run goes on while the named command has steps to issue. -/
theorem draftRun_succ (fuel : Nat) : draftRun (fuel + 1) s n k =
    (s1.draftReady n k).elim s1 (fun c1 => if j = k ∧ c1.count = c.count then s1 else draftRun fuel s1 n k) := by
  have issued : (if j = k then c else (s.draftReady n j).getD c) = d := by
    split
    case isTrue same =>
      subst same
      exact Option.some.inj (hc.symm.trans hd)
    case isFalse => rw [hd, Option.getD_some]
  simp only [draftRun, hc, hj, issued, ← hs1]
  cases s1.draftReady n k with
  | none => rfl
  | some c1 => rfl

theorem customerDraft_of_ready (hcmd : s.cmd? (.shed n k) = some c) (hop : 0x200 ≤ c.opcode) : customerDraft n k s =
    (s1.draftReady n k).elim s1 (fun c1 => if j = k ∧ c1.count = c.count then s1 else draftRun 262175 s1 n k) := by
  have issues : 32 * 8193 = 262175 + 1 := rfl
  simp only [customerDraft, hcmd, if_neg (show ¬ c.opcode < 0x200 by omega), issues]
  exact draftRun_succ hc hj hd hs1 262175

end

/-! ## The statement -/

/-- Settles O56: an opcode's row is its body, which hands its job over on the first call and goes on with the result when it is
sent again; a customer draft issues one step and then runs on. That a finished generation ends when its row is sent again, and
that a customer opcode runs the treadle's drafts in turn, are the model's readings (notes/assumptions/37.md,
notes/assumptions/70.md). -/
theorem keyAgreementOpcodesComplete : Obligations.KeyAgreementOpcodesComplete := by
  unfold Obligations.KeyAgreementOpcodesComplete
  refine ⟨?agree, ?wrap, ?unwrap, ?generate, ?generateRsa, ?customer, ?issue⟩
  case agree =>
    intro s s1 s2 n k c c1 x r ch h hcount hlen keys reg hch hs2 hr
    have row := loomRow_of_ready h x25519Agree
    exact ⟨fun hph hpol bn =>
        congrArg _ (row.trans (x25519Agree_of_permitted hcount hlen keys reg hch hs2 hr hph hpol bn)),
      fun hph hpol => congrArg _ (row.trans (x25519Agree_of_forbidden hcount hlen keys reg hch hs2 hph hpol)),
      fun j f z hph => congrArg _ (row.trans (x25519Agree_of_done hcount hlen keys reg hch hs2 hph))⟩
  case wrap =>
    intro s s1 s2 n k z c c1 x w r hrefs keys reg wrap hpub hs2 hr
    have handsOver := rsaKeyWrap_of_ready hrefs keys reg wrap hpub hs2 hr
    have ends := fun (j : Nat) (f : Bool) (out : Bytes) (hph : c1.phase = .bnDone j f out) =>
      rsaKeyWrap_of_done hrefs keys reg wrap hpub hs2 hph
    refine ⟨?_, ?_, ?_⟩
    all_goals
      rintro rfl h
      exact ⟨fun hph hexp bn => congrArg _ ((loomRow_of_ready h _).trans (handsOver hph hexp bn)),
        fun j f out hph => congrArg _ ((loomRow_of_ready h _).trans (ends _ _ _ hph))⟩
  case unwrap =>
    intro s s1 n k z c c1 p b r hrefs hb hlen keys reg hpriv hr
    have handsOver := rsaKeyUnwrap_of_ready hrefs hb hlen keys reg hpriv hr
    have ends := fun (j : Nat) (f : Bool) (m : Bytes) (hph : c1.phase = .bnDone j f m) =>
      rsaKeyUnwrap_of_done hrefs hb hlen keys reg hpriv hph
    refine ⟨?_, ?_, ?_⟩
    all_goals
      rintro rfl h
      exact ⟨fun hph bn => congrArg _ ((loomRow_of_ready h _).trans (handsOver hph bn)),
        fun j f m hph => congrArg _ ((loomRow_of_ready h _).trans (ends _ _ _ hph))⟩
  case generate =>
    rintro s s1 n k _ c c1 r h rfl hpar keys hr
    have row := loomRow_of_ready h asymGenerate
    exact ⟨fun o hph => congrArg _ (row.trans (asymGenerate_of_committed hpar hph)),
      fun hph hph1 bn => congrArg _ (row.trans (asymGenerate_of_ready hpar keys hr hph hph1 bn)),
      fun j f m y s3 c3 o hph hph1 hy hplace =>
        congrArg _ (row.trans (asymGenerate_of_done hpar keys hph hph1 hy hplace))⟩
  case generateRsa =>
    intro s s1 n k z c c1 w r head hrefs hku hexp hres hres2 hver hhead keys reg hr
    subst hr
    have job := rsaGenerate_of_keys (z := z) hrefs hku hexp hres hres2 hver hhead keys reg
    refine ⟨?_, ?_, ?_⟩
    all_goals
      rintro rfl h
      refine ⟨fun hph bn => congrArg _ ((loomRow_of_ready h _).trans (job.trans (rowJob_of_ready hph bn _))), ?_⟩
      rintro j f m _ _ hph rfl rfl
      exact congrArg _ ((loomRow_of_ready h _).trans (job.trans (rowJob_of_done hph _ _ _)))
  case customer =>
    intro s s1 n k j c d hcmd hop hc hj hd hs1
    have run := customerDraft_of_ready hc hj hd hs1 hcmd hop
    refine ⟨fun hgone => ?parked, fun c1 hc1 same hcount => ?stuck, fun c1 hc1 hmoved => ?moved⟩
    case parked => exact congrArg _ (run.trans (by rw [hgone, Option.elim_none]))
    case stuck => exact congrArg _ (run.trans (by rw [hc1, Option.elim_some, if_pos ⟨same, hcount⟩]))
    case moved =>
      have goesOn : ¬ (j = k ∧ c1.count = c.count) := by omega
      exact congrArg _ (run.trans (by rw [hc1, Option.elim_some, if_neg goesOn]))
  case issue =>
    intro s n k w c hw
    rw [draftStep, hw, Option.getD_some]

end Sys2Proof.Machine
end

section
/-! PROOFS. The opcodes on objects, cache entries and key blocks (R137, R146, R162, R210 to R213, R263): drafts with an EXC
step, what a vendor draft needs of its keys, random numbers and commits, then each opcode's own rule. -/

namespace Sys2Proof.Machine

open Sys2Proof

/-! ## Drafts with an EXC step (R107) -/

section
variable {s : State} {n k op : Nat} {c : Cmd} (hc : s.cmd? (.shed n k) = some c) (hop : c.opcode = op)
  (hab : c.abort = false)
include hc hop hab

theorem excRow_of_ready (hph : c.phase = .ready) (draft serve : State → Cmd → State) :
    excRow s n k op draft serve = draft s c := by
  simp only [excRow, hc, hop, hph, hab, ne_eq, not_true_eq_false, Bool.false_eq_true, if_false]

theorem excRow_of_parked {a b : Nat} (hph : c.phase = .parked a b) (hup : s.stewardsUp = true)
    (draft serve : State → Cmd → State) : excRow s n k op draft serve = serve s c := by
  simp only [excRow, hc, hop, hph, hab, hup, ne_eq, not_true_eq_false, Bool.not_true, Bool.false_eq_true, or_self, if_false]

end

/-! ## Objects (R137, R146, R263) -/

theorem resolveThenExc_of_gone {s : State} {c : Cmd} (h : s.liveObj c.part (c.inl 72 4) = none) :
    resolveThenExc s c = s.retire c 0x3001 := by
  rw [resolveThenExc, h]

theorem resolveThenExc_of_live {s : State} {c : Cmd} {n k : Nat} {o : Obj} (hplace : c.place = .shed n k)
    (h : s.liveObj c.part (c.inl 72 4) = some o) :
    resolveThenExc s c = s.parkExc n k c noArgs 8 (Config.serviceCode c.opcode % 65536) := by
  simp only [resolveThenExc, h, excStep, hplace]

theorem withQuorum_of_no_quorum {c : Cmd} (h : c.quorum = none) (s f : State) : withQuorum s c f = s.quorumWaits c :=
  if_neg (by simp [h])

section
variable {s : State} {c : Cmd}

theorem objQuery_of_first (h0 : c.idx = 0) : objQuery s c = resolveThenExc s c := if_pos h0

theorem objQuery_of_resumed (h0 : c.idx ≠ 0) : objQuery s c = doneWith s c [] (c.rd 0x100 40) := if_neg h0

theorem serveQuery_of_live {o : Obj} (h : s.liveObj c.part (c.inl 72 4) = some o) :
    serveQuery s c = s.setCmd (c.wr 0x100 (sl (s.objBody o) 0 40)) := by
  rw [serveQuery, h]

theorem objDelete_of_first (h0 : c.idx = 0) (hph : c.phase = .ready) (hquo : c.quorum = none) :
    objDelete s c = resolveThenExc s c := by
  simp only [objDelete, h0, hph, hquo, ne_eq, not_true_eq_false, Option.isSome_none, Bool.false_eq_true, if_false]

/-- The service goes on for a command whose quorum has passed. -/
theorem objDelete_of_quorum (h0 : c.idx = 0) (hph : c.phase = .ready) (hquo : c.quorum.isSome = true) :
    objDelete s c = serveDelete s c := by
  simp only [objDelete, h0, hph, hquo, ne_eq, not_true_eq_false, if_false, if_true]

theorem objDelete_of_resumed (h0 : c.idx ≠ 0) : objDelete s c = doneWith s c [] [] := if_pos h0

section
variable {d : Cmd} {o : Obj} (hd : d = { c with pend := none }) (hlive : s.liveObj c.part (c.inl 72 4) = some o)
include hd hlive

theorem serveDelete_of_live : serveDelete s c =
    if deleteQuorum s d o = 0 then requestDelete s d o else withQuorum s d (requestDelete s d o) := by
  subst hd
  have live : s.liveObj c.part (Cmd.inl { c with pend := none } 72 4) = some o := hlive
  simp only [serveDelete, live]

/-- No quorum is demanded, or it has passed: the tombstone is requested. -/
theorem serveDelete_of_permitted (hquo : deleteQuorum s d o = 0 ∨ c.quorum.isSome = true) (hhold : commitHold s = none) :
    serveDelete s c = (s.setCmd { d with phase := .waitCommit }).enqueue (.tombstone o.handle) (some c.place) := by
  have request : requestDelete s d o =
      (s.setCmd { d with phase := .waitCommit }).enqueue (.tombstone o.handle) (some c.place) := by
    simp only [requestDelete, hhold, hd]
  rw [serveDelete_of_live hd hlive, request]
  rcases hquo with hfree | hpassed
  · rw [if_pos hfree]
  · have passed : d.quorum.isSome = true := by rw [hd]; exact hpassed
    rw [withQuorum_of_quorum passed, ite_self]

theorem serveDelete_of_demanded (hquo : deleteQuorum s d o ≠ 0) (hnone : c.quorum = none) :
    serveDelete s c = s.quorumWaits d := by
  have none_yet : d.quorum = none := by rw [hd]; exact hnone
  rw [serveDelete_of_live hd hlive, if_neg hquo, withQuorum_of_no_quorum none_yet]

end

/-! ## KC_LOAD (R162) -/

theorem kcLoad_of_held {s1 : State} {x : KReg} {b : Bytes} (hreg : c.key 0 = some x)
    (hres : handleResult s x = some (s1, b)) : kcLoad s c = doneWith s1 c b [] := by
  simp only [kcLoad, hreg, hres]

theorem kcLoad_of_got {s1 s2 : State} {c1 : Cmd} {x : KReg} {b : Bytes} (hempty : c.key 0 = none)
    (hgot : (getRef s c 0 0 (c.inl 72 1) (c.inl 76 4) true).keys s = .ready s1 c1) (hreg : c1.key 0 = some x)
    (hres : handleResult s1 x = some (s2, b)) : kcLoad s c = doneWith s2 c1 b [] := by
  simp only [kcLoad, hempty, hgot, hreg, hres]

end

/-! ## Keys, random numbers and commits of a draft -/

theorem withKeys_of_keys {s s1 : State} {c c1 : Cmd} {l : List (Nat × Nat × Nat)} (h : KeysIn s c l s1 c1)
    (f : State → Cmd → State) : withKeys s c false l f = f s1 c1 :=
  asymKeys_of_keys h f

theorem rowRandom_of_bytes {s s1 : State} {c : Cmd} {n : Nat} {b : Bytes} (h : s.random (drbgOf c.place) n = .bytes s1 b)
    (f : State → Bytes → State) : rowRandom s c n f = f s1 b := by
  rw [State.random] at h
  simp only [rowRandom, rowRandomWith, h]

theorem rowStore_of_committed {c : Cmd} {h : Nat} (hph : c.phase = .committed h) (s : State) (k : KReg) (attr : Bytes)
    (f : Nat → State) : rowStore s c k attr f = f h := by
  simp only [rowStore, hph]

theorem rowStore_of_stored {s s1 : State} {c c1 : Cmd} {k : KReg} {attr : Bytes} (hph : c.phase = .ready)
    (hst : storeKey s c k attr = .ok (s1, c1)) (f : Nat → State) :
    rowStore s c k attr f = s1.setCmd { c1 with phase := .waitCommit } := by
  simp only [rowStore, hph, hst]

/-! ## Blocks taken in, wrapped out and translated (R210 to R212) -/

section
variable {s s1 : State} {c c1 : Cmd} {x : KReg}

theorem kbImport_of_keys {attr : Bytes} (hrefs : c.krefs = 2) (hblock : isBlockRef c 0 = true)
    (hres : reserved c 73 3 = true) (hres2 : reserved c 84 44 = true)
    (keys : KeysIn s c [(0, c.inl 72 1, c.inl 76 4)] s1 c1) (reg : RegReady s1 c1 0 x)
    (hattr : attr = attrRecord (b2n x.key.exportable + 2 * b2n (c1.inl 80 4 != 0)) x.key.name x.key.version
      x.key.notAfter (c1.inl 80 4)) :
    kbImport s c = rowStore s1 c1 x attr (fun h => doneWith s1 c1 (toLe 4 h) []) := by
  simp only [kbImport, hrefs, hblock, hres, hres2, ne_eq, not_true_eq_false, Bool.not_true, Bool.false_eq_true, or_self,
    if_false, withKeys_of_keys keys, useKey_of_ready reg, ← hattr]

variable {w : KReg} (keys : KeysIn s c [(0, ownUsage s c 0, anyAlg), (1, 3, wrapMask)] s1 c1) (reg : RegReady s1 c1 0 x)
  (wrap : RegReady s1 c1 1 w)
include keys reg wrap

/-- A key whose block may have the demanded usage is wrapped, or may not be exported. -/
theorem kbExport_of_keys (hrsa : isRsa x.key.alg = false) (hrefs : c.krefs = 2) (hres : reserved c 75 53 = true)
    (hexp : byte (c.inl 74 1) ∈ expChars) (hpair : kuPairs (c.inlB 72 2) x.key.alg x.key.usage = true)
    (hver : x.key.version ≤ 99) :
    kbExport s c = if exportOk s1 c1 x = false then (countPolicy s1).retire c1 0x2001
      else rowRandom (countPolicy s1) c1 (exportPad w.key x.key) (fun s2 pad => doneWith s2 c1
        (toLe 2 (exportBlock w.key x.key (c.inlB 72 2) (byte (c.inl 74 1)) pad).length)
        (exportBlock w.key x.key (c.inlB 72 2) (byte (c.inl 74 1)) pad)) := by
  have exportable : expChars.contains (byte (c.inl 74 1)) = true := List.contains_iff_mem.mpr hexp
  simp only [kbExport, hrefs, hres, exportable, ne_eq, not_true_eq_false, Bool.not_true, Bool.false_eq_true, or_self,
    false_or, if_false, withKeys_of_keys keys, useKey_of_ready reg, useKey_of_ready wrap, hrsa, hpair,
    if_neg (show ¬ x.key.version > 99 by omega), Bool.not_eq_true', reduceCtorEq]

/-- A block whose header permits it is built again under the other KBPK, with the optional elements it carried. -/
theorem kbTranslate_of_exportable {s2 : State} {h : KBlock} {pad b : Bytes} (hrefs : c.krefs = 3)
    (hblock : isBlockRef c 0 = true) (hres : reserved c 72 56 = true) (hhead : (refBlock c1 0).map kbHeader = some (.ok h))
    (hexp : h.exp = chr 'E') (hpol : policyOk s1 c1 x.key.name x.key.usage x.key.alg roleExport = true)
    (hpad : (countPolicy s1).random (drbgOf c1.place) (exportPad w.key x.key) = .bytes s2 pad)
    (hb : b = kbBuild w.key.alg w.key.mat h.usage h.alg h.mode h.kver h.exp (h.opts.filter (fun o => o.1 != ascii "PB"))
      x.key.alg x.key.mat pad) :
    kbTranslate s c = if 3072 < b.length then badLength s2 c1 else doneWith s2 c1 (toLe 2 b.length) b := by
  subst hb
  simp only [kbTranslate, hrefs, hblock, hres, ne_eq, not_true_eq_false, Bool.not_true, Bool.false_eq_true, or_self,
    if_false, withKeys_of_keys keys, useKey_of_ready reg, useKey_of_ready wrap, hhead, hexp, hpol,
    rowRandom_of_bytes hpad, gt_iff_lt]

end

/-! ## Generation (R213) -/

section
variable {s : State} {c : Cmd}
  (hpar : generateParams c (decide (1 ≤ c.inl 72 1 ∧ c.inl 72 1 ≤ 6) && (usagesOf (c.inl 72 1)).contains (c.inl 73 1)) = true)
include hpar

theorem kbGenerate_of_committed {h : Nat} (hph : c.phase = .committed h) :
    kbGenerate s c = doneWith s c (toLe 4 h ++ toLe 2 (stashed c).length) (stashed c) := by
  simp only [kbGenerate, hpar, Bool.not_true, Bool.false_eq_true, if_false, hph]

/-- The new key enters register 1, and its block and its store follow. -/
theorem kbGenerate_of_ready {s1 s2 s3 : State} {c1 c3 : Cmd} {m : Bytes} {x : KeyInfo} {o : Option Way}
    (hph : c.phase = .ready) (keys : KeysIn s c (if bit (c.inl 77 1) 1 then [(0, 3, wrapMask)] else []) s1 c1)
    (hm : s1.random (drbgOf c1.place) (matLen (c.inl 72 1)) = .bytes s2 m) (hx : x = generateInfo c1 m)
    (hplace : placeNew (s2.drawn 32) c1 (generatedAsk s2 1 x) x = (s3, c3, o)) :
    kbGenerate s c = generateExport s3 c3 x [] (fun s4 c4 => generateStore s4 c4 1 (fun h y =>
      doneWith s4 y (toLe 4 h ++ toLe 2 (stashed y).length) (stashed y))) := by
  subst hx
  simp only [kbGenerate, hpar, Bool.not_true, Bool.false_eq_true, if_false, hph, withKeys_of_keys keys,
    rowRandom_of_bytes hm, hplace]

end

theorem kbGenerate_of_bad_params {c : Cmd} (hpar : generateParams c
    (decide (1 ≤ c.inl 72 1 ∧ c.inl 72 1 ≤ 6) && (usagesOf (c.inl 72 1)).contains (c.inl 73 1)) = false) (s : State) :
    kbGenerate s c = badField s c 7 :=
  if_pos (by simp only [hpar, Bool.not_false])

/-! ## The statement -/

/-- Settles O54: an opcode's row is its body, or the stewards' service while its shed is parked on the SERVICE record. The EXC
step's place, fields and service code, and the service run by sending the row again, are the model's choice
(notes/assumptions/66.md). -/
theorem keyBlockOpcodesComplete : Obligations.KeyBlockOpcodesComplete := by
  unfold Obligations.KeyBlockOpcodesComplete
  refine ⟨?query, ?delete, ?held, ?load, ?takesIn, ?wrapsOut, ?translates, ?stored, ?generate, ?badParams⟩
  case query =>
    intro s n k c hc hop hplace hab
    have row := fun hph : c.phase = .ready => excRow_of_ready hc hop hab hph objQuery serveQuery
    refine ⟨fun hph h0 hgone => ?gone, fun o hph h0 hlive => ?live, fun o a b hph hup hlive => ?serve,
      fun hph h0 => congrArg _ ((row hph).trans (objQuery_of_resumed h0))⟩
    case gone => exact congrArg _ ((row hph).trans ((objQuery_of_first h0).trans (resolveThenExc_of_gone hgone)))
    case live =>
      have parks := resolveThenExc_of_live hplace hlive
      rw [hop] at parks
      exact congrArg _ ((row hph).trans ((objQuery_of_first h0).trans parks))
    case serve => exact congrArg _ ((excRow_of_parked hc hop hab hph hup _ _).trans (serveQuery_of_live hlive))
  case delete =>
    intro s n k c d hc hop hplace hab hd
    have row := fun hph : c.phase = .ready => excRow_of_ready hc hop hab hph objDelete serveDelete
    refine ⟨fun hph h0 hquo hgone => ?gone, fun o hph h0 hquo hlive => ?live, fun o a b hph hup hlive => ?serve,
      fun o hph h0 hquo hlive hhold => ?passed, fun hph h0 => congrArg _ ((row hph).trans (objDelete_of_resumed h0))⟩
    case gone => exact congrArg _ ((row hph).trans ((objDelete_of_first h0 hph hquo).trans (resolveThenExc_of_gone hgone)))
    case live =>
      have parks := resolveThenExc_of_live hplace hlive
      rw [hop] at parks
      exact congrArg _ ((row hph).trans ((objDelete_of_first h0 hph hquo).trans parks))
    case serve =>
      have served := excRow_of_parked hc hop hab hph hup objDelete serveDelete
      exact ⟨fun hquo hhold => congrArg _ (served.trans (serveDelete_of_permitted hd hlive hquo hhold)),
        fun hquo hnone => congrArg _ (served.trans (serveDelete_of_demanded hd hlive hquo hnone))⟩
    case passed =>
      exact congrArg _ ((row hph).trans ((objDelete_of_quorum h0 hph hquo).trans
        (serveDelete_of_permitted hd hlive (.inr hquo) hhold)))
  case held =>
    intro s s1 n k c x b h hreg hres
    exact congrArg _ ((loomRow_of_ready h _).trans (kcLoad_of_held hreg hres))
  case load =>
    intro s s1 s2 n k c c1 x b h hempty hgot hreg hres
    exact congrArg _ ((loomRow_of_ready h _).trans (kcLoad_of_got hempty hgot hreg hres))
  case takesIn =>
    intro s s1 n k c c1 x attr h hrefs hblock hres hres2 keys reg hattr
    have stores := (loomRow_of_ready h _).trans (kbImport_of_keys hrefs hblock hres hres2 keys reg hattr)
    exact ⟨fun o hph => congrArg _ (stores.trans (rowStore_of_committed hph _ _ _ _)),
      fun s2 c2 hph hst => congrArg _ (stores.trans (rowStore_of_stored hph hst _))⟩
  case wrapsOut =>
    intro s s1 s2 n k c c1 x w pad h hrefs hres hexp keys reg wrap hrsa hpair hver
    have row := (loomRow_of_ready h _).trans (kbExport_of_keys keys reg wrap hrsa hrefs hres hexp hpair hver)
    exact ⟨fun hok hpad => congrArg _
        (row.trans ((if_neg (by simp [hok])).trans (rowRandom_of_bytes hpad _))),
      fun hok => congrArg _ (row.trans (if_pos hok))⟩
  case translates =>
    intro s s1 s2 n k c c1 x w h pad b hr hrefs hblock hres keys reg wrap hhead _ hexp hpol hpad hb
    exact congrArg _ ((loomRow_of_ready hr _).trans
      (kbTranslate_of_exportable keys reg wrap hrefs hblock hres hhead hexp hpol hpad hb))
  case stored =>
    intro s n k h c hr hph hpar
    exact congrArg _ ((loomRow_of_ready hr _).trans (kbGenerate_of_committed hpar hph))
  case generate =>
    intro s s1 s2 n k c c1 m x s3 c3 o hr hph hpar keys hm hx hplace
    exact congrArg _ ((loomRow_of_ready hr _).trans (kbGenerate_of_ready hpar hph keys hm hx hplace))
  case badParams =>
    intro s n k c hr hpar
    exact congrArg _ ((loomRow_of_ready hr _).trans (kbGenerate_of_bad_params hpar s))

end Sys2Proof.Machine
end

section
/-! PROOFS. What the working key cache, the journal and the routing tables do on their own (R132, R135, R136, R138, R154, R158,
R160, R161, R177, R178). -/

namespace Sys2Proof.Machine

open Sys2Proof

/-! ## Fills (R132, R154) -/

section
variable {s : State} {b u w : Nat} {f : Fill}
  (hf : s.kc.fills.find? (fun x => x.bank == b && x.bucket == u && x.way == w) = some f) (hres : f.reserving = false)
include hf hres

theorem fillDone_of_failed (hkey : f.key = none) : fillDone b u w s = failFill s f f.status f.note := by
  simp only [fillDone, hf, hres, hkey, Bool.false_eq_true, if_false]

section
variable {k : KeyInfo} (hkey : f.key = some k)
include hkey

theorem fillDone_of_unlimited (hlim : k.limited = false ∨ f.handle = 0) : fillDone b u w s = finishFill s f k 0 true := by
  have unlimited : ¬ (k.limited = true ∧ f.handle ≠ 0) := by
    rintro ⟨limited, handle⟩
    rcases hlim with h | h
    · exact Bool.false_ne_true (h.symm.trans limited)
    · exact handle h
  simp only [fillDone, hf, hres, hkey, Bool.false_eq_true, if_false, if_neg unlimited]

/-- A limited object's key waits for the commit of a reservation. -/
theorem fillDone_of_limited (hlim : k.limited = true) (hhandle : f.handle ≠ 0) (hleft : s.spent f.handle = false) :
    fillDone b u w s = { s.enqueue (.reserve f.handle b u w) none with
      kc := { s.kc with fills := updWhere (fun x => x == f) (fun x => { x with reserving := true }) s.kc.fills } } := by
  simp only [fillDone, hf, hres, hkey, Bool.false_eq_true, if_false, if_pos (And.intro hlim hhandle), hleft]
  rfl

end

end

/-! ## The sweep (R158, R161) -/

theorem sweepStart_of_idle {s : State} {salt : Bytes} (hidle : s.kc.sweeping = false) (hact : s.active = true)
    (hsalt : s.kc.salt = some salt) : sweepStart s = { s with kc := { s.kc with sweeping := true, bucket := 0 } } :=
  if_neg (by simp [hidle, hact, hsalt])

theorem sweepStart_of_standby {s : State} (h : s.active = false) : sweepStart s = s := if_pos (by simp [h])

theorem sweepVisit_of_standby {s : State} (h : s.active = false) : sweepVisit s = s := if_pos (by simp [h])

theorem State.eccHeads_of_sound {s : State} (h : ∀ w ∈ s.kc.ways, w.ecc = false) (p : Way → Bool) : s.eccHeads p = [] := by
  have sound (w : Way) : s.keyEcc w = false := by
    rw [State.keyEcc, List.any_eq_false]
    intro y hy
    simp [h y hy]
  simp [State.eccHeads, sound]

/-- The head ways that a visit of the sweep looks at. -/
def sweepHere (s : State) (w : Way) : Bool := w.bucket == s.kc.bucket && w.valid && !w.cont && !w.filling

/-- The ways that the visit removes leave, and those that stay age. -/
theorem sweepVisit_of_sound {s s1 : State} {gone : List Way} (hon : s.kc.sweeping = true)
    (hsound : ∀ w ∈ s.kc.ways, w.ecc = false) (hgone : gone = s.kc.ways.filter (fun w => sweepHere s w && sweepGone s w))
    (hact : s.active = true)
    (hs1 : s1 = (gone.foldl (fun (t : State) w => (t.dropKey w).mirrorRemovals [w]) s).modWays (sweepHere s) sweepKeep) :
    sweepVisit s = { s1 with kc := { s1.kc.bump 0 0 0 gone.length 0 0 with
      bucket := (s.kc.bucket + 1) % 16384, sweeping := decide (s.kc.bucket + 1 < 16384) } } := by
  have goes : ¬ ((!s.kc.sweeping) = true ∨ (!s.active) = true) := by simp [hon, hact]
  subst hgone hs1
  simp only [sweepVisit, if_neg goes, State.eccHeads_of_sound hsound, List.foldl_nil]
  rfl

/-! ## Walks (R160) -/

section
variable {s : State} {w : Walk} {rest : List Walk} (hw : s.kc.walks = w :: rest)
  (hsound : ∀ x ∈ s.kc.ways, x.ecc = false)
include hw hsound

/-- A walk without a teardown answers the command that waits for it with the number of entries it found. -/
theorem walkDone_of_waiter {p : Place} {c : Cmd} (htear : w.teardown = none) (hwho : w.who = some p)
    (hc : (({ s with kc := { s.kc with walks := rest } } : State).walk w.parts).cmd? p = some c) (hph : c.phase = .waitWalk) :
    walkDone s = okInline (({ s with kc := { s.kc with walks := rest } } : State).walk w.parts) c
      (toLe 4 (s.kc.ways.filter (fun x => w.parts.contains x.part && !x.cont && x.valid && !x.invalidated)).length) := by
  have sound := State.eccHeads_of_sound (s := { s with kc := { s.kc with walks := rest } }) hsound
  simp only [walkDone, hw, htear, hwho, sound, Option.bind_none, Option.map_none, Option.getD_none, Option.bind_some,
    List.foldl_nil, hc, hph, beq_self_eq_true, Bool.false_eq_true, if_false, if_true]

/-- A teardown's walk, begun once nothing of its partition is in flight, hands over to the teardown's next step. -/
theorem walkDone_of_teardown {p : Nat} {t : Tear} (htear : w.teardown = some p)
    (ht : s.tears.find? (fun x => x.root == p) = some t) (hfree : partBusy s t.cur t.who = false) :
    walkDone s = teardownAdvance (teardownObjects (({ s with kc := { s.kc with walks := rest } } : State).walk w.parts) t) := by
  have sound := State.eccHeads_of_sound (s := { s with kc := { s.kc with walks := rest } }) hsound
  simp only [walkDone, hw, htear, ht, hfree, sound, Option.bind_some, Option.map_some, Option.getD_some, List.foldl_nil,
    Bool.false_eq_true, if_false]

end

/-! ## The journal (R135, R136, R138) -/

section
variable {s s1 : State} (hs1 : s1 = (teardownAdvance (journalCommit s)).promoteEnd)
include hs1

theorem journalCommitDone_of_no_reset (h : s1.sys.hwResetDue = false) : journalCommitDone s = s1 := by
  subst hs1
  exact if_neg (ne_true_of_eq_false h)

theorem journalCommitDone_of_reset (h : s1.sys.hwResetDue = true) : journalCommitDone s =
    assertReset kW s1.sys.causes 4 { s1 with sys := { s1.sys with hwResetDue := false } } := by
  subst hs1
  exact if_pos h

end

theorem journalCommit_of_empty {s : State} (h : s.headCommit = none) : journalCommit s = s := by
  simp only [journalCommit, h]

section
variable {s t : State} {h : Commit} (hh : s.headCommit = some h)
include hh

theorem journalCommit_of_closed (hopen : journalOpen s h.started = false) : journalCommit s = s := by
  simp only [journalCommit, hh, hopen, Bool.not_false, if_true]

variable (hopen : journalOpen s h.started = true) (ht : t = { s with ks := { s.ks with queue := s.ks.queue.erase h } })
include hopen ht

theorem journalCommit_of_store {p : Nat} {a : Bytes} {k : KeyInfo} {g : Bool} (hk : h.kind = .store p a k g) :
    journalCommit s = if storeRefused s then refused t h.who 0x8002 else commitStore t h.who p a k g := by
  simp only [journalCommit, hh, hopen, Bool.not_true, Bool.false_eq_true, if_false, hk, ht]

theorem journalCommit_of_reserve {o b u w : Nat} (hk : h.kind = .reserve o b u w) :
    journalCommit s = commitReserve t o b u w := by
  simp only [journalCommit, hh, hopen, Bool.not_true, Bool.false_eq_true, if_false, hk, ht]

theorem journalCommit_of_tombstone {o : Nat} (hk : h.kind = .tombstone o) :
    journalCommit s = commitTombstone t h.who o := by
  simp only [journalCommit, hh, hopen, Bool.not_true, Bool.false_eq_true, if_false, hk, ht]

theorem journalCommit_of_relocate {o : Nat} (hk : h.kind = .relocate o) : journalCommit s = relocate t := by
  simp only [journalCommit, hh, hopen, Bool.not_true, Bool.false_eq_true, if_false, hk, ht]

theorem journalCommit_of_domain {k : Bytes} (hk : h.kind = .domain k) : journalCommit s = commitDomain t k := by
  simp only [journalCommit, hh, hopen, Bool.not_true, Bool.false_eq_true, if_false, hk, ht]

theorem journalCommit_of_raise {o : Nat} (hk : h.kind = .raise o) : journalCommit s = commitUses t o 12288 false := by
  simp only [journalCommit, hh, hopen, Bool.not_true, Bool.false_eq_true, if_false, hk, ht, Nat.reduceMul]

end

theorem journalRelocate_of_due {s : State} (h : 64 ≤ s.ks.sinceReloc) :
    journalRelocate s = { s with ks := { s.ks with
      sinceReloc := s.ks.sinceReloc - 64
      queue := s.ks.queue ++ [{ kind := .relocate 0, who := none, started := false }] } } :=
  if_neg (by omega)

theorem reservationDurable_of_due {s : State} (hhold : s.ks.hold = false) (hsag : s.sag.warning = false)
    (hseq : s.ks.reservation ≤ s.ks.nextSeq) :
    reservationDurable s = { s with ks := { s.ks with reservation := s.ks.nextSeq + 0x10000, cfgStone := s.ks.stone } } :=
  if_neg (by simp [hhold, hsag, hseq])

/-! ## Updates of the tables (R177, R178) -/

section
variable {s : State} {policy : Bool} {c : Cmd} (hc : nextUpdate policy s = some c)
  (hset : (if policy then s.rt.pSettled else s.rt.rSettled) = true) (hcan : s.canCommit = true)
  (hwait : (if policy then s.rt.pWait else s.rt.rWait).contains c.place = true)
include hc hset hcan hwait

theorem updateSettled_of_update (hown : ∀ t ∈ s.tears, t.who ≠ some c.place) :
    updateSettled policy s = runUpdate policy s c.place := by
  have no_teardown : s.tears.find? (fun t => t.who == some c.place) = none :=
    List.find?_eq_none.mpr fun t ht => by simpa using hown t ht
  simp only [updateSettled, hc, hset, hcan, hwait, Bool.not_true, Bool.false_eq_true, or_self, if_false, no_teardown]
  cases c.phase <;> rfl

theorem updateSettled_of_teardown {k : Nat} {t : Tear} (hph : c.phase = .waitTeardown k)
    (ht : s.tears.find? (fun t => t.who == some c.place) = some t) :
    updateSettled policy s = teardownAdvance (teardownTables policy s t.cur c.place) := by
  simp only [updateSettled, hc, hset, hcan, hwait, Bool.not_true, Bool.false_eq_true, or_self, if_false, hph, ht]

end

section
variable {s : State} {p : Place} {c : Cmd} (hc : s.cmd? p = some c) (hph : c.phase = .waitTable)
include hc hph

theorem cmd?_waitTable : (s.cmd? p).filter (fun c => c.phase == .waitTable) = some c := by
  rw [hc, Option.filter_some, hph, beq_self_eq_true, if_pos rfl]

theorem runUpdate_of_header_fault {d : Nat} (hd : headerFault s c (c.own (looksForQuorum c.opcode)) 24 = some d) :
    runUpdate false s p =
      updateFail { s with rt := { s.rt with rWait := s.rt.rWait.filter (fun x => x != p) } } c d 0xFFFF := by
  simp only [runUpdate, cmd?_waitTable hc hph, Bool.false_eq_true, if_false, hd]

section
variable {s1 : State} {c1 : Cmd} {part : Machine.Part} {own inline : Bytes} (hown : own = c.own (looksForQuorum c.opcode))
  (hpart : s.part? (fieldLe own 0 2) = some part) (hc1 : c1 = (s.stamped c).setInline 0 inline)
include hown hpart hc1

/-- The batch of routes fits as a whole: it is committed under the next generation (steps 2 to 4 of R178). -/
theorem runUpdate_of_routes {l : List Route} (hhead : headerFault s c own 24 = none)
    (hl : applyAll (applyRoute s.rt (s.rt.routes s.rt.rgen) part) 0 (batchRecords own 24) (s.rt.routes s.rt.rgen) = .ok l)
    (hs1 : s1 = { s with rt := { s.rt with rWait := s.rt.rWait.filter (fun x => x != p) } })
    (hin : inline = zeros 4 ++ toLe 4 ((s.rt.rgen + 1) % 2 ^ 32) ++ zeros 8) :
    runUpdate false s p = ((commitRoutes s1 l).commitFor c1 inline 0x06 part.id
      (own ++ toLe 4 ((s.rt.rgen + 1) % 2 ^ 32))).retireWith c1 0 false true [] := by
  subst hown hc1 hs1 hin
  simp only [runUpdate, cmd?_waitTable hc hph, Bool.false_eq_true, if_false, hhead, hpart, hl]

/-- The batch of rules fits as a whole: it is committed under the next generation, and a walk follows (R179). -/
theorem runUpdate_of_rules {l : List Rule} (hhead : headerFault s c own 32 = none)
    (hl : applyAll (applyRule (s.rt.rules s.rt.pgen) part) 0 (batchRecords own 32) (s.rt.rules s.rt.pgen) = .ok l)
    (hs1 : s1 = { s with rt := { s.rt with pWait := s.rt.pWait.filter (fun x => x != p) } })
    (hin : inline = zeros 4 ++ toLe 4 ((s.rt.pgen + 1) % 2 ^ 32) ++ zeros 8) :
    runUpdate true s p = (((commitRules s1 l [part.id]).commitFor c1 inline 0x07 part.id
      (own ++ toLe 4 ((s.rt.pgen + 1) % 2 ^ 32))).walk [part.id]).retireWith c1 0 false true [] := by
  subst hown hc1 hs1 hin
  simp only [runUpdate, cmd?_waitTable hc hph, if_true, hhead, hpart, hl]

end

end

theorem parityCopy_of_routes {s : State} (hold : oldLoom s false = false) (hset : s.rt.rSettled = false) :
    parityCopy false s =
      { s with rt := { s.rt.setRoutes (s.rt.rgen + 1) (s.rt.routes s.rt.rgen) with rSettled := true } } := by
  simp only [parityCopy, hold, hset, Bool.false_eq_true, if_false]

theorem parityCopy_of_rules {s : State} (hold : oldLoom s true = false) (hset : s.rt.pSettled = false) :
    parityCopy true s =
      { s with rt := { s.rt.setRules (s.rt.pgen + 1) (s.rt.rules s.rt.pgen) with pSettled := true } } := by
  simp only [parityCopy, hold, hset, Bool.false_eq_true, if_false, if_true]

/-! ## The statement -/

/-- Settles O21: each event is the operation of its name, which finds what it waits for. That the head of the journal's queue
leaves with JOURNAL_COMMIT_DONE is the model's reading (notes/assumptions/17.md). -/
theorem cacheJournalAndTableEventsComplete : Obligations.CacheJournalAndTableEventsComplete := by
  unfold Obligations.CacheJournalAndTableEventsComplete
  refine ⟨?cache, ?journalDone, ?journalResets, ?journalWrites, ?journalClosed, ?journalEmpty, ?relocates, ?reserves,
    ?routes, ?rules, ?tears, ?routesCommit, ?rulesCommit, ?headerFaults, ?routesCopied, ?rulesCopied⟩
  case cache =>
    refine ⟨?failed, ?loaded, ?limited, ?starts, ?idle, ?visits, ?walks, ?tearWalks, ?rests⟩
    case failed => exact fun s b u w f hf hres hkey => congrArg _ (fillDone_of_failed hf hres hkey)
    case loaded => exact fun s b u w f k hf hres hkey hlim => congrArg _ (fillDone_of_unlimited hf hres hkey hlim)
    case limited =>
      exact fun s b u w f k hf hres hkey hlim hhandle hleft =>
        congrArg _ (fillDone_of_limited hf hres hkey hlim hhandle hleft)
    case starts => exact fun s salt hidle hact hsalt => congrArg _ (sweepStart_of_idle hidle hact hsalt)
    case idle => exact fun s hact => congrArg _ (sweepStart_of_standby hact)
    case visits =>
      exact fun s s1 gone hon hsound hgone hact hs1 => congrArg _ (sweepVisit_of_sound hon hsound hgone hact hs1)
    case walks =>
      exact fun s w rest p c hw htear hwho hsound hc hph => congrArg _ (walkDone_of_waiter hw hsound htear hwho hc hph)
    case tearWalks =>
      exact fun s w rest p t hw htear ht hfree hsound => congrArg _ (walkDone_of_teardown hw hsound htear ht hfree)
    case rests => exact fun s hact => congrArg _ (sweepVisit_of_standby hact)
  case journalDone => exact fun s s1 hs1 h => congrArg _ (journalCommitDone_of_no_reset hs1 h)
  case journalResets => exact fun s s1 hs1 h => congrArg _ (journalCommitDone_of_reset hs1 h)
  case journalWrites =>
    intro s t h hh hopen ht
    refine ⟨fun p a k g hk hst => ?stored, fun p a k g hk hst => ?refused,
      fun o b u w hk => journalCommit_of_reserve hh hopen ht hk, fun o hk => journalCommit_of_tombstone hh hopen ht hk,
      fun o hk => journalCommit_of_relocate hh hopen ht hk, fun k hk => journalCommit_of_domain hh hopen ht hk,
      fun o hk => journalCommit_of_raise hh hopen ht hk⟩
    case stored => rw [journalCommit_of_store hh hopen ht hk, if_neg (ne_true_of_eq_false hst)]
    case refused => rw [journalCommit_of_store hh hopen ht hk, if_pos hst]
  case journalClosed => exact fun s h hh hopen => journalCommit_of_closed hh hopen
  case journalEmpty => exact fun s h => journalCommit_of_empty h
  case relocates => exact fun s h => congrArg _ (journalRelocate_of_due h)
  case reserves => exact fun s hhold hsag hseq => congrArg _ (reservationDurable_of_due hhold hsag hseq)
  case routes => exact fun s c hc hset hcan hwait hown => congrArg _ (updateSettled_of_update hc hset hcan hwait hown)
  case rules => exact fun s c hc hset hcan hwait hown => congrArg _ (updateSettled_of_update hc hset hcan hwait hown)
  case tears =>
    exact fun s policy c k t hc hset hcan hwait hph ht =>
      congrArg _ (updateSettled_of_teardown hc hset hcan hwait hph ht)
  case routesCommit =>
    exact fun s s1 p c c1 part l hc hph hhead hpart hl hs1 hc1 =>
      runUpdate_of_routes hc hph rfl hpart hc1 hhead hl hs1 rfl
  case rulesCommit =>
    exact fun s s1 p c c1 part l hc hph hhead hpart hl hs1 hc1 =>
      runUpdate_of_rules hc hph rfl hpart hc1 hhead hl hs1 rfl
  case headerFaults => exact fun s p c d hc hph hd => runUpdate_of_header_fault hc hph hd
  case routesCopied => exact fun s hold hset => congrArg _ (parityCopy_of_routes hold hset)
  case rulesCopied => exact fun s hold hset => congrArg _ (parityCopy_of_rules hold hset)

end Sys2Proof.Machine
end

section
/-! PROOFS. The opcodes of random numbers, attestation, the life cycle and debug (R145, R146, R252 to R254, R328, R329, R335,
R336, R340, R342, R343). -/

namespace Sys2Proof.Machine

open Sys2Proof

/-- A quorum is demanded in MANUFACTURED and OPERATIONAL alone (R252, R317): it has passed, or the state is another. -/
theorem withQuorum_in_state {s : State} {c : Cmd}
    (h : c.quorum.isSome = true ∨ s.lc.state ≠ 0x30 ∧ s.lc.state ≠ 0x40) (f : State) :
    (if s.lc.state = 0x30 ∨ s.lc.state = 0x40 then withQuorum s c f else f) = f := by
  rcases h with hpassed | ⟨manufactured, operational⟩
  · rw [withQuorum_of_quorum hpassed, ite_self]
  · exact if_neg (not_or.mpr ⟨manufactured, operational⟩)

section
variable {s : State} {c : Cmd}

/-! ## Random numbers (R252 to R254) -/

theorem rngRawEnter_of_permitted {s1 : State} (hquo : c.quorum.isSome = true ∨ s.lc.state ≠ 0x30 ∧ s.lc.state ≠ 0x40)
    (hzero : allZero (c.inlB 73 55) = true) (hlatch : s.rng.latched = false) (hs1 : s1 = stopRandom s) :
    rngRawEnter s c = okInline (({ s1 with
      rng := { s1.rng with raw := true, testing := false, rawReads := s.evr.optime, rawFails := 0, rawSeen := 0 } } : State).raise
      0x0406 (c.inl 72 1) c.fn 0 0) c [] := by
  subst hs1
  rw [rngRawEnter, withQuorum_in_state hquo]
  simp only [rawEnterBody, hzero, hlatch, Bool.not_true, Bool.false_eq_true, if_false]

theorem rngRawRead_of_raw {s1 : State} {n : Nat} (hn : n = c.inl 76 2) (hraw : s.rng.raw = true) (hsrc : c.inl 72 1 ≤ 7)
    (hzero : allZero (c.inlB 73 3) = true) (hzero2 : allZero (c.inlB 78 50) = true) (h16 : 16 ≤ n) (hmax : n ≤ 3072)
    (hwhole : n % 16 = 0) (hs1 : s1 = { s with rng := { s.rng with rawReads := s.evr.optime, rawSeen := 0 } }) :
    rngRawRead s c = okReply (s1.drawn n) c (toLe 2 (min s.rng.rawSeen 0xFFFF)) (s.draws n) := by
  subst hn hs1
  have source : ¬ ((!s.rng.raw) = true ∨ c.inl 72 1 > 7 ∨ (!allZero (c.inlB 73 3)) = true ∨
      (!allZero (c.inlB 78 50)) = true) := by simp [hraw, hsrc, hzero, hzero2]
  have length : ¬ (c.inl 76 2 < 16 ∨ c.inl 76 2 > 3072 ∨ c.inl 76 2 % 16 ≠ 0) := by omega
  simp only [rngRawRead, if_neg source, if_neg length]

theorem rngRawExit_of_raw (hraw : s.rng.raw = true) (hzero : allZero (c.inlB 72 56) = true) :
    rngRawExit s c = (leaveRaw s 1).waitRng c :=
  if_neg (by simp [hraw, hzero])

theorem rngHealthQuery_of_source {k : Nat} {h : Health} (hk : k = c.inl 72 1) (h7 : k ≤ 7)
    (hzero : allZero (c.inlB 73 55) = true) (hh : s.rng.health[k]? = some h) :
    rngHealthQuery s c = okInline s c
      ([h.bias, h.lag1, h.lag2, h.lag3, h.lag4].flatMap (fun x => toLe 2 (toField 16 x)) ++
        [byte (b2n (s.rng.inUse.getLsbD k)), byte (recentFails s).length]) := by
  subst hk
  have source : ¬ (c.inl 72 1 > 7 ∨ (!allZero (c.inlB 73 55)) = true) := by simp [h7, hzero]
  simp only [rngHealthQuery, if_neg source, hh, Option.getD_some]

/-! ## Attestation (R145, R146) -/

/-- Byte 82 names the device's own identity key, which there is with a stone in use. -/
theorem signerOf_device (hb : c.inl 82 1 = 0) :
    signerOf s c = s.stoneKey.elim (.error 0xA001) (fun st => .ok (0, identitySeed st)) := by
  cases hst : s.stoneKey <;> simp [signerOf, hst, hb]

theorem attestDevice_of_device_key (hb : c.inl 82 1 = 0) :
    attestDevice s c = s.stoneKey.elim (s.retire c 0xA001) (fun st => okReply s c [] (report s 1 0 (identitySeed st)
      (c.inlB 72 8) (Config.edPublic (identitySeed st)) none)) := by
  rw [attestDevice, signerOf_device hb]
  cases s.stoneKey with
  | none => rfl
  | some st => rfl

theorem attestPartition_of_device_key {n : Nat} {p : Part} (hn : n = c.inl 80 2) (hreach : inReach s c n = true)
    (hp : s.part? n = some p) (hb : c.inl 82 1 = 0) :
    attestPartition s c = s.stoneKey.elim (s.retire c 0xA001) (fun st => okReply s c [] (report s 2 0 (identitySeed st)
      (c.inlB 72 8) (Config.edPublic (identitySeed st)) (some p))) := by
  subst hn
  simp only [attestPartition, hreach, Bool.not_true, Bool.false_eq_true, if_false, hp, signerOf_device hb]
  cases s.stoneKey with
  | none => rfl
  | some st => rfl

/-! ## The life cycle (R328, R335, R336, R343) -/

section
variable (hquo : c.quorum.isSome = true ∨ s.lc.state ≠ 0x30 ∧ s.lc.state ≠ 0x40)
include hquo

theorem lcTransition_to_operational (hdst : c.inl 96 1 = 0x40) :
    lcTransition s c = goTransition { s with lc := { s.lc with token := zeros 16 } } 0x40 1 (some c.place) := by
  rw [lcTransition, withQuorum_in_state hquo]
  simp only [transitionTarget, hdst, if_true, ne_eq, not_true_eq_false, false_and, if_false]

/-- A transition to another state carries its token. -/
theorem lcTransition_with_token (hop : c.inl 96 1 ≠ 0x40) (hdst : c.inl 72 1 ≠ 0x40) (hzero : allZero (c.inlB 76 4) = true) :
    lcTransition s c =
      goTransition { s with lc := { s.lc with token := c.inlB 80 16 } } (c.inl 72 1) 1 (some c.place) := by
  rw [lcTransition, withQuorum_in_state hquo]
  simp only [transitionTarget, if_neg hop, if_neg hdst, hzero, Bool.not_true, Bool.false_eq_true, and_false, if_false]

end

theorem fwStage_of_image {s1 : State} {g : Image} (h : s.drafts.holder = some c.place) (hg : g = stagedImage s)
    (hs1 : s1 = { s with lc := (if s.lc.slot = 0 then { s.lc with flashB := g } else { s.lc with flashA := g }) }) :
    fwStage s c = (stageFault s (c.inl 80 4)).elim (okInline (s1.raise 0x0E04 (1 - s.lc.slot) g.version 0 0) c [])
      (fun n => failDetail s c 0x1003 [byte n]) := by
  subst hs1 hg
  rw [fwStage, withImage_of_holder h, stageImage]
  cases stageFault s (c.inl 80 4) with
  | none => rfl
  | some n => rfl

section
variable {n : Nat} (hn : n = c.inl 72 4) (hlo : s.lc.rollback ≤ n) (hhi : n ≤ fieldLe s.lc.running.header 16 4)
  (hidle : s.lc.session = none) (hsag : s.sag.warning = false)
include hn hlo hhi hidle hsag

theorem rollbackAdvance_of_version : rollbackAdvance s c =
    if advanceWords s n = [] then rollbackDone s c s.lc.rollback
    else ({ s with lc := { s.lc with
      session := some { left := advanceWords s n, target := 0x101, origin := s.lc.rollback, path := 1, who := some c.place,
                        words := 0 } } } : State).setCmd { c with phase := .waitOtp } := by
  subst hn
  have version : ¬ (c.inl 72 4 < s.lc.rollback ∨ c.inl 72 4 > fieldLe s.lc.running.header 16 4) := by omega
  simp only [rollbackAdvance, if_neg version, hidle, hsag, Option.isSome_none, Bool.false_eq_true, if_false]

end

/-! ## Debug (R340, R342) -/

theorem dbgAuthorise_of_quorum {t : Bytes} (hquo : c.quorum.isSome = true) (ht : t = sl (c.own true) 0 128) :
    dbgAuthorise s c = (dbgFault s 1 t).elim (okInline (dbgGrant s 1 t) c [])
      (fun r => failDetail (dbgRefuse s r) c 0x1003 [byte r]) := by
  subst ht
  rw [dbgAuthorise, withQuorum_of_quorum hquo]
  cases dbgFault s 1 (sl (c.own true) 0 128) with
  | none => rfl
  | some r => rfl

end

/-! ## The statement -/

/-- Settles O51: each opcode's row is its body. That RNG_RAW_READ's samples are free values and that it counts the failures
since the read before it are the model's choice and reading (notes/assumptions/4.md, notes/assumptions/63.md). -/
theorem randomAndLifeCycleOpcodesComplete : Obligations.RandomAndLifeCycleOpcodesComplete := by
  unfold Obligations.RandomAndLifeCycleOpcodesComplete
  refine ⟨?enter, ?read, ?leave, ?health, ?device, ?partition, ?transition, ?query, ?endorse, ?stage, ?advance, ?authorise,
    ?ends⟩
  case enter =>
    intro s s1 i c h hquo hzero hlatch hs1
    exact congrArg _ ((stewardRow_of_ready h _).trans (rngRawEnter_of_permitted hquo hzero hlatch hs1))
  case read =>
    intro s s1 i n c h hn hraw hsrc hzero hzero2 h16 hmax hwhole hs1
    exact congrArg _ ((stewardRow_of_ready h _).trans
      (rngRawRead_of_raw hn hraw hsrc hzero hzero2 h16 hmax hwhole hs1))
  case leave =>
    intro s i c h hraw hzero
    exact congrArg _ ((stewardRow_of_ready h _).trans (rngRawExit_of_raw hraw hzero))
  case health =>
    intro s i k c e h hk h7 hzero he
    exact congrArg _ ((stewardRow_of_ready h _).trans (rngHealthQuery_of_source hk h7 hzero he))
  case device =>
    intro s i c h hb
    exact congrArg _ ((stewardRow_of_ready h _).trans (attestDevice_of_device_key hb))
  case partition =>
    intro s i n c p h hn hreach hp hb
    exact congrArg _ ((stewardRow_of_ready h _).trans (attestPartition_of_device_key hn hreach hp hb))
  case transition =>
    intro s i c h hquo
    have row := stewardRow_of_ready h lcTransition
    exact ⟨fun hdst => congrArg _ (row.trans (lcTransition_to_operational hquo hdst)),
      fun hop hdst hzero => congrArg _ (row.trans (lcTransition_with_token hquo hop hdst hzero))⟩
  case query => exact fun s i c h => congrArg _ (stewardRow_of_ready h lcQuery)
  case endorse => exact fun s i c h => congrArg _ (stewardRow_of_ready h lcEndorse)
  case stage =>
    intro s s1 i c g h hholder hg hs1
    exact congrArg _ ((stewardRow_of_ready h _).trans (fwStage_of_image hholder hg hs1))
  case advance =>
    intro s i n c h hn hlo hhi hidle hsag
    have row := (stewardRow_of_ready h _).trans (rollbackAdvance_of_version hn hlo hhi hidle hsag)
    exact ⟨fun hnil => congrArg _ (row.trans (if_pos hnil)), fun hleft => congrArg _ (row.trans (if_neg hleft))⟩
  case authorise =>
    intro s i c t h hquo ht
    exact congrArg _ ((stewardRow_of_ready h _).trans (dbgAuthorise_of_quorum hquo ht))
  case ends => exact fun s i c h => congrArg _ (stewardRow_of_ready h dbgEnd)

end Sys2Proof.Machine
end

section
/-! PROOFS. The opcodes of the routing tables and of the key cache (R160, R162, R175, R177, R178, R181). -/

namespace Sys2Proof.Machine

open Sys2Proof

section
variable {s : State} {c : Cmd}

/-! ## Updates of the tables (R178) -/

section
variable (hzero : allZero (c.inlB 72 56) = true)
include hzero

theorem enqueueUpdate_of_routes : enqueueUpdate false s c = { s.setCmd { c with phase := .waitTable } with
    rt := { s.rt with rWait := s.rt.rWait ++ [c.place] } } :=
  if_neg (by simp [hzero])

theorem enqueueUpdate_of_rules : enqueueUpdate true s c = { s.setCmd { c with phase := .waitTable } with
    rt := { s.rt with pWait := s.rt.pWait ++ [c.place] } } :=
  if_neg (by simp [hzero])

end

theorem rtPolicyUpdate_of_present {p : Part} (hquo : c.quorum.isSome = true)
    (hp : s.part? (fieldLe (c.own true) 0 2) = some p) (htear : p.tearing = false) :
    rtPolicyUpdate s c = enqueueUpdate true s c := by
  simp only [rtPolicyUpdate, hp, htear, Bool.false_eq_true, if_false, withQuorum_of_quorum hquo]

/-! ## Layout and limits (R181) -/

/-- A length without entries, and a range inside the pool that meets no range in use: the layout takes effect. -/
theorem rtRouteLayout_of_free {len k base : Nat} (hlen : len = c.inl 72 1) (hk : k = c.inl 73 1) (hbase : base = c.inl 76 4)
    (hlo : 1 ≤ len) (hhi : len ≤ 19) (hmax : k ≤ 17) (hzero : allZero (c.inlB 74 2) = true)
    (hzero2 : allZero (c.inlB 80 48) = true) (hempty : holds s.rt len = false) (hpool : base + 2 ^ k ≤ 163840)
    (hclash : layoutClash s.rt len k base = false) :
    rtRouteLayout s c = okInline
      (({ s with rt := { s.rt with layout := s.rt.layout.set (len - 1) (k, base) } } : State).record
        { stamp := 0, typ := 0x14, part := 0, body := [1#8, byte len, byte k, 0#8] ++ toLe 4 base }) c [] := by
  subst hlen hk hbase
  refine if_neg ?_
  simp only [hzero, hzero2, hempty, hclash, Bool.not_true, Bool.false_eq_true, false_or, or_false]
  omega

theorem rtSetLimits_of_room {n : Nat} {p : Part} (hquo : c.quorum.isSome = true) (hn : n = c.inl 72 2)
    (hp : s.part? n = some p) (htear : p.tearing = false) (hzero : allZero (c.inlB 74 2) = true)
    (hzero2 : allZero (c.inlB 84 44) = true)
    (hroutes : ((s.rt.routes s.rt.rgen).filter (fun r => r.part == n)).length ≤ c.inl 76 4)
    (hrules : ((s.rt.rules s.rt.pgen).filter (fun r => r.part == n)).length ≤ c.inl 80 4) :
    rtSetLimits s c = okInline
      ((s.modPart n (fun x => { x with prefixLimit := limitOf (c.inl 76 4), ruleLimit := limitOf (c.inl 80 4) })).record
        { stamp := 0, typ := 0x14, part := n, body := [2#8, 0#8] ++ toLe 2 n ++ c.inlB 76 8 }) c [] := by
  subst hn
  have fields : ¬ ((!allZero (c.inlB 74 2)) = true ∨ (!allZero (c.inlB 84 44)) = true) := by simp [hzero, hzero2]
  have room := not_or.mpr ⟨hroutes.not_gt, hrules.not_gt⟩
  simp only [rtSetLimits, hp, htear, Bool.false_eq_true, if_false, withQuorum_of_quorum hquo, if_neg fields, if_neg room]

/-! ## Queries of the tables (R175, R177) -/

section
variable {p : Part} (hzero : allZero (c.inlB 73 1) = true) (hzero2 : allZero (c.inlB 76 4) = true)
  (hp : s.part? (c.inl 74 2) = some p) (htear : p.tearing = false) (hreach : c.admin = true ∨ c.part = c.inl 74 2)
include hzero hzero2 hp htear hreach

/-- A route query reads the current generation and counts the lengths that it probed. -/
theorem rtQuery_of_routes (hsel : c.inl 72 1 = 0) (htail : allZero (c.inlB 91 37) = true)
    (hdigits : byteAt (c.inlB 80 11) 0 ≤ 19) :
    rtQuery s c = okInline { s with rt := { s.rt with probes := (s.rt.probes +
        (panLookup (s.rt.routes s.rt.rgen) (c.inl 74 2) (digitString (c.inlB 80 11))).2) % 2 ^ 32 } } c
      (routeOutput (panLookup (s.rt.routes s.rt.rgen) (c.inl 74 2) (digitString (c.inlB 80 11))).1) := by
  have fields : ¬ (0 > 1 ∨ (!allZero (c.inlB 73 1)) = true ∨ (!allZero (c.inlB 76 4)) = true ∨
      (!allZero (c.inlB (80 + 11) (48 - 11))) = true) := by simp [hzero, hzero2, htail]
  simp only [rtQuery, hsel, if_true, if_neg fields, hp, htear, ownOrAdmin_of_reach hreach, Bool.not_true,
    Bool.false_eq_true, or_self, if_false, if_neg hdigits.not_gt]

theorem rtQuery_of_rules (hsel : c.inl 72 1 = 1) (htail : allZero (c.inlB 88 40) = true) :
    rtQuery s c = okInline (countPolicy s) c
      (ruleOutput (policyLookup (s.rt.rules s.rt.pgen) (c.inl 74 2) (c.inl 80 8))) := by
  have fields : ¬ (1 > 1 ∨ (!allZero (c.inlB 73 1)) = true ∨ (!allZero (c.inlB 76 4)) = true ∨
      (!allZero (c.inlB (80 + 8) (48 - 8))) = true) := by simp [hzero, hzero2, htail]
  simp only [rtQuery, hsel, if_neg Nat.one_ne_zero, if_neg fields, hp, htear, ownOrAdmin_of_reach hreach, Bool.not_true,
    Bool.false_eq_true, or_self, if_false]

end

/-! ## The key cache (R160, R162) -/

/-- Handle 0 flushes by a walk, of the partition alone or, with bit 0 of byte 80, of its subtree. -/
theorem kcFlush_of_zero (h : c.inl 72 8 = 0) :
    kcFlush s c = { s.setCmd { c with phase := .waitWalk } with
      kc := { s.kc with walks := s.kc.walks ++
        [{ parts := if bit (c.inl 80 1) 0 then subtree s c.part else [c.part], who := some c.place, teardown := none }] } } := by
  simp only [kcFlush, if_pos h, State.setCmd_kc]

theorem kcFlush_of_handle {w : Way} (h : c.inl 72 8 ≠ 0) (hw : handleWay s c.part (c.inl 72 8) = some w) :
    kcFlush s c = okInline (flushWay s w) c (toLe 4 1) := by
  simp only [kcFlush, if_neg h, hw]

theorem kcQuery_of_handle {w : Way} (hw : handleWay s c.part (c.inl 72 8) = some w) :
    kcQuery s c = okInline s c (toLe 2 w.part ++ [byte w.key.usage, byte w.key.alg, byte w.source, byte (wayFlags w),
      byte w.age] ++ toLe 2 w.pins ++ toLe 6 w.key.notAfter) := by
  simp only [kcQuery, hw]

theorem kcQuery_of_stale_handle (hw : handleWay s c.part (c.inl 72 8) = none) : kcQuery s c = s.retire c 0x3001 := by
  simp only [kcQuery, hw]

end

/-! ## The statement -/

/-- Settles O46: each opcode's row is its body, whose checks pass or fail as the clause says. The bytes of record 0x14 are the
model's own layout: Table 12.6 and R181 leave them open, like those of the records of notes/assumptions/23.md. -/
theorem tableAndCacheOpcodesComplete : Obligations.TableAndCacheOpcodesComplete := by
  unfold Obligations.TableAndCacheOpcodesComplete
  refine ⟨?routeUpdate, ?policyUpdate, ?layout, ?queryRoutes, ?queryRules, ?limits, ?flushOwn, ?flushSubtree, ?flushHandle,
    ?query, ?queryStale⟩
  case routeUpdate =>
    exact fun s i c h hzero => congrArg _ ((stewardRow_of_ready h _).trans (enqueueUpdate_of_routes hzero))
  case policyUpdate =>
    intro s i c p h hquo hp htear _ hzero
    exact congrArg _ ((stewardRow_of_ready h _).trans
      ((rtPolicyUpdate_of_present hquo hp htear).trans (enqueueUpdate_of_rules hzero)))
  case layout =>
    rintro s _ i len k base c h hlen hk hbase hlo hhi hmax hzero hzero2 hempty hpool hclash rfl
    exact congrArg _ ((stewardRow_of_ready h _).trans
      (rtRouteLayout_of_free hlen hk hbase hlo hhi hmax hzero hzero2 hempty hpool hclash))
  case queryRoutes =>
    intro s i c p h hsel hzero hzero2 htail hp htear hadmin hdigits
    exact congrArg _ ((stewardRow_of_ready h _).trans
      (rtQuery_of_routes hzero hzero2 hp htear (.inl hadmin) hsel htail hdigits))
  case queryRules =>
    intro s i c p h hsel hzero hzero2 htail hp htear hadmin
    exact congrArg _ ((stewardRow_of_ready h _).trans (rtQuery_of_rules hzero hzero2 hp htear (.inl hadmin) hsel htail))
  case limits =>
    intro s i n c p h hquo hn hp htear hzero hzero2 hroutes hrules
    exact congrArg _ ((stewardRow_of_ready h _).trans
      (rtSetLimits_of_room hquo hn hp htear hzero hzero2 hroutes hrules))
  case flushOwn =>
    intro s i c h hzero hbit
    have walk := (stewardRow_of_ready h _).trans (kcFlush_of_zero hzero)
    rw [hbit, if_neg Bool.false_ne_true] at walk
    exact congrArg _ walk
  case flushSubtree =>
    intro s i c h hzero hbit
    have walk := (stewardRow_of_ready h _).trans (kcFlush_of_zero hzero)
    rw [hbit, if_pos rfl] at walk
    exact congrArg _ walk
  case flushHandle =>
    exact fun s i c w h hne hw => congrArg _ ((stewardRow_of_ready h _).trans (kcFlush_of_handle hne hw))
  case query => exact fun s i c w h hw => congrArg _ ((stewardRow_of_ready h _).trans (kcQuery_of_handle hw))
  case queryStale => exact fun s i c h hw => congrArg _ ((stewardRow_of_ready h _).trans (kcQuery_of_stale_handle hw))

end Sys2Proof.Machine
end

section
/-! PROOFS. ROUTE steps (R166, R169, R172, Tables 04.10, 07.3 and 07.5). -/

namespace Sys2Proof.Machine

open Sys2Proof

section
variable {s : State} {c : Cmd} {a : StepArgs}

/-- A digit count above 19 stands for no digits, for which no probe is made (R169). -/
theorem routePanLookupOp_of_in_range {ds : List Nat} (hr : rangeFault false [(a.aOff.toNat, 11)] (a.dOff.toNat, 16) = none)
    (hds : ds = if byteAt (c.rd a.aOff.toNat 11) 0 > 19 then [] else digitString (c.rd a.aOff.toNat 11)) :
    routePanLookupOp s c a = .flags
      { s with rt := { s.rt with probes := (s.rt.probes + (panLookup (s.rt.routes c.rgen) c.part ds).2) % 2 ^ 32 } }
      (c.wr a.dOff.toNat (routeOutput (panLookup (s.rt.routes c.rgen) c.part ds).1))
      (uflags (panLookup (s.rt.routes c.rgen) c.part ds).1.isSome false false) := by
  simp only [routePanLookupOp, hr, hds]

theorem routePolicyLookupOp_of_in_range {r : Option Rule}
    (hr : rangeFault false [(a.aOff.toNat, 8)] (a.dOff.toNat, 16) = none)
    (hrule : r = policyLookup (s.rt.rules c.pgen) c.part (leNat (c.rd a.aOff.toNat 8))) :
    routePolicyLookupOp s c a =
      .flags (countPolicy s) (c.wr a.dOff.toNat (ruleOutput r)) (uflags r.isSome false false) := by
  simp only [routePolicyLookupOp, hr, hrule]

end

/-- Settles O12: a ready step is its lookup, in the copy of the generation that its command carries, once the ranges are in
place; each lookup counts in its own counter. -/
theorem routeStepsComplete : Obligations.RouteStepsComplete := by
  unfold Obligations.RouteStepsComplete
  intro s n k c a h
  refine ⟨?pan, ?policy⟩
  case pan => exact fun ds hr hds => next_step1_of_flags h (routePanLookupOp_of_in_range hr hds)
  case policy => exact fun r hr hrule => next_step1_of_flags h (routePolicyLookupOp_of_in_range hr hrule)

end Sys2Proof.Machine
end

section
/-! PROOFS. The PIN opcodes (R185, R190 to R194, R201): what a draft needs of its keys and of a symmetric core, then the
deciphered PIN of each opcode. -/

namespace Sys2Proof.Machine

open Sys2Proof

/-! ## Vendor drafts that use a symmetric core -/

section
variable {s s1 : State} {n k op : Nat} {c c1 : Cmd}

theorem next_loomRow_of_ready (h : LoomReady s n k op c) {body : State → Cmd → State} (hb : body s c = s1) :
    (.next (loomRow s n k op body) : Outcome) = .next s1 := by
  rw [loomRow_of_ready h, hb]

/-- An opcode that needs a symmetric core goes on with its keys once a core is granted (R99). -/
theorem withKeys_of_core {l : List (Nat × Nat × Nat)} (keys : KeysIn s c l s1 c1) (core : CoreReady s1 c)
    (f : State → Cmd → State) : withKeys s c true l f = f s1 c1 := by
  have needed : needKeys s c l = .ready s1 c1 := keys
  have granted : symAvail s1 c = .granted := core
  simp only [withKeys, needed, granted, Bool.not_true, Bool.false_eq_true, if_false]

end

/-- The initial key in register 0 fits its KSN, and the working key of an earlier call is in register 2 (R201). -/
theorem withDukpt_of_held {s : State} {c : Cmd} {k0 w : KReg} {ksnOff lenOff l : Nat} (reg : RegReady s c 0 k0)
    (hl : l = c.inl lenOff 1) (hlen : l = ksnLen k0.key.alg) (hres : reserved c (ksnOff + l) (12 - l) = true)
    (hksn : ksnOk k0.key.alg (c.inlB ksnOff l) = true) (held : c.key 2 = some w) (t : Nat)
    (f : State → Cmd → KeyInfo → State) : withDukpt s c t ksnOff lenOff f = f s c w.key := by
  subst hl
  simp only [withDukpt, useKey_of_ready reg, hres, hksn, held, ← hlen, ne_eq, not_true_eq_false, Bool.not_true,
    Bool.false_eq_true, or_self, if_false]

/-! ## Translation (R191, R201) -/

section
variable {s s1 : State} {fi fo : Nat} {c c1 : Cmd} {k0 k1 : KReg} (hfi : fi = c.inl 88 1) (hfo : fo = c.inl 89 1)
  (hcount : countOk c 2 = true) (hin : fi ∈ pinFormats) (hout : fo ∈ pinFormats) (hpad : blockPad c fi = true)
  (hpan : panOk (c.inlB 90 11) (panLow [fi, fo]) 19 = true)
include hfi hfo hcount hin hout hpad hpan

theorem pinTranslate_of_keys (hres : reserved c 101 27 = true)
    (keys : KeysIn s c [(0, 2, pinMask fi), (1, 1, pinMask fo)] s1 c1) (core : CoreReady s1 c)
    (reg0 : RegReady s1 c1 0 k0) (reg1 : RegReady s1 c1 1 k1) :
    pinTranslate s c = (pinDecipher k0.key fi (c1.inlB 72 16) (panOf (c.inlB 90 11))).elim (badField s1 c1 2)
      (fun pin => translateTo s1 c1 k1.key fo pin (panOf (c.inlB 90 11))) := by
  subst hfi hfo
  simp only [pinTranslate, hcount, List.contains_iff_mem.mpr hin, List.contains_iff_mem.mpr hout, hres, hpad, hpan,
    Bool.not_true, Bool.false_eq_true, or_self, if_false, withKeys_of_core keys core, useKey_of_ready reg0,
    useKey_of_ready reg1]
  cases pinDecipher k0.key (c.inl 88 1) (c1.inlB 72 16) (panOf (c.inlB 90 11)) with
  | none => rfl
  | some pin => rfl

/-- The block is deciphered under the working key, whose family is that of the inbound format. -/
theorem dukptPinTranslate_of_keys {l : Nat} {w : KReg} (hres : reserved c 114 14 = true)
    (keys : KeysIn s c [(0, 4, 0x1E), (1, 1, pinMask fo)] s1 c1) (core : CoreReady s1 c) (reg0 : RegReady s1 c1 0 k0)
    (reg1 : RegReady s1 c1 1 k1) (hfamily : isAes k0.key.alg = (fi == 4)) (hl : l = c1.inl 101 1)
    (hlen : l = ksnLen k0.key.alg) (hres2 : reserved c1 (102 + l) (12 - l) = true)
    (hksn : ksnOk k0.key.alg (c1.inlB 102 l) = true) (held : c1.key 2 = some w) :
    dukptPinTranslate s c = (pinDecipher w.key fi (c1.inlB 72 16) (panOf (c.inlB 90 11))).elim (badField s1 c1 2)
      (fun pin => translateTo s1 c1 k1.key fo pin (panOf (c.inlB 90 11))) := by
  subst hfi hfo
  simp only [dukptPinTranslate, hcount, List.contains_iff_mem.mpr hin, List.contains_iff_mem.mpr hout, hres, hpad, hpan,
    Bool.not_true, Bool.false_eq_true, or_self, if_false, withKeys_of_core keys core, useKey_of_ready reg0, hfamily, ne_eq,
    not_true_eq_false, withDukpt_of_held reg0 hl hlen hres2 hksn held, useKey_of_ready reg1]
  cases pinDecipher w.key (c.inl 88 1) (c1.inlB 72 16) (panOf (c.inlB 90 11)) with
  | none => rfl
  | some pin => rfl

end

/-- The fill of the outbound format comes from the DRBG of the command's loom. -/
theorem translateTo_of_bytes {s t : State} {c : Cmd} {fo : Nat} {fill : Bytes}
    (hfill : s.random (drbgOf c.place) (fillLen fo) = .bytes t fill) (q : KeyInfo) (pin pan : List Nat) :
    translateTo s c q fo pin pan = doneWith t c (sl (pinEncipher q fo pin fill pan) 0 (if fo = 4 then 16 else 8)) [] :=
  rowRandom_of_bytes hfill _

/-! ## Offsets and verification values (R192 to R194) -/

section
variable {s s1 : State} {c c1 : Cmd} {k0 k1 : KReg} {verify : Bool}

section
variable {d : Nat}

theorem offsetRow_of_bad_params (hpar : offsetParams c verify = some d)
    (f : State → Cmd → List Nat → List Nat → State) : offsetRow verify f s c = badField s c d := by
  simp only [offsetRow, hpar]

theorem pvvRow_of_bad_params (hpar : pvvParams c verify = some d) (f : State → Cmd → List Nat → State) :
    pvvRow verify f s c = badField s c d := by
  simp only [pvvRow, hpar]

end

section
variable {fmt : Nat} (hfmt : fmt = c.inl 88 1) (core : CoreReady s1 c) (reg0 : RegReady s1 c1 0 k0)
  (reg1 : RegReady s1 c1 1 k1)
include hfmt core reg0 reg1

/-- The PIN, when its block is in form and it is long enough, and the natural PIN go to the opcode. -/
theorem offsetRow_of_keys (hpar : offsetParams c verify = none)
    (keys : KeysIn s c [(0, 2, pinMask fmt), (1, 9, tdesMask)] s1 c1) (f : State → Cmd → List Nat → List Nat → State) :
    offsetRow verify f s c =
      (pinDecipher k0.key fmt (c1.inlB 72 16) (panOf (c1.inlB 90 11))).elim (badField s1 c1 2) (fun pin =>
        if pin.length < c1.inl 89 1 then badField s1 c1 4
        else f s1 c1 pin (naturalPin k1.key (c1.inlB 101 8) (c1.inlB 109 8) (c1.inl 89 1))) := by
  subst hfmt
  simp only [offsetRow, hpar, withKeys_of_core keys core, useKey_of_ready reg0, useKey_of_ready reg1]
  cases pinDecipher k0.key (c.inl 88 1) (c1.inlB 72 16) (panOf (c1.inlB 90 11)) with
  | none => rfl
  | some pin => rfl

theorem pvvRow_of_keys (hpar : pvvParams c verify = none) (keys : KeysIn s c [(0, 2, pinMask fmt), (1, 9, 16)] s1 c1)
    (f : State → Cmd → List Nat → State) :
    pvvRow verify f s c =
      (pinDecipher k0.key fmt (c1.inlB 72 16) (panOf (c.inlB 90 11))).elim (badField s1 c1 2) (fun pin =>
        f s1 c1 (pvvOf k1.key (panOf (c.inlB 90 11)) (c1.inl 89 1) pin)) := by
  subst hfmt
  simp only [pvvRow, hpar, withKeys_of_core keys core, useKey_of_ready reg0, useKey_of_ready reg1]
  cases pinDecipher k0.key (c.inl 88 1) (c1.inlB 72 16) (panOf (c.inlB 90 11)) with
  | none => rfl
  | some pin => rfl

end

end

/-! ## The statement -/

/-- Settles O52: an opcode's row is its body, which answers what its parameters, its two keys and the deciphered PIN give; a
block out of form ends it with detail 2. That bad parameters are answered before any key is looked up is the model's reading
(notes/assumptions/21.md). -/
theorem pinOpcodesComplete : Obligations.PinOpcodesComplete := by
  unfold Obligations.PinOpcodesComplete
  refine ⟨?translate, ?fill, ?verifyOffset, ?offset, ?verifyPvv, ?pvv, ?dukpt, ?badOffset, ?badPvv⟩
  case translate =>
    intro s s1 n k fi fo c c1 k0 k1 h hfi hfo hcount hin hout hres hpad hpan keys core reg0 reg1
    exact next_loomRow_of_ready h
      (pinTranslate_of_keys hfi hfo hcount hin hout hpad hpan hres keys core reg0 reg1)
  case fill => exact fun s t c q fo pin pan fill hfill => translateTo_of_bytes hfill q pin pan
  case verifyOffset =>
    rintro s s1 n k _ fmt c c1 k0 k1 h hfmt rfl hpar keys core reg0 reg1
    exact next_loomRow_of_ready h (offsetRow_of_keys hfmt core reg0 reg1 hpar keys _)
  case offset =>
    rintro s s1 n k _ fmt c c1 k0 k1 h hfmt rfl hpar keys core reg0 reg1
    exact next_loomRow_of_ready h (offsetRow_of_keys hfmt core reg0 reg1 hpar keys _)
  case verifyPvv =>
    intro s s1 n k fmt c c1 k0 k1 h hfmt hpar keys core reg0 reg1
    exact next_loomRow_of_ready h (pvvRow_of_keys hfmt core reg0 reg1 hpar keys _)
  case pvv =>
    intro s s1 n k fmt c c1 k0 k1 h hfmt hpar keys core reg0 reg1
    exact next_loomRow_of_ready h (pvvRow_of_keys hfmt core reg0 reg1 hpar keys _)
  case dukpt =>
    intro s s1 n k fi fo l c c1 k0 k1 w h hfi hfo hcount hin hout hres hpad hpan keys core reg0 reg1 hfamily hl hlen hres2
      hksn held
    exact next_loomRow_of_ready h (dukptPinTranslate_of_keys hfi hfo hcount hin hout hpad hpan hres keys core reg0 reg1
      hfamily hl hlen hres2 hksn held)
  case badOffset => exact fun s n k d c hpar h => next_loomRow_of_ready h (offsetRow_of_bad_params hpar _)
  case badPvv => exact fun s n k d c hpar h => next_loomRow_of_ready h (pvvRow_of_bad_params hpar _)

end Sys2Proof.Machine
end

section
/-! PROOFS. The card, EMV, DUKPT, MAC, random and hash opcodes (R195 to R198, R200 to R203, R254). -/

namespace Sys2Proof.Machine

open Sys2Proof

/-! ## Card verification codes and EMV (R195 to R198) -/

section
variable {s s1 : State} {c c1 : Cmd} {k0 : KReg}

theorem cvcRow_of_keys {verify : Bool} (hpar : cvcParams c verify = none) (keys : KeysIn s c [(0, 9, 16)] s1 c1)
    (core : CoreReady s1 c) (reg : RegReady s1 c1 0 k0) (f : State → Cmd → List Nat → State) :
    cvcRow verify f s c = f s1 c1 (cvcOf k0.key (panOf (c1.inlB 72 11)) (nibbles (c1.inlB 83 2))
      ((nibbles (c1.inlB 85 2)).take 3) (c1.inl 87 1)) := by
  simp only [cvcRow, hpar, withKeys_of_core keys core, useKey_of_ready reg]

/-- The request cryptogram decides the verdict, and the mode says which response a match gets (R198). -/
theorem emvArqcVerify_of_keys {m : Nat} {ctx arqc : Bytes} (hpar : emvParams c = none)
    (keys : KeysIn s c [(0, 5, 0x1E)] s1 c1) (core : CoreReady s1 c) (reg : RegReady s1 c1 0 k0)
    (hm : m = c1.inl 72 1 % 4) (hctx : ctx = emvContext (panOf (c1.inlB 99 11)) (c1.inlB 73 1) (c1.inlB 74 2))
    (harqc : arqc = c1.inlB 76 8) :
    emvArqcVerify s c =
      if emvFunction k0.key 0 (bit (c1.inl 72 1) 2) ctx (c1.own false) ≠ arqc then doneVerify s1 c1 false
      else if m = 0 then doneVerify s1 c1 true
      else if m = 1 then doneWith s1 c1 (emvFunction k0.key 1 false ctx (arqc ++ c1.inlB 84 2) ++ [1#8]) []
      else doneWith s1 c1 (emvFunction k0.key 2 false ctx (arqc ++ c1.inlB 86 4 ++ c1.inlB 91 (c1.inl 90 1)) ++ zeros 4 ++
        [2#8]) [] := by
  subst hm hctx harqc
  simp only [emvArqcVerify, hpar, withKeys_of_core keys core, useKey_of_ready reg]

/-! ## DUKPT (R202, R203) -/

section
variable {l : Nat} {w : KReg} {x : Bytes} (hcount : countOk c 1 = true) (keys : KeysIn s c [(0, 4, 0x1E)] s1 c1)
  (core : CoreReady s1 c) (reg : RegReady s1 c1 0 k0) (hl : l = c1.inl 73 1) (hlen : l = ksnLen k0.key.alg)
  (hres : reserved c1 (74 + l) (12 - l) = true) (hksn : ksnOk k0.key.alg (c1.inlB 74 l) = true)
  (held : c1.key 2 = some w) (hx : x = c1.own false)
include hcount keys core reg hl hlen hres hksn held hx

theorem dukptDecrypt_of_keys {m : Nat} (hm : m = c.inl 72 1) (hmode : m ≤ 2) (hres86 : reserved c 86 2 = true)
    (hres104 : reserved c 104 24 = true) (hiv : m ≠ 1 → reserved c 88 16 = true)
    (hwhole : x.length % blockLen w.key.alg = 0) (hiv8 : m = 1 → isTdes w.key.alg = true → reserved c1 96 8 = true) :
    dukptDecrypt s c = doneWith s1 c1 [] (if m = 2 then ecbDec w.key.alg w.key.mat x
      else cbcDec w.key.alg w.key.mat (if m = 1 then c1.inlB 88 (blockLen w.key.alg) else zeros (blockLen w.key.alg)) x) := by
  subst hm hx
  have ivUnused : ¬ (c.inl 72 1 ≠ 1 ∧ (!reserved c 88 16) = true) := by
    rintro ⟨hne, bad⟩
    simp [hiv hne] at bad
  have ivFits : ¬ (c.inl 72 1 = 1 ∧ isTdes w.key.alg = true ∧ (!reserved c1 96 8) = true) := by
    rintro ⟨hcbc, htdes, bad⟩
    simp [hiv8 hcbc htdes] at bad
  simp only [dukptDecrypt, hcount, (show ¬ c.inl 72 1 > 2 by omega), hres86, hres104, ivUnused, ivFits, hwhole,
    Bool.not_true, Bool.false_eq_true, ne_eq, not_true_eq_false, or_self, if_false, withKeys_of_core keys core,
    withDukpt_of_held reg hl hlen hres hksn held]

theorem dukptMacVerify_of_keys {ml : Nat} (hml : ml = c.inl 72 1) (hmin : 4 ≤ ml) (hmax : ml ≤ 16)
    (hres86 : reserved c 86 42 = true) (hlong : ml < x.length) (hshort : isTdes w.key.alg = true → ml ≤ 8) :
    dukptMacVerify s c = doneVerify s1 c1 (sl (if isAes w.key.alg then macCmac w.key.alg w.key.mat (x.drop ml)
      else macAlg3 w.key.mat (padMsg 1 8 (x.drop ml))) 0 ml == x.take ml) := by
  subst hml hx
  have inBounds : ¬ (isTdes w.key.alg = true ∧ c.inl 72 1 > 8) := by
    rintro ⟨htdes, tooLong⟩
    have fits := hshort htdes
    omega
  simp only [dukptMacVerify, hcount, (show ¬ c.inl 72 1 < 4 by omega), (show ¬ c.inl 72 1 > 16 by omega), hres86,
    inBounds, (show ¬ (c1.own false).length ≤ c.inl 72 1 by omega), Bool.not_true, Bool.false_eq_true, or_self, if_false,
    withKeys_of_core keys core, withDukpt_of_held reg hl hlen hres hksn held]

end

/-! ## MACs (R200) -/

/-- The MAC of the message that follows the `lead` bytes of a MAC to compare. -/
theorem macRow_of_keys {usage m ml lead : Nat} {verify : Bool} {x full : Bytes} (hpar : macParams c = none)
    (hm : m = c.inl 72 1) (hml : ml = c.inl 74 1) (hx : x = c.own false) (hlead : lead = if verify then ml else 0)
    (hlong : lead + (if m = 1 then 1 else 0) ≤ x.length) (keys : KeysIn s c [(0, usage, macMask m)] s1 c1)
    (core : CoreReady s1 c) (reg : RegReady s1 c1 0 k0) (hfull : full = fullMac m (c1.inl 73 1) k0.key (x.drop lead)) :
    macRow usage verify s c =
      if full.length < ml then badField s1 c1 7
      else if verify then doneVerify s1 c1 (full.take ml == x.take ml)
      else if ml ≤ 16 then doneWith s1 c1 (full.take ml) []
      else doneWith s1 c1 [] (full.take ml) := by
  subst hm hml hx hlead hfull
  simp only [macRow, hpar, if_neg (Nat.not_lt.mpr hlong), withKeys_of_core keys core, useKey_of_ready reg, gt_iff_lt]

/-! ## Random numbers and digests (R254) -/

theorem rngGenerate_of_params {l al : Nat} (hl : l = c.inl 72 4) (hal : al = c.inl 76 1)
    (hres77 : reserved c 77 3 = true) (hres112 : reserved c 112 16 = true) (h1 : 1 ≤ l) (hmax : l ≤ 3072) (hadd : al ≤ 32) :
    rngGenerate s c = rowRandomWith s c l (c.inlB 80 al) (fun s1 b => doneWith s1 c [] b) := by
  subst hl hal
  have inBounds : ¬ (c.inl 72 4 < 1 ∨ c.inl 72 4 > 3072 ∨ c.inl 76 1 > 32) := by omega
  simp only [rngGenerate, hres77, hres112, Bool.not_true, Bool.false_eq_true, or_self, if_false, if_neg inBounds]

theorem hashRow_of_core {h : Nat} (hh : h = c.inl 72 1) (h1 : 1 ≤ h) (h3 : h ≤ 3) (hres : reserved c 73 55 = true)
    (core : CoreReady s c) : hashRow s c = doneWith s c [] (digestOf h (c.own false)) := by
  subst hh
  have named : ¬ (c.inl 72 1 < 1 ∨ c.inl 72 1 > 3 ∨ (!reserved c 73 55) = true) := by simp [hres]; omega
  have noKeys : KeysIn s c [] s c := rfl
  simp only [hashRow, if_neg named, withKeys_of_core noKeys core]

end

section
variable {s t : State} {c : Cmd} {n : Nat} {add b : Bytes}

theorem rowRandomWith_of_bytes (h : s.randomWith (drbgOf c.place) n add = .bytes t b) (f : State → Bytes → State) :
    rowRandomWith s c n add f = f t b := by
  simp only [rowRandomWith, h]

theorem rowRandomWith_of_off (h : s.randomWith (drbgOf c.place) n add = .off) (f : State → Bytes → State) :
    rowRandomWith s c n add f = s.retire c 0x9001 := by
  simp only [rowRandomWith, h]

end

/-! ## The statement -/

/-- Settles O53: an opcode's row is its body, which answers what its parameters, its key and the extended data give. -/
theorem cardAndMacOpcodesComplete : Obligations.CardAndMacOpcodesComplete := by
  unfold Obligations.CardAndMacOpcodesComplete
  refine ⟨?cvc, ?emv, ?decrypt, ?dukptMac, ?mac, ?macVerify, ?random, ?randomOff, ?hash⟩
  case cvc =>
    rintro s s1 n k c c1 k0 _ keys core reg rfl
    exact ⟨fun h hpar => next_loomRow_of_ready h (cvcRow_of_keys hpar keys core reg _),
      fun h hpar => next_loomRow_of_ready h (cvcRow_of_keys hpar keys core reg _)⟩
  case emv =>
    intro s s1 n k m c c1 k0 ctx arqc h hpar keys core reg hm hctx harqc
    exact next_loomRow_of_ready h (emvArqcVerify_of_keys hpar keys core reg hm hctx harqc)
  case decrypt =>
    intro s s1 n k m l c c1 k0 w x h hm hcount hmode hres86 hres104 hiv keys core reg hl hlen hres hksn held hx hwhole hiv8
    exact next_loomRow_of_ready h (dukptDecrypt_of_keys hcount keys core reg hl hlen hres hksn held hx hm hmode hres86
      hres104 hiv hwhole hiv8)
  case dukptMac =>
    intro s s1 n k ml l c c1 k0 w x h hml hcount hmin hmax hres86 keys core reg hl hlen hres hksn held hx hlong hshort
    exact next_loomRow_of_ready h (dukptMacVerify_of_keys hcount keys core reg hl hlen hres hksn held hx hml hmin hmax
      hres86 hlong hshort)
  case mac =>
    intro s s1 n k m ml c c1 k0 x full h hpar hm hml hx hlong keys core reg hfull
    have atLeast : 0 + (if m = 1 then 1 else 0) ≤ x.length := by
      split
      case isTrue one => exact hlong one
      case isFalse => exact Nat.zero_le _
    exact next_loomRow_of_ready h (macRow_of_keys (verify := false) hpar hm hml hx rfl atLeast keys core reg hfull)
  case macVerify =>
    intro s s1 n k m ml c c1 k0 x full h hpar hm hml hx hlong keys core reg hfull
    exact next_loomRow_of_ready h (macRow_of_keys (verify := true) hpar hm hml hx rfl hlong keys core reg hfull)
  case random =>
    intro s t n k l al c b h hl hal hres77 hres112 h1 hmax hadd hb
    exact next_loomRow_of_ready h
      ((rngGenerate_of_params hl hal hres77 hres112 h1 hmax hadd).trans (rowRandomWith_of_bytes hb _))
  case randomOff =>
    intro s n k l al c h hl hal hres77 hres112 h1 hmax hadd hoff
    exact next_loomRow_of_ready h
      ((rngGenerate_of_params hl hal hres77 hres112 h1 hmax hadd).trans (rowRandomWith_of_off hoff _))
  case hash => exact fun s n k m c h hm h1 h3 hres core => next_loomRow_of_ready h (hashRow_of_core hm h1 h3 hres core)

end Sys2Proof.Machine
end

section
/-! PROOFS. FMT steps and RAND.GEN (R101, R190, R191, R247, Table 04.10). -/

namespace Sys2Proof.Machine

open Sys2Proof

/-! ## Free destinations -/

theorem State.length_draws (s : State) (n : Nat) : (s.draws n).length = n := by
  rw [State.draws, List.length_map, List.length_range]

/-- A step whose check fails leaves a destination of the width it would have written, with free bytes in it. -/
theorem next_step1_of_freeDst {s : State} {n k w : Nat} {c : Cmd} {a : StepArgs} {u : BitVec 4} {body : StepFn}
    (h : StepReady s n k c a) (hb : body s c a = freeDst s c a.dOff.toNat w u) :
    ∃ free : Bytes, free.length = w ∧ (.next (s.step1 n k a body) : Outcome) =
      .next ((s.drawn w).stepTo n k (c.wr a.dOff.toNat free) a u) :=
  ⟨s.draws w, s.length_draws w, next_step1_of_flags h hb⟩

/-! ## PIN and PAN fields (R190, R191) -/

section
variable {s : State} {c : Cmd} {a : StepArgs} {f w : Nat} (hf : f = bits a.param.toNat 2 0)
  (hw : w = if f = 4 then 16 else 8)
include hf hw

section
variable (hfield : f = 0 ∨ f = 3 ∨ f = 4) (hr : rangeFault false [(a.aOff.toNat, 11)] (a.dOff.toNat, w) = none)
include hfield hr

theorem fmtPanFieldOp_of_digits {ds : List Nat} (hds : panDigits (c.rd a.aOff.toNat 11) = some ds) :
    fmtPanFieldOp s c a = .flags s (c.wr a.dOff.toNat (panField f ds)) 0 := by
  simp only [fmtPanFieldOp, ← hf, ← hw, if_neg (show ¬ (f ≠ 0 ∧ f ≠ 3 ∧ f ≠ 4) by omega), hr, hds]

theorem fmtPanFieldOp_of_malformed (hds : panDigits (c.rd a.aOff.toNat 11) = none) :
    fmtPanFieldOp s c a = freeDst s c a.dOff.toNat w (uflags true false false) := by
  simp only [fmtPanFieldOp, ← hf, ← hw, if_neg (show ¬ (f ≠ 0 ∧ f ≠ 3 ∧ f ≠ 4) by omega), hr, hds]

end

section
variable (hformat : pinFormats.contains f = true)
include hformat

section
variable {x : Bytes}
  (hr : rangeFault false ((a.aOff.toNat, w) :: (if f = 1 then [] else [(a.bOff.toNat, w)])) (a.dOff.toNat, 8) = none)
  (hx : x = if f = 0 ∨ f = 3 then xorBytes (c.rd a.aOff.toNat w) (c.rd a.bOff.toNat 8) else c.rd a.aOff.toNat w)
include hr hx

theorem fmtPinDecodeOp_of_field {pin : List Nat} (hpin : pinOfField f x = some pin) :
    fmtPinDecodeOp s c a = .flags s (c.wr a.dOff.toNat (pinRecord pin)) 0 := by
  simp only [fmtPinDecodeOp, ← hf, ← hw, ← hx, hformat, Bool.not_true, Bool.false_eq_true, if_false, hr, hpin]

theorem fmtPinDecodeOp_of_malformed (hpin : pinOfField f x = none) :
    fmtPinDecodeOp s c a = freeDst s c a.dOff.toNat 8 (uflags true false false) := by
  simp only [fmtPinDecodeOp, ← hf, ← hw, ← hx, hformat, Bool.not_true, Bool.false_eq_true, if_false, hr, hpin]

end

theorem fmtPinEncodeOp_of_record
    (hr : rangeFault false ((a.aOff.toNat, 8) :: (if f = 0 then [] else [(a.bOff.toNat, 8)])) (a.dOff.toNat, w) = none)
    (h4 : 4 ≤ byteAt (c.rd a.aOff.toNat 8) 0) (h12 : byteAt (c.rd a.aOff.toNat 8) 0 ≤ 12)
    (hdigits : (recordPin (c.rd a.aOff.toNat 8)).all (fun x => decide (x ≤ 9)) = true) :
    fmtPinEncodeOp s c a =
      .flags s (c.wr a.dOff.toNat (pinField f (recordPin (c.rd a.aOff.toNat 8)) (c.rd a.bOff.toNat 8))) 0 := by
  have decimal : (recordPin (c.rd a.aOff.toNat 8)).any (fun x => decide (x > 9)) = false := by simpa using hdigits
  have inForm : ¬ (byteAt (c.rd a.aOff.toNat 8) 0 < 4 ∨ byteAt (c.rd a.aOff.toNat 8) 0 > 12 ∨
      (recordPin (c.rd a.aOff.toNat 8)).any (fun x => decide (x > 9)) = true) := by
    simp only [decimal, Bool.false_eq_true, or_false]
    omega
  simp only [fmtPinEncodeOp, ← hf, ← hw, hformat, Bool.not_true, Bool.false_eq_true, if_false, hr, if_neg inForm]

end

end

/-! ## Digits, padding, BER-TLV and random bytes -/

section
variable {s : State} {c : Cmd} {a : StepArgs} {l : Nat} (hl : stepLen c a = some l)
include hl

theorem fmtDecimaliseOp_of_in_range (hr : rangeFault false [(a.aOff.toNat, l), (a.bOff.toNat, 8)] (a.dOff.toNat, l) = none) :
    fmtDecimaliseOp s c a =
      .flags s (c.wr a.dOff.toNat (decimalise (c.rd a.bOff.toNat 8) (c.rd a.aOff.toNat l))) 0 := by
  simp only [fmtDecimaliseOp, hl, hr]

section
variable {g : Bytes → Option Bytes} {dlen : Nat → Nat}
  (hr : rangeFault false [(a.aOff.toNat, l)] (a.dOff.toNat, dlen l) = none)
include hr

theorem bcdStep_of_digits {b : Bytes} (hb : g (c.rd a.aOff.toNat l) = some b) :
    bcdStep g dlen s c a = .flags s (c.wr a.dOff.toNat b) 0 := by
  simp only [bcdStep, hl, hr, hb]

theorem bcdStep_of_malformed (hb : g (c.rd a.aOff.toNat l) = none) :
    bcdStep g dlen s c a = freeDst s c a.dOff.toNat (dlen l) (uflags true false false) := by
  simp only [bcdStep, hl, hr, hb]

end

theorem fmtPadOp_of_in_range {m : Nat} {b : Bytes} (hm : m = bits a.param.toNat 1 0) (h12 : m = 1 ∨ m = 2)
    (hb : b = padMsg m (if bit a.param.toNat 4 then 8 else 16) (c.rd a.aOff.toNat l))
    (hr : rangeFault false [(a.aOff.toNat, l)] (a.dOff.toNat, b.length) = none) :
    fmtPadOp s c a = .flags s (c.wr a.dOff.toNat b) 0 := by
  simp only [fmtPadOp, hl, ← hm, ← hb, if_neg (show ¬ (m ≠ 1 ∧ m ≠ 2) by omega), hr]

section
variable (hr : rangeFault false [(a.aOff.toNat, l)] (0x100, 0) = none)
include hr

theorem fmtTlvFindOp_of_found {o m : Nat}
    (hfind : tlvFind (c.rd a.aOff.toNat l) (a.imm.toNat % 65536) (l + 1) 0 = .found o m) :
    fmtTlvFindOp s c a = .flags s ((c.setV 0 o).setV 1 m) 0 := by
  simp only [fmtTlvFindOp, hl, hr, hfind]

theorem fmtTlvFindOp_of_absent
    (hfind : tlvFind (c.rd a.aOff.toNat l) (a.imm.toNat % 65536) (l + 1) 0 = .absent) :
    fmtTlvFindOp s c a = .flags (s.drawn 8)
      ((c.setV 0 (leNat (s.draws 4))).setV 1 (leNat (sl (s.draws 8) 4 4))) (uflags true false false) := by
  simp only [fmtTlvFindOp, hl, hr, hfind]

theorem fmtTlvFindOp_of_malformed
    (hfind : tlvFind (c.rd a.aOff.toNat l) (a.imm.toNat % 65536) (l + 1) 0 = .malformed) :
    fmtTlvFindOp s c a = .flags (s.drawn 8)
      ((c.setV 0 (leNat (s.draws 4))).setV 1 (leNat (sl (s.draws 8) 4 4))) (uflags false true false) := by
  simp only [fmtTlvFindOp, hl, hr, hfind]

end

theorem randGenOp_of_bytes {s1 : State} {b : Bytes} (h1 : 1 ≤ l) (h256 : l ≤ 256)
    (hr : rangeFault true [] (a.dOff.toNat, l) = none) (hb : s.random (drbgOf c.place) l = .bytes s1 b) :
    randGenOp s c a = .flags s1 (c.wr a.dOff.toNat b) 0 := by
  simp only [randGenOp, hl, if_neg (show ¬ (l < 1 ∨ l > 256) by omega), hr, withRandom_of_bytes hb]

end

/-! ## The statement -/

/-- Settles O13: a ready step is its operation, which writes its result when its operand is in form, and otherwise sets the
flag of its row over free bytes or free values (notes/assumptions/4.md). -/
theorem formatStepsComplete : Obligations.FormatStepsComplete := by
  unfold Obligations.FormatStepsComplete
  refine ⟨fun s n k c a f w h hf hw => ⟨?pan, ?decode, ?encode⟩,
    fun s n k c a l h hl => ⟨?decimalise, ?pack, ?unpack, ?pad, ?find, ?random⟩⟩
  case pan =>
    exact fun hfield hr =>
      ⟨fun ds hds => next_step1_of_flags h (fmtPanFieldOp_of_digits hf hw hfield hr hds),
        fun hds => next_step1_of_freeDst h (fmtPanFieldOp_of_malformed hf hw hfield hr hds)⟩
  case decode =>
    exact fun x hformat hr hx =>
      ⟨fun pin hpin => next_step1_of_flags h (fmtPinDecodeOp_of_field hf hw hformat hr hx hpin),
        fun hpin => next_step1_of_freeDst h (fmtPinDecodeOp_of_malformed hf hw hformat hr hx hpin)⟩
  case encode =>
    exact fun hformat hr h4 h12 hdigits =>
      next_step1_of_flags h (fmtPinEncodeOp_of_record hf hw hformat hr h4 h12 hdigits)
  case decimalise => exact fun hr => next_step1_of_flags h (fmtDecimaliseOp_of_in_range hl hr)
  case pack =>
    exact fun hr => ⟨fun b hb => next_step1_of_flags h (bcdStep_of_digits hl hr hb),
      fun hb => next_step1_of_freeDst h (bcdStep_of_malformed hl hr hb)⟩
  case unpack =>
    exact fun hr => ⟨fun b hb => next_step1_of_flags h (bcdStep_of_digits hl hr hb),
      fun hb => next_step1_of_freeDst h (bcdStep_of_malformed hl hr hb)⟩
  case pad => exact fun m b hm h12 hb hr => next_step1_of_flags h (fmtPadOp_of_in_range hl hm h12 hb hr)
  case find =>
    exact fun hr => ⟨fun o m hfind => next_step1_of_flags h (fmtTlvFindOp_of_found hl hr hfind),
      fun hfind => ⟨_, _, next_step1_of_flags h (fmtTlvFindOp_of_absent hl hr hfind)⟩,
      fun hfind => ⟨_, _, next_step1_of_flags h (fmtTlvFindOp_of_malformed hl hr hfind)⟩⟩
  case random => exact fun s1 b h1 h256 hr hb => next_step1_of_flags h (randGenOp_of_bytes hl h1 h256 hr hb)

end Sys2Proof.Machine
end

section
/-! PROOFS. The signature opcodes and ASYM_PUBLIC (R231, R232, R236): with its parameters and its key in order, the body of
each is one bignum job and an answer made of its result. -/

namespace Sys2Proof.Machine

open Sys2Proof

/-! ## Drafts that are one bignum job -/

section
variable {s s1 : State} {c c1 : Cmd}

/-- A row whose body is one job hands it over on the first call, and answers on the call after its end. -/
theorem next_loomRow_of_job {n k op : Nat} {body : State → Cmd → State} {r : BnReq} {f : Bool → Bytes → State}
    (h : LoomReady s n k op c) (job : body s c = rowJob s1 c1 r f) :
    (c1.phase = .ready → BnReady s1 r → (.next (loomRow s n k op body) : Outcome) = .next (s1.jobWaits c1 r)) ∧
    (∀ j flag out, c1.phase = .bnDone j flag out → (.next (loomRow s n k op body) : Outcome) = .next (f flag out)) :=
  ⟨fun hph bn => next_loomRow_of_ready h (job.trans (rowJob_of_ready hph bn f)),
    fun _ _ _ hph => next_loomRow_of_ready h (job.trans (rowJob_of_done hph s1 r f))⟩

/-- An opcode that hashes needs a symmetric core until its job has been handed over (R99, R232). -/
theorem asymKeys_of_core {hash : Bool} {l : List (Nat × Nat × Nat)} (keys : KeysIn s c l s1 c1)
    (core : (hash && c.fresh) = true → CoreReady s1 c) (f : State → Cmd → State) : asymKeys s c hash l f = f s1 c1 := by
  cases hashes : hash && c.fresh with
  | true => rw [asymKeys, hashes, withKeys_of_core keys (core hashes)]
  | false =>
    have needed : needKeys s c l = .ready s1 c1 := keys
    simp only [asymKeys, hashes, withKeys, needed, Bool.not_false, if_true]

end

/-! ## Ed25519 and ASYM_PUBLIC (R231, R236) -/

section
variable {s s1 : State} {c c1 : Cmd} {x : KReg}

theorem ed25519Sign_of_key (hcount : countOk c 1 = true) (keys : KeysIn s c [(0, 7, 2 ^ 7)] s1 c1)
    (reg : RegReady s1 c1 0 x) : ed25519Sign s c =
      rowJob s1 c1 { op := 1, size := 0, pss := false, alg := 7, key := x.key.mat, operand := c1.own false, record := [] }
        (fun _ out => doneWith s1 c1 [] out) := by
  simp only [ed25519Sign, hcount, Bool.not_true, Bool.false_eq_true, if_false, asymKeys_of_keys keys, useKey_of_ready reg]

theorem ed25519Verify_of_key (hcount : verifyCount c = true) (hrefs : c.krefs ≠ 0) (hlen : 64 ≤ (c.own false).length)
    (keys : KeysIn s c [(0, 8, 2 ^ 7)] s1 c1) (reg : RegReady s1 c1 0 x) : ed25519Verify s c =
      rowJob s1 c1 { op := 2, size := 0, pss := false, alg := 7, key := x.key.mat, operand := c.own false, record := [] }
        (fun f _ => doneVerify s1 c1 (!f)) := by
  simp only [ed25519Verify, hcount, Bool.not_true, Bool.false_eq_true, if_neg (Nat.not_lt.mpr hlen), if_neg hrefs, if_false,
    asymKeys_of_keys keys, useKey_of_ready reg, verifyJob]

/-- Without a key reference the public key stands in the inline parameters. -/
theorem ed25519Verify_of_inline_key (hrefs : c.krefs = 0) (hlen : 64 ≤ (c.own false).length) : ed25519Verify s c =
      rowJob s c { op := 2, size := 0, pss := false, alg := 7, key := c.inlB 72 32, operand := c.own false, record := [] }
        (fun f _ => doneVerify s c (!f)) := by
  have hcount : verifyCount c = true := by simp only [verifyCount, hrefs, BEq.rfl, Bool.true_or]
  simp only [ed25519Verify, hcount, Bool.not_true, Bool.false_eq_true, if_neg (Nat.not_lt.mpr hlen), if_pos hrefs, if_false,
    verifyJob]

theorem asymPublic_of_key (hcount : countOk c 1 = true) (keys : KeysIn s c [(0, ownUsage s c 0, 0x3F80)] s1 c1)
    (reg : RegReady s1 c1 0 x) (hpublic : publicOk x.key = true) : asymPublic s c =
      rowJob s1 c1 (publicReq x.key) (fun _ out => doneWith s1 c1 (toLe 2 out.length) out) := by
  simp only [asymPublic, hcount, Bool.not_true, Bool.false_eq_true, if_false, asymKeys_of_keys keys, useKey_of_ready reg,
    hpublic]

end

/-! ## ECDSA and RSA on a digest, supplied or computed (R231, R232) -/

section
variable {s s1 : State} {z : Nat} {c c1 : Cmd} {x : KReg} (hhash : c.inl 72 1 ≤ 3)
  (core : ((c.inl 72 1 != 0) && c.fresh) = true → CoreReady s1 c) (reg : RegReady s1 c1 0 x)
include hhash core reg

section
variable (hdigest : digestLenOk (c.inl 72 1) (c.own false) = true)
include hdigest

theorem ecdsaSign_of_key (hcount : countOk c 1 = true) (keys : KeysIn s c [(0, 7, 2 ^ ecAlg z)] s1 c1) : ecdsaSign z s c =
    rowJob s1 c1 { op := 4, size := z, pss := false, alg := ecAlg z, key := x.key.mat,
                   operand := digestFor (c.inl 72 1) (c.own false), record := [] } (fun _ out => doneWith s1 c1 [] out) := by
  simp only [ecdsaSign, hcount, hdigest, gt_iff_lt, Nat.not_lt.mpr hhash, Bool.not_true, Bool.false_eq_true, or_self,
    if_false, asymKeys_of_core keys core, useKey_of_ready reg]

theorem rsaSign_of_key (hrefs : c.krefs = 2) (hpss : c.inl 73 1 ≤ 1)
    (keys : KeysIn s c [(0, 7, 2 ^ (11 + z))] s1 c1) : rsaSign z s c =
      rowJob s1 c1 { op := 6, size := z, pss := c.inl 73 1 == 1, alg := 11 + z, key := x.key.mat,
                     operand := digestFor (c.inl 72 1) (c.own false), record := [] }
        (fun _ out => doneWith s1 c1 [] out) := by
  simp only [rsaSign, hrefs, hdigest, gt_iff_lt, Nat.not_lt.mpr hhash, Nat.not_lt.mpr hpss, ne_eq, not_true_eq_false,
    Bool.not_true, Bool.false_eq_true, or_self, if_false, asymKeys_of_core keys core, useKey_of_ready reg]

end

/-- The signature comes first in the extended data, and the message or its digest after it. -/
theorem ecdsaVerify_of_key {w : Nat} (hw : w = if z = 1 then 96 else 64) (hcount : verifyCount c = true)
    (hrefs : c.krefs ≠ 0) (hlen : w ≤ (c.own false).length)
    (hdigest : digestLenOk (c.inl 72 1) ((c.own false).drop w) = true) (keys : KeysIn s c [(0, 8, 2 ^ ecAlg z)] s1 c1) :
    ecdsaVerify z s c =
      rowJob s1 c1 { op := 5, size := z, pss := false, alg := ecAlg z, key := x.key.mat,
                     operand := digestFor (c.inl 72 1) ((c.own false).drop w) ++ sl (c.own false) 0 w, record := [] }
        (fun f _ => doneVerify s1 c1 (!f)) := by
  simp only [ecdsaVerify, if_neg hrefs, Nat.zero_add, ← hw, hcount, hdigest, gt_iff_lt, Nat.not_lt.mpr hhash,
    Nat.not_lt.mpr hlen, Bool.not_true, Bool.false_eq_true, or_self, if_false, asymKeys_of_core keys core,
    useKey_of_ready reg, verifyJob]

theorem rsaVerify_of_key (hrefs : c.krefs = 2) (hpss : c.inl 73 1 ≤ 1) (hlen : sigBytes z ≤ (c.own false).length)
    (hdigest : digestLenOk (c.inl 72 1) ((c.own false).drop (sigBytes z)) = true)
    (keys : KeysIn s c [(0, 8, 2 ^ (11 + z))] s1 c1) : rsaVerify z s c =
      rowJob s1 c1 { op := 7, size := z, pss := c.inl 73 1 == 1, alg := 11 + z, key := x.key.mat,
                     operand := digestFor (c.inl 72 1) ((c.own false).drop (sigBytes z)) ++ sl (c.own false) 0 (sigBytes z),
                     record := [] }
        (fun f _ => doneVerify s1 c1 (!f)) := by
  simp only [rsaVerify, hrefs, two_ne_zero, Nat.zero_add, hdigest, gt_iff_lt, Nat.not_lt.mpr hhash, Nat.not_lt.mpr hpss,
    Nat.not_lt.mpr hlen, ne_eq, not_true_eq_false, and_false, Bool.not_true, Bool.false_eq_true, or_self, if_false,
    asymKeys_of_core keys core, useKey_of_ready reg, verifyJob]

end

/-! ## The statement -/

/-- Settles O55: the body of each opcode is one bignum job, which its row hands over on the first call and answers with on the
call after its end; each size of ECDSA and of RSA is the same body. -/
theorem signatureOpcodesComplete : Obligations.SignatureOpcodesComplete := by
  unfold Obligations.SignatureOpcodesComplete
  refine ⟨?edSign, ?edVerify, ?edVerifyInline, ?ecSign, ?ecVerify, ?rsaSign, ?rsaVerify, ?pub⟩
  case edSign =>
    rintro s s1 n k c c1 x _ h hcount keys reg rfl
    exact next_loomRow_of_job h (ed25519Sign_of_key hcount keys reg)
  case edVerify =>
    rintro s s1 n k c c1 x _ h hcount hrefs hlen keys reg rfl
    exact next_loomRow_of_job h (ed25519Verify_of_key hcount hrefs hlen keys reg)
  case edVerifyInline =>
    rintro s n k c _ h hrefs hlen rfl
    exact next_loomRow_of_job h (ed25519Verify_of_inline_key hrefs hlen)
  case ecSign =>
    rintro s s1 n k z _ c c1 x _ rfl hcount hhash hdigest keys core reg rfl
    have job := ecdsaSign_of_key hhash core reg hdigest hcount keys
    constructor
    all_goals
      rintro rfl h
      exact next_loomRow_of_job h job
  case ecVerify =>
    rintro s s1 n k z _ w c c1 x _ rfl hw hcount hrefs hhash hlen hdigest keys core reg rfl
    have job := ecdsaVerify_of_key hhash core reg hw hcount hrefs hlen hdigest keys
    constructor
    all_goals
      rintro rfl h
      exact next_loomRow_of_job h job
  case rsaSign =>
    rintro s s1 n k z _ c c1 x _ rfl hrefs hhash hpss hdigest keys core reg rfl
    have job := rsaSign_of_key hhash core reg hdigest hrefs hpss keys
    refine ⟨?_, ?_, ?_⟩
    all_goals
      rintro rfl h
      exact next_loomRow_of_job h job
  case rsaVerify =>
    rintro s s1 n k z _ c c1 x _ rfl hrefs hhash hpss hlen hdigest keys core reg rfl
    have job := rsaVerify_of_key hhash core reg hrefs hpss hlen hdigest keys
    refine ⟨?_, ?_, ?_⟩
    all_goals
      rintro rfl h
      exact next_loomRow_of_job h job
  case pub =>
    intro s s1 n k c c1 x h hcount keys reg hpublic
    exact next_loomRow_of_job h (asymPublic_of_key hcount keys reg hpublic)

end Sys2Proof.Machine
end

section
/-! PROOFS. The life of a bignum job (R218 to R229, R237, R238, R241): how it starts, yields, resumes and ends, and what becomes
of its contexts. -/

namespace Sys2Proof.Machine

open Sys2Proof

/-! ## The start of a job (R218, R219, R223) -/

section
variable {s t : State} {j : Job} {cs : List Nat}

theorem startJob_of_drawn {b : Bytes} (hb : blind s j.kind (blindAsks j cs) [] = .ok (t, b)) :
    startJob s j cs = (occupy t cs).1.modJob j.id (fun x => { x with
      state := 1, cores := (occupy t cs).2, asks := none, rnd := b }) := by
  simp only [startJob, hb]

/-- A job that lacks a value stays where it is and waits for the DRBG that owes it, since a time of its own. -/
theorem startJob_of_waiting {i : Nat} (hb : blind s j.kind (blindAsks j cs) [] = .error (t, i)) :
    ∃ since : Job → Nat, startJob s j cs = t.modJob j.id (fun x => { x with asks := some (i, since x) }) := by
  simp only [startJob, hb]
  exact ⟨_, rfl⟩

end

section
variable {s s1 : State} {j : Job} (hs1 : s1 = promoteAged s)
  (hfirst : (sortJobs s1.bn.jobs).find? (fun x => (stopsNew s1 x).isSome || (placeable s1 x).isSome) = some j)
include hs1 hfirst

theorem jobPlace_of_stopped {st : Nat} (hst : stopsNew s1 j = some st) : jobPlace s = stopJob s1 j st := by
  subst hs1
  simp only [jobPlace, hfirst, hst]

theorem jobPlace_of_placeable {cs : List Nat} (hst : stopsNew s1 j = none) (hcs : placeable s1 j = some cs) :
    jobPlace s = startJob s1 j cs := by
  subst hs1
  simp only [jobPlace, hfirst, hst, hcs]

end

/-! ## Yield points and resumption (R221, R224, R226) -/

/-- A parked group's wait counts from now, and its yield is counted. -/
theorem parkGroup_promoteAged {s s1 t : State} {j : Job} (hs1 : s1 = promoteAged s)
    (ht : t = (s1.runCores j false).modJob j.id (fun y => { y with state := 2, since := s.evr.optime })) :
    parkGroup s1 j = { t with bn := { t.bn with yields := (t.bn.yields + 1) % 2 ^ 32 } } := by
  subst hs1 ht
  rfl

/-- Which cores are idle does not depend on how many yields have been counted. -/
theorem idleCores_of_yields (t : State) (n : Nat) (cs : List Nat) :
    idleCores { t with bn := { t.bn with yields := n } } cs = idleCores t cs := rfl

section
variable {s s1 : State} {n : Nat} {j : Job} (hs1 : s1 = promoteAged s) (hj : s1.job? n = some j) (hrun : j.state = 1)
  (hlevel : j.level ≠ 0)
include hs1 hj hrun hlevel

theorem yieldPoint_of_aborted (habort : j.abort = true) : yieldPoint n s = bumpAborts (failJob s1 j 0x7002) := by
  subst hs1
  simp only [yieldPoint, hj, hrun, hlevel, habort, ne_eq, not_true_eq_false, or_self, if_false, if_true]

variable (habort : j.abort = false)
include habort

theorem yieldPoint_of_no_rng (hrng : j.noRng = true) : yieldPoint n s = bumpAborts (failJob s1 j 0x9001) := by
  subst hs1
  simp only [yieldPoint, hj, hrun, hlevel, habort, hrng, ne_eq, not_true_eq_false, or_self, Bool.false_eq_true, if_false,
    if_true]

variable (hrng : j.noRng = false)
include hrng

theorem yieldPoint_of_no_rival (hx : rival s1 j = none) : yieldPoint n s = s1 := by
  subst hs1
  simp only [yieldPoint, hj, hrun, hlevel, habort, hrng, hx, ne_eq, not_true_eq_false, or_self, Bool.false_eq_true,
    if_false]

/-- The group parks and the yield is counted; a parked rival whose members are free then goes on. -/
theorem yieldPoint_of_rival {x : Job} {t : State} (hx : rival s1 j = some x)
    (ht : t = (s1.runCores j false).modJob j.id (fun y => { y with state := 2, since := s.evr.optime })) :
    yieldPoint n s = if x.state = 2 ∧ idleCores t (x.cores.map (fun a => a.1)) then
        resumeJob { t with bn := { t.bn with yields := (t.bn.yields + 1) % 2 ^ 32 } } x
      else { t with bn := { t.bn with yields := (t.bn.yields + 1) % 2 ^ 32 } } := by
  have idle := idleCores_of_yields t ((t.bn.yields + 1) % 2 ^ 32) (x.cores.map (fun a => a.1))
  rw [← idle, ← parkGroup_promoteAged hs1 ht]
  subst hs1
  simp only [yieldPoint, hj, hrun, hlevel, habort, hrng, hx, ne_eq, not_true_eq_false, or_self, Bool.false_eq_true,
    if_false]

end

theorem jobResume_of_claim {s s1 : State} {n : Nat} {j : Job} {cs : List Nat} (hs1 : s1 = promoteAged s)
    (hclaim : (claims s1).find? (fun x => x.1.id == n && x.1.state == 2 && idleCores s1 x.2) = some (j, cs)) :
    jobResume n s = (s1.runCores j true).modJob j.id (fun x => { x with state := 1 }) := by
  subst hs1
  simp only [jobResume, hclaim, resumeJob]

/-! ## The end of a job (R220, R226, R229, R238) -/

section
variable {s : State} {n : Nat} {differ : Bool} {ecc : Option Nat} {j : Job} (hj : s.job? n = some j) (hrun : j.state = 1)
include hj hrun

theorem jobEnd_of_aborted (habort : j.abort = true) : jobEnd n differ ecc s = bumpAborts (failJob s j 0x7002) := by
  simp only [jobEnd, hj, hrun, habort, ne_eq, not_true_eq_false, if_false, if_true]

variable (habort : j.abort = false)
include habort

theorem jobEnd_of_no_rng (hrng : j.noRng = true) : jobEnd n differ ecc s = bumpAborts (failJob s j 0x9001) := by
  simp only [jobEnd, hj, hrun, habort, hrng, ne_eq, not_true_eq_false, Bool.false_eq_true, if_false, if_true]

variable {c : Cmd} (hrng : j.noRng = false) (hc : jobCmd s j = some c)
include hrng hc

/-- A memory error of a member decides, whatever the twins' outputs. -/
theorem jobEnd_of_memory_error {core : Nat} {x : Nat × Nat} (hx : j.cores.find? (fun y => y.1 == core) = some x) :
    jobEnd n differ (some core) s =
      removeCore ((failJob s j 0x7001).raise 0x0C04 x.1 x.2 c.opcode c.part) x.1 4 := by
  simp only [jobEnd, hj, hrun, habort, hrng, hc, ne_eq, not_true_eq_false, Bool.false_eq_true, if_false, Option.bind_some,
    hx, Option.map_some, Option.getD_some]

theorem jobEnd_of_mismatch {s1 : State} (hkind : j.kind ≠ 1)
    (hs1 : s1 = (failJob s j 0x7001).raise 0x0C01 c.opcode (((j.cores.head?.map (fun x => x.1)).getD 0) +
      256 * (((j.cores[j.cores.length / 2]?).map (fun x => x.1)).getD 0)) c.part (bnClass j.req)) :
    jobEnd n true none s = j.cores.foldl (fun t x => mismatchCore t x.1)
      { s1 with bn := { s1.bn with mismatch := (s1.bn.mismatch + 1) % 2 ^ 32 } } := by
  subst hs1
  simp only [jobEnd, hj, hrun, habort, hrng, hc, hkind, ne_eq, not_true_eq_false, not_false_eq_true, Bool.false_eq_true,
    and_self, if_false, if_true, Option.bind_none, Option.map_some, Option.getD_some]

/-- A job without twins, or with twins that agree, gives its draft step what it has computed. -/
theorem jobEnd_of_agreement {a : StepArgs} (hagree : j.kind = 1 ∨ differ = false) (hpend : c.pend = some a) :
    jobEnd n differ none s = s.jobResult j c a (bnCompute j.req j.rnd) := by
  have agree : ¬ (j.kind ≠ 1 ∧ differ = true) := by
    rintro ⟨hkind, rfl⟩
    exact hagree.elim hkind Bool.noConfusion
  cases hres : bnCompute j.req j.rnd <;>
    simp only [jobEnd, State.jobResult, hj, hrun, habort, hrng, hc, hpend, hres, if_neg agree, ne_eq, not_true_eq_false,
      Bool.false_eq_true, if_false, Option.bind_none]

end

/-! ## Scrubbed contexts, promotions and key generations without a prime (R223, R227, R237, R238) -/

section
variable {s s1 : State} {core ctx order : Nat} {p : Place}
  (hscrub : (s.core core).scrub.find? (fun x => x.1 == ctx) = some (ctx, p, order))
  (hs1 : s1 = s.modCore core (fun k => { k with scrub := k.scrub.filter (fun y => y.1 != ctx) }))
include hscrub hs1

theorem contextScrubbed_of_zero : contextScrubbed core ctx true s = s1 := by
  subst hs1
  simp only [contextScrubbed, hscrub, if_true]

theorem contextScrubbed_of_nonzero : contextScrubbed core ctx false s =
    removeCore (scrubFault (s1.raise 0x0C06 core ctx 0 0) p order) core 3 := by
  subst hs1
  simp only [contextScrubbed, hscrub, Bool.false_eq_true, if_false]

end

section
variable {s : State} {n : Nat} {j : Job} (hj : s.job? n = some j)
include hj

theorem starvePromote_of_slow (hlevel : j.level = 2) (hwaits : j.state ≠ 1) :
    starvePromote n s = promoteAged (s.timeAtLeast (j.since + max 1 s.bn.starve + 1)) := by
  simp only [starvePromote, hj, if_pos (And.intro hlevel hwaits)]

theorem starvePromote_of_other (h : j.level ≠ 2 ∨ j.state = 1) : starvePromote n s = s := by
  have other : ¬ (j.level = 2 ∧ j.state ≠ 1) := by omega
  simp only [starvePromote, hj, if_neg other]

theorem keygenLimit_of_running {c : Cmd} (hgen : j.keygen = true) (hrun : j.state = 1) (hc : jobCmd s j = some c)
    (tried : Nat) : keygenLimit n tried s = (failJob s j 0x7001).raise 0x0C05 c.opcode c.part tried 0 := by
  simp only [keygenLimit, hj, hgen, hrun, hc, Bool.not_true, Bool.false_eq_true, ne_eq, not_true_eq_false, or_self,
    if_false, Option.map_some, Option.getD_some]

end

/-! ## The statement -/

/-- Settles O20, event by event: placement, yield points and resumption first let every SLOW job that has waited too long rank
as MEDIUM, and each event then acts on the job that it names or that the order of service puts first. That a job draws its
values as it starts, that event 0x0C01 names timing classes by their rows, and that the promotion's row moves operating time,
are the model's readings (notes/assumptions/37.md, notes/assumptions/55.md). -/
theorem bignumJobsComplete : Obligations.BignumJobsComplete := by
  unfold Obligations.BignumJobsComplete
  refine ⟨?place, ?yield, ?stopAtYield, ?resume, ?result, ?stopAtEnd, ?mismatch, ?memoryError, ?scrub, ?promote, ?keygen⟩
  case place =>
    intro s s1 j hs1 hfirst
    refine ⟨fun st hst => congrArg _ (jobPlace_of_stopped hs1 hfirst hst), fun cs t b hst hcs hb => ?drawn,
      fun cs t i hst hcs hb => ?waits⟩
    case drawn => exact congrArg _ ((jobPlace_of_placeable hs1 hfirst hst hcs).trans (startJob_of_drawn hb))
    case waits =>
      obtain ⟨since, waiting⟩ := startJob_of_waiting hb
      exact ⟨since, congrArg _ ((jobPlace_of_placeable hs1 hfirst hst hcs).trans waiting)⟩
  case yield =>
    intro s s1 n j hs1 hj hrun hlevel habort hrng
    exact ⟨fun hx => congrArg _ (yieldPoint_of_no_rival hs1 hj hrun hlevel habort hrng hx),
      fun x t hx ht => congrArg _ (yieldPoint_of_rival hs1 hj hrun hlevel habort hrng hx ht)⟩
  case stopAtYield =>
    intro s s1 n j hs1 hj hrun hlevel
    exact ⟨fun habort => congrArg _ (yieldPoint_of_aborted hs1 hj hrun hlevel habort),
      fun habort hrng => congrArg _ (yieldPoint_of_no_rng hs1 hj hrun hlevel habort hrng)⟩
  case resume => exact fun s s1 n j cs hs1 hclaim => congrArg _ (jobResume_of_claim hs1 hclaim)
  case result =>
    intro s n differ j c a hj hrun habort hrng hagree hc hpend
    exact congrArg _ (jobEnd_of_agreement hj hrun habort hrng hc hagree hpend)
  case stopAtEnd =>
    intro s n differ ecc j hj hrun
    exact ⟨fun habort => congrArg _ (jobEnd_of_aborted hj hrun habort),
      fun habort hrng => congrArg _ (jobEnd_of_no_rng hj hrun habort hrng)⟩
  case mismatch =>
    intro s s1 n j c hj hrun habort hrng hkind hc hs1
    exact congrArg _ (jobEnd_of_mismatch hj hrun habort hrng hc hkind hs1)
  case memoryError =>
    intro s n core differ j c x hj hrun habort hrng hc hx
    exact congrArg _ (jobEnd_of_memory_error hj hrun habort hrng hc hx)
  case scrub =>
    intro s s1 core ctx order p hscrub hs1
    exact ⟨congrArg _ (contextScrubbed_of_zero hscrub hs1), congrArg _ (contextScrubbed_of_nonzero hscrub hs1)⟩
  case promote =>
    intro s n j hj
    exact ⟨fun hlevel hwaits => congrArg _ (starvePromote_of_slow hj hlevel hwaits),
      fun hother => congrArg _ (starvePromote_of_other hj hother)⟩
  case keygen =>
    intro s n tried j c hj hgen hrun hc
    exact congrArg _ (keygenLimit_of_running hj hgen hrun hc tried)

end Sys2Proof.Machine
end

section
/-! PROOFS. The entropy source (R243 to R253): where a finished block goes, what a failure and a test pass do, the
estimates, the bound on a wait, and the end of raw-sample mode. -/

namespace Sys2Proof.Machine

open Sys2Proof

/-! ## Finished blocks (R243, R247, R248) -/

section
variable {s s1 : State} {l : List (List Bool)} {b : Bytes} (hready : s.rng.srcReady = true) (hoff : s.rngOff = false)
  (hb : blockAt (usedSources s.rng.inUse) l 0 = some b)
include hready hoff hb

theorem blockConditioned_of_waiting {i : Nat} (hi : nextInstance (wantAll s) = some i) :
    blockConditioned l s = takeBlock (wantAll s) i b := by
  simp only [blockConditioned, hready, hoff, hb, hi, Bool.not_true, Bool.or_false, Bool.false_eq_true, if_false]

theorem blockConditioned_of_none_waiting (hs1 : s1 = wantAll s) (hi : nextInstance s1 = none) :
    blockConditioned l s =
      if s1.rng.pool.length < 8 then { s1 with rng := { s1.rng with pool := s1.rng.pool ++ [b] } } else s1 := by
  simp only [blockConditioned, hready, hoff, hb, ← hs1, hi, Bool.not_true, Bool.or_false, Bool.false_eq_true, if_false]

end

/-- A loom's DRBG that is not instantiated is instantiated by the block, and the commands that waited for it go on. -/
theorem takeBlock_of_unseeded {s : State} {i : Nat} (hi : i ≠ 16) (hseed : (s.drbg i).seeded = false) (b : Bytes) :
    takeBlock s i b = wakeDrbg (s.modDrbg i (ctrInstantiate i b)) i := by
  simp only [takeBlock, hseed, Bool.false_eq_true, if_false, if_neg hi]

/-! ## Health-test failures (R245, R250, R252) -/

theorem healthFailure_of_unshown {test : Nat} {l : List Bool} (hshow : showsFailure test l = false) (src : Nat) (s : State) :
    healthFailure src test l s = s :=
  if_pos (by simp [hshow])

section
variable {s : State} {src test : Nat} {l : List Bool} (hsrc : src < 8) (htest : test = 1 ∨ test = 2)
  (hshow : showsFailure test l = true)
include hsrc htest hshow

theorem healthFailure_shown : ¬ (src ≥ 8 ∨ (test ≠ 1 ∧ test ≠ 2) ∨ (!showsFailure test l) = true) := by
  rw [hshow]
  simp only [Bool.not_true, Bool.false_eq_true, or_false]
  omega

theorem healthFailure_of_raw (hraw : s.rng.raw = true) : healthFailure src test l s =
    { s with rng := { s.rng with rawFails := s.rng.rawFails + 1, rawSeen := s.rng.rawSeen + 1 } } := by
  rw [healthFailure, if_neg (healthFailure_shown hsrc htest hshow), if_pos hraw]

theorem healthFailure_of_in_use (hraw : s.rng.raw = false) (hready : s.rng.srcReady = true)
    (huse : s.rng.inUse.getLsbD src = true) : healthFailure src test l s = countFail (stopRandom s) src test := by
  rw [healthFailure, if_neg (healthFailure_shown hsrc htest hshow)]
  simp only [hraw, hready, huse, Bool.not_true, Bool.false_eq_true, or_self, if_false]

end

/-! ## Failures within the hour (R251) -/

@[simp] theorem State.raise_rng (s : State) (code p1 p2 p3 p4 : Nat) : (s.raise code p1 p2 p3 p4).rng = s.rng := by
  obtain ⟨e, raised⟩ := s.raise_eq code p1 p2 p3 p4
  rw [raised]

@[simp] theorem State.cause_rng (s : State) (b : Nat) : (s.cause b).rng = s.rng := by
  obtain ⟨h, o, caused⟩ := s.cause_eq b
  rw [caused]

/-- The entropy source with one more failure counted. -/
def failCounted (s : State) : Rng :=
  { s.rng with fails := recentFails s ++ [s.evr.optime], failTotal := min (s.rng.failTotal + 1) 0xFFFFFFFF }

/-- With two failures before it in the hour, a failure is the third and latches the fault; otherwise a test pass starts. -/
theorem countFail_rng (s : State) (src test : Nat) : (countFail s src test).rng =
    if 2 ≤ (recentFails s).length then { failCounted s with latched := true, testing := false, stopped := true }
    else { failCounted s with testing := true, stopped := true } := by
  have third : (recentFails s ++ [s.evr.optime]).length ≥ 3 ↔ 2 ≤ (recentFails s).length := by
    rw [List.length_append, List.length_singleton]
    omega
  simp only [countFail, third]
  split <;> simp [failCounted]

/-! ## Test passes (R244) -/

section
variable {s s1 : State} {l : List (List Bool)} {passed : BitVec 8} {out : List Nat} (htest : s.rng.testing = true)
  (hpassed : passed = passMask l) (hout : out = (List.range 8).filter (fun i => !passed.getLsbD i))
  (hs1 : s1 = out.foldl (fun t i => t.raise 0x0408 i 0 0 0) s)
include htest hpassed hout hs1

theorem testPassDone_of_passed (hfew : out.length ≤ 4) (us : Nat) : testPassDone l true us s =
    endRawExit (servePool 17 (wantAll (({ s1 with
      rng := { s1.rng with testing := false, stopped := false, srcReady := true, inUse := passed, pool := passBlocks l } } :
        State).raise 0x0401 passed.toNat us 0 0))) 0 := by
  subst hs1 hout hpassed
  simp only [testPassDone, htest, hfew, Bool.not_true, Bool.false_eq_true, and_self, if_false, if_true]

/-- Enough sources pass, but the known-answer tests do not. -/
theorem testPassDone_of_kat_failed (hfew : out.length ≤ 4) (us : Nat) : testPassDone l false us s =
    endRawExit (countFail (endWaits { s1 with rng := { s1.rng with inUse := passed, srcReady := false } }) 0 4) 0x9001 := by
  subst hs1 hout hpassed
  simp only [testPassDone, htest, Nat.not_lt.mpr hfew, Bool.not_true, Bool.false_eq_true, and_false, if_false]

theorem testPassDone_of_few_sources (hmany : 4 < out.length) (kat : Bool) (us : Nat) : testPassDone l kat us s =
    endRawExit (countFail (endWaits { s1 with rng := { s1.rng with inUse := passed, srcReady := false } })
      ((out.head?).getD 0) 3) 0x9001 := by
  subst hs1 hout hpassed
  simp only [testPassDone, htest, hmany, Nat.not_le.mpr hmany, Bool.not_true, Bool.false_eq_true, false_and,
    if_false, if_true]

end

/-! ## Estimates (R246, R256) -/

section
variable {s s1 : State} {src : Nat} {l : List Bool} {b l1 l2 l3 l4 : Int} {v old : Health} (hsrc : src < 8)
  (on : s.powered 32 = true) (hlen : 65540 ≤ l.length) (hest : estimates l = [b, l1, l2, l3, l4])
  (hold : old = (s.rng.health[src]?).getD Health.reset)
  (hv : v = { bias := sat16 b, lag1 := sat16 l1, lag2 := sat16 l2, lag3 := sat16 l3, lag4 := sat16 l4,
              warnBias := s.rng.warnBias, warnLag := s.rng.warnLag })
  (hs1 : s1 = { s with rng := { s.rng with health := s.rng.health.set src v } })
include hsrc on hlen

theorem estimateBlock_admitted : ¬ (src ≥ 8 ∨ (!s.powered 32) = true ∨ l.length < 65540) := by
  rw [on]
  simp only [Bool.not_true, Bool.false_eq_true, false_or]
  omega

include hest hold hv hs1

/-- With no threshold in force the estimates are kept, and no event tells of them. -/
theorem estimateBlock_of_no_threshold (hbias : old.warnBias = 0) (hlag : old.warnLag = 0) :
    estimateBlock src l s = s1 := by
  subst hs1 hv hold
  rw [estimateBlock, if_neg (estimateBlock_admitted hsrc on hlen)]
  have quiet : (List.range 5).find? (fun _ => false) = none := rfl
  simp [hest, hbias, hlag, quiet]

/-- The bias is the first estimate that is compared with its threshold. -/
theorem estimateBlock_of_bias (hbias : old.warnBias ≠ 0) (hover : old.warnBias < (sat16 b).natAbs) :
    estimateBlock src l s = s1.raise 0x0405 src 0 (toField 32 (sat16 b)) 0 := by
  subst hs1 hv hold
  have order : List.range 5 = [0, 1, 2, 3, 4] := rfl
  rw [estimateBlock, if_neg (estimateBlock_admitted hsrc on hlen)]
  simp [hest, order, hbias, hover]

end

/-! ## The bound on a wait (R248) -/

theorem reseedTimeout_of_not_waiting {s : State} {i : Nat} (h : (s.drbg i).wait ≠ 2 ∨ oldestWait s i = none) :
    reseedTimeout i s = s := by
  unfold reseedTimeout
  split
  · rfl
  next t oldest => exact if_pos (h.resolve_right (by simp [oldest]))

/-- No job waits, so the commands that have waited as long as the oldest are all that end. -/
theorem reseedTimeout_of_commands {s s1 s2 : State} {i w : Nat} (hwait : (s.drbg i).wait = 2)
    (hold : oldestWait s i = some w) (hs1 : s1 = (s.timeAtLeast (w + 50)).raise 0x0404 i s.rng.pool.length 0 0)
    (hs2 : s2 = ((waiters s1 i).filter (fun c => waitedOut s1 c.asked)).foldl
      (fun t c => t.retire c (if c.abort then 0x7002 else 0x9001)) s1)
    (hjobs : jobWaiters s2 i = []) : reseedTimeout i s = s2 := by
  subst hs2 hs1
  simp only [reseedTimeout, hold, hwait, ne_eq, not_true_eq_false, if_false, hjobs, List.filter_nil, List.foldl_nil]

/-! ## Raw-sample mode (R253) -/

theorem rawTimeout_of_raw {s : State} (hraw : s.rng.raw = true) :
    rawTimeout s = leaveRaw (s.timeAtLeast (s.rng.rawReads + 60000)) 2 := if_pos hraw

/-! ## The statement -/

/-- Settles O35, event by event: a block goes to the DRBG that waits or into the pool, a failure splits on raw-sample
mode and on how many the hour already holds, and a test pass on its sources and its known-answer tests; HST.READY is set as
`startupAndPowerComplete` says. That a failed test pass counts as one failure, with source 0 and test 4 or the first source
that fails and test 3, that the end of a wait moves operating time, and that an event whose subject is absent changes nothing,
are the model's readings (notes/assumptions/42.md, notes/assumptions/55.md, notes/assumptions/1.md). -/
theorem randomSourceComplete : Obligations.RandomSourceComplete := by
  obtain ⟨⟨_, _, _, _, _, _, _, ready, notReady⟩, _⟩ := startupAndPowerComplete
  unfold Obligations.RandomSourceComplete
  refine ⟨?toDrbg, ?toPool, ?instantiates, ?fails, ?unshown, ?pass, ?third, ?counted, ?estimate, ?timeout, ?noTimeout,
    ?raw, ready, notReady⟩
  case toDrbg => exact fun s i l b hready hoff hb hi => congrArg _ (blockConditioned_of_waiting hready hoff hb hi)
  case toPool =>
    intro s s1 l b hready hoff hb hs1 hi
    have pooled := blockConditioned_of_none_waiting hready hoff hb hs1 hi
    exact ⟨fun room => congrArg _ (pooled.trans (if_pos room)),
      fun full => congrArg _ (pooled.trans (if_neg (Nat.not_lt.mpr full)))⟩
  case instantiates => exact fun s i b hi hseed => takeBlock_of_unseeded hi hseed b
  case fails =>
    intro s src test l hsrc htest hshow
    exact ⟨fun hraw => congrArg _ (healthFailure_of_raw hsrc htest hshow hraw),
      fun hraw hready huse => congrArg _ (healthFailure_of_in_use hsrc htest hshow hraw hready huse)⟩
  case unshown => exact fun s src test l hshow => congrArg _ (healthFailure_of_unshown hshow src s)
  case pass =>
    intro s s1 l passed us out htest hpassed hout hs1
    exact ⟨fun hfew => congrArg Host.Outcome.next (testPassDone_of_passed htest hpassed hout hs1 hfew us),
      fun hfew => congrArg _ (testPassDone_of_kat_failed htest hpassed hout hs1 hfew us),
      fun hmany kat => congrArg _ (testPassDone_of_few_sources htest hpassed hout hs1 hmany kat us)⟩
  case third =>
    intro s src test h
    rw [countFail_rng, if_pos h]
    exact ⟨rfl, rfl, rfl⟩
  case counted =>
    intro s src test h
    rw [countFail_rng, if_neg (Nat.not_le.mpr h)]
    exact ⟨rfl, rfl, rfl⟩
  case estimate =>
    intro s s1 src l b l1 l2 l3 l4 v old hsrc on hlen hest hold hv hs1
    exact ⟨fun hbias hlag => congrArg _ (estimateBlock_of_no_threshold hsrc on hlen hest hold hv hs1 hbias hlag),
      fun hbias hover => congrArg _ (estimateBlock_of_bias hsrc on hlen hest hold hv hs1 hbias hover)⟩
  case timeout =>
    exact fun s s1 s2 i w hwait hold hs1 hs2 hjobs =>
      congrArg _ (reseedTimeout_of_commands hwait hold hs1 hs2 hjobs)
  case noTimeout => exact fun s i h => congrArg _ (reseedTimeout_of_not_waiting h)
  case raw => exact fun s hraw => congrArg _ (rawTimeout_of_raw hraw)

end Sys2Proof.Machine
end

section
/-! PROOFS. The queue of waiting commands: what one step takes from it, and that it runs to its end. -/

namespace Sys2Proof.Machine

open Sys2Proof

/-- Every arm of the dispatch is the next state of its operation: no command faults or is refused. -/
theorem exec_next (i : Instr) (s : State) : ∃ t, exec i s = .next t := by
  cases i <;> exact ⟨_, rfl⟩

/-- Settles O5: each command's meaning is a next state, and none of the operations touches the queue. That every command has
a next state, in any state, is the model's choice (notes/assumptions/1.md). -/
theorem execLeavesTheQueue : Obligations.ExecLeavesTheQueue := by
  unfold Obligations.ExecLeavesTheQueue
  intro i s
  obtain ⟨t, ht⟩ := exec_next i s
  exact ⟨t, ht, exec_pending ht⟩

/-- A step on a queue that holds a command takes it from the front and keeps the invariant. -/
theorem step_of_cons {s : State} {i : Instr} {rest : List Instr} (h : s.pending = i :: rest) :
    ∃ t, step s = .next t ∧ t.pending = rest ∧ (s.Inv → t.Inv) := by
  obtain ⟨t, ht, left⟩ := execLeavesTheQueue i { s with pending := rest }
  have taken : step s = .next t := by rw [step, h]; exact ht
  exact ⟨t, taken, left, fun inv => stepKeepsTheInvariant s t inv taken⟩

/-- Settles O6, by induction on the number of commands that wait: a step takes the one in front. That every command has a next
state is the model's choice (notes/assumptions/1.md). -/
theorem everyQueueDrains : Obligations.EveryQueueDrains := by
  unfold Obligations.EveryQueueDrains
  intro s
  generalize hq : s.pending = q
  induction q generalizing s with
  | nil => exact ⟨s, rfl, hq, id⟩
  | cons i rest ih =>
    obtain ⟨t, taken, left, kept⟩ := step_of_cons hq
    obtain ⟨u, runs, empty, inv⟩ := ih t left
    have first : s.runs (rest.length + 1) = t.runs rest.length := by rw [State.runs, taken]
    exact ⟨u, first.trans runs, empty, inv ∘ kept⟩

/-- Settles O1: the three clauses are the two cases of `step` and the decoder's one answer. That an empty queue lets a
millisecond pass is the model's choice, and that no table word spells a command its reading of the table
(notes/assumptions/10.md, notes/assumptions/9.md). -/
theorem stepRunsTheFrontCommand : Obligations.StepRunsTheFrontCommand := by
  unfold Obligations.StepRunsTheFrontCommand
  refine ⟨?front, ?empty, ?word⟩
  case front =>
    intro s i rest h
    rw [step, h]
  case empty =>
    intro s h
    rw [step, h]
  case word => exact fun s nbits w => ⟨rfl, rfl⟩

end Sys2Proof.Machine
end

section
/-! PROOFS. Commands of Table 11.3 before their quorum (R263, R264): each comes to its demand for a quorum, or completes with
a failure status before it. -/

namespace Sys2Proof.Machine

open Sys2Proof

section
variable {s : State} {c : Cmd}

/-! ## Ways to be held -/

theorem State.heldByQuorum_retire {st : Nat} (h : st ≠ 0) : s.heldByQuorum c (s.retire c st) :=
  .inr ⟨st, c.mem, false, h, rfl⟩

theorem State.heldByQuorum_failDetail {st : Nat} (h : st ≠ 0) (detail : Bytes) :
    s.heldByQuorum c (failDetail s c st detail) :=
  .inr ⟨st, _, true, h, rfl⟩

theorem detailStatus_ne_zero (d : Nat) : detailStatus d ≠ 0 := by
  unfold detailStatus
  split <;> [skip; split] <;> exact Nat.succ_ne_zero _

theorem State.heldByQuorum_updateFail (d i : Nat) : s.heldByQuorum c (updateFail s c d i) :=
  .inr ⟨detailStatus d, _, true, detailStatus_ne_zero d, rfl⟩

theorem State.heldByQuorum_tableFail (d : Nat) : s.heldByQuorum c (tableFail s c d) :=
  State.heldByQuorum_failDetail (detailStatus_ne_zero d) [byte d]

/-- A check that refuses the command comes before a state that holds it. -/
theorem State.heldByQuorum_ite {p : Prop} [Decidable p] {t u : State} (ht : s.heldByQuorum c t) (hu : s.heldByQuorum c u) :
    s.heldByQuorum c (if p then t else u) := by
  split
  · exact ht
  · exact hu

theorem withQuorum_held (hquo : c.quorum = none) (f : State) : s.heldByQuorum c (withQuorum s c f) :=
  .inl (if_neg (by simp [hquo]))

/-! ## Each opcode -/

section
variable (hquo : c.quorum = none)
include hquo

theorem partCreate_held : s.heldByQuorum c (partCreate s c) := by
  have refused : s.heldByQuorum c (s.retire c 0x1003) := State.heldByQuorum_retire (by decide)
  cases hp : s.part? (fieldLe (c.own true) 0 2) with
  | none => simpa only [partCreate, hp] using refused
  | some p => simpa only [partCreate, hp] using State.heldByQuorum_ite refused (withQuorum_held hquo _)

theorem partModify_held : s.heldByQuorum c (partModify s c) := by
  have refused : s.heldByQuorum c (s.retire c 0x1003) := State.heldByQuorum_retire (by decide)
  cases hp : s.part? (fieldLe (c.own true) 2 2) with
  | none => simpa only [partModify, hp] using refused
  | some p => simpa only [partModify, hp] using State.heldByQuorum_ite refused (withQuorum_held hquo _)

theorem partTeardown_held : s.heldByQuorum c (partTeardown s c) := by
  have refused : s.heldByQuorum c (s.retire c 0x1003) := State.heldByQuorum_retire (by decide)
  refine State.heldByQuorum_ite (State.heldByQuorum_retire (by decide)) ?_
  cases hp : s.part? (c.inl 72 2) with
  | none => exact refused
  | some p => exact State.heldByQuorum_ite refused (withQuorum_held hquo _)

theorem partSetAccessKey_held : s.heldByQuorum c (partSetAccessKey s c) := by
  refine State.heldByQuorum_ite (State.heldByQuorum_retire (by decide)) ?_
  cases hp : s.part? (c.inl 72 2) with
  | none => exact State.heldByQuorum_retire (by decide)
  | some p => exact withQuorum_held hquo _

theorem partEnableOpcodes_held : s.heldByQuorum c (partEnableOpcodes s c) := by
  have refused : s.heldByQuorum c (s.retire c 0x1003) := State.heldByQuorum_retire (by decide)
  cases hp : s.part? (c.inl 72 2) with
  | none => simpa only [partEnableOpcodes, hp] using refused
  | some p => simpa only [partEnableOpcodes, hp] using State.heldByQuorum_ite refused (withQuorum_held hquo _)

theorem rtPolicyUpdate_held : s.heldByQuorum c (rtPolicyUpdate s c) := by
  cases hp : s.part? (fieldLe (c.own true) 0 2) with
  | none => simpa only [rtPolicyUpdate, hp] using State.heldByQuorum_updateFail 4 0xFFFF
  | some p =>
    simpa only [rtPolicyUpdate, hp] using
      State.heldByQuorum_ite (State.heldByQuorum_updateFail 4 0xFFFF) (withQuorum_held hquo _)

theorem rtSetLimits_held : s.heldByQuorum c (rtSetLimits s c) := by
  cases hp : s.part? (c.inl 72 2) with
  | none => simpa only [rtSetLimits, hp] using State.heldByQuorum_tableFail 4
  | some p =>
    simpa only [rtSetLimits, hp] using State.heldByQuorum_ite (State.heldByQuorum_tableFail 4) (withQuorum_held hquo _)

/-- An image that has been read waits for its quorum. -/
theorem draftLoad_held (h : s.drafts.holder = some c.place) : s.heldByQuorum c (draftLoad s c) := by
  rw [draftLoad, withImage_of_holder h]
  exact withQuorum_held hquo _

/-- Only the first set of the owner's partition is set without a quorum. -/
theorem custSet_held (h : c.inl 72 2 ≠ 0 ∨ ∀ p, s.part? 0 = some p → p.custN ≠ 0) : s.heldByQuorum c (custSet s c) := by
  have refused : s.heldByQuorum c (s.retire c 0x1003) := State.heldByQuorum_retire (by decide)
  refine State.heldByQuorum_ite (State.heldByQuorum_retire (by decide)) ?_
  cases hp : s.part? (c.inl 72 2) with
  | none => exact refused
  | some p =>
    have notFirst : ¬ (c.inl 72 2 = 0 ∧ p.custN = 0) := by
      rintro ⟨owner, empty⟩
      exact h.elim (fun other => other owner) (fun set => set p (owner ▸ hp) empty)
    refine State.heldByQuorum_ite refused ?_
    rw [if_neg notFirst]
    exact withQuorum_held hquo _

/-- In MANUFACTURED and OPERATIONAL a quorum is demanded (R252, R317). -/
theorem withQuorum_held_in_state (h : s.lc.state = 0x30 ∨ s.lc.state = 0x40) (f : State) :
    s.heldByQuorum c (if s.lc.state = 0x30 ∨ s.lc.state = 0x40 then withQuorum s c f else f) := by
  rw [if_pos h]
  exact withQuorum_held hquo f

end

/-! ## The statement -/

/-- The row of a command that can run is its body, which holds it. -/
theorem StewardReady.held {i op : Nat} (h : StewardReady s i op c) {body : State → Cmd → State}
    (held : s.heldByQuorum c (body s c)) :
    ∃ t, Host.Outcome.next (stewardRow s i op body) = (Host.Outcome.next t : Outcome) ∧ s.heldByQuorum c t :=
  ⟨body s c, congrArg _ (stewardRow_of_ready h body), held⟩

end

/-- Settles O57, row by row of Table 11.3: each body comes to its demand for a quorum or fails before it; EVR_CLEAR's row is its
body because no clear is under way. OBJ_DELETE is none of these rows; a clause of `keyBlockOpcodesComplete` speaks of it. -/
theorem quorumIsDemanded : Obligations.QuorumIsDemanded := by
  unfold Obligations.QuorumIsDemanded
  intro i s ctx op c row ready demanded hquo
  obtain ⟨firstSet, inState, clearing, image⟩ := demanded
  obtain ⟨-, hop, -⟩ := id ready
  unfold quorumRow at row
  split at row
  case h_17 => cases row
  all_goals
    rw [Option.some.injEq, Prod.mk.injEq] at row
    obtain ⟨rfl, rfl⟩ := row
  case h_1 => exact ready.held (partCreate_held hquo)
  case h_2 => exact ready.held (partModify_held hquo)
  case h_3 => exact ready.held (partTeardown_held hquo)
  case h_4 => exact ready.held (partSetAccessKey_held hquo)
  case h_5 => exact ready.held (partEnableOpcodes_held hquo)
  case h_6 => exact ready.held (rtPolicyUpdate_held hquo)
  case h_7 => exact ready.held (rtSetLimits_held hquo)
  case h_8 => exact ready.held (body := pairBegin) (withQuorum_held hquo _)
  case h_9 => exact ready.held (draftLoad_held hquo (image hop))
  case h_10 => exact ready.held (body := draftUnload) (withQuorum_held hquo _)
  case h_11 => exact ready.held (body := draftSignerSet) (withQuorum_held hquo _)
  case h_12 => exact ready.held (custSet_held hquo (firstSet hop))
  case h_13 => exact ready.held (body := rngRawEnter) (withQuorum_held_in_state hquo (inState (.inl hop)) _)
  case h_14 ctx =>
    have row : exec (.evrClear ctx) s = .next (stewardRow s ctx 0x1AD evrClear) :=
      congrArg Host.Outcome.next (if_neg (by simp [clearing hop]))
    rw [row]
    exact ready.held (body := evrClear) (withQuorum_held hquo _)
  case h_15 => exact ready.held (body := lcTransition) (withQuorum_held_in_state hquo (inState (.inr hop)) _)
  case h_16 => exact ready.held (body := dbgAuthorise) (withQuorum_held hquo _)

end Sys2Proof.Machine
end

section
/-! PROOFS. The frames of the Luaka link (R277, R278, R279, R285, Tables 12.2, 12.4 and 12.9): how a frame is received, what is
dropped, and HELLO. -/

namespace Sys2Proof.Machine

open Sys2Proof

/-! ## Reception -/

section
variable {s : State} {w : Wire} {f : Frame} (k : Frame → State → State)

theorem receive_of_not_receiving (h : s.receiving = false) : receive w s k = s := if_pos (by simp [h])

variable (hrx : s.receiving = true)
include hrx

theorem receive_of_unsound (hsound : frameSound s w = false) : receive w s k = badFrame s := by
  simp only [receive, hrx, hsound, Bool.not_true, Bool.false_eq_true, if_false, Bool.not_false, if_true]

variable (hsound : frameSound s w = true)
include hsound

theorem receive_of_seen (hseq : (s.opened w).seq < s.lk.rxSeq) :
    receive w s k = (frameDropped s).raise 0x0711 0 0 0 0 := by
  simp only [receive, hrx, hsound, Bool.not_true, Bool.false_eq_true, if_false, if_pos hseq]

theorem receive_of_gap (hseq : s.lk.rxSeq < (s.opened w).seq) :
    receive w s k = relink 2 (s.raise 0x0711 0 0 0 0) := by
  simp only [receive, hrx, hsound, Bool.not_true, Bool.false_eq_true, if_false, if_neg (Nat.lt_asymm hseq), gt_iff_lt,
    if_pos hseq]

variable (hseq : (s.opened w).seq = s.lk.rxSeq) (hup : s.lk.up = true)
include hseq hup

/-- On an established link the next frame in sequence is taken when its sender may send it. -/
theorem receive_in_sequence : receive w s k =
    if permitted s (s.opened w) = true then k (s.opened w) s.frameTaken
    else notPermitted (s.modLk (fun l => { l with rxSeq := l.rxSeq + 1 })) := by
  have next : ¬ (s.opened w).seq < s.lk.rxSeq := by omega
  have noGap : ¬ (s.opened w).seq > s.lk.rxSeq := by omega
  have sender : permitted (s.modLk (fun l => { l with rxSeq := l.rxSeq + 1 })) (s.opened w) = permitted s (s.opened w) := rfl
  simp only [receive, hrx, hsound, Bool.not_true, Bool.false_eq_true, if_false, if_neg next, if_neg noGap,
    State.modLk_lk, hup, if_true, sender]
  cases permitted s (s.opened w) <;> rfl

end

theorem receive_of_ready {s : State} {typ : Nat} {w : Wire} {f : Frame} (h : FrameReady s typ w f)
    (k : Frame → State → State) : receive w s k = k f s.frameTaken := by
  obtain ⟨rfl, hrx, hsound, -, hseq, hup, hperm⟩ := h
  rw [receive_in_sequence k hrx hsound hseq hup, if_pos hperm]

/-! ## Rows -/

theorem luakaFrame_of_other {s : State} {typ : Nat} {w : Wire} (h : (s.opened w).typ ≠ typ) (k : Frame → State → State) :
    luakaFrame typ w s k = s := if_pos h

theorem luakaFrame_of_typ {s : State} {typ : Nat} {w : Wire} (h : (s.opened w).typ = typ) (k : Frame → State → State) :
    luakaFrame typ w s k = receive w s k := if_neg (not_not.mpr h)

theorem luakaFrame_of_ready {s : State} {typ : Nat} {w : Wire} {f : Frame} (h : FrameReady s typ w f)
    (k : Frame → State → State) : luakaFrame typ w s k = k f s.frameTaken := by
  obtain ⟨opened, -, -, typed, -⟩ := id h
  rw [luakaFrame_of_typ (opened ▸ typed), receive_of_ready h]

/-- Every row of a frame takes it through reception. -/
theorem exec_of_frameRow {i : Instr} {typ : Nat} {w : Wire} (h : frameRow i = some (typ, w)) :
    ∃ k : Frame → State → State, ∀ s, exec i s = .next (luakaFrame typ w s k) := by
  unfold frameRow at h
  split at h
  case h_10 => cases h
  all_goals
    rw [Option.some.injEq, Prod.mk.injEq] at h
    obtain ⟨rfl, rfl⟩ := h
    exact ⟨_, fun s => rfl⟩

/-- Settles O30: a row takes its frame through reception, whose guards come in the order of the clauses. That a frame of
another type changes nothing is the model's choice, and that event 0x0711 has four zero parameters its reading
(notes/assumptions/1.md, notes/assumptions/11.md). -/
theorem everyFrameIsChecked : Obligations.EveryFrameIsChecked := by
  unfold Obligations.EveryFrameIsChecked
  rintro i s typ w _ row rfl
  obtain ⟨k, meaning⟩ := exec_of_frameRow row
  rw [meaning s]
  refine ⟨?other, ?unsound, ?seen, ?gap, ?notPermitted⟩
  case other =>
    rintro (other | deaf)
    · exact congrArg _ (luakaFrame_of_other other k)
    · by_cases typed : (s.opened w).typ = typ
      · exact congrArg _ ((luakaFrame_of_typ typed k).trans (receive_of_not_receiving k deaf))
      · exact congrArg _ (luakaFrame_of_other typed k)
  case unsound =>
    exact fun typed hrx hsound => congrArg _ ((luakaFrame_of_typ typed k).trans (receive_of_unsound k hrx hsound))
  case seen =>
    exact fun typed hrx hsound hseq => congrArg _ ((luakaFrame_of_typ typed k).trans (receive_of_seen k hrx hsound hseq))
  case gap =>
    exact fun typed hrx hsound hseq => congrArg _ ((luakaFrame_of_typ typed k).trans (receive_of_gap k hrx hsound hseq))
  case notPermitted =>
    intro typed hrx hsound hseq hup hperm
    refine congrArg _ ((luakaFrame_of_typ typed k).trans ((receive_in_sequence k hrx hsound hseq hup).trans ?_))
    exact if_neg (by simp [hperm])

/-! ## Violations (Table 12.9) -/

theorem execLuakaPeerViolation_of_violates {s : State} {w : Wire} (h : violates w s = true) :
    execLuakaPeerViolation w s = .next (receive w s (fun _ t => t)) := congrArg Host.Outcome.next (if_pos h)

/-- The eighth frame within a beat period that is not sound takes the link down. -/
theorem badFrame_eq (s : State) : badFrame s = if s.lk.viol + 1 < 8
    then ({ s with lk := { s.lk with drops := (s.lk.drops + 1) % 2 ^ 32, viol := s.lk.viol + 1 } } : State).raise 0x0710 0 0 0 0
    else relink 2 (({ s with lk := { s.lk with drops := (s.lk.drops + 1) % 2 ^ 32, viol := s.lk.viol + 1 } } : State).raise
      0x0710 0 0 0 0) := by
  have counted := (State.raise_eq { s with lk := { s.lk with drops := (s.lk.drops + 1) % 2 ^ 32, viol := s.lk.viol + 1 } }
    0x0710 0 0 0 0)
  obtain ⟨e, counted⟩ := counted
  simp only [badFrame, frameDropped, State.modLk, counted, ge_iff_le]
  split <;> split <;> first | rfl | omega

/-! ## HELLO (R278, R279) -/

section
variable {s : State} {p : Bytes}

theorem luakaHello_of_untrained (h : s.linkWanted = false ∨ s.lk.lanes = 0) : luakaHello p s = s := by
  exact if_pos (by simpa using h)

/-- A paired device outside a ceremony checks a HELLO against its pair record. -/
theorem luakaHello_of_paired {r : PairRec} (hwant : s.linkWanted = true) (hlanes : s.lk.lanes ≠ 0)
    (hrec : s.lk.pairRec = some r) (hcer : s.lk.ceremony = false) :
    luakaHello p s = (helloFault s p r.partnerKey r.partnerSerial true true).elim (takeHello s (Hello.of p))
      (fun e => s.raise e 0 0 0 0) := by
  have trained : ¬ ((!s.linkWanted) = true ∨ s.lk.lanes = 0) := by simp [hwant, hlanes]
  simp only [luakaHello, if_neg trained, hrec, hcer, Bool.not_false]
  cases helloFault s p r.partnerKey r.partnerSerial true true <;> rfl

/-- No establishment is under way, and this device has drawn its half. -/
theorem takeHello_of_drawn {h : Hello} (hnone : s.lk.hello = none) (hup : s.lk.up = false) (heph : s.lk.eph ≠ []) :
    takeHello s h = deriveKeys { s with lk := { s.lk with
      hello := some h, helloDue := true, rx := (s.lk.rx + 1) % 2 ^ 32 } } h := by
  have fresh : ¬ (s.lk.hello.map (fun x => x.nonce) = some h.nonce ∧ s.lk.sessRx ≠ []) := by simp [hnone]
  simp only [takeHello, if_neg fresh, hup, Bool.false_eq_true, if_false, State.modLk]
  exact if_pos heph

theorem deriveKeys_of_paired {h : Hello} {r : PairRec} (heph : s.lk.eph ≠ []) (hrec : s.lk.pairRec = some r) :
    deriveKeys s h = if allZero (sl (Config.x25519 s.lk.eph h.ephKey) 0 32) = true
      then ({ s with lk := { s.lk with hello := none } } : State).raise 0x0713 0 0 0 0
      else withSession s h r.secret (sl (Config.x25519 s.lk.eph h.ephKey) 0 32) := by
  simp only [deriveKeys, if_neg heph, hrec, State.modLk]

end

/-- Settles O32: HELLO splits on the checks of Table 12.4, and a frame that violates the protocol is received, where each guard
answers it. That events 0x0710 to 0x0714 have four zero parameters is the model's reading, that a HELLO on a link that does not
train changes nothing its choice (notes/assumptions/11.md, notes/assumptions/1.md). -/
theorem helloAndViolationsComplete : Obligations.HelloAndViolationsComplete := by
  unfold Obligations.HelloAndViolationsComplete
  refine ⟨?hello, ?held, ?keys, ?untrained, ?unsound, ?seen, ?gap, ?notPermitted, badFrame_eq⟩
  case hello => exact fun s p r hwant hlanes hrec hcer => congrArg _ (luakaHello_of_paired hwant hlanes hrec hcer)
  case held => exact fun s h hnone hup heph => takeHello_of_drawn hnone hup heph
  case keys => exact fun s h r heph hrec => deriveKeys_of_paired heph hrec
  case untrained => exact fun s p h => congrArg _ (luakaHello_of_untrained h)
  case unsound =>
    intro s w hrx hsound
    have bad : violates w s = true := by simp [violates, hsound]
    exact (execLuakaPeerViolation_of_violates bad).trans (congrArg _ (receive_of_unsound _ hrx hsound))
  case seen =>
    rintro s w _ rfl hrx hsound hseq
    have bad : violates w s = true := by simp [violates, Nat.ne_of_lt hseq]
    exact (execLuakaPeerViolation_of_violates bad).trans (congrArg _ (receive_of_seen _ hrx hsound hseq))
  case gap =>
    rintro s w _ rfl hrx hsound hseq
    have bad : violates w s = true := by simp [violates, Nat.ne_of_gt hseq]
    exact (execLuakaPeerViolation_of_violates bad).trans (congrArg _ (receive_of_gap _ hrx hsound hseq))
  case notPermitted =>
    rintro s w _ rfl hrx hsound hseq hup hperm
    have bad : violates w s = true := by simp [violates, hup, hperm]
    refine (execLuakaPeerViolation_of_violates bad).trans (congrArg _ ((receive_in_sequence _ hrx hsound hseq hup).trans ?_))
    exact if_neg (by simp [hperm])

end Sys2Proof.Machine
end

section
/-! PROOFS. What the frames of an established link do (R282, R285 to R287, R292, R294, R310). -/

namespace Sys2Proof.Machine

open Sys2Proof

section
variable {s : State}

/-! ## Beats (R285, R286) -/

theorem beatData_of_standby {f : Frame} {rs : List BeatRec} {rest : Bytes} (hrole : s.lk.role = 3) (hst : 2 ≤ s.lk.pstate)
    (hbeat : beatExpected s f.beat = true)
    (hrecs : takeRecs recTypes ((s.lk.rxBuf ++ f.payload).length + 1) (s.lk.rxBuf ++ f.payload) = some (rs, rest)) :
    beatData f s = { s with lk := { s.lk with
      beat := f.beat, rxBuf := rest, partial_ := s.lk.partial_ ++ rs.map (fun r => (r, passed s r)) } } := by
  have standby : s.lk.role = 3 ∧ s.lk.pstate ≥ 2 := ⟨hrole, hst⟩
  simp only [beatData, if_pos standby, hbeat, hrecs, Bool.not_true, Bool.false_eq_true, if_false, State.modLk]

/-- A BEAT_END that agrees with the records of its beat: applied, or held by a supply warning. -/
theorem beatEnd_of_whole {f : Frame} (hrole : s.lk.role = 3) (hst : 2 ≤ s.lk.pstate) (hbeat : beatExpected s f.beat = true)
    (hbuf : s.lk.rxBuf = []) (hlen : f.payload.length = 16) (hcount : fieldLe f.payload 0 4 = s.lk.partial_.length)
    (hbytes : fieldLe f.payload 4 4 = ((s.lk.partial_.map (fun r => r.1)).map (fun r => r.bytes.length)).sum)
    (hlast : fieldLe f.payload 8 8 = ((((s.lk.partial_.map (fun r => r.1)).filter (fun r => r.stamp != 0)).getLast?.map
      (fun r => r.stamp)).getD 0)) (hstamps : stampsOk f.beat (s.lk.partial_.map (fun r => r.1)) = true) :
    beatEnd f s = if s.sag.warning = true
      then { s with lk := { s.lk with partial_ := [], beat := f.beat, rxWait := s.lk.rxWait ++ [(f.beat, s.lk.partial_)] } }
      else finishBeat f.beat s.lk.partial_ { s with lk := { s.lk with partial_ := [], beat := f.beat } } := by
  have standby : s.lk.role = 3 ∧ s.lk.pstate ≥ 2 := ⟨hrole, hst⟩
  unfold beatEnd
  dsimp only
  rw [if_pos standby, if_neg (by simp [hbeat, hbuf, hlen, hcount, hbytes, hlast, hstamps])]
  rfl

theorem finishBeat_of_applied {t : State} {n : Nat} {rs : List (BeatRec × Bool)} (h : applyBeat rs s = some t) :
    finishBeat n rs s =
      ({ t with lk := { t.lk with done := n, recorded := if n % 2 ^ 20 = 0 then some n else t.lk.recorded } } : State).frame 0x04
        false n [] := by
  simp only [finishBeat, h, State.modLk]

theorem finishBeat_of_malformed {n : Nat} {rs : List (BeatRec × Bool)} (h : applyBeat rs s = none) :
    finishBeat n rs s = badBeat s := by
  simp only [finishBeat, h]

/-- The open beat keeps its buffer, or takes one that the acknowledgement has freed, with the records that waited for it. -/
theorem beatAck_eq {s1 : State} {f : Frame}
    (hs1 : s1 = ({ s with lk := { s.lk with
        done := f.beat, beats := s.lk.beats.drop 1, held := s.lk.held.filter (fun h => h.beat != f.beat % 2 ^ 44) } } :
      State).deliverAll (s.lk.held.filter (fun h => h.beat == f.beat % 2 ^ 44))) :
    beatAck f s = switchAdvance (teardownAdvance (if s1.lk.beats.any (fun b => b.num == s1.lk.beat) = true then s1
      else s1.lk.late.foldl (fun t r => t.record r) { s1 with lk := { s1.lk with late := [], beats := s1.lk.beats ++
        [{ num := s1.lk.beat, closed := false, recs := [], bytes := 0 }] } })) := by
  subst hs1
  unfold beatAck
  dsimp only [State.modLk]
  generalize ({ s with lk := { s.lk with
        done := f.beat, beats := s.lk.beats.drop 1, held := s.lk.held.filter (fun h => h.beat != f.beat % 2 ^ 44) } } :
      State).deliverAll (s.lk.held.filter (fun h => h.beat == f.beat % 2 ^ 44)) = s1
  cases s1.lk.beats.any (fun b => b.num == s1.lk.beat) <;> rfl

/-! ## Snapshots (R282) -/

theorem snapData_of_begun {t : State} {f : Frame} {n : Nat} {rs : List BeatRec} {rest : Bytes} (hrole : s.lk.role = 3)
    (hst : s.lk.pstate = 2) (hn : s.lk.snapRx = some n)
    (hrecs : takeRecs ([0x20, 0x21] ++ recTypes) ((s.lk.snapBuf ++ f.payload).length + 1) (s.lk.snapBuf ++ f.payload) =
      some (rs, rest)) (ht : applySnap rs s = some t) :
    snapData f s = { t with lk := { t.lk with snapBuf := rest, snapRx := t.lk.snapRx.map (fun n => n + rs.length) } } := by
  have syncing : s.lk.role = 3 ∧ s.lk.pstate = 2 := ⟨hrole, hst⟩
  have begun : s.lk.snapRx.isSome = true ∨ (!snapFirst f.payload) = true := .inl (by simp [hn])
  have counting : s.lk.snapRx.isNone = false := by simp [hn]
  simp only [snapData, if_pos syncing, if_pos begun, counting, Bool.false_eq_true, if_false, hrecs, ht, State.modLk]

theorem snapEnd_of_whole {s1 : State} {f : Frame} {n : Nat} (hn : s.lk.snapRx = some n) (hbuf : s.lk.snapBuf = [])
    (hlen : f.payload.length = 4) (hcount : fieldLe f.payload 0 4 = n)
    (hs1 : s1 = (({ s with lk := { s.lk with
        complete := true, snapRx := none, snapPos := (0, 0), snapSeen := [] } } : State).frame 0x07
          false s.lk.beat []).setPair 3 3) :
    snapEnd f s = (s1.drawn 4).raise 0x0702 n (leNat (s1.draws 4)) (s1.lk.beat % 2 ^ 32) 0 := by
  subst hs1
  have whole : ¬ (f.payload.length ≠ 4 ∨ s.lk.snapBuf ≠ [] ∨ fieldLe f.payload 0 4 ≠ n) := by simp [hbuf, hlen, hcount]
  simp only [snapEnd, hn, Option.getD_some, if_neg whole, State.modLk]

/-! ## TIME (R310) -/

theorem luakaTime_of_request {f : Frame} (hkind : byteAt f.payload 0 = 1) (hrole : s.lk.role = 2) (ns : Int) :
    luakaTime ns f s = timeAnswer s ns := by
  rw [luakaTime, if_pos hkind, if_pos hrole]

theorem luakaTime_of_answer {f : Frame} (hkind : byteAt f.payload 0 = 2) (ns : Int) :
    luakaTime ns f s = partnerMeasure s f.payload ns := by
  rw [luakaTime, if_neg (by omega), if_pos hkind]

end

/-! ## The statement -/

/-- Settles O31: a frame that is ready runs its operation in the state in which it has been taken. That event 0x0702 carries a
free duration, and the layout of TIME frames, are the model's choices (notes/assumptions/4.md, notes/assumptions/23.md). -/
theorem framesComplete : Obligations.FramesComplete := by
  unfold Obligations.FramesComplete
  refine ⟨?data, ?ends, ?applied, ?malformed, ?ack, ?snapshot, ?snapshotEnd, ?inSync, ?timeAsked, ?timeTold, ?handover,
    ?leave⟩
  case data =>
    intro s w f rs rest ready hrole hst hbeat hrecs
    exact congrArg _ ((luakaFrame_of_ready ready _).trans
      (beatData_of_standby (s := s.frameTaken) hrole hst hbeat hrecs))
  case ends =>
    intro s w f ready hrole hst hbeat hbuf hlen hcount hbytes hlast hstamps
    have row := (luakaFrame_of_ready ready _).trans
      (beatEnd_of_whole (s := s.frameTaken) hrole hst hbeat hbuf hlen hcount hbytes hlast hstamps)
    exact ⟨fun clear => congrArg _ (row.trans (if_neg (by simp [State.frameTaken, clear]))),
      fun warned => congrArg _ (row.trans (if_pos warned))⟩
  case applied => exact fun s t n rs h => finishBeat_of_applied h
  case malformed => exact fun s n rs h => finishBeat_of_malformed h
  case ack =>
    intro s s1 w f ready hs1
    have row := (luakaFrame_of_ready ready beatAck).trans (beatAck_eq (s := s.frameTaken) hs1)
    refine ⟨fun held => congrArg _ (row.trans ?_), fun lacks => congrArg _ (row.trans ?_)⟩
    · rw [if_pos held]
    · rw [if_neg (by simp [lacks])]
  case snapshot =>
    intro s t w f n rs rest ready hrole hst hn hrecs ht
    exact congrArg _ ((luakaFrame_of_ready ready _).trans
      (snapData_of_begun (s := s.frameTaken) hrole hst hn hrecs ht))
  case snapshotEnd =>
    intro s s1 w f n ready hn hbuf hlen hcount hs1
    exact congrArg _ ((luakaFrame_of_ready ready _).trans
      (snapEnd_of_whole (s := s.frameTaken) hn hbuf hlen hcount hs1))
  case inSync =>
    rintro s _ w f ready rfl
    exact congrArg _ (luakaFrame_of_ready ready (fun _ => inSync))
  case timeAsked =>
    intro s w f ns ready hkind hrole
    exact congrArg _ ((luakaFrame_of_ready ready _).trans (luakaTime_of_request (s := s.frameTaken) hkind hrole ns))
  case timeTold =>
    intro s w f ns ready hkind
    exact congrArg _ ((luakaFrame_of_ready ready _).trans (luakaTime_of_answer hkind ns))
  case handover => exact fun s w f ready => congrArg _ (luakaFrame_of_ready ready _)
  case leave => exact fun s w f ready => congrArg _ (luakaFrame_of_ready ready (fun _ => leavePair))

end Sys2Proof.Machine
end

section
/-! PROOFS. The claim for the active role and its interlock (R272 to R274, R281, R288). -/

namespace Sys2Proof.Machine

open Sys2Proof

section
variable {s : State}

/-! ## The guard and the second look (R273) -/

/-- The interlock line is low, or no condition of R272 holds: the device does not claim. -/
theorem claim_barred (h : s.lk.actIn = true ∨ claimCond s = false) :
    s.lk.actIn = true ∨ (!claimCond s) = true := by
  simpa using h

theorem claim_open (hin : s.lk.actIn = false) (hcond : claimCond s = true) :
    ¬ (s.lk.actIn = true ∨ (!claimCond s) = true) := by
  simp [hin, hcond]

theorem guardExpiry_of_open (hin : s.lk.actIn = false) (hcond : claimCond s = true) :
    guardExpiry s = if s.lk.strap = true then { s with lk := { s.lk with claim := .reread } } else drive s := by
  rw [guardExpiry, if_neg (claim_open hin hcond)]
  rfl

theorem claimReread_of_open (hclaim : s.lk.claim = .reread) (hin : s.lk.actIn = false) (hcond : claimCond s = true) :
    claimReread s = drive s := by
  rw [claimReread, if_neg (not_not.mpr hclaim), if_neg (claim_open hin hcond)]

theorem claimReread_of_barred (hclaim : s.lk.claim = .reread) (h : s.lk.actIn = true ∨ claimCond s = false) :
    claimReread s = { s with lk := { s.lk with claim := .idle } } := by
  rw [claimReread, if_neg (not_not.mpr hclaim), if_pos (claim_barred h)]
  rfl

/-! ## The drive and contention (R273, R274) -/

theorem claimCheck_of_high (hclaim : s.lk.claim = .drive) (hin : s.lk.actIn = false) : claimCheck s = becomeActive s := by
  rw [claimCheck, if_neg (not_not.mpr hclaim), if_pos (by simp [hin])]

/-- Both drive: the SECONDARY gives way, and the PRIMARY stays in contention. -/
theorem claimCheck_of_low {s1 : State} (hclaim : s.lk.claim = .drive) (hin : s.lk.actIn = true)
    (hs1 : s1 = (s.drawn 4).raise 0x0706 (b2n s.lk.strap) s.lk.role (leNat (s.draws 4)) 0) :
    claimCheck s = if s.lk.strap = true then release1 s1 else { s1 with lk := { s1.lk with claim := .contention } } := by
  subst hs1
  rw [claimCheck, if_neg (not_not.mpr hclaim), if_neg (by simp [hin])]
  rfl

theorem contentionHigh_of_contention (hin : s.lk.actIn = false) (hclaim : s.lk.claim = .contention) :
    contentionHigh s = becomeActive s := by
  rw [contentionHigh, if_neg (by simp [hin]), if_pos hclaim]

theorem contentionHigh_of_suspended (hin : s.lk.actIn = false) (hclaim : s.lk.claim = .suspended) :
    contentionHigh s = { s with lk := { s.lk with claim := .idle } } := by
  rw [contentionHigh, if_neg (by simp [hin]), if_neg (by simp [hclaim]), if_pos hclaim]
  rfl

theorem contentionTimeout_of_contention (hin : s.lk.actIn = true) (hclaim : s.lk.claim = .contention) :
    contentionTimeout s = release1 s := by
  rw [contentionTimeout, if_neg (by simp [hin]), if_pos hclaim]

theorem contentionTimeout_of_suspended (hin : s.lk.actIn = true) (hclaim : s.lk.claim = .suspended) :
    contentionTimeout s = standDown (s.setPair 1 0) := by
  rw [contentionTimeout, if_neg (by simp [hin]), if_neg (by simp [hclaim]), if_pos hclaim]

/-! ## The interlock of an ACTIVE member (R274) -/

theorem interlockLow_of_inactive (h : s.lk.role ≠ 2 ∨ s.lk.actIn = false ∨ s.lk.source = true) : interlockLow s = s :=
  if_pos (.inr (h.imp id (Or.imp (by simp) id)))

/-- A SECONDARY gives up its role and links again; a PRIMARY suspends admission. -/
theorem interlockLow_of_active {s1 : State} (hpaired : s.isPaired = true) (hrole : s.lk.role = 2) (hin : s.lk.actIn = true)
    (hsource : s.lk.source = false) (hs1 : s1 = s.raise 0x0706 (b2n s.lk.strap) 2 1 0) :
    interlockLow s = if s.lk.strap = true
      then relink 2 (((standDown (s1.setPair 1 3)).abortWhere (fun _ => true)).raise 0x0705 2 0 0 0)
      else { s1 with lk := { s1.lk with claim := .suspended } } := by
  subst hs1
  rw [interlockLow, if_neg (by simp [hpaired, hrole, hin, hsource])]
  cases s.lk.strap <;> rfl

/-! ## The ceremony (R281) -/

theorem ceremonyInterlock_of_source {s1 : State} (hsource : s.lk.source = true) (hcer : s.lk.ceremony = false)
    (hs1 : s1 = { s with lk := { s.lk with source := false } }) :
    ceremonyInterlock s = if s.lk.actIn = true then s1.raise 0x0706 (b2n s.lk.strap) s.lk.role 1000 0 else s1 := by
  subst hs1
  rw [ceremonyInterlock, if_neg (by simp [hsource, hcer])]
  rfl

theorem ceremonyFails_of_begun {c : Cmd} (hby : s.lk.beginBy = some c.place) (hc : s.cmd? c.place = some c) (st d : Nat) :
    ceremonyFails s st d = failDetail s c st [byte d] := by
  simp only [ceremonyFails, hby, Option.bind_some, hc]

end

/-! ## The statement -/

/-- Settles O27: each row is the operation of its name, split on the interlock line, the strap and the phase of the claim. That
ACTIVE_INTERLOCK_LOW outside ACTIVE and PAIR_BEGIN_TIMEOUT outside a ceremony change nothing, and the free duration in event
0x0706, are the model's choices (notes/assumptions/1.md, notes/assumptions/4.md). -/
theorem claimComplete : Obligations.ClaimComplete := by
  unfold Obligations.ClaimComplete
  refine ⟨?level, ?guard, ?guardBarred, ?drives, ?reread, ?rereadBarred, ?checked, ?contends, ?wins, ?resumes, ?yields,
    ?standsDown, ?interlock, ?inactive, ?solo, ?ceremony, ?beginEnds, ?noBegin⟩
  case level => exact fun s low => rfl
  case guard =>
    intro s hin hcond
    have row := guardExpiry_of_open hin hcond
    exact ⟨fun secondary => congrArg _ (row.trans (if_pos secondary)),
      fun primary => congrArg _ (row.trans (if_neg (by simp [primary])))⟩
  case guardBarred => exact fun s h => congrArg _ (if_pos (claim_barred h))
  case drives => exact fun s => rfl
  case reread => exact fun s hclaim hin hcond => congrArg _ (claimReread_of_open hclaim hin hcond)
  case rereadBarred => exact fun s hclaim h => congrArg _ (claimReread_of_barred hclaim h)
  case checked => exact fun s hclaim hin => congrArg _ (claimCheck_of_high hclaim hin)
  case contends =>
    intro s s1 hclaim hin hs1
    have row := claimCheck_of_low hclaim hin hs1
    exact ⟨fun secondary => congrArg _ (row.trans (if_pos secondary)),
      fun primary => congrArg _ (row.trans (if_neg (by simp [primary])))⟩
  case wins => exact fun s hin hclaim => congrArg _ (contentionHigh_of_contention hin hclaim)
  case resumes => exact fun s hin hclaim => congrArg _ (contentionHigh_of_suspended hin hclaim)
  case yields => exact fun s hin hclaim => congrArg _ (contentionTimeout_of_contention hin hclaim)
  case standsDown => exact fun s hin hclaim => congrArg _ (contentionTimeout_of_suspended hin hclaim)
  case interlock =>
    intro s s1 hpaired hrole hin hsource hs1
    have row := interlockLow_of_active hpaired hrole hin hsource hs1
    exact ⟨fun primary => congrArg _ (row.trans (if_neg (by simp [primary]))),
      fun secondary => congrArg _ (row.trans (if_pos secondary))⟩
  case inactive => exact fun s h => congrArg _ (interlockLow_of_inactive h)
  case solo => exact fun s hpaired hup => congrArg _ (if_pos (by simp [hpaired, hup]))
  case ceremony =>
    intro s s1 hsource hcer hs1
    have row := ceremonyInterlock_of_source hsource hcer hs1
    exact ⟨fun low => congrArg _ (row.trans (if_pos low)), fun high => congrArg _ (row.trans (if_neg (by simp [high])))⟩
  case beginEnds =>
    intro s c hcer hrec hby hc
    have waits : (s.lk.ceremony && s.lk.pairRec.isNone) = true := by simp [hcer, hrec]
    exact congrArg _ ((if_pos waits).trans (ceremonyFails_of_begun hby hc 0x8002 3))
  case noBegin => exact fun s hcer => congrArg _ (if_neg (by simp [hcer]))

end Sys2Proof.Machine
end

section
/-! PROOFS. The timers of the Luaka link (R275, R278, R283, R286, R288, R296). -/

namespace Sys2Proof.Machine

open Sys2Proof

/-! ## What a relink leaves -/

@[simp] theorem State.raise_lk (s : State) (code p1 p2 p3 p4 : Nat) : (s.raise code p1 p2 p3 p4).lk = s.lk := by
  obtain ⟨e, raised⟩ := s.raise_eq code p1 p2 p3 p4
  rw [raised]

/-- The session's state goes, and the establishment is counted (R296). -/
@[simp] theorem relink_lk (cause : Nat) (s : State) : (relink cause s).lk =
    { s.lk.clear with relinks := (s.lk.relinks + 1) % 2 ^ 32, rxWait := if cause = 3 then s.lk.rxWait else [] } := by
  unfold relink
  dsimp only
  split
  · exact State.raise_lk ..
  · rfl

section
variable {s : State}

/-! ## HELLO (R278) -/

theorem helloTimer_of_idle (h : s.linkWanted = false ∨ s.lk.lanes = 0 ∨ s.lk.up = true) : helloTimer s = s :=
  if_pos (h.imp (by simp) (Or.imp id .inl))

section
variable (hwant : s.linkWanted = true) (hlanes : s.lk.lanes ≠ 0) (hup : s.lk.up = false)
include hwant hlanes hup

/-- A HELLO is still to go out. -/
theorem helloTimer_due (hdue : s.lk.hello = none ∨ s.lk.helloDue = true) :
    ¬ ((!s.linkWanted) = true ∨ s.lk.lanes = 0 ∨ s.lk.up = true ∨ (s.lk.hello.isSome = true ∧ (!s.lk.helloDue) = true)) := by
  rcases hdue with hdue | hdue <;> simp [hwant, hlanes, hup, hdue]

theorem helloTimer_of_drawn (hdue : s.lk.hello = none ∨ s.lk.helloDue = true) (heph : s.lk.eph ≠ []) :
    helloTimer s = sendHello s := by
  rw [helloTimer, if_neg (helloTimer_due hwant hlanes hup hdue), if_pos heph]

/-- The nonce and the ephemeral key are drawn before the first HELLO. -/
theorem helloTimer_of_bytes {t u : State} {b : Bytes} (hnone : s.lk.hello = none) (heph : s.lk.eph = [])
    (hb : s.random 16 64 = .bytes t b) (hu : u = { t with lk := { t.lk with ownNonce := sl b 0 32, eph := sl b 32 32 } })
    (hfirst : u.lk.hello = none) : helloTimer s = sendHello u := by
  subst hu
  have sent : (sendHello { t with lk := { t.lk with ownNonce := sl b 0 32, eph := sl b 32 32 } }).lk.hello = none := hfirst
  rw [helloTimer, if_neg (helloTimer_due hwant hlanes hup (.inl hnone)), if_neg (not_not.mpr heph)]
  simp only [drawOnce, hb, State.modLk, sent]

end

/-! ## Lanes (R275) -/

theorem laneTimeout_of_training (hwant : s.linkWanted = true) (hup : s.lk.up = false) :
    laneTimeout s = { s with lk := { s.lk with
      lanes := if s.lk.lanes = 4 then 2 else if s.lk.lanes = 2 then 1 else s.lk.lanes } } :=
  if_neg (by simp [hwant, hup])

theorem laneLoss_of_used {lane : Nat} (hwant : s.linkWanted = true) (hlane : lane < s.lk.lanes) :
    laneLoss lane s = { relink 1 s with lk := { (relink 1 s).lk with lanes := 4 } } :=
  if_neg (by simp [hwant, hlane])

/-! ## The close of a beat (R283, R286) -/

theorem beatClose_of_standby (h : s.sys.step < 11 ∨ s.lk.role = 3) :
    beatClose s = { s with lk := { s.lk with viol := 0 } } := if_pos h

theorem beatClose_of_active {s1 : State} (hstep : 11 ≤ s.sys.step) (hrole : s.lk.role ≠ 3) (hswitch : switching s = none)
    (hs1 : s1 = { s with lk := { s.lk with viol := 0 } }) :
    beatClose s = if s1.beatOpen = true then s1.closeBeat else s1 := by
  subst hs1
  have active : ¬ (s.sys.step < 11 ∨ s.lk.role = 3) := by omega
  have idle : switching (s.modLk (fun l => { l with viol := 0 })) = none := hswitch
  refine (if_neg active).trans ?_
  rw [idle]
  rfl

/-- A device that does not mirror opens a beat at once, with the values that PAIR_SET_POLICY has kept (R297). -/
theorem State.openBeat_of_alone (h : s.mirroring = false) (n : Nat) : s.openBeat n = { s with lk := { s.lk with
    beat := if n % 2 ^ 48 = 0 then 1 else n % 2 ^ 48, slot := 0
    recorded := if (if n % 2 ^ 48 = 0 then 1 else n % 2 ^ 48) % 2 ^ 20 = 0 then some (if n % 2 ^ 48 = 0 then 1 else n % 2 ^ 48)
      else s.lk.recorded
    beatUs := s.lk.cfgBeatUs, policy := s.lk.cfgPolicy, lossAction := s.lk.cfgLoss, soloMs := s.lk.cfgSolo } } := by
  simp only [State.openBeat, h, Bool.false_and, Bool.false_eq_true, if_false]

theorem State.closeBeat_of_alone (h : s.mirroring = false) :
    s.closeBeat = ({ s with lk := { s.lk with closed := s.lk.beat } } : State).openBeat (s.lk.beat + 1) :=
  if_neg (by simp [h])

theorem State.beatOpen_of_alone (h : s.mirroring = false) : s.beatOpen = true := by
  simp [State.beatOpen, h]

/-! ## Heartbeat loss (R286, R288) -/

theorem State.mirroring_of_role (h : s.lk.role ≠ 2) : s.mirroring = false := by
  simp [State.mirroring, h]

theorem heartbeatLoss_of_not_listening
    (h : s.isPaired = false ∨ (s.lk.up = false ∧ s.mirroring = false ∧ s.lk.role ≠ 3)) : heartbeatLoss s = s := by
  have deaf : s.listens = false := by
    rcases h with unpaired | ⟨down, alone, role⟩
    · simp [State.listens, unpaired]
    · simp [State.listens, down, alone, role]
  exact if_pos (by simp [deaf])

/-- The link goes down if it is up; the loss is remembered by an IN_SYNC standby, and a mirroring member goes on alone. -/
theorem heartbeatLoss_of_listening {s0 s1 s2 : State} (hpaired : s.isPaired = true)
    (hlistens : s.lk.up = true ∨ s.mirroring = true ∨ (s.lk.role = 3 ∧ s.lk.pstate = 3 ∧ s.lk.heartbeat = false))
    (hs0 : s0 = s.raise 0x0703 s.lk.role (s.lk.done % 2 ^ 32) (s.lk.done / 2 ^ 32) 0)
    (hs1 : s1 = if s.lk.up = true then relink 3 s0 else s0)
    (hs2 : s2 = { s1 with lk := { s1.lk with heartbeat := s1.lk.role == 3 && s1.lk.pstate == 3 } }) :
    heartbeatLoss s = if s.mirroring = true then enterLone s2 else s2 := by
  subst hs2 hs1 hs0
  have listens : s.listens = true := by
    rcases hlistens with up | mirrors | ⟨role, sync, fresh⟩
    · simp [State.listens, hpaired, up]
    · simp [State.listens, hpaired, mirrors]
    · simp [State.listens, hpaired, role, sync, fresh]
  rw [heartbeatLoss, if_neg (by simp [listens])]
  rfl

end

/-! ## The statements -/

/-- Settles O28: each timer is the operation of its name behind the guard that the clause's conditions decide. That a HELLO is
sent again while the partner's is held is the model's reading, that a timer whose subject is absent changes nothing its choice
(notes/assumptions/44.md, notes/assumptions/1.md). -/
theorem linkTimersComplete : Obligations.LinkTimersComplete := by
  unfold Obligations.LinkTimersComplete
  refine ⟨?hello, ?helloDrawn, ?helloIdle, ?training, ?laneLost, ?cleared, ?beat, ?beatStandby, ?lost, ?notLost⟩
  case hello =>
    exact fun s hwant hlanes hup hdue heph => congrArg _ (helloTimer_of_drawn hwant hlanes hup hdue heph)
  case helloDrawn =>
    exact fun s t u b hwant hlanes hup hnone heph hb hu hfirst =>
      congrArg _ (helloTimer_of_bytes hwant hlanes hup hnone heph hb hu hfirst)
  case helloIdle => exact fun s h => congrArg _ (helloTimer_of_idle h)
  case training => exact fun s hwant hup => congrArg _ (laneTimeout_of_training hwant hup)
  case laneLost => exact fun s lane hwant hlane => congrArg _ (laneLoss_of_used hwant hlane)
  case cleared =>
    intro s cause
    rw [relink_lk]
    exact ⟨rfl, rfl, rfl, rfl, rfl⟩
  case beat =>
    intro s s1 hstep hrole hswitch hs1
    have row := beatClose_of_active hstep hrole hswitch hs1
    exact ⟨fun opened => congrArg _ (row.trans (if_pos opened)),
      fun full => congrArg _ (row.trans (if_neg (by simp [full])))⟩
  case beatStandby => exact fun s h => congrArg _ (beatClose_of_standby h)
  case lost =>
    intro s s0 s1 s2 hpaired hlistens hs0 hrelinked hkept hs2
    have hs1 : s1 = if s.lk.up = true then relink 3 s0 else s0 := by
      cases hup : s.lk.up with
      | true => exact hrelinked hup
      | false => exact hkept hup
    have row := heartbeatLoss_of_listening hpaired hlistens hs0 hs1 hs2
    exact ⟨fun mirrors => congrArg _ (row.trans (if_pos mirrors)),
      fun alone => congrArg _ (row.trans (if_neg (by simp [alone])))⟩
  case notLost => exact fun s h => congrArg _ (heartbeatLoss_of_not_listening h)

/-- Settles O29: each event's next state is the one of its rule, read field by field. -/
theorem linkTimedEventsRun : Obligations.LinkTimedEventsRun := by
  unfold Obligations.LinkTimedEventsRun
  refine ⟨?hello, ?training, ?laneLost, ?beat, ?lost⟩
  case hello =>
    intro s hwant hlanes hup hnone heph
    exact ⟨sendHello s, _, congrArg Host.Outcome.next (helloTimer_of_drawn hwant hlanes hup (.inl hnone) heph),
      rfl, rfl, rfl, rfl, rfl, rfl⟩
  case training =>
    intro s hwant hup
    refine ⟨_, congrArg Host.Outcome.next (laneTimeout_of_training hwant hup), fun four => if_pos four,
      fun notFour few one => ?_, hup, rfl⟩
    show (if s.lk.lanes = 4 then 2 else if s.lk.lanes = 2 then 1 else s.lk.lanes) = 1
    split
    · contradiction
    · split <;> omega
  case laneLost =>
    intro s lane hwant hlane
    refine ⟨_, congrArg Host.Outcome.next (laneLoss_of_used hwant hlane), ?_⟩
    simp [Link.clear]
  case beat =>
    intro s hstep hrole hswitch halone
    have alone : ({ s with lk := { s.lk with viol := 0 } } : State).mirroring = false := halone
    have row := (beatClose_of_active hstep hrole hswitch rfl).trans (if_pos (State.beatOpen_of_alone alone))
    have aloneClosed : ({ s with lk := { s.lk with viol := 0, closed := s.lk.beat } } : State).mirroring = false := halone
    refine ⟨_, congrArg Host.Outcome.next (row.trans ((State.closeBeat_of_alone alone).trans
      (State.openBeat_of_alone aloneClosed _))), rfl, rfl, rfl, rfl, State.beatOpen_of_alone halone, rfl, rfl⟩
  case lost =>
    intro s hpaired hrole hsync hup
    have alone : s.mirroring = false := State.mirroring_of_role (by omega)
    have row := (heartbeatLoss_of_listening hpaired (.inl hup) rfl rfl rfl).trans (if_neg (by simp [alone]))
    refine ⟨_, congrArg Host.Outcome.next row, ?_⟩
    simp [hup, hrole, hsync, Link.clear]

end Sys2Proof.Machine
end

section
/-! PROOFS. The pairing opcodes (R281, R287, R292, R294, R297, R299). -/

namespace Sys2Proof.Machine

open Sys2Proof

section
variable {s s1 : State} {c : Cmd}

/-- The ceremony begins, and the link trains from four lanes if its domain is on. -/
theorem pairBegin_of_accepted (hquo : c.quorum.isSome = true) (hflag : c.inl 72 1 ≤ 1) (hzero : allZero (c.inlB 73 7) = true)
    (hzero2 : allZero (c.inlB 120 8) = true) (hst : s.lk.pstate = 0) (hrec : s.lk.pairRec = none)
    (hcer : s.lk.ceremony = false) (hqueues : bit (c.inl 72 1) 0 = false → s.queues = [])
    (hs1 : s1 = s.setCmd { c with phase := .waitPair }) :
    pairBegin s c = trainLanes { s1 with
      lk := { s1.lk with ceremony := true, source := bit (c.inl 72 1) 0, named := some (c.inlB 80 32, c.inl 112 8),
                         beginBy := some c.place, hello := none, eph := [], ownNonce := [], helloDue := false }
      sys := { s1.sys with pdctl := s1.sys.pdctl ||| (1#36 <<< 24) } } := by
  subst hs1
  have inForm : ¬ (c.inl 72 1 > 1 ∨ (!allZero (c.inlB 73 7)) = true ∨ (!allZero (c.inlB 120 8)) = true) := by
    simp [hflag, hzero, hzero2]
  have unpaired : ¬ (s.lk.pstate ≠ 0 ∨ s.lk.pairRec.isSome = true ∨ s.lk.ceremony = true) := by simp [hst, hrec, hcer]
  have noQueue : ¬ ((!bit (c.inl 72 1) 0) = true ∧ s.queues ≠ []) := by
    rintro ⟨target, queues⟩
    exact queues (hqueues (by simpa using target))
  rw [pairBegin, withQuorum_of_quorum hquo, if_neg inForm, beginPair, if_neg unpaired, if_neg noQueue]
  rfl

theorem pairSetPolicy_of_fitting {b w : Nat} {p l : Bool} (hp : c.inl 72 1 = b2n p) (hl : c.inl 73 1 = b2n l)
    (hb : b = c.inl 74 2) (hw : w = c.inl 76 2) (hblo : 10 ≤ b) (hbhi : b ≤ 1000) (hwlo : 1 ≤ w) (hwhi : w ≤ 60000)
    (hzero : allZero (c.inlB 78 50) = true) (hcan : s.canCommit = true) :
    pairSetPolicy s c = s.changed { s with
      lk := { s.lk with cfgPolicy := p, cfgLoss := l, cfgBeatUs := b, cfgSolo := w } } c 0x09 0 (linkCfgBody p l b w) [] := by
  subst hb hw
  have flag (x : Bool) : b2n x ≤ 1 ∧ (b2n x == 1) = x := by cases x <;> decide
  obtain ⟨pflag, pset⟩ := flag p
  obtain ⟨lflag, lset⟩ := flag l
  have inForm : ¬ (b2n p > 1 ∨ b2n l > 1 ∨ c.inl 74 2 < 10 ∨ c.inl 74 2 > 1000 ∨ c.inl 76 2 < 1 ∨
      c.inl 76 2 > 60000 ∨ (!allZero (c.inlB 78 50)) = true) := by
    rw [hzero, Bool.not_true]
    simp only [Bool.false_eq_true, or_false]
    omega
  simp only [pairSetPolicy, hp, hl, if_neg inForm, commitDone_of_canCommit hcan, pset, lset, State.modLk]

section
variable (hzero : allZero (c.inlB 72 56) = true)
include hzero

theorem pairQuery_of_zero : pairQuery s c =
    okReply s c ([byte s.lk.pstate, byte s.lk.role,
      byte (b2n s.lk.policy + 2 * b2n s.lk.lossAction), byte s.lk.lanes] ++ toLe 6 s.lk.done ++ toLe 6 s.lk.prom)
      (s.lk.pairRec.elim (zeros 72) (fun x => s.pairPublic ++ sl x.partnerKey 0 32 ++ toLe 8 x.partnerSerial)) := by
  rw [pairQuery, if_neg (by simp [hzero])]
  cases s.lk.pairRec with
  | none => rfl
  | some x => rfl

theorem pairSwitchover_of_active (hst : s.lk.pstate = 3) (hrole : s.lk.role = 2) (hswitch : switching s = none)
    (hs1 : s1 = s.setCmd { c with phase := .waitSwitch, idx := 0 }) :
    pairSwitchover s c = { s1 with sys := { s1.sys with drainStop := true } } := by
  subst hs1
  rw [pairSwitchover, if_neg (by simp [hzero]), if_neg (by simp [hst, hrole, hswitch])]

theorem pairSwitchover_of_unsuited (h : s.lk.pstate ≠ 3 ∨ s.lk.role ≠ 2) : pairSwitchover s c = s.retire c 0x8002 := by
  rw [pairSwitchover, if_neg (by simp [hzero]), if_pos (h.imp id .inl)]

theorem pairDissolve_of_unpaired (h : s.isPaired = false) : pairDissolve s c = okInline s c [] := by
  rw [pairDissolve, if_neg (by simp [hzero]), if_pos (by simp [h])]

variable (hpaired : s.isPaired = true)
include hpaired

theorem pairDissolve_of_active (hrole : s.lk.role = 2) (hopen : journalOpen (ensureReservation s) false = true) :
    pairDissolve s c = okInline (dissolveActive s) c [] := by
  rw [pairDissolve, if_neg (by simp [hzero]), if_neg (by simp [hpaired]), if_pos hrole, if_neg (by simp [hopen])]

/-- A member that is not active gives up its state; the command completes if it is still there. -/
theorem pairDissolve_of_standby {x : Cmd} (hrole : s.lk.role ≠ 2) (hx : (leavePair s).cmd? c.place = some x) :
    pairDissolve s c = okInline (leavePair s) x [] := by
  rw [pairDissolve, if_neg (by simp [hzero]), if_neg (by simp [hpaired]), if_neg hrole]
  simp only [hx]

end

end

/-- Settles O47: each opcode's row is its body. That PAIR_DISSOLVE on an unpaired device completes with DONE is the model's
reading, the bytes of the CONFIG record its choice (notes/assumptions/44.md, notes/assumptions/23.md). -/
theorem pairingOpcodesComplete : Obligations.PairingOpcodesComplete := by
  unfold Obligations.PairingOpcodesComplete
  refine ⟨?begins, ?policy, ?query, ?switchover, ?noSwitchover, ?dissolve⟩
  case begins =>
    intro s s1 i c h hquo hflag hzero hzero2 hst hrec hcer hqueues hs1
    exact congrArg _ ((stewardRow_of_ready h _).trans
      (pairBegin_of_accepted hquo hflag hzero hzero2 hst hrec hcer hqueues hs1))
  case policy =>
    intro s i b w c p l h hp hl hb hw hblo hbhi hwlo hwhi hzero hcan
    exact congrArg _ ((stewardRow_of_ready h _).trans
      (pairSetPolicy_of_fitting hp hl hb hw hblo hbhi hwlo hwhi hzero hcan))
  case query =>
    intro s i c h hzero
    exact congrArg _ ((stewardRow_of_ready h _).trans (pairQuery_of_zero hzero))
  case switchover =>
    intro s s1 i c h hzero hst hrole hswitch hs1
    exact congrArg _ ((stewardRow_of_ready h _).trans (pairSwitchover_of_active hzero hst hrole hswitch hs1))
  case noSwitchover =>
    intro s i c h hzero hunsuited
    exact congrArg _ ((stewardRow_of_ready h _).trans (pairSwitchover_of_unsuited hzero hunsuited))
  case dissolve =>
    intro s i c h hzero
    have row := stewardRow_of_ready h pairDissolve
    exact ⟨fun unpaired => congrArg _ (row.trans (pairDissolve_of_unpaired hzero unpaired)),
      fun hpaired hrole hopen => congrArg _ (row.trans (pairDissolve_of_active hzero hpaired hrole hopen)),
      fun x hpaired hrole hx => congrArg _ (row.trans (pairDissolve_of_standby hzero hpaired hrole hx))⟩

end Sys2Proof.Machine
end

section
/-! PROOFS. The time counter, its sources and the time state (R300, R301, R303 to R306, R308 to R310, Tables 13.2 to 13.4). -/

namespace Sys2Proof.Machine

open Sys2Proof

/-! ## The counter (R300, R304) -/

section
variable {t : TimeKeep} (tr : Bool)

theorem TimeKeep.tick_of_within (h : t.acc + t.addend < secUnits) :
    t.tick tr = { t with acc := t.acc + t.addend, ppsLeft := t.ppsLeft - t.addend } := by
  simp only [TimeKeep.tick, if_pos h]

theorem TimeKeep.tick_of_carry (h : secUnits ≤ t.acc + t.addend) :
    (t.tick tr).acc = t.acc + t.addend - secUnits ∧ (t.tick tr).sec = (t.sec + 1) % 2 ^ 48 := by
  have carry : ¬ t.acc + t.addend < secUnits := Nat.not_lt.mpr h
  simp only [TimeKeep.tick, if_neg carry, and_self]

theorem TimeKeep.tick_acc_lt (hacc : t.acc < secUnits) (hadd : t.addend ≤ secUnits) : (t.tick tr).acc < secUnits := by
  by_cases h : t.acc + t.addend < secUnits
  · rw [TimeKeep.tick_of_within tr h]
    exact h
  · rw [(TimeKeep.tick_of_carry tr (Nat.not_lt.mp h)).1]
    omega

theorem TimeKeep.tick_keeps : (t.tick tr).addend = t.addend ∧ (t.tick tr).state = t.state := by
  unfold TimeKeep.tick
  dsimp only
  split <;> exact ⟨rfl, rfl⟩

end

/-- Settles O34: a tick splits on the carry, and `clampAddend` is a maximum of a minimum. -/
theorem timeCounterRule : Obligations.TimeCounterRule := by
  unfold Obligations.TimeCounterRule
  refine ⟨?within, ?carry, ?bounded, ?kept, ?clamp⟩
  case within =>
    intro t tr h
    rw [TimeKeep.tick_of_within tr h]
    exact ⟨rfl, rfl⟩
  case carry => exact fun t tr h => TimeKeep.tick_of_carry tr h
  case bounded => exact fun t tr hacc hadd => TimeKeep.tick_acc_lt tr hacc hadd
  case kept => exact fun t tr => TimeKeep.tick_keeps tr
  case clamp =>
    intro n
    unfold clampAddend
    omega

section
variable {s : State} {m : PtpMsg}

/-! ## PTP messages (R305, R306, Tables 13.3 and 13.4) -/

theorem ptpAnnounce_of_unheard (h : ptpHeard s m = false) : ptpAnnounce m s = s := if_pos (by simp [h])

theorem ptpSync_of_unheard (h : ptpHeard s m = false) : ptpSync m s = s := if_pos (by simp [h])

theorem ptpFollowUp_of_unheard (h : ptpHeard s m = false) : ptpFollowUp m s = s := if_pos (by simp [h])

theorem ptpDelayResp_of_unheard (h : ptpHeard s m = false) : ptpDelayResp m s = s := if_pos (by simp [h])

theorem electMaster_of_none (h : bestMaster s = none) : electMaster s = s := by simp only [electMaster, h]

theorem electMaster_of_some {x : Master} (h : bestMaster s = some x) :
    electMaster s = if x.msg.clockId = s.pt.gmid then s else selectMaster s x.msg := by simp only [electMaster, h]

/-- The first Announce of a master that is not the selected one. -/
theorem hearMaster_of_new (hnew : s.pt.masters.find? (fun x => x.msg.clockId == m.clockId) = none)
    (hother : s.pt.gmid ≠ m.clockId) :
    hearMaster s m = { s with pt := { s.pt with
      masters := { msg := m, heard := [s.evr.optime] } :: s.pt.masters.filter (fun y => y.msg.clockId != m.clockId) } } := by
  simp only [hearMaster, hnew, Option.map_none, Option.getD_none, List.take_nil, if_neg hother]

/-- Time differences of an exchange give a measurement once the exchange is complete (R306). -/
theorem ptpExchange_of_complete {t1 : Int} {r : Nat × Int} {a : Int × Int} (ht1 : s.pt.t1 = some t1) (hr : s.pt.req = some r)
    (ha : s.pt.resp = some a) : ptpExchange s = ptpMeasure { s with pt := s.pt.noExchange }
      (offsetOf t1 s.pt.t2 r.2 a.1 s.pt.cfSync a.2 s.pt.asym) := by
  simp only [ptpExchange, ht1, hr, ha]

theorem ptpExchange_of_incomplete (h : s.pt.t1 = none ∨ s.pt.req = none ∨ s.pt.resp = none) : ptpExchange s = s := by
  rcases h with h | h | h <;> simp [ptpExchange, h]

section
variable (hheard : ptpHeard s m = true)
include hheard

theorem ptpAnnounce_of_short (hshort : ptpWhole m 64 = false) : ptpAnnounce m s = ptpBad (ptpSecond s) 0xB m := by
  rw [ptpAnnounce, if_neg (by simp [hheard])]
  exact if_pos (.inl (by simp [hshort]))

theorem ptpSync_of_short (hshort : ptpWhole m 44 = false) : ptpSync m s = ptpBad (ptpSecond s) 0 m := by
  rw [ptpSync, if_neg (by simp [hheard])]
  exact if_pos (.inl (by simp [hshort]))

theorem ptpFollowUp_of_short (hshort : ptpWhole m 44 = false) : ptpFollowUp m s = ptpBad s 8 m := by
  rw [ptpFollowUp, if_neg (by simp [hheard]), if_pos (.inl (by simp [hshort]))]

theorem ptpDelayResp_of_short (hshort : ptpWhole m 54 = false) : ptpDelayResp m s = ptpBad s 9 m := by
  rw [ptpDelayResp, if_neg (by simp [hheard]), if_pos (.inl (by simp [hshort]))]

theorem ptpAnnounce_of_new {s1 s2 : State} (hs1 : s1 = ptpSecond s) (hwhole : ptpWhole m 64 = true)
    (hrate : s1.pt.announces < 16) (hclass : m.clockClass ≠ 255) (hsteps : m.stepsRemoved < 255)
    (hscale : m.ptpTimescale = true) (hnew : s1.pt.masters.find? (fun x => x.msg.clockId == m.clockId) = none)
    (hother : s1.pt.gmid ≠ m.clockId) (hs2 : s2 = { s1 with pt := { s1.pt with
      announces := s1.pt.announces + 1
      masters := { msg := m, heard := [s1.evr.optime] } :: s1.pt.masters.filter (fun y => y.msg.clockId != m.clockId) } }) :
    ptpAnnounce m s = electMaster s2 := by
  subst hs2
  have taken : ¬ ((!ptpWhole m 64) = true ∨ s1.pt.announces ≥ 16) := by simp [hwhole, hrate]
  have usable : ¬ (m.clockClass = 255 ∨ m.stepsRemoved ≥ 255) := by omega
  rw [ptpAnnounce, if_neg (by simp [hheard]), ← hs1]
  refine (if_neg taken).trans ((if_neg usable).trans ((if_neg (by simp [hscale])).trans (congrArg electMaster ?_)))
  exact hearMaster_of_new hnew hother

theorem ptpSync_of_master {s1 s2 : State} (hs1 : s1 = ptpSecond s) (hwhole : ptpWhole m 44 = true)
    (hfrom : fromMaster s1 m = true) (hrate : s1.pt.syncs < 16) (hs2 : s2 = { s1 with pt := { s1.pt with
      syncs := s1.pt.syncs + 1, syncSeq := some m.seqId, t2 := m.rxNs - Config.pathIn, cfSync := m.cf,
      t1 := if m.twoStep then none else some m.originNs, req := none, resp := none } }) :
    ptpSync m s = if delayDue s2 = true then sendDelayReq s2 else s2 := by
  subst hs2
  have taken : ¬ ((!ptpWhole m 44) = true ∨ (!fromMaster s1 m) = true ∨ s1.pt.syncs ≥ 16) := by simp [hwhole, hfrom, hrate]
  rw [ptpSync, if_neg (by simp [hheard]), ← hs1]
  exact if_neg taken

theorem ptpFollowUp_of_sync {s1 : State} (hwhole : ptpWhole m 44 = true) (hfrom : fromMaster s m = true)
    (hseq : s.pt.syncSeq = some m.seqId) (ht1 : s.pt.t1 = none)
    (hs1 : s1 = { s with pt := { s.pt with t1 := some m.originNs, cfSync := s.pt.cfSync + m.cf } }) :
    ptpFollowUp m s = ptpExchange s1 := by
  subst hs1
  rw [ptpFollowUp, if_neg (by simp [hheard]), if_neg (by simp [hwhole, hfrom, hseq, ht1])]

theorem ptpDelayResp_of_answer {s1 : State} {q : Nat × Int} (hwhole : ptpWhole m 54 = true) (hfrom : fromMaster s m = true)
    (hport : m.reqPortOk = true) (hq : s.pt.req = some q) (hseq : q.1 = m.seqId) (hresp : s.pt.resp = none)
    (hs1 : s1 = { s with pt := { s.pt with resp := some (m.originNs, m.cf), minReq := m.logInterval } }) :
    ptpDelayResp m s = ptpExchange s1 := by
  subst hs1
  have answers : answersReq s m = true := by simp [answersReq, hport, hq, hseq, hresp]
  rw [ptpDelayResp, if_neg (by simp [hheard]), if_neg (by simp [hwhole, hfrom, answers])]

theorem ptpDelayResp_of_unasked (hreq : s.pt.req = none) : ptpDelayResp m s = ptpBad s 9 m := by
  have unasked : answersReq s m = false := by simp [answersReq, hreq]
  rw [ptpDelayResp, if_neg (by simp [hheard]), if_pos (.inr (.inr (by simp [unasked])))]

end

/-! ## Measurements and the time state (R303, Table 13.2) -/

theorem measure_of_outlier {off : Int} (h : isOutlier s off = true) : measure s off = outlier s off := if_pos h

/-- Outside LOCKED an offset of 1 ms or more steps the counter. -/
theorem measure_of_step {off : Int} (hin : isOutlier s off = false) (hoff : 1000000 ≤ off.natAbs) (hst : s.pt.state ≠ 2) :
    measure s off =
      changeTime (stepTime { s with pt := { s.pt with outliers := 0, lastOffset := sat32 off, count := 0 } } off) 1 off := by
  rw [measure, measureTo, if_neg (by simp [hin])]
  exact if_pos ⟨hoff, hst⟩

theorem changeTime_of_ne {n : Nat} (h : s.pt.state ≠ n) (off : Int) : changeTime s n off = ((({ s with pt := { s.pt with
      outliers := 0, count := if n = 2 then s.pt.count else 0, state := n } } : State).cause 4).raise 0x0801 s.pt.state n
        (toField 32 off) 0) := by
  rw [changeTime, if_neg h]
  exact congrArg (fun t : State => t.raise 0x0801 s.pt.state n (toField 32 off) 0) (if_neg h)

theorem holdOver_iff (h : s.pt.state = 3) :
    holdOver s = true ↔ s.pt.limitH * 3600 ≤ (s.pt.sec + 2 ^ 48 - s.pt.holdSec) % 2 ^ 48 := by
  simp [holdOver, holdSeconds, h]

/-! ## PPS_IN (R308) -/

theorem ppsEdge_of_unused {ns : Nat} (h : s.pt.ppsIn = false ∨ s.lk.role = 3 ∨ s.pt.gmid = 0) : ppsEdge ns s = s :=
  if_pos (h.imp (by simp) id)

theorem ppsEdge_of_used {ns : Nat} (hin : s.pt.ppsIn = true) (hrole : s.lk.role ≠ 3) (hgm : s.pt.gmid ≠ 0) :
    ppsEdge ns s = if (foldPhase ns + s.pt.asym).natAbs > 1000000
      then ({ s with pt := { s.pt with drops := (s.pt.drops + 1) % 2 ^ 32 } } : State).raise 0x0806 1 0 0 0
      else measure { s with pt := { s.pt with ppsLock := true } } (foldPhase ns + s.pt.asym) :=
  if_neg (by simp [hin, hrole, hgm])

/-! ## A standby's exchange (R310) -/

theorem timeExchange_of_standby (hrole : s.lk.role = 3) (hst : s.lk.pstate ≠ 0) (hkey : s.lk.sessTx ≠ []) :
    timeExchange s = ({ s with pt := { s.pt with xchg := some s.timeNs } } : State).frame 0x08 false s.lk.beat [1#8] :=
  if_neg (by simp [hrole, hst, hkey])

end

/-! ## The statement -/

/-- Settles O33, source by source: a message that is heard is dropped or runs its operation, and a loss or a limit splits on
the time state. The lengths 64, 44 and 54 and the order of masters are the model's reading of the standards that the manual
names; causes 1 and 2 of event 0x0806, and that a PPS edge without a master gives no measurement, are its deduction
(notes/assumptions/69.md, notes/assumptions/25.md). -/
theorem timeComplete : Obligations.TimeComplete := by
  unfold Obligations.TimeComplete
  refine ⟨?tick, ?stopped, ?capture, ?announce, ?short, ?unheard, ?sync, ?followUp, ?delayResp, ?unasked, ?step, ?outlier,
    ?ignored, ?pps, ?noPps, ?ppsLost, ?sourceLost, ?limit, ?limitTime, ?standby, ?change⟩
  case tick => exact fun s locked => congrArg _ (if_pos locked)
  case stopped => exact fun s unlocked => congrArg _ (if_neg (by simp [unlocked]))
  case capture => exact fun s => rfl
  case announce =>
    intro s s1 s2 m hheard hs1 hwhole hrate hclass hsteps hscale hnew hother hs2
    have row := ptpAnnounce_of_new hheard hs1 hwhole hrate hclass hsteps hscale hnew hother hs2
    have selected : s2.pt.gmid = s1.pt.gmid := by rw [hs2]
    refine ⟨fun hnone => congrArg _ (row.trans (electMaster_of_none hnone)), fun x hx hsame => ?_, fun x hx hchanged => ?_⟩
    · exact congrArg _ (row.trans ((electMaster_of_some hx).trans (if_pos (selected ▸ hsame))))
    · exact congrArg _ (row.trans ((electMaster_of_some hx).trans (if_neg (selected ▸ hchanged))))
  case short =>
    intro s m hheard
    exact ⟨fun h => congrArg _ (ptpAnnounce_of_short hheard h),
      fun h => ⟨congrArg _ (ptpSync_of_short hheard h), congrArg _ (ptpFollowUp_of_short hheard h)⟩,
      fun h => congrArg _ (ptpDelayResp_of_short hheard h)⟩
  case unheard =>
    intro s m h
    exact ⟨congrArg _ (ptpAnnounce_of_unheard h), congrArg _ (ptpSync_of_unheard h), congrArg _ (ptpFollowUp_of_unheard h),
      congrArg _ (ptpDelayResp_of_unheard h)⟩
  case sync =>
    intro s s1 s2 m hheard hs1 hwhole hfrom hrate hs2
    have row := ptpSync_of_master hheard hs1 hwhole hfrom hrate hs2
    exact ⟨fun due => congrArg _ (row.trans (if_pos due)), fun early => congrArg _ (row.trans (if_neg (by simp [early])))⟩
  case followUp =>
    intro s s1 m hheard hwhole hfrom hseq ht1 hs1
    have row := ptpFollowUp_of_sync hheard hwhole hfrom hseq ht1 hs1
    subst hs1
    exact ⟨fun h => congrArg _ (row.trans (ptpExchange_of_incomplete (.inr h))),
      fun r a hr ha => congrArg _ (row.trans (ptpExchange_of_complete rfl hr ha))⟩
  case delayResp =>
    intro s s1 m q hheard hwhole hfrom hport hq hseq hresp hs1
    have row := ptpDelayResp_of_answer hheard hwhole hfrom hport hq hseq hresp hs1
    subst hs1
    exact ⟨fun h => congrArg _ (row.trans (ptpExchange_of_incomplete (.inl h))),
      fun t1 ht1 => congrArg _ (row.trans (ptpExchange_of_complete ht1 hq rfl))⟩
  case unasked => exact fun s m hheard hreq => congrArg _ (ptpDelayResp_of_unasked hheard hreq)
  case step => exact fun s off hin hoff hst => measure_of_step hin hoff hst
  case outlier => exact fun s off h => measure_of_outlier h
  case ignored => exact fun s => rfl
  case pps =>
    intro s ns hin hrole hgm
    have row := ppsEdge_of_used (ns := ns) hin hrole hgm
    exact ⟨fun near => congrArg _ (row.trans (if_neg (Nat.not_lt.mpr near))),
      fun far => congrArg _ (row.trans (if_pos far))⟩
  case noPps => exact fun s ns h => congrArg _ (ppsEdge_of_unused h)
  case ppsLost => exact fun s locked => congrArg _ (if_pos locked)
  case sourceLost =>
    intro s
    exact ⟨fun acquiring => congrArg _ (if_pos acquiring),
      fun locked => congrArg _ ((if_neg (by omega)).trans (if_pos locked)),
      fun h1 h2 => congrArg Host.Outcome.next ((if_neg h1).trans (if_neg h2))⟩
  case limit =>
    exact fun s => ⟨fun reached => congrArg _ (if_pos reached), fun within => congrArg _ (if_neg (by simp [within]))⟩
  case limitTime => exact fun s h => holdOver_iff h
  case standby => exact fun s hrole hst hkey => congrArg _ (timeExchange_of_standby hrole hst hkey)
  case change => exact fun s n off h => changeTime_of_ne h off

end Sys2Proof.Machine
end

section
/-! PROOFS. The opcodes of time, self-test and the recorder (R313, R388 to R393). -/

namespace Sys2Proof.Machine

open Sys2Proof

section
variable {s : State} {c : Cmd}

/-! ## Time (R313) -/

theorem ptSetConfig_of_fitting {s1 : State} (hmap : c.inl 72 1 ≤ 2) (hdomain : c.inl 73 1 ≤ 127) (hflags : c.inl 74 1 < 4)
    (hwlo : 1 ≤ c.inl 75 1) (hwhi : c.inl 75 1 ≤ 250) (hlimlo : 1 ≤ c.inl 76 2) (hlimhi : c.inl 76 2 ≤ 168)
    (houtlo : 1 ≤ c.inl 78 2) (houthi : c.inl 78 2 ≤ 1000) (hzero : allZero (c.inlB 88 40) = true)
    (hs1 : s1 = { s with pt := { s.pt.load (timeCfg c s.pt) with cfgStored := some (timeCfg c s.pt) } }) :
    ptSetConfig s c = okInline (if c.inl 72 1 ≠ s.pt.mapping ∨ c.inl 73 1 ≠ s.pt.domain
      then dropMaster { s1 with pt := { s1.pt with masters := [] } } s1.pt.gmid else s1) c [] := by
  subst hs1
  have fits : ¬ (c.inl 72 1 > 2 ∨ c.inl 73 1 > 127 ∨ c.inl 74 1 ≥ 4 ∨ c.inl 75 1 < 1 ∨ c.inl 75 1 > 250 ∨ c.inl 76 2 < 1 ∨
      c.inl 76 2 > 168 ∨ c.inl 78 2 < 1 ∨ c.inl 78 2 > 1000 ∨ (!allZero (c.inlB 88 40)) = true) := by
    rw [hzero, Bool.not_true]
    simp only [Bool.false_eq_true, or_false]
    omega
  exact if_neg fits

/-! ## Self-test (R393) -/

theorem bistQuery_of_unit {u : Nat} (hu : u = c.inl 72 2) (hmax : u ≤ 175) (hzero : allZero (c.inlB 74 54) = true) :
    bistQuery s c = okInline s c ([byte (unitState s u), byte (nextPick s u), byte (s.bunit u).fails, 0#8] ++
      toLe 4 (s.bunit u).passes ++ toLe 4 (s.slot (slotOf u)).cycles) := by
  subst hu
  exact if_neg (by simp [hmax, hzero])

theorem bistPick_of_unit {u : Nat} (hu : u = c.inl 72 2) (hmax : u ≤ 175) (hpick : c.inl 74 1 ≤ 15)
    (hzero : allZero (c.inlB 75 53) = true) (hskip : skipUnit s u = false) :
    bistPick s c = if (s.slot (slotOf u)).reqs.length ≥ 8 then s.retire c 0x5001
      else (s.setCmd { c with phase := .waitPick (slotOf u) }).modSlot
        (slotOf u) (fun x => { x with reqs := x.reqs ++ [(u, c.inl 74 1, 0, some c.place)] }) := by
  subst hu
  exact if_neg (by simp [hmax, hpick, hzero, hskip])

/-- OPERATIONAL allows no slower pace than 1,000 ms, and no pause. -/
theorem bistSetPace_of_fitting {p : Nat} {on : Bool} (hon : c.inl 72 1 = b2n on) (hrsv : c.inl 73 1 = 0) (hp : p = c.inl 74 2)
    (hlo : 10 ≤ p) (hhi : p ≤ 10000) (hiso : 1 ≤ c.inl 76 1) (hzero : allZero (c.inlB 77 51) = true)
    (hoperational : s.lc.state = 0x40 → on = true ∧ p ≤ 1000) :
    bistSetPace s c = okInline { s with bist := { s.bist with
      enable := on, period := p, isolate := c.inl 76 1, cfgPace := some (on, p, c.inl 76 1) } } c [] := by
  subst hp
  have flag : bit (b2n on) 0 = on ∧ ¬ b2n on > 1 := by cases on <;> decide
  have inForm : ¬ (b2n on > 1 ∨ c.inl 73 1 ≠ 0 ∨ (!allZero (c.inlB 77 51)) = true ∨ c.inl 76 1 < 1) := by
    simp [flag.2, hrsv, hzero, Nat.pos_iff_ne_zero.mp hiso]
  have allowed : ¬ (s.lc.state = 0x40 ∧ ((!on) = true ∨ c.inl 74 2 < 10 ∨ c.inl 74 2 > 1000)) := by
    rintro ⟨operational, bad⟩
    obtain ⟨rfl, pace⟩ := hoperational operational
    simp only [Bool.not_true, Bool.false_eq_true, false_or] at bad
    omega
  have inRange : ¬ (c.inl 74 2 < 10 ∨ c.inl 74 2 > 10000) := by omega
  simp only [bistSetPace, hon, flag.1, if_neg inForm, if_neg allowed, if_neg inRange]

/-! ## The recorder (R388 to R392) -/

theorem evrSetExport_of_fitting (hflag : c.inl 72 1 ≤ 1) (hrsv : c.inl 73 1 = 0) (hzero : allZero (c.inlB 86 42) = true)
    (hmap : s.pt.mapping = 1) : evrSetExport s c = okInline { s with evr := { s.evr with
      export_ := c.inl 72 1 == 1, exPort := c.inl 74 2, exIp := c.inl 76 4, exMac := c.inl 80 6 } } c [] :=
  if_neg (by simp [hflag, hrsv, hzero, hmap])

theorem evrRead_of_range {a n : Nat} (ha : a = c.inl 72 2) (hn : n = c.inl 74 1) (hlo : 1 ≤ n) (hhi : n ≤ 96)
    (hend : a + n ≤ 65536) (hzero : allZero (c.inlB 75 53) = true) :
    evrRead s c = okReply s c (toLe 4 s.evr.log.length ++ toLe 4 s.evr.lost)
      ((List.range n).flatMap (fun k => ((s.evr.log[a + k]?).map Rec.bytes).getD (zeros 32))) := by
  subst ha hn
  exact if_neg (by simp [hzero, hhi, hend, Nat.pos_iff_ne_zero.mp hlo])

theorem evrClear_of_quorum {s1 : State} (hquo : c.quorum.isSome = true) (hlen : c.ownLen true = 0)
    (hidle : s.evr.clearing = false) (hs1 : s1 = s.setCmd { c with phase := .waitClear }) :
    evrClear s c = { s1 with evr := { s1.evr with
      clearing := true, clearBy := some c.place, buffer := s1.evr.buffer.map (fun e => { e with deferred := true }) } } := by
  subst hs1
  rw [evrClear, withQuorum_of_quorum hquo, if_neg (not_not.mpr hlen)]
  exact if_neg (by simp [hidle])

theorem clearEnd_of_waiting {p : Place} (hsag : s.sag.warning = false) (hc : s.cmd? p = some c)
    (hph : c.phase = .waitClear) : clearEnd s p = okInline (clearLog s) c [] := by
  have waits : (s.cmd? p).filter (fun c => c.phase == .waitClear) = some c := by simp [hc, hph]
  rw [clearEnd, if_neg (by simp [hsag]), waits]

theorem bbRead_of_range {a n : Nat} (ha : a = c.inl 72 2) (hn : n = c.inl 74 1) (hlo : 1 ≤ n) (hhi : n ≤ 96)
    (hmax : a ≤ 8191) (hzero : allZero (c.inlB 75 53) = true) :
    bbRead s c = okReply s c (toLe 2 s.evr.head ++ [byte (b2n s.evr.frozen), 0#8] ++ toLe 2 s.evr.trigIdx)
      ((List.range n).flatMap (fun k => ((ringAt s ((a + k) % 8192)).map Rec.bytes).getD (zeros 32))) := by
  subst ha hn
  exact if_neg (by simp [hzero, hhi, hmax, Nat.pos_iff_ne_zero.mp hlo])

theorem bbRelease_of_frozen (hfrozen : s.evr.frozen = true) (hzero : allZero (c.inlB 72 56) = true) :
    bbRelease s c = okInline (({ s with evr := { s.evr with
      frozen := false, triggered := false, post := 0 } } : State).raise 0x0D05 s.evr.head 0 0 0) c [] :=
  if_neg (by simp [hfrozen, hzero])

end

/-- EVR_CLEAR's row is its body, but for the context that has begun the clear under way. -/
theorem execEvrClear_of_idle {s : State} (h : s.evr.clearing = false) (i : Nat) :
    execEvrClear i s = .next (stewardRow s i 0x1AD evrClear) := congrArg Host.Outcome.next (if_neg (by simp [h]))

theorem execEvrClear_of_begun {s : State} {i : Nat} (h : s.evr.clearing = true) (hby : s.evr.clearBy = some (.ctx i)) :
    execEvrClear i s = .next (clearEnd s (.ctx i)) := congrArg Host.Outcome.next (if_pos (by simp [h, hby]))

/-- Settles O50: each opcode's row is its body, or the end of the clear that its context has begun. That BB_READ takes indices
modulo 8,192 is the model's reading (notes/assumptions/26.md). -/
theorem timeAndRecorderOpcodesComplete : Obligations.TimeAndRecorderOpcodesComplete := by
  unfold Obligations.TimeAndRecorderOpcodesComplete
  refine ⟨?setTime, ?timeQuery, ?bistQuery, ?pick, ?pace, ?setExport, ?readLog, ?clear, ?clearEnds, ?readBox, ?releaseBox⟩
  case setTime =>
    intro s s1 i c h hmap hdomain hflags hwlo hwhi hlimlo hlimhi houtlo houthi hzero hs1
    have row := (stewardRow_of_ready h ptSetConfig).trans
      (ptSetConfig_of_fitting hmap hdomain hflags hwlo hwhi hlimlo hlimhi houtlo houthi hzero hs1)
    refine ⟨fun sameMap sameDomain => congrArg _ (row.trans ?_), fun moved => congrArg _ (row.trans ?_)⟩
    · rw [if_neg (by simp [sameMap, sameDomain])]
    · rw [if_pos moved]
  case timeQuery => exact fun s i c h => congrArg _ (stewardRow_of_ready h ptQuery)
  case bistQuery =>
    intro s i u c h hu hmax hzero
    exact congrArg _ ((stewardRow_of_ready h _).trans (bistQuery_of_unit hu hmax hzero))
  case pick =>
    intro s i u c h hu hmax hpick hzero hskip
    have row := (stewardRow_of_ready h _).trans (bistPick_of_unit hu hmax hpick hzero hskip)
    exact ⟨fun room => congrArg _ (row.trans (if_neg (Nat.not_le.mpr room))),
      fun full => congrArg _ (row.trans (if_pos full))⟩
  case pace =>
    intro s i p c on h hon hrsv hp hlo hhi hiso hzero hoperational
    exact congrArg _ ((stewardRow_of_ready h _).trans
      (bistSetPace_of_fitting hon hrsv hp hlo hhi hiso hzero hoperational))
  case setExport =>
    intro s i c h hflag hrsv hzero hmap
    exact congrArg _ ((stewardRow_of_ready h _).trans (evrSetExport_of_fitting hflag hrsv hzero hmap))
  case readLog =>
    intro s i a n c h ha hn hlo hhi hend hzero
    exact congrArg _ ((stewardRow_of_ready h _).trans (evrRead_of_range ha hn hlo hhi hend hzero))
  case clear =>
    intro s s1 i c h hquo hlen hidle hs1
    exact (execEvrClear_of_idle hidle i).trans
      (congrArg _ ((stewardRow_of_ready h _).trans (evrClear_of_quorum hquo hlen hidle hs1)))
  case clearEnds =>
    intro s i c hclearing hby hsag hc hph
    exact (execEvrClear_of_begun hclearing hby).trans (congrArg _ (clearEnd_of_waiting hsag hc hph))
  case readBox =>
    intro s i a n c h ha hn hlo hhi hmax hzero
    exact congrArg _ ((stewardRow_of_ready h _).trans (bbRead_of_range ha hn hlo hhi hmax hzero))
  case releaseBox =>
    intro s i c h hfrozen hzero
    exact congrArg _ ((stewardRow_of_ready h _).trans (bbRelease_of_frozen hfrozen hzero))

end Sys2Proof.Machine
end

section
/-! PROOFS. Debug authorisation, run control and boundary scan (R337 to R342, R345, R420). -/

namespace Sys2Proof.Machine

open Sys2Proof

section
variable {s : State}

/-! ## Tokens and challenges (R338 to R340, R345) -/

theorem dbgOnly_debug (addr : Nat) (k : State) : dbgOnly .debug addr s k = k := if_pos rfl

theorem dbgOnly_of_other {w : Writer} (h : w ≠ .debug) (addr : Nat) (k : State) : dbgOnly w addr s k = s.denyWrite w addr 4 :=
  if_neg h

/-- A token that is submitted is consumed with its challenge, then refused or granted. -/
theorem dbgSubmit_of_token {s1 : State} {v : Nat} (hv : bit v 0 = true)
    (hs1 : s1 = { s with dbg := { s.dbg with token := zeros 128, challenge := 0 } }) :
    dbgSubmit .debug v s = (dbgFault s 0 s.dbg.token).elim (dbgGrant s1 0 s.dbg.token) (dbgRefuse s1) := by
  subst hs1
  rw [dbgSubmit, dbgOnly_debug, if_neg (by simp [hv])]
  dsimp only
  cases dbgFault s 0 s.dbg.token with
  | none => rfl
  | some r => rfl

theorem challengeRead_of_bytes {t : State} {b : Bytes} (h : s.random 16 8 = .bytes t b) : challengeRead s =
    ({ t with dbg := { t.dbg with challenge := leNat b } } : State).send (.regRead 0x10120004 (leNat b % 2 ^ 32) true) := by
  simp only [challengeRead, h]

theorem challengeRead_of_off (h : s.random 16 8 = .off) : challengeRead s =
    ({ s with dbg := { s.dbg with challenge := 0 } } : State).send (.regRead 0x10120004 0 true) := by
  simp only [challengeRead, h, Nat.zero_mod]

/-! ## Run control (R337) -/

section
variable {i : Nat} (hi : i < 4) (hgrant : bit s.grantBits 0 = true) (hon : s.powered (27 + i) = true)
  (hreset : s.sys.inReset = false)
include hi hgrant hon hreset

theorem runControl_open : ¬ (i ≥ 4 ∨ (!bit s.grantBits 0) = true ∨ (!s.powered (27 + i)) = true ∨ s.sys.inReset = true) := by
  simp [hi, hgrant, hon, hreset]

theorem runControl_halt : runControl i .halt s =
    if haltRefused s i = true then { s with iom := { s.iom with haltRefused := true } }
    else { s with
      dbg := { s.dbg with halted := i :: s.dbg.halted.filter (fun x => x != i) }
      sys := { s.sys with wdtPaused := i :: s.sys.wdtPaused.filter (fun x => x != i) } } :=
  if_neg (runControl_open hi hgrant hon hreset)

theorem runControl_single : runControl i .single s = s := if_neg (runControl_open hi hgrant hon hreset)

theorem runControl_resume : runControl i .resume s = { s with
    dbg := { s.dbg with halted := s.dbg.halted.filter (fun x => x != i) }
    sys := { s.sys with wdtPaused := s.sys.wdtPaused.filter (fun x => x != i) } } :=
  if_neg (runControl_open hi hgrant hon hreset)

end

/-! ## Boundary scan (R341, R420) -/

/-- Every instruction but EXTEST leaves ACT_OUT_N as it is. -/
theorem actOut_of_not_extest {i : TapInstr} (h : i ≠ .extest) (b : Bool) : (b && i != .extest) = b := by
  simp [h]

theorem ne_extest_of_not_drives {i : TapInstr} (h : tapDrives i = false) : i ≠ .extest := by
  rintro rfl
  cases h

/-- No instruction that drives the balls is left. -/
theorem loadInstr_of_quiet (h : tapDrives s.dbg.tap = false) (i : TapInstr) : loadInstr i s = { s with
    dbg := { s.dbg with tap := i }
    lk := { s.lk with actOut := s.lk.actOut && i != .extest } } := by
  simp only [loadInstr, h, Bool.false_and, Bool.false_eq_true, if_false]

theorem loadInstr_of_quiet_ne_extest (h : tapDrives s.dbg.tap = false) {i : TapInstr} (hi : i ≠ .extest) :
    loadInstr i s = { s with dbg := { s.dbg with tap := i } } := by
  rw [loadInstr_of_quiet h, actOut_of_not_extest hi]

theorem loadInstr_of_driving {t : State} {i : TapInstr} (h : tapDrives s.dbg.tap = true) (hi : tapDrives i = false)
    (ht : t = warmReset 0 s) : loadInstr i s = { t with dbg := { t.dbg with tap := i } } := by
  subst ht
  have other : (s.dbg.tap != i) = true := by
    rw [bne_iff_ne]
    rintro rfl
    exact Bool.false_ne_true (hi.symm.trans h)
  have leaves : (tapDrives s.dbg.tap && s.dbg.tap != i) = true := by rw [h, other, Bool.and_self]
  simp only [loadInstr, if_pos leaves, actOut_of_not_extest (ne_extest_of_not_drives hi)]

theorem scanInstruction_of_open {i : TapInstr} (h : tapDrives i = false ∨ scanOpen s = true) :
    scanInstruction i s = loadInstr i s := by
  refine if_neg ?_
  rcases h with h | h <;> simp [h]

theorem scanInstruction_of_refused {i : TapInstr} (hi : tapDrives i = true) (h : scanOpen s = false) :
    scanInstruction i s = loadInstr .bypass { s with iom := { s.iom with extestRefused := true } } :=
  if_pos (by simp [hi, h])

end

/-- Settles O36, row by row. That the expiry of a grant moves operating time to its end is the model's choice
(notes/assumptions/55.md), and so is that a single step of a steward, whose code is no part of the model, changes nothing. -/
theorem debugComplete : Obligations.DebugComplete := by
  unfold Obligations.DebugComplete
  refine ⟨?submit, ?denied, ?challenge, ?noChallenge, ?ends, ?expires, ?runs, ?loads, ?extest, ?refused, ?reset, ?leaves⟩
  case submit =>
    rintro s _ v hv rfl
    exact congrArg _ (dbgSubmit_of_token hv rfl)
  case denied =>
    exact fun s w v h => ⟨congrArg _ (dbgOnly_of_other h _ _), congrArg _ (dbgOnly_of_other h _ _)⟩
  case challenge => exact fun s t b h => congrArg _ (challengeRead_of_bytes h)
  case noChallenge => exact fun s h => congrArg _ (challengeRead_of_off h)
  case ends => exact fun s v hv => congrArg _ ((dbgOnly_debug _ _).trans (if_pos hv))
  case expires => exact fun s h => congrArg _ (if_pos h)
  case runs =>
    intro s i hi hgrant hon hreset
    have halt := runControl_halt hi hgrant hon hreset
    exact ⟨fun free => congrArg _ (halt.trans (if_neg (by simp [free]))), fun refused => congrArg _ (halt.trans (if_pos refused)),
      congrArg _ (runControl_single hi hgrant hon hreset), congrArg _ (runControl_resume hi hgrant hon hreset)⟩
  case loads =>
    intro s i htap hi
    exact congrArg _ ((scanInstruction_of_open (.inl hi)).trans
      (loadInstr_of_quiet_ne_extest htap (ne_extest_of_not_drives hi)))
  case extest =>
    intro s htap hopen
    refine congrArg _ ((scanInstruction_of_open (.inr hopen)).trans ((loadInstr_of_quiet htap .extest).trans ?_))
    rw [bne_self_eq_false, Bool.and_false]
  case refused =>
    intro s i htap hi hclosed
    exact congrArg _ ((scanInstruction_of_refused hi hclosed).trans
      (loadInstr_of_quiet_ne_extest (s := { s with iom := { s.iom with extestRefused := true } }) htap (by decide)))
  case reset => exact fun s htap => congrArg _ (loadInstr_of_quiet_ne_extest htap (by decide))
  case leaves => exact fun s t htap ht => congrArg _ (loadInstr_of_driving htap rfl ht)

end Sys2Proof.Machine
end

section
/-! PROOFS. Life-cycle transitions and one-time fields (R324 to R328, R345). -/

namespace Sys2Proof.Machine

open Sys2Proof

/-! ## Words of the OTP -/

/-- Programming a word sets bits of that word and leaves every other. -/
theorem LifeCycle.word_program (l : LifeCycle) (w u : Nat) (v : BitVec 32) :
    (l.program w v).word u = if u = w then l.word w ||| v else l.word u := by
  split
  next h =>
    subst h
    simp [LifeCycle.program, LifeCycle.word]
  next h =>
    have kept : (fun x : Nat × BitVec 32 => decide ((x.1 != w) = true ∧ (x.1 == u) = true)) = fun x => x.1 == u := by
      funext x
      by_cases hx : x.1 = u <;> simp [hx, h]
    have other : (w == u) = false := by simp [Ne.symm h]
    simp only [LifeCycle.program, LifeCycle.word, List.find?_cons, other, List.find?_filter, kept]

section
variable {s : State}

/-! ## GO (R326, R328) -/

theorem lcGo_of_not_writer {w : Writer} (h : lcWriter s w = false) (v : Nat) : lcGo w v s = s.denyWrite w 0x10010004 4 :=
  if_pos (by simp [h])

/-- Without GO a write of LC.CTRL sets TARGET. -/
theorem lcGo_of_no_go {w : Writer} {v : Nat} (h : lcWriter s w = true) (hv : bit v 8 = false) :
    lcGo w v s = { s with lc := { s.lc with target := v % 256 } } := by
  rw [lcGo, if_neg (by simp [h]), if_pos (by simp [hv])]

theorem lcGo_of_debug {v : Nat} (h : lcWriter s .debug = true) (hv : bit v 8 = true) :
    lcGo .debug v s = goTransition s (v % 256) 0 none := by
  rw [lcGo, if_neg (by simp [h]), if_neg (by simp [hv])]
  rfl

section
variable {s1 : State} {dst : Nat} (hs1 : s1 = { s with lc := { s.lc with target := dst } })
include hs1

/-- A request on a path that is not permitted leaves the count of tokens alone. -/
theorem goTransition_of_fault {r : Nat} (hfault : goFault s1 dst 0 = some r)
    (hpath : pathPermitted s.lc.state dst 0 = false) : goTransition s dst 0 none = ({ s1 with
      lc := { s1.lc with token := zeros 16, statRefused := true, result := r } } : State).raise 0x0106 dst r 0 0 := by
  subst hs1
  simp only [goTransition, hfault, hpath, Bool.false_eq_true, if_false]
  rfl

/-- A request that needs no secret opens its session, and admission stops. -/
theorem goTransition_of_sound {s2 : State} (hfault : goFault s1 dst 0 = none)
    (hs2 : s2 = endGrant 5 (({ s1 with lc := { s1.lc with token := zeros 16 } } : State).raise 0x0101 s.lc.state dst 0 0))
    (hsecret : secretBase s.lc.state dst = none) : goTransition s dst 0 none = { s2 with
      lc := { s2.lc with go := true, statRefused := false, session := some {
        left := [], target := dst, origin := s.lc.state, path := 0, who := none, words := 0 } }
      sys := { s2.sys with drainStop := true } } := by
  subst hs2 hs1
  have blank : ((secretBase s.lc.state dst).map s.lc.blankSlot == some none) = false := by rw [hsecret]; rfl
  simp only [goTransition, hfault, goAccepted]
  exact if_neg (Bool.eq_false_iff.mp blank)

end

/-! ## LC.PROG (R327) -/

theorem lcProg_of_not_writer {w : Writer} (h : w ≠ .debug ∨ s.lc.state ≠ 0) (v : Nat) :
    lcProg w v s = s.denyWrite w 0x10010020 4 := by
  refine if_pos ?_
  rcases h with h | h <;> simp [h]

theorem lcProg_of_blank {v a n : Nat} (hst : s.lc.state = 0) (hv : bit v 4 = true) (hfield : progField (v % 16) = some (a, n))
    (hsession : s.lc.session = none) (hsag : s.sag.warning = false) (hblank : allZero (s.lc.otpBytes a n) = true) :
    lcProg .debug v s = { s with
      lc := { s.lc with token := zeros 16, statRefused := false, session := some {
        left := (List.range n).map (fun i => OtpStep.word (a + i) (BitVec.ofNat 32 (fieldLe s.lc.token (4 * i) 4))),
        target := 0x100, origin := 0, path := 0, who := none, words := 0 } } } := by
  have writer : ¬ (!(Writer.debug == Writer.debug && s.lc.state == 0)) = true := by simp [hst]
  rw [lcProg, if_neg writer, if_neg (by simp [hv])]
  simp only [hfield, hsession, hsag, hblank, hst, Option.isSome_none, Bool.not_true, Bool.false_eq_true, if_false]

/-! ## Sessions (R324, R325) -/

theorem otpWord_not_held (hsag : s.sag.warning = false) (hreset : s.sys.inReset = false) :
    ¬ (s.sag.warning = true ∨ s.sys.inReset = true) := by simp [hsag, hreset]

section
variable {x : Session} (hx : s.lc.session = some x)
include hx

/-- No word is programmed during a supply warning or in reset. -/
theorem otpWord_of_held (h : s.sag.warning = true ∨ s.sys.inReset = true) : otpWord s = s := by
  simp only [otpWord, hx, if_pos h]

variable (hsag : s.sag.warning = false) (hreset : s.sys.inReset = false)
include hsag hreset

theorem otpWord_of_left (hleft : x.left ≠ []) : otpWord s = programNext s x := by
  have begun : ¬ (x.words = 0 ∧ x.left = []) := fun h => hleft h.2
  simp only [otpWord, hx, if_neg (otpWord_not_held hsag hreset), if_neg begun]

/-- The words are fixed only once no other command is in flight. -/
theorem otpWord_of_not_drained (hwords : x.words = 0) (hleft : x.left = []) (h : ∃ c ∈ s.cmds, some c.place ≠ x.who) :
    otpWord s = s := by
  have waits : drained s x = false := by
    rw [drained, List.all_eq_false]
    obtain ⟨c, hc, other⟩ := h
    exact ⟨c, hc, by simpa using other⟩
  have fresh : x.words = 0 ∧ x.left = [] := ⟨hwords, hleft⟩
  simp only [otpWord, hx, if_neg (otpWord_not_held hsag hreset), if_pos fresh, waits, Bool.not_false, if_true]

end

theorem programNext_of_more {x : Session} {w : Nat} {v : BitVec 32} {y : OtpStep} {rest : List OtpStep}
    (h : x.left = .word w v :: y :: rest) : programNext s x =
      { s with lc := { s.lc.program w v with session := some { x with left := y :: rest, words := x.words + 1 } } } := by
  simp only [programNext, h, reduceCtorEq, if_false]

theorem programNext_of_last {x y : Session} {w : Nat} {v : BitVec 32} (h : x.left = [.word w v])
    (hy : y = { x with left := [], words := x.words + 1 }) :
    programNext s x = sessionDone { s with lc := { s.lc.program w v with session := some y } } y := by
  subst hy
  simp only [programNext, h, if_true]

theorem transitionReset_of_due (h : s.sys.lcResetDue = true) :
    transitionReset s = warmReset 0 { s with sys := { s.sys with lcResetDue := false } } := if_neg (by simp [h])

theorem transitionReset_of_idle (h : s.sys.lcResetDue = false) : transitionReset s = s := if_pos (by simp [h])

end

/-- Settles O37: GO splits on its first refusal, a session on its words. That LC_TRANSITION_RESET_TIMER changes nothing when no
reset is due is the model's choice (notes/assumptions/1.md). -/
theorem lifeCycleSessionsComplete : Obligations.LifeCycleSessionsComplete := by
  unfold Obligations.LifeCycleSessionsComplete
  refine ⟨?notWriter, ?target, ?fault, ?accepted, ?notProg, ?prog, ?held, ?more, ?last, ?undrained, ?word, ?reset, ?idle⟩
  case notWriter => exact fun s w v h => congrArg _ (lcGo_of_not_writer h v)
  case target => exact fun s w v h hv => congrArg _ (lcGo_of_no_go h hv)
  case fault =>
    intro s s1 v r h hv hs1 hfault hpath
    exact congrArg _ ((lcGo_of_debug h hv).trans (goTransition_of_fault hs1 hfault hpath))
  case accepted =>
    intro s s1 s2 v h hv hs1 hfault hs2 hsecret
    exact congrArg _ ((lcGo_of_debug h hv).trans (goTransition_of_sound hs1 hfault hs2 hsecret))
  case notProg => exact fun s w v h => congrArg _ (lcProg_of_not_writer h v)
  case prog =>
    intro s v a n hst hv hfield hsession hsag hblank
    exact congrArg _ (lcProg_of_blank hst hv hfield hsession hsag hblank)
  case held => exact fun s x hx h => congrArg Host.Outcome.next (otpWord_of_held hx h)
  case more =>
    intro s x w v y rest hx hsag hreset hleft
    exact congrArg _ ((otpWord_of_left hx hsag hreset (by simp [hleft])).trans (programNext_of_more hleft))
  case last =>
    intro s x y w v hx hsag hreset hleft hy
    exact congrArg _ ((otpWord_of_left hx hsag hreset (by simp [hleft])).trans (programNext_of_last hleft hy))
  case undrained =>
    exact fun s x hx hsag hreset hwords hleft h =>
      congrArg Host.Outcome.next (otpWord_of_not_drained hx hsag hreset hwords hleft h)
  case word =>
    intro l w v
    refine ⟨?_, fun u hu => ?_⟩
    · rw [LifeCycle.word_program, if_pos rfl]
    · rw [LifeCycle.word_program, if_neg hu]
  case reset => exact fun s h => congrArg _ (transitionReset_of_due h)
  case idle => exact fun s h => congrArg _ (transitionReset_of_idle h)

end Sys2Proof.Machine
end

section
/-! PROOFS. The check of a protection unit and its registers (R347 to R353). -/

namespace Sys2Proof.Machine

open Sys2Proof

section
variable {s : State} {u : Nat} {us : Bool} {a n : Nat}

/-! ## The refusals that come before any region (R348, R350) -/

theorem mpuCheck_of_not_mapped (k : AccKind) (h : touches mapped a n = false) : mpuCheck s u k us a n = some (1, 31) :=
  if_pos (by simp [h])

section
variable (hmap : touches mapped a n = true)
include hmap

theorem mpuCheck_write_keyStore (h : touches inKeyStore a n = true) : mpuCheck s u .write us a n = some (6, 31) := by
  rw [mpuCheck, if_neg (by simp [hmap]), if_pos (by simp [h])]

theorem mpuCheck_write_records (hkey : touches inKeyStore a n = false)
    (h : touches (fun x => inRecords x || inStepCache x) a n = true) : mpuCheck s u .write us a n = some (5, 31) := by
  rw [mpuCheck, if_neg (by simp [hmap]), if_neg (by simp [hkey]), if_pos (by simp [h])]

theorem mpuCheck_fetch_mram (h : touches inMram a n = true) : mpuCheck s u .fetch us a n = some (5, 31) := by
  rw [mpuCheck, if_neg (by simp [hmap]), if_neg (by simp), if_neg (by simp), if_pos (by simp [h])]

end

/-! ## No region enabled: the default map decides (R347) -/

/-- A region that is not enabled holds no address. -/
theorem Region.holds_of_not_en {r : Region} (h : r.en = false) (x : Nat) : r.holds x = false := by
  simp [Region.holds, Region.enabled, h]

section
variable (hmap : touches mapped a n = true) (hen : ∀ i < 16, ((s.unit u).region (s.unit u).active i).en = false)

/-- The verdict of the default map on a read that no region decides. -/
def defaultVerdict (s : State) (u : Nat) (us : Bool) (a n : Nat) : Option (Nat × Nat) :=
  if us && decide (u ≤ 3) then some (2, 31)
  else match entryAt (defaultMap s u) a with
    | none => some (2, 31)
    | some e => if !within (a + n - 1) e.1 e.2.1 then some (2, 31) else if e.2.2.r then none else some (5, 31)

include hmap hen

theorem mpuCheck_read_of_no_region : mpuCheck s u .read us a n = defaultVerdict s u us a n := by
  have no_start : ((List.range 16).map (fun i => (s.unit u).region (s.unit u).active i)).find? (fun r => r.holds a) = none := by
    simpa using fun i hi => Region.holds_of_not_en (hen i hi) a
  have no_touch : ((List.range 16).map (fun i => (s.unit u).region (s.unit u).active i)).any (fun r => touches r.holds a n)
      = false := by
    rw [List.any_eq_false]
    intro r hr
    obtain ⟨i, hi, rfl⟩ := List.mem_map.mp hr
    simp [touches, Region.holds_of_not_en (hen i (List.mem_range.mp hi))]
  rw [mpuCheck, if_neg (by simp [hmap]), if_neg (by simp), if_neg (by simp), if_neg (by simp)]
  simp only [no_start, no_touch, Bool.false_eq_true, if_false]
  rfl

theorem mpuCheck_read_user (hus : us = true) (hu : u ≤ 3) : mpuCheck s u .read us a n = some (2, 31) :=
  (mpuCheck_read_of_no_region hmap hen).trans (if_pos (by simp [hus, hu]))

variable (hus : us = false)
include hus

theorem mpuCheck_read_no_entry (h : entryAt (defaultMap s u) a = none) : mpuCheck s u .read us a n = some (2, 31) := by
  rw [mpuCheck_read_of_no_region hmap hen, defaultVerdict, if_neg (by simp [hus]), h]

theorem mpuCheck_read_entry {e : MapEnt} (h : entryAt (defaultMap s u) a = some e)
    (hlast : within (a + n - 1) e.1 e.2.1 = true) (hr : e.2.2.r = true) : mpuCheck s u .read us a n = none := by
  rw [mpuCheck_read_of_no_region hmap hen, defaultVerdict, if_neg (by simp [hus]), h]
  simp [hlast, hr]

end

/-- SCRAPPED leaves only the debug master a map. -/
theorem defaultMap_of_scrapped (hu : u ≤ 9) (h : s.lc.state = 0x60) : defaultMap s u = [] := by
  rw [defaultMap, if_neg (by omega), if_pos h]

/-! ## The registers of the units (R352, R353) -/

theorem mpuWriter_of_not_priv {w : Writer} (h : Writer.priv w = false) (i addr : Nat) (f : State → State) :
    mpuWriter w i addr s f = s.denyWrite w addr 4 := if_pos (by simp [h])

theorem mpuWriter_of_priv (c : Nat) {i : Nat} (h : i ≤ 11) (addr : Nat) (f : State → State) :
    mpuWriter (.steward c true) i addr s f = f s := by
  rw [mpuWriter, if_neg (by simp [Writer.priv]), if_neg (by omega)]

section
variable (c : Nat) {i : Nat} (hi : i ≤ 11)
include hi

theorem mpuSwap_of_unlocked (h : (s.unit i).lock = false) : mpuSwap (.steward c true) i s =
    s.modUnitReg i (fun m => { m with active := 1 - m.active }) :=
  (mpuWriter_of_priv c hi _ _).trans (if_neg (by simp [h]))

theorem mpuSwap_of_locked (h : (s.unit i).lock = true) : mpuSwap (.steward c true) i s = mpuRefuse s i (mpuAddr i 0) :=
  (mpuWriter_of_priv c hi _ _).trans (if_pos h)

end

/-- A region register's address names one of the twelve units. -/
theorem regionOf_unit_le {i set r field : Nat} (h : regionOf a = some (i, set, r, field)) : i ≤ 11 := by
  simp only [regionOf, Bool.and_eq_true, decide_eq_true_eq, Option.ite_none_right_eq_some, Option.some.injEq, Prod.mk.injEq] at h
  omega

section
variable (c v : Nat) {i set r field : Nat} (ha : regionOf a = some (i, set, r, field))
include ha

theorem regionWrite_of_inactive (hlock : (s.unit i).lock = false) (hset : set ≠ (s.unit i).active) :
    regionWrite (.steward c true) a v s = s.modUnitReg i (fun m => { m with
      regions := (m.region set r).set_ field v :: m.regions.filter (fun x => !(x.set == set && x.idx == r)) }) := by
  simp only [regionWrite, ha, mpuWriter_of_priv c (regionOf_unit_le ha)]
  exact if_neg (by simp [hlock, hset])

theorem regionWrite_of_refused (h : (s.unit i).lock = true ∨ set = (s.unit i).active) :
    regionWrite (.steward c true) a v s = mpuRefuse s i a := by
  simp only [regionWrite, ha, mpuWriter_of_priv c (regionOf_unit_le ha), if_pos h]

end

end

/-- Settles O39: the refusals of R348 come before any region is searched, as does an address outside the map; that the causes 6
and 5 are shown with no region is notes/assumptions/51.md. With no region enabled the check is that of the default map. -/
theorem protectionUnitCheck : Obligations.ProtectionUnitCheck := by
  unfold Obligations.ProtectionUnitCheck
  refine ⟨?keyStore, ?records, ?mram, ?outside, ?default, ?scrapped⟩
  case keyStore => exact fun s u us a n hmap h => mpuCheck_write_keyStore hmap h
  case records => exact fun s u us a n hmap hkey h => mpuCheck_write_records hmap hkey h
  case mram => exact fun s u us a n hmap h => mpuCheck_fetch_mram hmap h
  case outside => exact fun s u k us a n h => mpuCheck_of_not_mapped k h
  case default =>
    intro s u us a n hmap hen
    exact ⟨mpuCheck_read_user hmap hen, mpuCheck_read_no_entry hmap hen, fun e hus h hlast hr => mpuCheck_read_entry hmap hen hus h hlast hr⟩
  case scrapped => exact fun s u hu h => defaultMap_of_scrapped hu h

/-- Settles O40: privileged steward code reaches the twelve units, and the lock and the active set refuse. -/
theorem protectionUnitRegistersComplete : Obligations.ProtectionUnitRegistersComplete := by
  unfold Obligations.ProtectionUnitRegistersComplete
  refine ⟨?privileged, ?denied, ?region⟩
  case privileged =>
    intro s c i hi
    refine ⟨fun h => ?swap, fun h => ?refused, ?lock⟩
    case swap => exact congrArg _ (mpuSwap_of_unlocked c hi h)
    case refused => exact congrArg _ (mpuSwap_of_locked c hi h)
    case lock => exact congrArg _ (mpuWriter_of_priv c hi _ _)
  case denied =>
    intro s w i h
    exact ⟨congrArg _ (mpuWriter_of_not_priv h _ _ _), congrArg _ (mpuWriter_of_not_priv h _ _ _)⟩
  case region =>
    intro s c a v i set r field ha
    refine ⟨fun hlock hset => ?written, fun hlock => ?locked, fun hset => ?active⟩
    case written => exact congrArg _ (regionWrite_of_inactive c v ha hlock hset)
    case locked => exact congrArg _ (regionWrite_of_refused c v ha (.inl hlock))
    case active => exact congrArg _ (regionWrite_of_refused c v ha (.inr hset))

end Sys2Proof.Machine
end

section
/-! PROOFS. Tamper inputs, the battery domain and supply warnings (R358 to R370). -/

namespace Sys2Proof.Machine

open Sys2Proof

section
variable {s : State}

/-! ## A sample and its onsets (R358, R359, R362) -/

/-- While a ZEROISE condition stays present, the battery secret is cleared again (R362). -/
def clearedWhileLive (s : State) : State :=
  if zeroiseLive s then { s with tmp := { s.tmp with secret := none } } else s

section
variable {s1 : State} {r : TamperReading}
  (hs1 : s1 = { s with tmp := { sampleCounts s.tmp r with live := sampleLive (sampleCounts s.tmp r) } })
  (hlog : respond s1 (s1.tmp.live &&& ~~~s.tmp.live) false = [])
include hs1 hlog

/-- Without a LOG onset a sample ends with the one zeroisation of its ZEROISE onsets. -/
theorem tamperSample_of_no_log : tamperSample r s =
    clearedWhileLive (if respond s1 (s1.tmp.live &&& ~~~s.tmp.live) true = [] then s1
      else zeroise (maskOf (respond s1 (s1.tmp.live &&& ~~~s.tmp.live) true)) s1) := by
  subst hs1
  simp only [tamperSample, hlog, List.foldl_nil]
  rfl

theorem tamperSample_of_quiet (hzero : respond s1 (s1.tmp.live &&& ~~~s.tmp.live) true = []) :
    tamperSample r s = clearedWhileLive s1 := by
  rw [tamperSample_of_no_log hs1 hlog, if_pos hzero]

theorem tamperSample_of_zeroise (hzero : respond s1 (s1.tmp.live &&& ~~~s.tmp.live) true ≠ []) :
    tamperSample r s = clearedWhileLive (zeroise (maskOf (respond s1 (s1.tmp.live &&& ~~~s.tmp.live) true)) s1) := by
  rw [tamperSample_of_no_log hs1 hlog, if_neg hzero]

end

theorem clearedWhileLive_of_none (h : zeroiseLive s = false) : clearedWhileLive s = s := if_neg (by simp [h])

theorem clearedWhileLive_of_live (h : zeroiseLive s = true) :
    clearedWhileLive s = { s with tmp := { s.tmp with secret := none } } := if_pos h

/-! ## The comparators (Table 16.1) and zeroisation (R361) -/

theorem comparatorTrip_of_onset {i : Nat} (hon : comparatorOn s i = true) (hlive : s.tmp.live.getLsbD i = false) (hi : i ≠ 11)
    (lost : Bool) : comparatorTrip i lost s =
      zeroise (maskOf [i]) { s with tmp := { s.tmp with live := s.tmp.live ||| maskOf [i] } } := by
  simp only [comparatorTrip, hon, hlive, if_neg hi, Bool.not_true, Bool.false_eq_true, if_false]

/-- The clock input records the fault before it responds (R30). -/
theorem comparatorTrip_of_clock_onset (hon : comparatorOn s 11 = true) (hlive : s.tmp.live.getLsbD 11 = false) {s1 : State}
    {lost : Bool} (hs1 : s1 = clockFault s lost) : comparatorTrip 11 lost s =
      zeroise (maskOf [11]) { s1 with tmp := { s1.tmp with live := s1.tmp.live ||| maskOf [11] } } := by
  subst hs1
  rw [comparatorTrip, if_neg (by simp [hon])]
  simp only [if_true, hlive, Bool.false_eq_true, if_false]

theorem zeroise_of_onVbat (h : s.tmp.onVbat = true) (m : BitVec 15) : zeroise m s = { s with tmp := { s.tmp with
    secret := none, due := true, latch := s.tmp.latch ||| m
    ltime := if s.tmp.latch = 0 then batTime s else s.tmp.ltime } } := by
  simp only [zeroise, h, if_true]
  rfl

theorem zeroise_due (m : BitVec 15) : (zeroise m s).tmp.due = true := by simp only [zeroise, latchInputs]

theorem holdRelease_of_none (h : sampledLive s = false) : holdRelease s = (({ s with
    tmp := { s.tmp with live := s.tmp.live &&& ~~~0x7500#15 }
    sys := { s.sys with refOk := s.sys.refOk || s.tmp.live.getLsbD 11 } } : State).advance) := if_neg (by simp [h])

theorem holdRelease_of_sampledLive (h : sampledLive s = true) : holdRelease s = s := if_pos h

/-- VBAT_ERASE, input 14, is checked on VBAT and clears the battery secret there. -/
theorem comparatorTrip_vbatErase_secret (hvbat : s.tmp.onVbat = true) (hlive : s.tmp.live.getLsbD 14 = false) (lost : Bool) :
    (comparatorTrip 14 lost s).tmp.secret = none := by
  have on14 : comparatorOn s 14 = true := hvbat
  rw [comparatorTrip_of_onset on14 hlive (by decide), zeroise_of_onVbat]
  exact hvbat

/-! ## The battery voltage (R365) -/

theorem vbatMeasure_of_onVbat (h : s.tmp.onVbat = true) (mv : Nat) : vbatMeasure mv s = s := if_pos h

section
variable (hvbat : s.tmp.onVbat = false) {mv : Nat}
include hvbat

theorem vbatMeasure_of_onset (hmv : mv < 1800) (hlow : s.tmp.batLow = false) : vbatMeasure mv s = (({ s with
    tmp := { s.tmp with vbatMv := min mv 4095, batLow := true } } : State).cause 7).raise 0x0206 mv 0 0 0 := by
  rw [vbatMeasure, if_neg (by simp [hvbat])]
  simp only [if_pos hmv, hlow, Bool.false_eq_true, if_false]

theorem vbatMeasure_of_cleared (hmv : 1850 < mv) :
    vbatMeasure mv s = { s with tmp := { s.tmp with vbatMv := min mv 4095, batLow := false } } := by
  rw [vbatMeasure, if_neg (by simp [hvbat])]
  simp only [if_neg (show ¬ mv < 1800 by omega), if_pos hmv]

/-- Between the thresholds, and below them with the alert in force, only the figure changes. -/
theorem vbatMeasure_of_unchanged (hmv : mv ≤ 1850) (h : 1800 ≤ mv ∨ s.tmp.batLow = true) :
    vbatMeasure mv s = { s with tmp := { s.tmp with vbatMv := min mv 4095 } } := by
  rw [vbatMeasure, if_neg (by simp [hvbat])]
  by_cases low : mv < 1800
  · have alert : s.tmp.batLow = true := h.resolve_left (by omega)
    simp only [if_pos low, alert, if_true]
  · simp only [if_neg low, if_neg (show ¬ mv > 1850 by omega)]

end

theorem b2n_lt_two (b : Bool) : b2n b < 2 := by cases b <;> decide

theorem decide_b2n_eq_one (b : Bool) : decide (b2n b = 1) = b := by cases b <;> decide

/-- The bit of a register that shows a flag: it is the flag when that part of the value is. -/
theorem bit_eq_of_div_mod {x n : Nat} {b : Bool} (h : x / 2 ^ n % 2 = b2n b) : bit x n = b := by
  rw [bit, Nat.testBit_eq_decide_div_mod_eq, h, decide_b2n_eq_one]

/-- TMP.VBAT shows the alert in bit 12. -/
theorem tmpVbat_batLow (s : State) : bit (regRead s 0x10030024) 12 = s.tmp.batLow := by
  refine bit_eq_of_div_mod ?_
  have flag := b2n_lt_two s.tmp.batLow
  change pack [(s.tmp.vbatMv, 0, 12), fl s.tmp.batLow 12, fl s.tmp.wasOnVbat 13] / 2 ^ 12 % 2 = _
  simp only [pack, fl, List.map_cons, List.map_nil, List.sum_cons, List.sum_nil]
  omega

/-- HST.STATUS shows the alert in bit 7 of the physical function's view. -/
theorem hstStatus_batLow (s : State) : bit (hstStatus s 0) 7 = s.tmp.batLow := by
  refine bit_eq_of_div_mod ?_
  have flag := b2n_lt_two s.tmp.batLow
  simp only [hstStatus, ne_eq, not_true_eq_false, if_false, pack, fl, List.map_cons, List.map_nil, List.sum_cons, List.sum_nil]
  omega

/-! ## Supply warnings (R368 to R370) -/

section
variable {rails : BitVec 3} (hr : rails ≠ 0)
include hr

theorem sagWarning_of_warning (h : s.sag.warning = true) :
    sagWarning rails s = { s with sag := { s.sag with warn := s.sag.warn ||| rails } } := by
  simp only [sagWarning, if_neg hr, h, if_true]

theorem sagWarning_of_onset (h : s.sag.warning = false) :
    sagWarning rails s = warningOnset rails.toNat { s with sag := { s.sag with warn := s.sag.warn ||| rails } } := by
  simp only [sagWarning, if_neg hr, h, Bool.false_eq_true, if_false]

end

theorem pfailAssert_of_onset {p : Pin} (hen : s.sag.pfailEn = true) (hp : p ∈ s.iom.pins) (hgrant : p.granted = 3)
    (h : s.sag.warning = false) : pfailAssert s = warningOnset 8 { s with sag := { s.sag with pfail := true } } := by
  have granted : s.iom.pins.any (fun q => q.granted == 3) = true := List.any_eq_true.mpr ⟨p, hp, by simp [hgrant]⟩
  simp only [pfailAssert, hen, granted, h, Bool.not_true, Bool.false_eq_true, or_self, if_false]

theorem warningClear_of_warning (h : s.sag.warning = true) {us : Nat} {s1 : State}
    (hs1 : s1 = (({ s with sag := { s.sag with
      warn := 0, pfail := false, warning := false, lastWarn := min us 0xFFFFFFFF } } : State).raise 0x0302
        (min us 0xFFFFFFFF) (s.sag.warn.toNat + 8 * b2n s.sag.pfail) 0 0)) :
    warningClear us s = (teardownAdvance (applyWaiting s1.lk.rxWait.length s1)).advance := by
  subst hs1
  exact if_neg (by simp [h])

theorem warningClear_of_none (h : s.sag.warning = false) (us : Nat) : warningClear us s = s := if_pos (by simp [h])

end

/-- Settles O26: each operation by its onset. That SAG_WARNING_CLEAR without a warning changes nothing is the model's choice
(notes/assumptions/1.md). -/
theorem tamperAndSupplyComplete : Obligations.TamperAndSupplyComplete := by
  unfold Obligations.TamperAndSupplyComplete
  refine ⟨?quiet, ?onset, ?comparator, ?clock, ?vbat, ?due, ?released, ?held, ?powerOn, ?switched, ?measured, ?again, ?warned,
    ?pfail, ?cleared, ?unwarned, ?thermal⟩
  case quiet =>
    intro s s1 r hs1 hlog hzero
    have sample := tamperSample_of_quiet hs1 hlog hzero
    exact ⟨fun h => congrArg _ (sample.trans (clearedWhileLive_of_none h)),
      fun h => congrArg _ (sample.trans (clearedWhileLive_of_live h))⟩
  case onset =>
    intro s s1 s3 r hs1 hlog hzero hs3
    have sample := tamperSample_of_zeroise hs1 hlog hzero
    rw [← hs3, clearedWhileLive] at sample
    exact congrArg Host.Outcome.next sample
  case comparator => exact fun s i lost hon hlive hi => congrArg _ (comparatorTrip_of_onset hon hlive hi lost)
  case clock => exact fun s s1 lost hon hlive hs1 => congrArg _ (comparatorTrip_of_clock_onset hon hlive hs1)
  case vbat => exact fun s m h => zeroise_of_onVbat h m
  case due => exact fun s m => zeroise_due m
  case released => exact fun s h => congrArg _ (holdRelease_of_none h)
  case held => exact fun s h => congrArg Host.Outcome.next (holdRelease_of_sampledLive h)
  case powerOn => exact fun _ => rfl
  case switched =>
    intro s
    refine ⟨?_, ?_⟩
    · change Host.Outcome.next (supplySwitch true s) = _
      simp only [supplySwitch, Bool.or_true, if_true]
    · change Host.Outcome.next (supplySwitch false s) = _
      simp only [supplySwitch, Bool.or_false, Bool.false_eq_true, if_false]
  case measured =>
    intro s mv hvbat
    exact ⟨fun hmv hlow => congrArg _ (vbatMeasure_of_onset hvbat hmv hlow),
      fun hmv => congrArg _ (vbatMeasure_of_cleared hvbat hmv),
      fun hlo hhi => congrArg _ (vbatMeasure_of_unchanged hvbat hhi (.inl hlo))⟩
  case again => exact fun s r hr h => congrArg _ (sagWarning_of_warning hr h)
  case warned => exact fun s r hr h => congrArg _ (sagWarning_of_onset hr h)
  case pfail => exact fun s p hen hp hgrant h => congrArg _ (pfailAssert_of_onset hen hp hgrant h)
  case cleared => exact fun s s1 us h hs1 => congrArg _ (warningClear_of_warning h hs1)
  case unwarned => exact fun s us h => congrArg Host.Outcome.next (warningClear_of_none h us)
  case thermal => exact fun _ _ => rfl

/-- Settles O59: the alert by its two thresholds, its place in TMP.VBAT and HST.STATUS, and input 14 on VBAT. -/
theorem batteryAlert : Obligations.BatteryAlert := by
  unfold Obligations.BatteryAlert
  refine ⟨?low, ?clear, ?between, ?shown, ?onVbat, ?erase⟩
  case low => exact fun s mv hvbat hmv hlow => congrArg _ (vbatMeasure_of_onset hvbat hmv hlow)
  case clear => exact fun s mv hvbat hmv => congrArg _ (vbatMeasure_of_cleared hvbat hmv)
  case between => exact fun s mv hvbat hmv h => congrArg _ (vbatMeasure_of_unchanged hvbat hmv h)
  case shown => exact fun s => ⟨tmpVbat_batLow s, hstStatus_batLow s⟩
  case onVbat => exact fun s mv h => congrArg Host.Outcome.next (vbatMeasure_of_onVbat h mv)
  case erase =>
    intro s t l hvbat hlive ht
    obtain rfl : comparatorTrip 14 l s = t := Host.Outcome.next.inj ht
    exact comparatorTrip_vbatErase_secret hvbat hlive l

end Sys2Proof.Machine
end

section
/-! PROOFS. Online self-test (R376 to R381, R393). -/

namespace Sys2Proof.Machine

open Sys2Proof

section
variable {s : State} {i : Nat}

/-! ## The start of a pick (R378, R383) -/

/-- The period's request or walk, once the requests that can no longer be served are dropped. -/
def periodPick (s1 : State) (i : Nat) : State :=
  match (s1.slot i).reqs with
  | r :: rest => startPick (s1.modSlot i (fun x => { x with reqs := rest })) i r.1 r.2.1 true r.2.2.1 r.2.2.2
  | [] =>
    match walkFrom s1 i with
    | none => s1
    | some (p, u) => startPick (s1.modSlot i (fun x => { x with walkPick := p, walkUnit := u })) i u p false 0 none

theorem slotPeriod_of_free (hi : i < 2) (hstep : 13 ≤ s.sys.step) (hreset : s.sys.inReset = false)
    (hon : s.bist.enable = true) (hfree : (s.slot i).phase = 0) (hheld : picksHeld s = false) :
    slotPeriod i s = periodPick (dropRequests s i ((s.slot i).reqs.length)) i := by
  have starts : ¬ (i ≥ 2 ∨ s.sys.step < 13 ∨ s.sys.inReset = true ∨ (!s.bist.enable) = true ∨ (s.slot i).phase ≠ 0 ∨
      picksHeld s = true) := by
    simp [hreset, hon, hfree, hheld]
    omega
  rw [slotPeriod, if_neg starts]
  rfl

theorem periodPick_of_request {u p k : Nat} {who : Option Place} {rest : List (Nat × Nat × Nat × Option Place)}
    (h : (s.slot i).reqs = (u, p, k, who) :: rest) :
    periodPick s i = startPick (s.modSlot i (fun x => { x with reqs := rest })) i u p true k who := by
  simp only [periodPick, h]

theorem periodPick_of_walk {p u : Nat} (h : (s.slot i).reqs = []) (hwalk : walkFrom s i = some (p, u)) :
    periodPick s i = startPick (s.modSlot i (fun x => { x with walkPick := p, walkUnit := u })) i u p false 0 none := by
  simp only [periodPick, h, hwalk]

theorem slotPeriod_of_held (h : picksHeld s = true) (i : Nat) : slotPeriod i s = s := if_pos (by simp [h])

theorem bistRequest_of_not_priv {w : Writer} (h : Writer.priv w = false) (v : Nat) :
    bistRequest w v s = s.denyWrite w 0x10100010 4 := if_pos (by simp [h])

theorem bistRequest_of_room {v : Nat} (c : Nat) (hv : bit v 12 = true) (hu : v % 256 ≤ 175)
    (hroom : (s.slot (slotOf (v % 256))).reqs.length < 8) :
    bistRequest (.steward c true) v s = requestPick s (v % 256) (v / 256 % 16) 0 none := by
  rw [bistRequest, if_neg (by simp [Writer.priv])]
  refine if_neg ?_
  simp only [hv, Bool.not_true, Bool.false_eq_true, false_or]
  omega

/-! ## From isolation to the verdict (R379 to R381) -/

section
variable (hi : i < 2) (hphase : (s.slot i).phase = 1)
include hi hphase

theorem bistIdle_of_idle (hidle : unitIdle s (s.slot i).unit = true) : bistIdle i s =
    if unitKind (s.slot i).unit = 2 then
      (s.modSlot i (fun y => { y with phase := 2 })).modTreadle ((s.slot i).unit - 160)
        (fun t => { Treadle.reset with draining := t.draining })
    else s.modSlot i (fun y => { y with phase := 2 }) := by
  have isolating : ¬ (i ≥ 2 ∨ (s.slot i).phase ≠ 1 ∨ (!unitIdle s (s.slot i).unit) = true) := by
    simp [hphase, hidle]
    omega
  rw [bistIdle, if_neg isolating]

/-- A walk's pick that meets a busy unit is postponed: the unit is given back and no request is kept. -/
theorem isolateTimeout_of_walk {s1 s2 : State} {x : Slot} (hx : x = s.slot i) (hbusy : unitIdle s x.unit = false)
    (hwalk : x.requested = false) (hfirst : x.repeat_ = false)
    (hs1 : s1 = (giveUnit s x.unit 0).raise 0x0506 x.unit x.pick s.bist.isolate 0)
    (hs2 : s2 = s1.modSlot i (fun y => { y with
      phase := 0, who := none, requested := false, repeat_ := false, bnCause := false })) :
    isolateTimeout i s = answerPick { s2 with bist := { s2.bist with skips := (s2.bist.skips + 1) % 2 ^ 32 } } x 4 := by
  subst hs2 hs1 hx
  have isolating : ¬ (i ≥ 2 ∨ (s.slot i).phase ≠ 1 ∨ unitIdle s (s.slot i).unit = true) := by
    simp [hphase, hbusy]
    omega
  rw [isolateTimeout, if_neg isolating]
  simp only [hwalk, hfirst, Bool.false_and, Bool.false_eq_true, if_false]

end

theorem patternsDone_of_running (hi : i < 2) (hphase : (s.slot i).phase = 2) (m : Nat) : patternsDone i m s =
    if m = Config.bistSignature (unitKind (s.slot i).unit) (s.slot i).pick then s.modSlot i (fun y => { y with phase := 3 })
    else failPick s i m := by
  refine if_neg ?_
  simp only [hphase, ne_eq, not_true_eq_false, or_false]
  omega

theorem unitRestored_of_testing (hi : i < 2) (hphase : (s.slot i).phase = 3) (kat : Bool) : unitRestored i kat s =
    if kat = true then passPick s i
    else failPick s i (Config.bistSignature (unitKind (s.slot i).unit) (s.slot i).pick) := by
  have testing : ¬ (i ≥ 2 ∨ ((s.slot i).phase ≠ 3 ∧ (s.slot i).phase ≠ 4)) := by
    simp only [hphase, ne_eq, not_true_eq_false, false_and, or_false]
    omega
  rw [unitRestored, if_neg testing]
  cases kat
  · rfl
  · exact if_pos hphase

end

/-- Settles O42: the start of a period, then one lemma for each phase of a pick. -/
theorem selfTestComplete : Obligations.SelfTestComplete := by
  unfold Obligations.SelfTestComplete
  refine ⟨?period, ?held, ?request, ?denied, ?idle, ?postponed, ?patterns, ?restored⟩
  case period =>
    intro s s1 i hi hstep hreset hon hfree hheld hs1
    have period := slotPeriod_of_free hi hstep hreset hon hfree hheld
    rw [← hs1] at period
    exact ⟨fun u p k who rest h => congrArg _ (period.trans (periodPick_of_request h)),
      fun p u h hwalk => congrArg _ (period.trans (periodPick_of_walk h hwalk))⟩
  case held => exact fun s i h => congrArg Host.Outcome.next (slotPeriod_of_held h i)
  case request => exact fun s c v hv hu hroom => congrArg _ (bistRequest_of_room c hv hu hroom)
  case denied => exact fun s w v h => congrArg _ (bistRequest_of_not_priv h v)
  case idle =>
    intro s i hi hphase hidle
    have idle := bistIdle_of_idle hi hphase hidle
    exact ⟨fun h => congrArg _ (idle.trans (if_neg h)), fun h => congrArg _ (idle.trans (if_pos h))⟩
  case postponed =>
    intro s s1 s2 i x hi hx hphase hbusy hwalk hfirst hs1 hs2
    rw [hx] at hphase
    exact congrArg _ (isolateTimeout_of_walk hi hphase hx hbusy hwalk hfirst hs1 hs2)
  case patterns =>
    intro s i m hi hphase
    have done := patternsDone_of_running hi hphase m
    exact ⟨fun h => congrArg _ (done.trans (if_pos h)), fun h => congrArg _ (done.trans (if_neg h))⟩
  case restored =>
    intro s i hi hphase
    exact ⟨congrArg _ (unitRestored_of_testing hi hphase true), congrArg _ (unitRestored_of_testing hi hphase false)⟩

end Sys2Proof.Machine
end

section
/-! PROOFS. The event recorder and the SMBus target (R384 to R387, R418, R419). -/

namespace Sys2Proof.Machine

open Sys2Proof

section
variable {s : State}

/-! ## The recorder (R384 to R387) -/

theorem eventRecord_of_empty (h : s.evr.buffer = []) : eventRecord s = s := by simp only [eventRecord, h]

theorem eventRecord_of_oldest {s1 : State} {e : Ev} {rest : List Ev} (hbuf : s.evr.buffer = e :: rest)
    (hon : recorderOn s = true)
    (hs1 : s1 = writeEvent { s with evr := { s.evr with buffer := rest, waiting := s.evr.waiting - 1 } } e)
    (hlost : s1.evr.lostNow = 0) : eventRecord s = s1 := by
  subst hs1
  simp only [eventRecord, hbuf, hon, Bool.not_true, Bool.false_eq_true, if_false, if_pos hlost]

theorem writeEvent_of_full (h : s.evr.full = true) (e : Ev) :
    writeEvent s e = ringTake { s with evr := { s.evr with lost := (s.evr.lost + 1) % 2 ^ 32 } } e false := if_pos h

/-- Taking a token leaves the log as it is. -/
theorem takeToken_log (s : State) (code : Nat) : (takeToken s code).1.evr.log = s.evr.log := by
  simp only [takeToken]
  split
  · rfl
  · split <;> rfl

section
variable {e : Ev} (hfull : s.evr.full = false)
include hfull

/-- A code without a token left is suppressed: only its repeat count and the ring see it (R386). -/
theorem writeEvent_of_no_token (h : (takeToken s e.code).2 = false) :
    writeEvent s e = ringTake (bumpRepeat (takeToken s e.code).1 e.code) e true := by
  rw [writeEvent, if_neg (by simp [hfull])]
  cases htake : takeToken s e.code with
  | mk t ok =>
    obtain rfl : ok = false := by rwa [htake] at h
    rfl

theorem writeEvent_of_token (hroom : s.evr.log.length < 65535) (h : (takeToken s e.code).2 = true) :
    writeEvent s e = ringTake (appendLog (takeToken s e.code).1 e) e false := by
  have log := takeToken_log s e.code
  rw [writeEvent, if_neg (by simp [hfull])]
  cases htake : takeToken s e.code with
  | mk t ok =>
    obtain rfl : ok = true := by rwa [htake] at h
    rw [htake] at log
    simp only [Bool.not_true, Bool.false_eq_true, if_false]
    exact if_neg (by rw [log]; omega)

end

/-- Operating time is stored while the recorder can write MRAM (R385). -/
theorem optimeStore_of_written {s1 : State} (hs1 : s1 = s.timeAtLeast (s.evr.stored + 1000)) (hrec : s1.powered 35 = true)
    (hmram : s1.powered 34 = true) (hsag : s1.sag.warning = false) :
    optimeStore s = { s1 with evr := { s1.evr with stored := s1.evr.optime } } := by
  subst hs1
  exact if_pos (by rw [hrec, hmram, hsag]; rfl)

/-! ## The management bus (R418, R419) -/

theorem smbAnswer_of_up (h : smbUp s = true) (data : Bytes) : smbAnswer s data = s.send (.smb data) := if_pos h

theorem smbAnswer_of_down (h : smbUp s = false) (data : Bytes) : smbAnswer s data = s.send .smbNack := if_neg (by simp [h])

/-- From step 7 a violation is logged. -/
theorem smbViolation_of_recorder (hstep : 7 ≤ s.sys.step) (hrec : s.powered 35 = true) (code : Nat) :
    smbViolation s code = s.raise code 0 0 0 0 := if_pos (by simp [hstep, hrec])

section
variable (hup : smbUp s = true) {cmd : Nat}
include hup

theorem smbViolates_of_unknown (h : cmd ∉ smbCommands) (b : BusAct) :
    smbViolates cmd b s = smbViolation (s.send .smbNack) 0x0B20 :=
  (if_neg (by simp [hup])).trans (if_pos (by simp [h]))

theorem smbViolates_of_known (h : cmd ∈ smbCommands) :
    smbViolates cmd .write s = smbViolation (s.send .smbNack) 0x0B21 ∧
    smbViolates cmd .readPast s = smbViolation (s.send (.smb [0xFF#8])) 0x0B23 := by
  have known : ¬ (!smbCommands.contains cmd) = true := by simp [h]
  exact ⟨(if_neg (by simp [hup])).trans (if_neg known), (if_neg (by simp [hup])).trans (if_neg known)⟩

end

end

/-- Settles O43: the recorder by the state of its log, the bus by whether its target is up. That the violations 0x0B20 to 0x0B23
have zero parameters is notes/assumptions/11.md, that OPTIME_STORE moves operating time notes/assumptions/55.md, and that
EVENT_RECORD on an empty buffer changes nothing notes/assumptions/1.md. -/
theorem recorderAndManagementBusComplete : Obligations.RecorderAndManagementBusComplete := by
  unfold Obligations.RecorderAndManagementBusComplete
  refine ⟨?oldest, ?empty, ?token, ?noToken, ?full, ?stored, ?up, ?down, ?timeout, ?unknown, ?known⟩
  case oldest => exact fun s s1 e rest hbuf hon hs1 hlost => congrArg Host.Outcome.next (eventRecord_of_oldest hbuf hon hs1 hlost)
  case empty => exact fun s h => congrArg Host.Outcome.next (eventRecord_of_empty h)
  case token => exact fun s e hfull hroom h => writeEvent_of_token hfull hroom h
  case noToken => exact fun s e hfull h => writeEvent_of_no_token hfull h
  case full => exact fun s e h => writeEvent_of_full h e
  case stored =>
    intro s s1 hreset hs1 hrec hmram hsag
    exact congrArg _ ((if_neg (by simp [hreset])).trans (optimeStore_of_written hs1 hrec hmram hsag))
  case up =>
    intro s hup
    have answer (data : Bytes) : (.next (smbAnswer s data) : Outcome) = .next (s.send (.smb data)) :=
      congrArg _ (smbAnswer_of_up hup data)
    exact ⟨answer _, answer _, answer _, answer _, answer _, answer _, answer _,
      fun h => congrArg _ (if_pos (by simp [hup, h])), fun h => congrArg _ (if_neg (by simp [h]))⟩
  case down =>
    intro s hdown
    have nack (data : Bytes) : (.next (smbAnswer s data) : Outcome) = .next (s.send .smbNack) :=
      congrArg _ (smbAnswer_of_down hdown data)
    exact ⟨nack _, nack _, nack _, nack _, nack _, nack _, nack _, congrArg _ (if_neg (by simp [hdown]))⟩
  case timeout => exact fun s hstep hrec => congrArg _ (smbViolation_of_recorder hstep hrec 0x0B22)
  case unknown =>
    intro s cmd b hup hstep hrec h
    exact congrArg _ ((smbViolates_of_unknown hup h b).trans (smbViolation_of_recorder (s := s.send .smbNack) hstep hrec 0x0B20))
  case known =>
    intro s cmd hup hstep hrec h
    obtain ⟨written, past⟩ := smbViolates_of_known hup h
    exact ⟨congrArg _ (written.trans (smbViolation_of_recorder (s := s.send .smbNack) hstep hrec 0x0B21)),
      congrArg _ (past.trans (smbViolation_of_recorder (s := s.send (.smb [0xFF#8])) hstep hrec 0x0B23))⟩

end Sys2Proof.Machine
end
